-- ==== Sys2Proof/Word.lean ====
section
/-! DEFINITION.  The words of the machine and their plainest arithmetic: 32-bit registers (R45), bytes, and
the two readings of a field of w bits, as an unsigned and as a signed number. -/

namespace Sys2Proof

/-- A 32-bit register, a core word, one word of memory. -/
abbrev Word := BitVec 32

/-- One byte of memory. -/
abbrev Byte := BitVec 8

/-- The low `w` bits of an integer, as a natural number. -/
def low (w : Nat) (v : Int) : Nat := (v % (2 ^ w : Int)).toNat

/-- The low `w` bits of a natural number read as a two's-complement number. -/
def sgn (w : Nat) (v : Nat) : Int :=
  if v % 2 ^ w < 2 ^ (w - 1) then (v % 2 ^ w : Nat) else (v % 2 ^ w : Nat) - (2 ^ w : Int)

/-- Bits `lo` to `lo + w - 1` of a natural number. -/
def bits (v lo w : Nat) : Nat := v / 2 ^ lo % 2 ^ w

/-- Bit `k` of a natural number, as a truth value. -/
def bit (v k : Nat) : Bool := v / 2 ^ k % 2 == 1

/-- A truth value as a number. -/
def b2n (b : Bool) : Nat := if b then 1 else 0

/-- `v` held inside the closed range `lo` to `hi`. -/
def clampN (lo hi v : Nat) : Nat := if v < lo then lo else if hi < v then hi else v

/-- `v` held inside the closed range `lo` to `hi`. -/
def clampZ (lo hi v : Int) : Int := if v < lo then lo else if hi < v then hi else v

end Sys2Proof
end

