-- ==== Sys2Proof/Word/Operand.lean ====
section
/-! DEFINITION.  The operands of the commands that are more than a number: who makes a request, what the
environment answers to an access, and the frames, samples and measurements that arrive from outside. -/

namespace Sys2Proof

/-- Who writes a register or rings a doorbell: the fabric requester number of Table 16.2, and whether the
write is made at supervisor privilege (R5). -/
structure Req where
  id : Nat
  sup : Bool
  deriving DecidableEq, Repr

/-- What one access meets: the wait in cycles beyond the minimum (R50), whether it met a bus error or an
uncorrectable ECC error, and whether a single-bit ECC error was corrected on the way (R27, R65). -/
structure Env where
  wait : Nat
  err : Bool
  fixed : Bool
  deriving DecidableEq, Repr

/-- A request message to a service (Table 4.5): the sender, the reply mailbox, the tag and NOREPLY. -/
structure SvcReq where
  src : Nat
  mb : Nat
  tag : Nat
  noreply : Bool
  deriving DecidableEq, Repr

/-- What one AIN channel's input shows at a conversion instant: the code of its range (Table 6.1), and whether
the line is open, shorted or overloaded as Table 6.2 judges it. -/
structure AinIn where
  code : Nat
  isOpen : Bool
  isShort : Bool
  isOver : Bool
  deriving DecidableEq, Repr

/-- The header of a camera's short packet (R128): its virtual channel, and whether its ECC corrected it or could not. -/
structure CamShort where
  vc : Nat
  eccCorr : Bool
  eccBad : Bool
  deriving DecidableEq, Repr

/-- What is measured on a load channel (R207, R211, R212): its current (mA; 0.1 mA for OPEN_ON), its output voltage (10 mV) and the feed of its group (0.1 V). -/
structure LoadMeas where
  curr : Nat
  vout : Nat
  feed : Nat
  deriving DecidableEq, Repr

/-- A load channel and what is measured on it. -/
structure LoadAt where
  n : Fin 48
  m : LoadMeas
  deriving DecidableEq, Repr

/-- The gain of a stream's AGC, and its gain at clear sky (R220). -/
structure AgcGain where
  now : Nat
  clear : Nat
  deriving DecidableEq, Repr

/-- What UPD_BEGIN names (R349): the set, and its size in blocks. -/
structure UpdSize where
  setId : Nat
  blocks : Nat
  deriving DecidableEq, Repr

/-- A long packet of a CSI-2 stream (R128, R132): virtual channel, data type, the pixel codes (or the bytes of
embedded data), a payload CRC error, a corrected header, an uncorrectable header, whether the port's line buffer
or a stalled write overran (R130, R138), and the arrival of the line start packet before it, where there was one (R131). -/
structure CamPacket where
  vc : Nat
  dt : Nat
  codes : List Nat
  crcErr : Bool
  eccCorr : Bool
  eccBad : Bool
  overrun : Bool
  lineStart : Option Nat
  deriving DecidableEq, Repr

/-- One cell of a per-sensor model's output (R149): its column and row in the feature map and its OUT_CH values, the
result of the trained model. -/
structure FeatCell where
  u : Nat
  v : Nat
  out : List Int
  deriving DecidableEq, Repr

/-- One output cell of the grid model (R158), counted row by row in its output of 400 × 200 or 200 × 100 cells (R149), and its
OUT_CH values. -/
structure GridOut where
  cell : Nat
  out : List Int
  deriving DecidableEq, Repr

/-- A solution of the positioning service at a validity instant (Table 12.4), all but SEQ, the MTC and CODE. -/
structure Solution where
  fix : Nat
  hdgSrc : Nat
  nsat : Nat
  corrAge : Nat
  lat : Int
  lon : Int
  height : Int
  hu : Nat
  vu : Nat
  vn : Int
  ve : Int
  heading : Nat
  hdgU : Nat
  fieldX : Int
  fieldY : Int
  deriving DecidableEq, Repr

/-- A position in the machine frame, in mm. -/
structure Xyz where
  x : Int
  y : Int
  z : Int
  deriving DecidableEq, Repr

/-- A CAN frame received without error (R266, R267): identifier, extended, remote, DLC, FD, bit-rate switch, ESI, data
bytes, and the MTC of its start of frame. -/
structure CanFrame where
  id : Nat
  ide : Bool
  rtr : Bool
  dlc : Nat
  fdf : Bool
  brs : Bool
  esi : Bool
  data : List Nat
  start : Nat
  deriving DecidableEq, Repr

/-- The errors of CAN_FLAGS (R274). -/
inductive CanError where
  | stuff | form | ack | bit | crc
  deriving DecidableEq, Repr

/-- A parameter group to send (Table 14.5): number, destination, priority, length, buffer. -/
structure PgnOut where
  pgn : Nat
  dest : Nat
  prio : Nat
  len : Nat
  addr : Nat
  deriving DecidableEq, Repr

/-- The header of a JFX message (Table 15.3) as it arrives: sender, session, SEQ, DEST, ACKREQ, and whether its MAC is
right under the fleet key (R290). -/
structure JfxHead where
  sender : Nat
  session : Nat
  seq : Nat
  dest : Nat
  ackreq : Bool
  macOk : Bool
  deriving DecidableEq, Repr

/-- A fragment of a coverage tile (R296): field, origin, EDGE, tile (i, j), TILE_SEQ, FRAG, NFRAG, and its runs (cells, OWN,
APPLIED). -/
structure TileFrag where
  field : Nat
  lat : Int
  lon : Int
  edge : Nat
  i : Int
  j : Int
  tileSeq : Nat
  frag : Nat
  nfrag : Nat
  runs : List (Nat × Nat × Nat)
  deriving DecidableEq, Repr

/-- The target classes of R70. -/
inductive Class where
  | sram | dram | periph
  deriving DecidableEq, Repr

end Sys2Proof
end

