-- ==== Sys2Proof/Syntax.lean ====
section
/-! DEFINITION.  The commands: one constructor for each row of the command table, in the order of the table.  A command is
a write of a register, a request of a service, an instruction that a function core executes (operand `c` is the core), or an
event: what arrives at a pin, what the environment measures, the end of an operation that takes time. -/

namespace Sys2Proof

inductive Instr where
  /-- LOGIC_FEED_RISE (R33): The logic feed rises above 8.5 V in OFF and the start from OFF begins with every output off. -/
  | logicFeedRise (strap key wake closed low : Bool)
  /-- LOGIC_FEED_LOSS (R28): The logic feed stays below 6.0 V for 1 ms, the module enters OFF and every output goes off. -/
  | logicFeedLoss
  /-- LOGIC_FEED_DIP (R366): The logic feed returns to 6.0 V or above within 1 ms of a dip, and SUP_CNT.HOLDUP counts the dip. -/
  | logicFeedDip
  /-- TCXO_STABLE (R33): The TCXO becomes stable during a start from OFF, and the MTC starts at zero. -/
  | tcxoStable
  /-- PLL_LOCKED (R33): The PLL locks, and the ROM checks boot image A and then boot image B. -/
  | pllLocked (imgA imgB : Bool)
  /-- BOOT_IMAGE_SELECTED (R33): A boot image is selected and DRAM is trained, and the service cores load their firmware. -/
  | bootImageSelected
  /-- SERVICE_FW_RUNNING (R34): The service firmware runs, loads and validates bank A of each core, places the set's parts in DRAM, and releases FC0/FC1. -/
  | serviceFwRunning (selftestFail tagBad sigOk fwOk : Bool)
  /-- SUPERVISOR_FIRST_INSTR (R44): The supervisor program reaches its first instruction, the state becomes RUN and SEAL clears. -/
  | supervisorFirstInstr
  /-- KEY_OFF (R29): KEY drops in RUN, KEY_OFF is queued in MB0 and KEYOFF_LIMIT starts to run. -/
  | keyOff
  /-- KEY_ON (R29): KEY rises again before SHUTDOWN, the module stays in RUN and KEY_ON is queued in MB0. -/
  | keyOn
  /-- KEYOFF_LIMIT_EXPIRY (R29): KEYOFF_LIMIT expires after a key-off and the module enters SHUTDOWN. -/
  | keyoffLimitExpiry
  /-- RST_REQ_WARM (R35): RST_REQ with CMD = WARM and the passcode, written in RUN, begins a warm start whose outputs follow RESET_MODE. -/
  | rstReqWarm (pass : Nat) (rq : Req)
  /-- RST_REQ_WATCH (R29): RST_REQ with CMD = WATCH and the passcode, written in RUN, enters SHUTDOWN. -/
  | rstReqWatch (pass : Nat) (rq : Req)
  /-- SHUTDOWN_FLUSH_COMPLETE (R30): The SHUTDOWN flush of the Cellar Book and Trellis ends, and the module enters WATCH. -/
  | shutdownFlushComplete
  /-- WAKE_KEY (R30): KEY has stood high for 10 ms in WATCH, and a wake start begins with WAKE_SRC = KEY. -/
  | wakeKey
  /-- WAKE_LINE (R32): The WAKE line stands at its WAKE_POL level for 10 ms in WATCH while enabled, and a wake start begins. -/
  | wakeLine
  /-- WAKE_CAN_FRAME (R275): The CAN wake listener receives a frame that passes its CRC in WATCH, and a wake start begins. -/
  | wakeCanFrame (n : Fin 8)
  /-- WAKE_SERVICE_PORT (R32): A far-end host attaches to J5 with VBUS in WATCH while enabled, and a wake start begins. -/
  | wakeServicePort
  /-- WATCH_SNAPSHOT_TIMER (R230): The SNAP_MIN timer expires in WATCH and a GNSS snapshot is taken. -/
  | watchSnapshotTimer
  /-- WATCH_SNAPSHOT_DONE (R230): The watch snapshot is solved, an entry is written to the watch log, and the module stays in WATCH. -/
  | watchSnapshotDone (solved : Bool) (lat lon : Int) (hu time unc : Nat)
  /-- PLL_LOCK_LOSS (R22): The PLL loses lock in RUN and the error controller raises a FATAL error. -/
  | pllLockLoss
  /-- TCXO_STOP (R22): The missing-edge detector of the output supervisor trips within 2 µs of a TCXO stop and turns every output off. -/
  | tcxoStop
  /-- OSV_HOLD_TIME_EXPIRY (R37): OSV_HOLD_TIME passes after the onset, a HOLD_T channel goes off and a hold-end record with cause TIMEOUT is written. -/
  | osvHoldTimeExpiry (load : Bool) (n : Nat)
  /-- OSV_ABORT_TIME_EXPIRY (R37): OSV_ABORT_TIME passes after the onset, a HOLD_UNTIL_WRITE channel goes off and a hold-end record is written. -/
  | osvAbortTimeExpiry (load : Bool) (n : Nat)
  /-- OSV_SEAL_WRITE (R42): A write of 1 to OSV_CTL.SEAL seals RESET_MODE, or is refused with SEAL_REF set when a field holds 0b11. -/
  | osvSealWrite (rq : Req)
  /-- ESTOP_OPEN (R40): The ESTOP loop opens, and every channel with ESTOP_CUT = 1 is off within 200 µs. -/
  | estopOpen
  /-- ESTOP_CLOSE (R40): The ESTOP loop closes again, and no channel is restored. -/
  | estopClose
  /-- ESTOP_TEST_PULSE (R369): Every 100 ms ESTOP_A is switched off for 100 µs. -/
  | estopTestPulse
  /-- ESTOP_TEST_PULSE_END (R369): At the end of a test pulse a loop still fed from elsewhere sets ESTOP_FAULT and is treated as open. -/
  | estopTestPulseEnd (fed : Bool)
  /-- ADD (R50): gA := gB + gC modulo 2^32. -/
  | add (c : Fin 16) (a b d : Fin 32)
  /-- SUB (R50): gA := gB − gC modulo 2^32. -/
  | sub (c : Fin 16) (a b d : Fin 32)
  /-- AND (R50): Bitwise AND of two g registers. -/
  | and (c : Fin 16) (a b d : Fin 32)
  /-- OR (R50): Bitwise OR of two g registers. -/
  | or (c : Fin 16) (a b d : Fin 32)
  /-- XOR (R50): Bitwise XOR of two g registers. -/
  | xor (c : Fin 16) (a b d : Fin 32)
  /-- NOR (R50): Bitwise NOR of two g registers. -/
  | nor (c : Fin 16) (a b d : Fin 32)
  /-- SLT (R50): Sets gA to 1 when gB < gC signed, and to 0 otherwise. -/
  | slt (c : Fin 16) (a b d : Fin 32)
  /-- SLTU (R50): Sets gA to 1 when gB < gC unsigned, and to 0 otherwise. -/
  | sltu (c : Fin 16) (a b d : Fin 32)
  /-- SLL (R50): Logical left shift by gC[4:0]. -/
  | sll (c : Fin 16) (a b d : Fin 32)
  /-- SRL (R50): Logical right shift by gC[4:0]. -/
  | srl (c : Fin 16) (a b d : Fin 32)
  /-- SRA (R50): Arithmetic right shift by gC[4:0]. -/
  | sra (c : Fin 16) (a b d : Fin 32)
  /-- SLLI (R50): Logical left shift by the immediate count in field C. -/
  | slli (c : Fin 16) (a b sh : Fin 32)
  /-- SRLI (R50): Logical right shift by the immediate count in field C. -/
  | srli (c : Fin 16) (a b sh : Fin 32)
  /-- SRAI (R50): Arithmetic right shift by the immediate count in field C. -/
  | srai (c : Fin 16) (a b sh : Fin 32)
  /-- ADDV (R65): Add that sets OVF on signed overflow and traps with OVERFLOW when OTRAP = 1. -/
  | addv (c : Fin 16) (a b d : Fin 32)
  /-- SUBV (R65): Subtract that sets OVF on signed overflow and traps with OVERFLOW when OTRAP = 1. -/
  | subv (c : Fin 16) (a b d : Fin 32)
  /-- ADDS (R57): Saturating 32-bit add that sets SAT when it saturates. -/
  | adds (c : Fin 16) (a b d : Fin 32)
  /-- SUBS (R57): Saturating 32-bit subtract that sets SAT when it saturates. -/
  | subs (c : Fin 16) (a b d : Fin 32)
  /-- MIN (R50): Signed minimum of two g registers. -/
  | min (c : Fin 16) (a b d : Fin 32)
  /-- MAX (R50): Signed maximum of two g registers. -/
  | max (c : Fin 16) (a b d : Fin 32)
  /-- MINU (R50): Unsigned minimum of two g registers. -/
  | minu (c : Fin 16) (a b d : Fin 32)
  /-- MAXU (R50): Unsigned maximum of two g registers. -/
  | maxu (c : Fin 16) (a b d : Fin 32)
  /-- CLZ (R50): Counts the leading zero bits of gB. -/
  | clz (c : Fin 16) (a b : Fin 32)
  /-- SEXTB (R50): Sign-extends byte gB[7:0] into gA. -/
  | sextb (c : Fin 16) (a b : Fin 32)
  /-- SEXTH (R50): Sign-extends halfword gB[15:0] into gA. -/
  | sexth (c : Fin 16) (a b : Fin 32)
  /-- ADDI (R50): Adds the sign-extended immediate to gB. -/
  | addi (c : Fin 16) (a b : Fin 32) (imm : BitVec 16)
  /-- ANDI (R50): ANDs gB with the zero-extended immediate. -/
  | andi (c : Fin 16) (a b : Fin 32) (imm : BitVec 16)
  /-- ORI (R50): ORs gB with the zero-extended immediate. -/
  | ori (c : Fin 16) (a b : Fin 32) (imm : BitVec 16)
  /-- XORI (R50): XORs gB with the zero-extended immediate. -/
  | xori (c : Fin 16) (a b : Fin 32) (imm : BitVec 16)
  /-- SLTI (R50): Signed compare of gB with the sign-extended immediate. -/
  | slti (c : Fin 16) (a b : Fin 32) (imm : BitVec 16)
  /-- SLTIU (R50): Unsigned compare of gB with the sign-extended immediate. -/
  | sltiu (c : Fin 16) (a b : Fin 32) (imm : BitVec 16)
  /-- LUI (R50): gA := IMM << 16. -/
  | lui (c : Fin 16) (a : Fin 32) (imm : BitVec 16)
  /-- MUL (R50): Low 32 bits of the product gB × gC. -/
  | mul (c : Fin 16) (a b d : Fin 32)
  /-- MULH (R50): High 32 bits of the signed 64-bit product. -/
  | mulh (c : Fin 16) (a b d : Fin 32)
  /-- MULHU (R50): High 32 bits of the unsigned 64-bit product. -/
  | mulhu (c : Fin 16) (a b d : Fin 32)
  /-- DIV (R51): Signed quotient rounded toward zero, in 18 cycles, setting OVF for a zero divisor or an overflowing division. -/
  | div (c : Fin 16) (a b d : Fin 32)
  /-- DIVU (R51): Unsigned quotient in 18 cycles, setting OVF for a zero divisor. -/
  | divu (c : Fin 16) (a b d : Fin 32)
  /-- REM (R51): Signed remainder with the sign of gB, in 18 cycles. -/
  | rem (c : Fin 16) (a b d : Fin 32)
  /-- REMU (R51): Unsigned remainder in 18 cycles. -/
  | remu (c : Fin 16) (a b d : Fin 32)
  /-- LW (R53): Loads a word from ea, waiting for the data, or raises ACCESS. -/
  | lw (c : Fin 16) (a b : Fin 32) (imm : BitVec 16) (env : Env)
  /-- LH (R53): Loads a sign-extended halfword from ea. -/
  | lh (c : Fin 16) (a b : Fin 32) (imm : BitVec 16) (env : Env)
  /-- LHU (R53): Loads a zero-extended halfword from ea. -/
  | lhu (c : Fin 16) (a b : Fin 32) (imm : BitVec 16) (env : Env)
  /-- LB (R53): Loads a sign-extended byte from ea. -/
  | lb (c : Fin 16) (a b : Fin 32) (imm : BitVec 16) (env : Env)
  /-- LBU (R53): Loads a zero-extended byte from ea. -/
  | lbu (c : Fin 16) (a b : Fin 32) (imm : BitVec 16) (env : Env)
  /-- SW (R53): Stores a word at ea, posted outside the TCMs. -/
  | sw (c : Fin 16) (a b : Fin 32) (imm : BitVec 16) (wait : Nat)
  /-- SH (R53): Stores a halfword at ea. -/
  | sh (c : Fin 16) (a b : Fin 32) (imm : BitVec 16) (wait : Nat)
  /-- SB (R53): Stores a byte at ea. -/
  | sb (c : Fin 16) (a b : Fin 32) (imm : BitVec 16) (wait : Nat)
  /-- FLW (R53): Loads a word at ea into an f register. -/
  | flw (c : Fin 16) (a b : Fin 32) (imm : BitVec 16) (env : Env)
  /-- FSW (R53): Stores an f register at ea. -/
  | fsw (c : Fin 16) (a b : Fin 32) (imm : BitVec 16) (wait : Nat)
  /-- POSTED_STORE_COMPLETE (R53): The write response of a posted store returns, which frees a slot of the eight outstanding stores. -/
  | postedStoreComplete (c : Fin 16) (cls : Class)
  /-- POSTED_STORE_BUS_ERROR (R65): A posted store's response returns a bus error, and BUS with IMPRECISE = 1 is taken at the next instruction boundary. -/
  | postedStoreBusError (c : Fin 16) (cls : Class)
  /-- BEQ (R55): Branches when gA = gB. -/
  | beq (c : Fin 16) (a b : Fin 32) (imm : BitVec 16)
  /-- BNE (R55): Branches when gA ≠ gB. -/
  | bne (c : Fin 16) (a b : Fin 32) (imm : BitVec 16)
  /-- BLT (R55): Branches when gA < gB signed. -/
  | blt (c : Fin 16) (a b : Fin 32) (imm : BitVec 16)
  /-- BGE (R55): Branches when gA ≥ gB signed. -/
  | bge (c : Fin 16) (a b : Fin 32) (imm : BitVec 16)
  /-- BLTU (R55): Branches when gA < gB unsigned. -/
  | bltu (c : Fin 16) (a b : Fin 32) (imm : BitVec 16)
  /-- BGEU (R55): Branches when gA ≥ gB unsigned. -/
  | bgeu (c : Fin 16) (a b : Fin 32) (imm : BitVec 16)
  /-- J (R55): Jumps PC-relative. -/
  | j (c : Fin 16) (off : BitVec 26)
  /-- JAL (R55): Jumps PC-relative and links into g31. -/
  | jal (c : Fin 16) (off : BitVec 26)
  /-- JALR (R55): Jumps to gB + imm and links into gA, raising FETCH for a bad target. -/
  | jalr (c : Fin 16) (a b : Fin 32) (imm : BitVec 16)
  /-- FADD (R56): Bit-exact float add. -/
  | fadd (c : Fin 16) (a b d : Fin 32)
  /-- FSUB (R56): Bit-exact float subtract. -/
  | fsub (c : Fin 16) (a b d : Fin 32)
  /-- FMUL (R56): Bit-exact float multiply. -/
  | fmul (c : Fin 16) (a b d : Fin 32)
  /-- FDIV (R56): Bit-exact float divide. -/
  | fdiv (c : Fin 16) (a b d : Fin 32)
  /-- FSQRT (R56): Bit-exact float square root. -/
  | fsqrt (c : Fin 16) (a b : Fin 32)
  /-- FMIN (R56): Float minimum, with −0 below +0 and NaN handling. -/
  | fmin (c : Fin 16) (a b d : Fin 32)
  /-- FMAX (R56): Float maximum. -/
  | fmax (c : Fin 16) (a b d : Fin 32)
  /-- FABS (R56): Clears the sign bit. -/
  | fabs (c : Fin 16) (a b : Fin 32)
  /-- FNEG (R56): Inverts the sign bit. -/
  | fneg (c : Fin 16) (a b : Fin 32)
  /-- FMOV (R56): Copies an f register bit for bit. -/
  | fmov (c : Fin 16) (a b : Fin 32)
  /-- FEQ (R56): Float equality compare into gA. -/
  | feq (c : Fin 16) (a b d : Fin 32)
  /-- FLT (R56): Float less-than compare into gA. -/
  | flt (c : Fin 16) (a b d : Fin 32)
  /-- FLE (R56): Float less-or-equal compare into gA. -/
  | fle (c : Fin 16) (a b d : Fin 32)
  /-- FCVT_S_W (R56): Converts a signed integer to float. -/
  | fcvtSW (c : Fin 16) (a b : Fin 32)
  /-- FCVT_W_S (R56): Converts a float to the nearest integer. -/
  | fcvtWS (c : Fin 16) (a b : Fin 32)
  /-- FTRC_W_S (R56): Converts a float to an integer, rounding toward zero. -/
  | ftrcWS (c : Fin 16) (a b : Fin 32)
  /-- FMV_F_G (R56): Moves bits from a g register to an f register. -/
  | fmvFG (c : Fin 16) (a b : Fin 32)
  /-- FMV_G_F (R56): Moves bits from an f register to a g register. -/
  | fmvGF (c : Fin 16) (a b : Fin 32)
  /-- FCVT_S_Q (R56): Converts a Q31 value to float. -/
  | fcvtSQ (c : Fin 16) (a b : Fin 32)
  /-- FCVT_Q_S (R56): Converts a float to saturated Q31. -/
  | fcvtQS (c : Fin 16) (a b : Fin 32)
  /-- FMADD (R56): Fused fB × fC + fD with one rounding. -/
  | fmadd (c : Fin 16) (a b d e : Fin 32)
  /-- FMSUB (R56): Fused fB × fC − fD with one rounding. -/
  | fmsub (c : Fin 16) (a b d e : Fin 32)
  /-- FNMADD (R56): Fused −(fB × fC + fD) with one rounding. -/
  | fnmadd (c : Fin 16) (a b d e : Fin 32)
  /-- QADD15 (R57): Saturating Q15 add. -/
  | qadd15 (c : Fin 16) (a b d : Fin 32)
  /-- QSUB15 (R57): Saturating Q15 subtract. -/
  | qsub15 (c : Fin 16) (a b d : Fin 32)
  /-- QMUL15 (R57): Rounded saturating Q15 multiply. -/
  | qmul15 (c : Fin 16) (a b d : Fin 32)
  /-- QNEG15 (R57): Saturating Q15 negate. -/
  | qneg15 (c : Fin 16) (a b : Fin 32)
  /-- QABS15 (R57): Saturating Q15 absolute value. -/
  | qabs15 (c : Fin 16) (a b : Fin 32)
  /-- QSAT15 (R57): Saturates a 32-bit value to Q15. -/
  | qsat15 (c : Fin 16) (a b : Fin 32)
  /-- QADD31 (R57): Saturating Q31 add. -/
  | qadd31 (c : Fin 16) (a b d : Fin 32)
  /-- QSUB31 (R57): Saturating Q31 subtract. -/
  | qsub31 (c : Fin 16) (a b d : Fin 32)
  /-- QMUL31 (R57): Rounded saturating Q31 multiply. -/
  | qmul31 (c : Fin 16) (a b d : Fin 32)
  /-- QNEG31 (R57): Saturating Q31 negate. -/
  | qneg31 (c : Fin 16) (a b : Fin 32)
  /-- QABS31 (R57): Saturating Q31 absolute value. -/
  | qabs31 (c : Fin 16) (a b : Fin 32)
  /-- QSHL31 (R57): Saturating Q31 left shift. -/
  | qshl31 (c : Fin 16) (a b d : Fin 32)
  /-- MAC15 (R57): Accumulates a Q15 product into aA. -/
  | mac15 (c : Fin 16) (a b d : Fin 32)
  /-- MSU15 (R57): Subtracts a Q15 product from aA. -/
  | msu15 (c : Fin 16) (a b d : Fin 32)
  /-- MULA15 (R57): Loads aA with a Q15 product. -/
  | mula15 (c : Fin 16) (a b d : Fin 32)
  /-- MAC31 (R57): Accumulates a rounded Q31 product into aA. -/
  | mac31 (c : Fin 16) (a b d : Fin 32)
  /-- MSU31 (R57): Subtracts a rounded Q31 product from aA. -/
  | msu31 (c : Fin 16) (a b d : Fin 32)
  /-- MULA31 (R57): Loads aA with a rounded Q31 product. -/
  | mula31 (c : Fin 16) (a b d : Fin 32)
  /-- ACLR (R57): Clears accumulator aA. -/
  | aclr (c : Fin 16) (a : Fin 32)
  /-- ALD (R57): Loads a 40-bit accumulator from gB and gC[7:0]. -/
  | ald (c : Fin 16) (a b d : Fin 32)
  /-- ARDL (R57): Reads the low 32 bits of an accumulator. -/
  | ardl (c : Fin 16) (a b : Fin 32)
  /-- ARDH (R57): Reads the sign-extended high byte of an accumulator. -/
  | ardh (c : Fin 16) (a b : Fin 32)
  /-- AEXT (R57): Extracts a rounded, saturated 32-bit value from an accumulator. -/
  | aext (c : Fin 16) (a b sh : Fin 32)
  /-- AEXT15 (R57): Extracts a rounded, saturated Q15 value from an accumulator. -/
  | aext15 (c : Fin 16) (a b sh : Fin 32)
  /-- YIELD (R58): ORs the sticky flags into FLAG_SUM, releases held locks and ends the activation. -/
  | yield (c : Fin 16)
  /-- WAITSLOT (R59): Suspends the activation until slot gB begins. -/
  | waitslot (c : Fin 16) (a b : Fin 32)
  /-- SWAP (R60): Requests that the inactive bank become active at the next major-frame boundary. -/
  | swap (c : Fin 16) (a : Fin 32)
  /-- ERET (R67): Returns from an exception, restoring STATUS fields from XSTATUS. -/
  | eret (c : Fin 16)
  /-- NOP (R49): Does nothing for one cycle. -/
  | nop (c : Fin 16)
  /-- BAR_IO (R70): Stalls until every earlier peripheral access has completed. -/
  | barIo (c : Fin 16) (wait : Nat)
  /-- BAR_MEM (R70): Stalls until every earlier shared SRAM and DRAM access has completed. -/
  | barMem (c : Fin 16) (wait : Nat)
  /-- BAR_ALL (R70): Acts as both barriers and makes earlier ITCM stores visible to fetches. -/
  | barAll (c : Fin 16) (wait : Nat)
  /-- CRD (R64): Reads a control register, where an MTC_LO or CYC_LO read latches the high word. -/
  | crd (c : Fin 16) (a n : Fin 32)
  /-- CWR (R64): Writes a control register according to its field types and privilege. -/
  | cwr (c : Fin 16) (b n : Fin 32)
  /-- TRAP (R65): Raises the TRAP exception with EVAL = zext(IMM). -/
  | trap (c : Fin 16) (imm : BitVec 16)
  /-- LOCK (R61): Requests lock n and waits for the grant, or returns DEADLOCK, HELD_BY_SELF or BAD_LOCK. -/
  | lock (c : Fin 16) (a b : Fin 32) (imm : BitVec 16)
  /-- TRYLOCK (R61): Takes lock n if it is free, and never waits. -/
  | trylock (c : Fin 16) (a b : Fin 32) (imm : BitVec 16)
  /-- UNLK (R61): Releases lock n, passing it to the next waiter. -/
  | unlk (c : Fin 16) (a b : Fin 32) (imm : BitVec 16)
  /-- LOCK_WAIT_TIMEOUT (R61): The core's LK_LIMIT expires during a LOCK wait, and LOCK returns TIMEOUT. -/
  | lockWaitTimeout (c : Fin 16)
  /-- MSEND (R62): Sends a DTCM message to a mailbox, with checks in the stated order. -/
  | msend (c : Fin 16) (a b d : Fin 32)
  /-- MRECV (R62): Takes the oldest message of a mailbox into DTCM without waiting. -/
  | mrecv (c : Fin 16) (a b d : Fin 32)
  /-- MRECVW (R62): Takes the oldest message of a mailbox, waiting for one until the next major-frame boundary. -/
  | mrecvw (c : Fin 16) (a b d : Fin 32)
  /-- TMARK (R107): Writes a MARK record into the trace ring, optionally asserting the software trigger. -/
  | tmark (c : Fin 16) (b : Fin 32) (imm : BitVec 16)
  /-- RTRD (R63): Reads an entry of a repetitive table copy. -/
  | rtrd (c : Fin 16) (a b d : Fin 32)
  /-- RTWR (R63): Writes an entry of the shadow copy of a repetitive table. -/
  | rtwr (c : Fin 16) (a b d : Fin 32)
  /-- RTTAG (R63): Reads the tag word of a repetitive table copy. -/
  | rttag (c : Fin 16) (a b : Fin 32)
  /-- EVENT_LINE (R69): An enabled event line becomes pending and is taken in exactly one context. -/
  | eventLine (c : Fin 16) (line : Fin 32)
  /-- LOCKSTEP_MISMATCH (R73): The comparator finds a difference between the two cores of a pair, and both cores stop. -/
  | lockstepMismatch (pair : Fin 8)
  /-- MAJOR_FRAME_BOUNDARY (R74): A major frame begins on the slot grid. -/
  | majorFrameBoundary (errs : List Nat)
  /-- SLOT_START (R77): A slot begins and starts or resumes activations of its entry. -/
  | slotStart (n : Fin 100)
  /-- OVERRUN_KILL (R79): OVR_CFG.LIMIT further slots pass, and the schedule ends the overrunning activation. -/
  | overrunKill (c : Fin 16)
  /-- VALIDATE (R76): A write to BANK_CTL.VALIDATE checks the inactive bank against four tests. -/
  | validate (c : Fin 16) (rq : Req)
  /-- BANK_VALIDATION_DONE (R76): The validation result appears in BANK_CTL within 2 µs. -/
  | bankValidationDone (c : Fin 16)
  /-- INVALIDATE (R90): A write to BANK_CTL.INVALIDATE clears the inactive bank's VALID bit. -/
  | invalidate (c : Fin 16) (rq : Req)
  /-- CORE_RUN_WRITE (R90): A write to CORE_CTL.RUN runs or halts the schedule from the next major-frame boundary. -/
  | coreRunWrite (c : Fin 16) (run : Bool) (rq : Req)
  /-- CORE_RESET (R81): A write to CORE_CTL.RST stops the core, ends its activations and resets its control registers. -/
  | coreReset (c : Fin 16) (rq : Req)
  /-- CORE_RESET_DONE (R81): The core reaches HALTED within 1 µs of its reset. -/
  | coreResetDone (c : Fin 16)
  /-- SWAP_SET (R80): A write to SWAP_SET requests swaps for the named cores, all or nothing. -/
  | swapSet (mask : Nat) (rq : Req)
  /-- LSTEP_CFG_WRITE (R72): A write to LSTEP_CFG.PAIR changes the lockstep setting of each qualifying pair. -/
  | lstepCfgWrite (pair : Nat) (rq : Req)
  /-- MIG_GO (R82): A write to MIG_GO starts the migration of a failed core to its spare. -/
  | migGo (core : Fin 16) (go : Bool) (rq : Req)
  /-- MIGRATION_COPY_DONE (R82): The copy of a failed core to its spare completes, or fails with FAIL_ITCM. -/
  | migrationCopyDone (core : Fin 16) (itcmBad : Bool) (dtcmBad : List Nat)
  /-- LK_FREE (R85): A write to LK_FREE releases an orphaned lock to its first waiter. -/
  | lkFree (n : Fin 256) (rq : Req)
  /-- MB_CFG_WRITE (R86): A write to MB_CFG enables, disables or reconfigures a mailbox within the pool. -/
  | mbCfgWrite (m : Fin 64) (w : Nat) (rq : Req)
  /-- SERVICE_REPLY_DROP (R89): After four frames of retries the service drops the reply and writes MB_DROP. -/
  | serviceReplyDrop (index : Nat)
  /-- BANK_LOAD (R89): Platform service BANK_LOAD writes a bank image into a core's inactive half and validates it. -/
  | bankLoad (q : SvcReq) (core addr len : Nat)
  /-- PART_LIST (R347): Platform service PART_LIST lists the MODEL, PIPE_TABLES and TRANSFORM parts that were placed in DRAM. -/
  | partList (q : SvcReq) (addr : Nat)
  /-- LOOP_INPUT_RETURN (R96): The loop's reads return and it computes its control law, learning, flags and trace record. -/
  | loopInputReturn (c : Fin 16) (l : Fin 8) (inErr stErr anErr : Bool)
  /-- LOOP_OUTPUT_ISSUE (R93): At t0 + OUT_DLY, or later, the loop issues its output write. -/
  | loopOutputIssue (c : Fin 16) (l : Fin 8) (err : Bool)
  /-- LOOP_OUTPUT_BUS_ERROR (R99): A loop's output write returns a bus error, and the loop enters FAULT and writes U0 at once. -/
  | loopOutputBusError (c : Fin 16) (l : Fin 8)
  /-- LOOP_ENABLE (R98): LP_CFG.EN is written from 0 to 1 or to 0, starting the loop at its next trigger or ending it. -/
  | loopEnable (c : Fin 16) (l : Fin 8) (en : Bool) (rq : Req)
  /-- COEF_SWAP (R100): LP_CTL.COEF_SWAP requests a bumpless switch of coefficient sets at the next computed sample. -/
  | coefSwap (c : Fin 16) (l : Fin 8) (rq : Req)
  /-- INT_LOAD (R98): LP_CTL.INT_LOAD sets i := U0 × 2^16 at the next sample. -/
  | intLoad (c : Fin 16) (l : Fin 8) (rq : Req)
  /-- RT_SWITCH (R106): RT_CFG.SWITCH requests an exchange of a repetitive table's copies before the next sample that uses it. -/
  | rtSwitch (c : Fin 16) (t : Fin 8) (rq : Req)
  /-- TRACE_ARM (R108): TR_CTL.ARM enters ARMED and clears WRAP. -/
  | traceArm (c : Fin 16) (rq : Req)
  /-- TRACE_SOFT (R108): TR_CTL.SOFT asserts the software trigger. -/
  | traceSoft (c : Fin 16) (rq : Req)
  /-- TRACE_STOP (R108): TR_CTL.STOP enters IDLE after the record in progress. -/
  | traceStop (c : Fin 16) (rq : Req)
  /-- AIN_CONVERSION (R113): All enabled AIN channels convert 2 µs before each slot start, with filter and fault checks. -/
  | ainConversion (inputs : List AinIn)
  /-- AIN_VALUE_WRITE (R113): 1 µs before the slot start, the filtered and scaled value and SEQ update at output instants. -/
  | ainValueWrite (slot : Nat)
  /-- AIN_EDGE (R116): A counted edge in FREQ or QUAD mode is stamped and steps the angle count. -/
  | ainEdge (n : Fin 40) (lineA reverse : Bool)
  /-- AIN_INDEX_EDGE (R116): A rising index edge resets the angle count, sets SYNC and checks SYNC_LOST. -/
  | ainIndexEdge (idx : Fin 40)
  /-- AIN_SHUNT_RECONNECT (R117): 100 ms after an OVERLOAD disconnect, the CURR shunt reconnects. -/
  | ainShuntReconnect (n : Fin 40)
  /-- LS_SAMPLE (R120): A loss-plate sample is taken every 4 µs and runs the impact classifier. -/
  | lsSample (n : Fin 16) (x : Int) (dcOut : Bool)
  /-- LS_BIN_CLOSE (R121): A bin's time ends on the slot grid. -/
  | lsBinClose (n : Fin 16)
  /-- LS_BIN_DELIVER (R121): A bin whose impacts are all classified is delivered to the Racking Line and the FIFO. -/
  | lsBinDeliver (n : Fin 16)
  /-- LS_BIN_READ (R121): A read of LS_BIN removes the oldest FIFO entry and latches its end MTC. -/
  | lsBinRead (n : Fin 16)
  /-- LS_OPEN_TEST (R122): Every 100 ms, with the classifier idle, a 20 µs test pulse checks the plate for OPEN. -/
  | lsOpenTest (n : Fin 16) (resp : Nat)
  /-- LS_SILENT_TIMEOUT (R122): No onset for SILENT_T seconds sets SILENT. -/
  | lsSilentTimeout (n : Fin 16)
  /-- LS_RESTART (R122): LS_CTL.RESTART closes the bin with TRUNC, clears state and restarts BSEQ at the next sample. -/
  | lsRestart (n : Fin 16) (rq : Req)
  /-- IMU_OUTPUT (R123): The IMU delivers rotated machine-frame values at 1 kHz, with axis fault checks. -/
  | imuOutput (raw : List Int) (temp : Int)
  /-- CAM_CFG_WRITE (R129): A write that enables a port or changes its rate is accepted only if the rate limits still hold. -/
  | camCfgWrite (n : Fin 10) (reg : Fin 3) (value : Nat) (rq : Req)
  /-- CAM_FS (R131): A frame start packet arrives, is stamped, selects a slot and opens a frame with period checks. -/
  | camFs (n : Fin 10) (p : CamShort)
  /-- CAM_LINE (R132): A long packet line arrives and is processed by the pipe, or closes the frame when short or overrun. -/
  | camLine (n : Fin 10) (packet : CamPacket)
  /-- CAM_FE (R132): A frame end packet closes the frame and starts a pending setting send. -/
  | camFe (n : Fin 10) (p : CamShort)
  /-- CAM_MISSING_PERIOD (R132): No FS arrives within PERIOD + LATE_TOL, MISSING counts, and after MISS_LIMIT the port enters DROPOUT. -/
  | camMissingPeriod (n : Fin 10)
  /-- CAM_DESCRIPTOR_WRITE (R134): After all write responses of a closed frame return, the descriptor is written with word 0 last. -/
  | camDescriptorWrite (n : Fin 10)
  /-- CAM_STATS_WRITE (R142): After its histogram and zone writes return, a frame's statistics header is written. -/
  | camStatsWrite (n : Fin 10)
  /-- CAM_LINK_UP (R143): The link comes up, the last complete setting is replayed under a new GEN, and the port enters ADMIT. -/
  | camLinkUp (n : Fin 10)
  /-- CAM_LINK_LOSS (R143): The link is lost, any open frame closes and the port enters LINK_WAIT. -/
  | camLinkLoss (n : Fin 10)
  /-- CAM_DISABLE_TIMEOUT (R143): 2 × PERIOD after EN is written to 0, the open frame is closed and the port enters OFF. -/
  | camDisableTimeout (n : Fin 10)
  /-- SET_GO (R140): SET_CTL.GO assigns a new GEN and sends the setting from the next FE, or at once. -/
  | setGo (n : Fin 10) (nw : Nat)
  /-- SET_WRITE_DONE (R140): One I2C write of a setting completes or is not acknowledged. -/
  | setWriteDone (n : Fin 10) (ack : Bool)
  /-- TBL_SWITCH (R139): PIPE_CTL.TBL_SWITCH exchanges a pipe's table sets and increments TBL_GEN. -/
  | tblSwitch (p : Fin 4) (rq : Req)
  /-- CAMERA_OBJECT_ARRIVAL (R148): Cuvee takes a camera frame once its descriptor shows a new FSEQ, and checks completion or lateness. -/
  | cameraObjectArrival (n : Fin 16) (fseq : Nat) (lost : Bool)
  /-- LIDAR_BLOCK_ARRIVAL (R148): Cuvee takes a closed lidar block as its object, and checks completion or lateness. -/
  | lidarBlockArrival (n : Fin 16) (slot : Nat)
  /-- EPOCH_RELEASE_TIMEOUT (R156): The MTC reaches E_(k+1) + WAIT_LIMIT and the epoch is released at the limit. -/
  | epochReleaseTimeout
  /-- FEATURE_EXTRACT_DONE (R158): A per-sensor model finishes on an object. -/
  | featureExtractDone (n : Fin 16) (out : List FeatCell)
  /-- GRID_PUBLISH (R159): Fusion of an epoch completes, the grid is written and published, and event 0x20 is raised. -/
  | gridPublish (gm : List GridOut)
  /-- MODEL_SWAP (R167): MS_CTL.SWAP checks the shadow container and schedules the new model from the next epoch. -/
  | modelSwap (m : Fin 16) (rq : Req)
  /-- MODEL_OLD_RELEASE (R167): The revision horizon of the last epoch under the old model passes, and OLD_BUSY clears. -/
  | modelOldRelease (m : Fin 16)
  /-- TT_COMMIT (R155): TT_CTL.COMMIT assigns a new transform generation from the next epoch, or is ignored. -/
  | ttCommit (n : Fin 16) (rq : Req)
  /-- HG_COMMIT (R155): HG_CTL.COMMIT assigns a new header geometry generation from the next epoch, or is ignored. -/
  | hgCommit (rq : Req)
  /-- CV_ENABLE (R168): CV_CTL.EN written to 1 or to 0 starts fusion at the next epoch or stops it. -/
  | cvEnable (word : Nat) (rq : Req)
  /-- SENS_MASK_WRITE (R163): SENS_CFG.MASK or EN written masks, unmasks, enables or disables a sensor slot. -/
  | sensMaskWrite (n : Fin 16) (word : Nat) (rq : Req)
  /-- MF_OUTPUT_SWITCH (R172): At B + 200 µs all MF_OUT and TAP_OUT words switch together, and completed strip records are written. -/
  | mfOutputSwitch (late : Bool)
  /-- GROUND_PROFILE_COMPLETE (R178): The ground profile built from a published grid completes within 2 ms. -/
  | groundProfileComplete
  /-- MF_SP_WRITE (R175): A write to MF_SP takes effect only from the owner, from the next boundary. -/
  | mfSpWrite (m : Fin 32) (v : Nat) (rq : Req)
  /-- MI_VAL_WRITE (R176): A write to MI_VAL commits a measurement input with its MTC, or discards a future one. -/
  | miValWrite (k : Fin 8) (word : Nat)
  /-- TRIM_CLR (R174): MF_CTL.TRIM_CLR sets the trim to 0 at the next boundary. -/
  | trimClr (m : Fin 32) (rq : Req)
  /-- VD_OFF (R193): VD_CMD OFF begins switch-off in the mode of the phase in progress. -/
  | vdOff (c : Fin 32) (hold : Nat)
  /-- VD_START (R193): VD_CMD START starts a new profile from its first phase, or enters WAIT for the boost. -/
  | vdStart (c : Fin 32) (hold : Nat)
  /-- VD_TRIM (R193): VD_CMD TRIM changes the hold level of a running profile, or acts as START. -/
  | vdTrim (c : Fin 32) (hold : Nat)
  /-- VALVE_BOOST_END (R194): The boost current reaches B_I and the profile enters peak. -/
  | valveBoostEnd (c : Fin 32)
  /-- VALVE_BOOST_TIMEOUT (R194): B_T expires before B_I, setting BOOST_SHORT, or OPEN with switch-off. -/
  | valveBoostTimeout (c : Fin 32) (curr : Nat)
  /-- VALVE_PEAK_END (R194): P_T expires and the profile enters hold. -/
  | valvePeakEnd (c : Fin 32)
  /-- VALVE_HOLD_END (R194): H_T expires and switch-off begins in mode SOFF_H. -/
  | valveHoldEnd (c : Fin 32)
  /-- VALVE_SWITCH_OFF_END (R196): The switch-off current falls below 50 mA and the channel is off. -/
  | valveSwitchOffEnd (c : Fin 32) (energy : Nat)
  /-- BOOST_FREE (R198): The boost becomes free and the next waiting channel boosts. -/
  | boostFree (b : Fin 8) (rail : Nat)
  /-- BOOST_WAIT_EXPIRY (R198): BOOST_WAIT expires for a waiting channel, and OVERLAP_POLICY applies. -/
  | boostWaitExpiry (c : Fin 32)
  /-- RAIL_FAIL (R191): The rail does not become ready within 20 ms of a waiting request, and RAIL_FAIL is set. -/
  | railFail (b : Fin 8) (rail : Nat)
  /-- RAIL_FAIL_CLEAR (R191): The rail has been ready for 20 ms and RAIL_FAIL clears. -/
  | railFailClear (b : Fin 8) (rail : Nat)
  /-- DUTY_UPDATE (R199): Each millisecond the channel updates its mean-square estimate and the duty limit. -/
  | dutyUpdate (c : Fin 32) (meanSq : Nat)
  /-- VALVE_SHORT (R200): The low-side current exceeds 28 A for 1 µs, and the channel goes off and is LOCKED. -/
  | valveShort (c : Fin 32) (curr : Nat)
  /-- VALVE_OPEN_DETECT (R200): Duty at 100 % with current under 25 % of target for 10 ms switches the channel off. -/
  | valveOpenDetect (c : Fin 32) (curr : Nat)
  /-- VALVE_OVERTEMP (R200): The channel switch exceeds 165 °C, and the channel goes off and is LOCKED. -/
  | valveOvertemp (c : Fin 32) (curr : Nat)
  /-- REG_FAIL (R200): The hold current stays outside ±10 % for 20 ms, which is reported only. -/
  | regFail (c : Fin 32)
  /-- LEAK (R200): More than 150 mA flows in an OFF channel for 1 ms, which is reported only. -/
  | leak (c : Fin 32)
  /-- BANK_SHORT (R200): The high-side current exceeds 45 A for 5 µs, and all four channels go off and are LOCKED. -/
  | bankShort (b : Fin 8) (curr : Nat)
  /-- BANK_HOT (R200): The high-side switch exceeds 170 °C, and all four channels go off and are LOCKED. -/
  | bankHot (b : Fin 8) (curr temp : Nat)
  /-- BANK_FEED_LOW (R190): A bank feed below 6.0 V for 10 µs switches all its channels off as FAST. -/
  | bankFeedLow (b : Fin 8) (curr : Nat) (low : Bool)
  /-- PGND_OPEN (R368): PGND above LGND by 1.5 V for 10 µs switches the bank's channels off. -/
  | pgndOpen (b : Fin 8) (curr : Nat)
  /-- VB_CLEAR (R200): VB_CTL.CLEAR re-arms BANK_SHORT, and BANK_HOT below 150 °C. -/
  | vbClear (b : Fin 8) (temp : Int) (rq : Req)
  /-- VB_RST (R201): VB_CTL.RST switches the bank's channels off and restores its registers. -/
  | vbRst (b : Fin 8) (rq : Req)
  /-- VD_FLAGS_REARM (R200): Writing 1 to SHORT or OVERTEMP in VD_FLAGS re-arms a LOCKED channel. -/
  | vdFlagsRearm (c : Fin 32) (word temp : Nat) (rq : Req)
  /-- LC_OFF (R206): LC_CMD OFF opens the switch at once. -/
  | lcOff (n : Fin 48) (energy : Nat)
  /-- LC_ON (R206): LC_CMD ON closes the switch, opening an inrush window from OFF. -/
  | lcOn (n : Fin 48)
  /-- LC_PWM (R206): LC_CMD PWM runs the switch at PWM_F with the commanded duty. -/
  | lcPwm (n : Fin 48) (duty energy : Nat)
  /-- INRUSH_WINDOW_END (R208): INRUSH_T expires and the limit in force returns to ILIM. -/
  | inrushWindowEnd (n : Fin 48)
  /-- LOAD_OVERLOAD (R207): Overload lasts LIM_T, and the channel switches off with OVERLOAD. -/
  | loadOverload (n : Fin 48) (energy : Nat)
  /-- LOAD_SHORT (R209): Short detection switches the channel off and LOCKS it. -/
  | loadShort (n : Fin 48) (hard : Bool) (curr energy : Nat)
  /-- LOAD_THERMAL_UPDATE (R210): Every 100 µs the channel updates its thermal model, tripping at 175 °C or returning below 145 °C. -/
  | loadThermalUpdate (n : Fin 48) (m : LoadMeas) (power : Nat) (die : Int) (energy : Nat)
  /-- OPEN_ON (R211): The current stays below the open-load threshold for 10 ms of on-time. -/
  | openOn (x : LoadAt)
  /-- OPEN_OFF (R211): An off output stays above 60 % of the feed for 10 ms under OFF_DIAG. -/
  | openOff (x : LoadAt)
  /-- LOAD_UV (R212): The group feed stays below UV_OFF for 100 µs, and its on channels enter UV_WAIT. -/
  | loadUv (g : Fin 12) (feed : Nat)
  /-- LOAD_UV_RETURN (R212): After UV_DLY plus k × 2 ms, channel k returns to its last commanded state. -/
  | loadUvReturn (n : Fin 48) (feed : Nat)
  /-- CLAMP_BUDGET_DECAY (R213): Every 10 ms the clamp budget account decays. -/
  | clampBudgetDecay
  /-- GRP_HOT (R214): The group die reads 170 °C or above, and all four channels go off and are LOCKED. -/
  | grpHot (g : Fin 12) (die : Int) (curr : Nat)
  /-- LG_CLEAR (R214): LG_CTL.CLEAR below 150 °C leaves LOCKED after GRP_HOT. -/
  | lgClear (g : Fin 12) (die : Int) (rq : Req)
  /-- LG_RST (R214): LG_CTL.RST switches the group's channels off and restores its registers. -/
  | lgRst (g : Fin 12) (rq : Req)
  /-- LC_FLAGS_REARM (R209): Writing 1 to SHORT, THERMAL or CLAMP_LOCK in LC_FLAGS leaves LOCKED. -/
  | lcFlagsRearm (n : Fin 48) (word : Nat) (rq : Req)
  /-- GNSS_DUMP (R222): At every DUMP_N-th prompt epoch the channel closes its sums and writes a dump record, or drops it. -/
  | gnssDump (n : Fin 96) (sums : List Int)
  /-- GC_CONFIG_WRITE (R223): An owner's write to a GC frequency, tap or config register takes effect at the next prompt epoch. -/
  | gcConfigWrite (n : Fin 96) (reg : Fin 4) (word : Nat) (rq : Req)
  /-- GC_CODE_ADJ (R223): A GC_CODE_ADJ write shifts the code phase once at the next epoch. -/
  | gcCodeAdj (n : Fin 96) (word : Nat) (rq : Req)
  /-- GC_CARR_ADJ (R223): A GC_CARR_ADJ write shifts the carrier phase once at the next epoch. -/
  | gcCarrAdj (n : Fin 96) (word : Nat) (rq : Req)
  /-- CLAIM (R224): The positioning service hands channels to a core owner. -/
  | claim (q : SvcReq) (first count owner : Nat)
  /-- RELEASE (R224): The positioning service takes channels back. -/
  | release (q : SvcReq) (first count : Nat)
  /-- SOL_CFG (R225): Configures the solution rate, the ring and the control point. -/
  | solCfg (q : SvcReq) (rate log2n ring : Nat) (point : Xyz)
  /-- ANT_CFG (R225): Configures the antenna positions and baseline heading. -/
  | antCfg (q : SvcReq) (a b : Xyz) (hdgEn : Bool)
  /-- RTCM_IN (R227): Hands a buffer of RTCM corrections to the positioning service. -/
  | rtcmIn (q : SvcReq) (src addr len : Nat)
  /-- RTK_CFG (R227): Sets the correction source priority and the time limits. -/
  | rtkCfg (q : SvcReq) (prio srcTmo corrMax drMax : Nat)
  /-- SNAP (R229): Captures all four GNSS streams for LEN ms, to memory or to JFX. -/
  | snap (q : SvcReq) (len dest addr : Nat)
  /-- WATCH_LOG (R230): Copies the watch log out to a buffer. -/
  | watchLog (q : SvcReq) (addr : Nat)
  /-- SOLUTION_RECORD (R226): The service writes a solution record for a validity instant, or drops it when the ring is full. -/
  | solutionRecord (mtc : Nat) (v : Solution)
  /-- DR_MAX_EXPIRY (R228): DR_MAX seconds of dead reckoning pass and FIX becomes NONE. -/
  | drMaxExpiry
  /-- RTK_SOURCE_TIMEOUT (R227): The correction source in use ages past SRC_TMO and the service changes source. -/
  | rtkSourceTimeout
  /-- ANT_OPEN (R220): The antenna bias current stays below 3 mA for 100 ms. -/
  | antOpen (a : Fin 2)
  /-- ANT_SHORT (R220): The antenna bias exceeds 100 mA and is cut within 10 µs. -/
  | antShort (a : Fin 2)
  /-- JAM (R220): A stream's AGC gain falls more than JAM_THR below clear sky. -/
  | jam (stream : Fin 4) (gain : AgcGain)
  /-- QUALIFYING_TIME_SOLUTION (R231): A one-per-second time solution within LOCK_THR arrives and advances LOCK_RUN toward LOCKED or a return. -/
  | qualifyingTimeSolution (time : Int) (u0 : Nat) (y : Int) (leap : Option Nat)
  /-- LOSS_T_EXPIRY (R231): LOSS_T passes without a qualifying solution, and LOCKED becomes HOLDOVER or FREE. -/
  | lossTExpiry
  /-- HOLDOVER_LIMIT_EXPIRY (R231): The time since the last qualifying solution reaches HOLDOVER_LIMIT and the state becomes FREE. -/
  | holdoverLimitExpiry
  /-- TIME_STEP (R235): At the next GNSS second the conversion jumps by φ and the state becomes LOCKED. -/
  | timeStep
  /-- SLEW_END (R235): CONV_SLEW reaches 0 and the code changes from RETURN to LOCKED. -/
  | slewEnd
  /-- TU_NOW_LATCH (R232): A read of TU_NOW_MTC_LO latches the MTC, T, code and U from one conversion set. -/
  | tuNowLatch
  /-- CONV_LATCH (R232): A read of CONV_MTC_LO latches the conversion set. -/
  | convLatch
  /-- TIME_PULSE_EDGE (R237): A time pulse emits its leading edge at a GNSS period multiple minus CABLE_DLY. -/
  | timePulseEdge (p : Fin 2) (frac : Fin 50)
  /-- TP_CONFIG_WRITE (R237): A change to CABLE_DLY, PER or WIDTH applies from the next edge at least 1 µs later, or skips an edge. -/
  | tpConfigWrite (p : Fin 2) (dly : Bool) (word id : Nat) (sup : Bool)
  /-- STRIP_PLACE (R247): The Trellis service places strip j once strip j + 8 is written, and writes its cells. -/
  | stripPlace
  /-- STRIP_PLACE_TIMEOUT (R247): 1 s passes after the last strip record and the remaining strips are placed as the end of a run. -/
  | stripPlaceTimeout
  /-- GRID_PLACE (R251): At each grid publication the service places the grid rows into CROPF and CANOPY. -/
  | gridPlace
  /-- REVISION_APPLY (R252): A revision from Cuvee is blended into written CROPF and CANOPY cells. -/
  | revisionApply
  /-- SECTION_COMMAND_WRITE (R254): At B + 300 µs a changed section writes its command word to SC_ADDR. -/
  | sectionCommandWrite (k : Fin 64)
  /-- TILE_FLUSH_TIMER (R244): FLUSH_S passes and changed tiles are written to the backing. -/
  | tileFlushTimer
  /-- TILE_FLUSH_COMPLETE (R244): A flush completes and TL_FLUSH_MTC updates. -/
  | tileFlushComplete
  /-- FIELD_DRAIN_TIMEOUT (R243): 15 s after the close, a DRAIN field returns to NONE. -/
  | fieldDrainTimeout
  /-- FLEET_TILE_MERGE (R256): A complete peer COVER tile is merged per cell, or rejected. -/
  | fleetTileMerge
  /-- COVER_TILE_OFFER (R256): Changed own COVER tiles are offered to JFX at most once per 10 s. -/
  | coverTileOffer
  /-- OPEN_FIELD (R257): Opens or creates a field and starts a session. -/
  | openField (q : SvcReq) (id : Nat) (create : Bool) (edge layers : Nat) (lat lon height : Int)
  /-- CLOSE_FIELD (R243): Closes the field into DRAIN and replies once DRAIN and the flush end. -/
  | closeField (q : SvcReq)
  /-- LIST_FIELDS (R257): Lists the fields in the index. -/
  | listFields (q : SvcReq) (addr : Nat)
  /-- DELETE_FIELD (R257): Deletes a field that is not open. -/
  | deleteField (q : SvcReq) (id : Nat)
  /-- READ_CELLS (R257): Copies a rectangle of a layer's cells to a buffer. -/
  | readCells (q : SvcReq) (layer : Nat) (i0 j0 i1 j1 : Int) (addr : Nat)
  /-- WRITE_CELLS (R257): Writes a rectangle of a user or zone layer. -/
  | writeCells (q : SvcReq) (layer : Nat) (i0 j0 i1 j1 : Int) (addr : Nat)
  /-- EXPORT (R258): Exports a field as ISO 11783-10 task data from a snapshot. -/
  | exportField (q : SvcReq) (id dry addr limit : Nat)
  /-- FLUSH (R257): Flushes the field's tiles and replies when complete. -/
  | flush (q : SvcReq)
  /-- CAN_FRAME_RECEIVED (R266): A valid frame is matched against the filters and stored, rejected or lost. -/
  | canFrameReceived (n : Fin 8) (f : CanFrame)
  /-- RXW_WORD0_READ (R268): A read of window word 0 locks the shown buffer, or reads EMPTY. -/
  | rxwWord0Read (n : Fin 8) (w : Fin 2)
  /-- RXW_LASTW_READ (R268): A read of word LASTW releases and consumes the locked buffer. -/
  | rxwLastwRead (n : Fin 8) (w : Fin 2)
  /-- RXW_SEL_WRITE (R268): A write to RXWw_SEL selects a buffer and releases any lock without consuming. -/
  | rxwSelWrite (n : Fin 8) (w : Fin 2) (v : Nat) (rq : Req)
  /-- RXW_REL (R268): RXWw_REL.REL releases the lock without consuming. -/
  | rxwRel (n : Fin 8) (w : Fin 2) (rq : Req)
  /-- RXW_CONSUME (R268): RXWw_REL.CONSUME releases and consumes the locked buffer. -/
  | rxwConsume (n : Fin 8) (w : Fin 2) (rq : Req)
  /-- TXW_WRITE (R271): An owner's write to a transmit buffer word, ignored while that buffer is pending. -/
  | txwWrite (n : Fin 8) (word : Fin 20) (v : Nat) (rq : Req)
  /-- CAN_TX_REQ (R271): A write to CAN_TX_REQ makes transmit buffers pending. -/
  | canTxReq (n : Fin 8) (mask : Nat) (rq : Req)
  /-- CAN_TX_CANCEL (R272): A write to CAN_TX_CANCEL cancels a pending buffer, as Table 14.3 states. -/
  | canTxCancel (n : Fin 8) (mask : Nat) (rq : Req)
  /-- CAN_TX_START_OF_FRAME (R271): At a start of frame the controller chooses a pending buffer and attempts it. -/
  | canTxStartOfFrame (n : Fin 8) (won : Option Nat) (tdcv : Nat)
  /-- CAN_TX_COMPLETE (R273): A buffer completes, setting TX_DONE and writing a transmit event entry. -/
  | canTxComplete (n : Fin 8) (ok : Bool)
  /-- CAN_TXEV_POP (R273): A read of CAN_TXEV_C removes the oldest transmit event entry. -/
  | canTxevPop (n : Fin 8)
  /-- CAN_BUS_ERROR (R274): A bus error is detected, the error counters move and the state may change to BUS_OFF. -/
  | canBusError (n : Fin 8) (kind : CanError) (tx : Bool) (inc : Nat)
  /-- CAN_BUS_OFF_RECOVERED (R274): After 128 occurrences of 11 recessive bits the controller leaves BUS_OFF with cleared counters. -/
  | canBusOffRecovered (n : Fin 8)
  /-- RECOVER (R274): CAN_CTL.RECOVER starts bus-off recovery when BO_AUTO = 0. -/
  | recover (n : Fin 8) (rq : Req)
  /-- CAN_INIT_WRITE (R264): Writing INIT to 1 leaves the bus at frame end, and writing it to 0 checks timing and starts integration. -/
  | canInitWrite (n : Fin 8) (init : Bool) (rq : Req)
  /-- CAN_INTEGRATION_DONE (R264): After 11 recessive bits the controller joins the bus. -/
  | canIntegrationDone (n : Fin 8)
  /-- CAN_RST (R275): CAN_CTL.RST at frame end completes pending buffers as DISABLED and restores the controller. -/
  | canRst (n : Fin 8) (rq : Req)
  /-- NET_OPEN (R276): Opens an ISOBUS or J1939 network on a controller. -/
  | netOpen (q : SvcReq) (can kind rate notify leave : Nat)
  /-- NET_CLOSE (R276): Closes a network and returns its controller to INIT. -/
  | netClose (q : SvcReq) (net : Nat)
  /-- CF_ADD (R278): Adds an internal control function that claims an address. -/
  | cfAdd (q : SvcReq) (net record addr : Nat)
  /-- ADDRESS_CLAIM_DONE (R278): 250 ms after its claim, an internal CF holds its address and CF_ADD replies. -/
  | addressClaimDone (k : Fin 4) (cf : Fin 4)
  /-- PGN_SUB (R278): Subscribes to a PGN. -/
  | pgnSub (q : SvcReq) (net pgn source addr size : Nat)
  /-- PGN_SEND (R278): Sends a PGN, with transport as needed. -/
  | pgnSend (q : SvcReq) (net cf : Nat) (out : PgnOut)
  /-- VT_POOL (R278): Uploads an object pool to the VT. -/
  | vtPool (q : SvcReq) (net cf addr len : Nat) (label : List Nat)
  /-- TC_MAP (R277): Maps implement sections to section-engine sections. -/
  | tcMap (q : SvcReq) (net name : Nat) (pairs : List (Nat × Nat))
  /-- NET_LIST (R278): Lists the control functions of a network. -/
  | netList (q : SvcReq) (net addr : Nat)
  /-- CF_LEAVE_TIMEOUT (R279): No frame arrives from an external CF for LEAVE_T, so it becomes ABSENT and CF_LEAVE is sent. -/
  | cfLeaveTimeout (k : Fin 4) (name : Nat)
  /-- TC_SETPOINT_REFRESH (R277): Under TC-SC the server sends each mapped section's state at least once per second. -/
  | tcSetpointRefresh (k : Fin 4)
  /-- ETH_FRAME_RECEIVED (R284): A received frame is filtered, sent to the stream engine, JFX, the service port or a host queue, or forwarded. -/
  | ethFrameReceived (p : Fin 10) (d : List Nat) (fcsBad : Bool) (stamp : Nat)
  /-- ETH_LINK_LOSS (R285): A link drops, setting LINK_LOSS and writing ETH_LINK. -/
  | ethLinkLoss (p : Fin 10)
  /-- PTP_SYNC_TIMER (R286): Every 125 ms the module sends Sync in both 802.1AS domains. -/
  | ptpSyncTimer
  /-- PTP_PDELAY_TIMER (R286): Every 1 s the module measures the peer delay. -/
  | ptpPdelayTimer (p : Fin 10) (ns : Nat)
  /-- BLK_TMO_EXPIRY (R288): BLK_TMO after its latest packet, the open block closes. -/
  | blkTmoExpiry (k : Fin 16)
  /-- LIDAR_BLOCK_WRITE (R288): A closed block is written to its slot, with header word 0 last. -/
  | lidarBlockWrite (k : Fin 16)
  /-- HQ_TX_WR (R289): Advancing HQ_TX_WR queues transmit entries to be sent. -/
  | hqTxWr (q : Fin 2) (v : Nat) (rq : Req)
  /-- HQ_TX_SENT (R289): A transmit entry is sent or skipped, stamped, cleared, and HQ_TX_RD advances. -/
  | hqTxSent (q : Fin 2)
  /-- JFX_HELLO (R292): A received HELLO from an unadmitted sender triggers a CHALLENGE. -/
  | jfxHello (h : JfxHead) (fleet cls field : Nat)
  /-- JFX_CHALLENGE (R292): A received CHALLENGE is answered with a RESPONSE. -/
  | jfxChallenge (h : JfxHead) (na : Nat)
  /-- JFX_RESPONSE (R292): A valid RESPONSE admits the peer as ACTIVE. -/
  | jfxResponse (h : JfxHead) (na : Nat)
  /-- JFX_BYE (R293): A BYE makes the peer KNOWN and sends PEER_LEAVE. -/
  | jfxBye (h : JfxHead)
  /-- JFX_STATE (R294): A STATE message is delivered with its arrival MTC. -/
  | jfxState (h : JfxHead) (fields : List Nat)
  /-- JFX_TILE (R296): A TILE fragment is reassembled toward a complete tile. -/
  | jfxTile (h : JfxHead) (f : TileFrag)
  /-- JFX_UNLOAD_REQ (R297): An unload request is delivered as UNLOAD_EVT. -/
  | jfxUnloadReq (h : JfxHead) (no : Nat) (fields : List Nat)
  /-- JFX_UNLOAD_OFFER (R297): An unload offer is delivered. -/
  | jfxUnloadOffer (h : JfxHead) (no : Nat) (fields : List Nat)
  /-- JFX_UNLOAD_ACCEPT (R297): An unload accept is delivered. -/
  | jfxUnloadAccept (h : JfxHead) (no : Nat) (fields : List Nat)
  /-- JFX_UNLOAD_STATE (R297): An unload state message is delivered. -/
  | jfxUnloadState (h : JfxHead) (no : Nat) (fields : List Nat)
  /-- JFX_UNLOAD_END (R297): An unload end closes the dialog. -/
  | jfxUnloadEnd (h : JfxHead) (no : Nat)
  /-- JFX_RTCM (R298): An RTCM message goes to the positioning service and may be relayed. -/
  | jfxRtcm (h : JfxHead) (src hop : Nat) (bytes : List Nat)
  /-- JFX_SNAP (R298): A SNAP fragment message is received. -/
  | jfxSnap (h : JfxHead)
  /-- JFX_WATCH_POS (R298): A WATCH_POS message is received. -/
  | jfxWatchPos (h : JfxHead)
  /-- JFX_USER (R294): A USER message is delivered as RX_USER. -/
  | jfxUser (h : JfxHead) (bytes : List Nat)
  /-- JFX_ACK (R298): An ACK acknowledges a sent message or a snapshot window. -/
  | jfxAck (h : JfxHead) (seq : Nat)
  /-- JFX_HELLO_TIMER (R291): Every HELLO_T the service multicasts HELLO. -/
  | jfxHelloTimer
  /-- JFX_STATE_TIMER (R291): Every 1 s the service multicasts STATE. -/
  | jfxStateTimer
  /-- JFX_ADMISSION_TIMEOUT (R292): No valid RESPONSE arrives within 2 s and the admission fails. -/
  | jfxAdmissionTimeout (id : Nat)
  /-- JFX_BLOCK_EXPIRY (R292): A 60 s block of a member ID after three failed admissions ends. -/
  | jfxBlockExpiry (id : Nat)
  /-- JFX_PEER_AGE_OUT (R293): An ACTIVE peer without a valid message for AGE_T becomes KNOWN. -/
  | jfxPeerAgeOut (id : Nat)
  /-- JFX_UNLOAD_LOST (R297): A dialog without STATE from the other side for 3 s ends as LOST. -/
  | jfxUnloadLost (no : Nat)
  /-- JFX_TILE_REASSEMBLY_TIMEOUT (R296): An incomplete tile past 5 s is discarded and TILE_DROP counts it. -/
  | jfxTileReassemblyTimeout (sender tileSeq : Nat)
  /-- JFX_SNAP_WINDOW_TIMEOUT (R298): An unacknowledged snapshot window is resent, and after 3 retries SNAP_FAIL is notified. -/
  | jfxSnapWindowTimeout
  /-- JFX_START (R299): Starts the fleet service. -/
  | jfxStart (q : SvcReq) (cls notify helloT ageT : Nat)
  /-- JFX_STOP (R299): Stops the fleet service after sending BYE. -/
  | jfxStop (q : SvcReq)
  /-- PEER_LIST (R299): Lists the known peers. -/
  | peerList (q : SvcReq) (addr : Nat)
  /-- PEER_BLOCK (R299): Blocks or unblocks a member ID. -/
  | peerBlock (q : SvcReq) (id : Nat) (block : Bool)
  /-- SEND_USER (R299): Sends a USER message. -/
  | sendUser (q : SvcReq) (dest len addr : Nat) (ackreq : Bool)
  /-- UNLOAD_REQ (R297): Sends an unload request to the carts. -/
  | unloadReq (q : SvcReq) (no : Nat) (fields : List Nat)
  /-- UNLOAD_OFFER (R297): Sends an unload offer. -/
  | unloadOffer (q : SvcReq) (no : Nat) (fields : List Nat)
  /-- UNLOAD_ACCEPT (R297): Accepts one cart's offer. -/
  | unloadAccept (q : SvcReq) (no member : Nat) (fields : List Nat)
  /-- UNLOAD_STATE (R297): Sends unload state. -/
  | unloadState (q : SvcReq) (no : Nat) (fields : List Nat)
  /-- UNLOAD_END (R297): Ends an unload dialog. -/
  | unloadEnd (q : SvcReq) (no : Nat)
  /-- RTCM_RELAY (R298): Enables correction relaying with HOP_MAX. -/
  | rtcmRelay (q : SvcReq) (en : Bool) (hopMax : Nat)
  /-- SERVER_SET (R298): Sets the server member for snapshots. -/
  | serverSet (q : SvcReq) (id : Nat)
  /-- CREDIT_WINDOW (R309): At the start of each CREDIT_WIN window every data requester's credit is refilled. -/
  | creditWindow
  /-- REQ_PRIO_WRITE (R312): A write to REQ_CFG.PRIO applies from the next cycle and may revoke a holder. -/
  | reqPrioWrite (r : Fin 88) (prio : Nat) (rq : Req)
  /-- FABRIC_REVOKE (R311): An outranking control requester revokes the owner's transfer, which restarts later from its first beat. -/
  | fabricRevoke (p : Fin 5) (owner : Fin 88) (waiting : List (Fin 88)) (beats : Nat)
  /-- DC_START (R322): DC_CTL.START begins the chain at HEAD from IDLE. -/
  | dcStart (n : Fin 32) (rq : Req)
  /-- DC_STOP (R322): DC_CTL.STOP halts the channel with STOPPED at the next beat boundary. -/
  | dcStop (n : Fin 32) (rq : Req)
  /-- DC_CLEAR (R322): DC_CTL.CLEAR moves a HALTED channel to IDLE. -/
  | dcClear (n : Fin 32) (rq : Req)
  /-- DC_DOORBELL (R321): An owner's doorbell write increments DBCNT, resets HOPS and re-reads CUR when IDLE. -/
  | dcDoorbell (n : Fin 32) (rq : Req)
  /-- DC_DESCRIPTOR_FETCHED (R317): A descriptor fetch returns, and the channel checks for a self-link and starts its operation. -/
  | dcDescriptorFetched (n : Fin 32) (ok : Bool)
  /-- DC_DATA_COMPLETE (R317): Every data beat's write response returns and word 7 is written back. -/
  | dcDataComplete (n : Fin 32)
  /-- DC_WRITEBACK_DONE (R317): The word 7 response returns and the channel follows NEXT, checks DBCNT or idles. -/
  | dcWritebackDone (n : Fin 32) (ok : Bool)
  /-- DC_BEAT_FAIL (R318): A data beat returns a bus error and its descriptor ends BAD_BUS. -/
  | dcBeatFail (n : Fin 32) (ofs : Nat) (wr : Bool)
  /-- DC_BEAT_TIMEOUT (R318): A data beat has no response after 4 µs and its descriptor ends BAD_TIMEOUT. -/
  | dcBeatTimeout (n : Fin 32) (ofs : Nat) (wr : Bool)
  /-- DC_RATE_PAUSE_END (R320): The rate pause after a burst ends and the channel may take a mover again. -/
  | dcRatePauseEnd (n : Fin 32)
  /-- DC_HI_PREEMPT (R314): A HI channel becomes ready and takes a mover from a normal channel. -/
  | dcHiPreempt (n : Fin 32)
  /-- DC_ENABLE_WRITE (R322): Writing DC_CFG.EN from 1 to 0 halts the channel with STOPPED. -/
  | dcEnableWrite (n : Fin 32) (w : Nat) (rq : Req)
  /-- ERROR_REPORT (R329): A unit reports an error, which is graded, recorded, and stacked, queued, delivered or escalated. -/
  | errorReport (src detail nd : Nat) (items : List Nat)
  /-- ERR_DONE (R330): A write to ERR_DONE with the top SEQ pops the level and delivers the next. -/
  | errDone (seq : Nat) (rq : Req)
  /-- ERR_RAISE (R328): A write to ERR_RAISE raises source SW at the given severity. -/
  | errRaise (sev detail : Nat) (rq : Req)
  /-- ERR_ARM_WRITE (R332): Writing ERR_CFG.ARM resumes or pauses delivery and deadlines. -/
  | errArmWrite (word : Nat) (rq : Req)
  /-- HANDLE_TMO (R331): A level's deadline expires, raising FATAL with cause HANDLE_TMO. -/
  | handleTmo (level : Fin 4)
  /-- DUMP_COMPLETE (R333): The dump completes with its header last, and the warm start begins. -/
  | dumpComplete
  /-- DUMP_TIMEOUT (R333): At 250 ms the dump is ended with COMPLETE = 0 and the warm start begins. -/
  | dumpTimeout (sections : Nat)
  /-- CB_FLUSH_TICK (R338): Records are copied to the backing in SEQ order within 1 s, counting losses. -/
  | cbFlushTick
  /-- DUMP_LIST (R334): Lists the four dump slots. -/
  | dumpList (q : SvcReq) (addr : Nat)
  /-- DUMP_READ (R334): Copies bytes of a dump slot. -/
  | dumpRead (q : SvcReq) (slot ofs len addr : Nat)
  /-- DUMP_ERASE (R334): Erases a dump slot. -/
  | dumpErase (q : SvcReq) (slot : Nat)
  /-- CB_FETCH (R338): Copies records from the backing by SEQ. -/
  | cbFetch (q : SvcReq) (first count addr limit : Nat)
  /-- TAG_WRITE (R341): Builds a new tag area image with a record written. -/
  | tagWrite (q : SvcReq) (type len addr : Nat) (data : List Nat)
  /-- TAG_DELETE (R341): Builds a new tag area image with a record removed. -/
  | tagDelete (q : SvcReq) (type index : Nat)
  /-- TAG_COMMIT (R341): The new tag image is committed within 50 ms and a TAG_WRITE record is written. -/
  | tagCommit
  /-- UPD_BEGIN (R349): Erases staging and enters RECEIVING. -/
  | updBegin (q : SvcReq) (size : UpdSize)
  /-- UPD_BLOCK (R349): Stores one 64 KiB block after its CRC check. -/
  | updBlock (q : SvcReq) (index addr len crc : Nat) (data : List Nat)
  /-- UPD_END (R350): Starts verification of the staged set. -/
  | updEnd (q : SvcReq)
  /-- UPD_VERIFY_DONE (R350): Verification ends VERIFIED with a class, or returns to RECEIVING with ERR. -/
  | updVerifyDone (sigOk fwOk : Bool)
  /-- ACTIVATE (R351): Activates a verified set, in place at S or as a FULL warm start. -/
  | activate (q : SvcReq) (force : Bool)
  /-- IN_PLACE_SWITCH (R351): In the frame before S the manager writes all swaps, commits and table switches. -/
  | inPlaceSwitch
  /-- BOOT_COPY_DONE (R351): The composed set reaches the inactive boot slot and the boot record moves with TRIAL = 1. -/
  | bootCopyDone
  /-- CONFIRM (R354): Confirms the trial set and clears TRIAL. -/
  | confirm (q : SvcReq)
  /-- ROLLBACK (R354): Starts the previous set at once from TRIAL. -/
  | rollback (q : SvcReq)
  /-- ABORT (R344): Abandons the update outside ACTIVATING and TRIAL. -/
  | abort (q : SvcReq)
  /-- KEY_SET (R348): Replaces the signature key unless it is locked. -/
  | keySet (q : SvcReq) (addr : Nat) (data : List Nat)
  /-- KEY_LOCK (R348): Makes the key slot permanent. -/
  | keyLock (q : SvcReq)
  /-- OPEN (R358): Service protocol request that opens a session at READ. -/
  | svcOpen (q : SvcReq) (eth : Bool)
  /-- AUTH (R359): Returns a nonce and raises the session to WRITE on a valid signature. -/
  | auth (q : SvcReq) (sig : Option Bool)
  /-- STATUS (R358): Returns the update and power status. -/
  | status (q : SvcReq)
  /-- FACTORY_READ (R342): Returns the factory record. -/
  | factoryRead (q : SvcReq)
  /-- REG_READ (R359): Reads registers as requester 87. -/
  | regRead (q : SvcReq) (addr count : Nat)
  /-- REG_WRITE (R359): Writes registers at supervisor privilege as requester 87. -/
  | regWrite (q : SvcReq) (addr : Nat) (words : List Nat)
  /-- CB_READ (R358): Returns Cellar Book records as CB_FETCH does. -/
  | cbRead (q : SvcReq) (first count : Nat)
  /-- SERVICE_SESSION_TIMEOUT (R358): A session ends after 60 s without a frame. -/
  | serviceSessionTimeout
  /-- WRITE_EN_WRITE (R359): Clearing SVC_CTL.WRITE_EN drops a WRITE session to READ. -/
  | writeEnWrite (en : Bool) (rq : Req)
  /-- SERVICE_PORT_ATTACH (R366): A far end attaches to J5 and the module takes the device or host role. -/
  | servicePortAttach (device : Bool)
  /-- STUD_REVERSE (R366): A reversed stud is blocked and sets STUD_REV. -/
  | studReverse (k : Fin 4) (rev : Bool)
  /-- STUD_LOW (R366): A stud below 6.0 V for 10 µs sets STUD_LOW. -/
  | studLow (k : Fin 4) (v : Nat)
  /-- STUD_OVER (R366): Stud current above STUD_LIM for 1 s sets STUD_OVER. -/
  | studOver (k : Fin 4) (curr : Nat)
  /-- SENSOR_SUPPLY_FOLDBACK (R368): A sensor supply above 250 mA folds back to 50 mA and sets SS_FAULT. -/
  | sensorSupplyFoldback (k : Fin 4)
  /-- SENSOR_SUPPLY_RETRY (R368): Every 100 ms a folded-back supply tries again. -/
  | sensorSupplyRetry (k : Fin 4) (ok : Bool)
  /-- THERMAL_MEASUREMENT (R370): Every 100 ms plate and die temperatures update and PLATE_WARN or PLATE_HOT may set. -/
  | thermalMeasurement (plate die : Nat)
  /-- REGISTER_WRITE (R2): A write to a register without a row of its own acts by its field types, privilege and reserved bits. -/
  | registerWrite (addr value : Nat) (rq : Req)
  /-- LOGIC_FEED_LOW (R366): The logic feed falls below 9 V but stays at or above 6.0 V, PWR_STATE.FEED_LOW reads 1, and an ERROR with source FEED_LOW is recorded. -/
  | logicFeedLow (v : Nat)
  /-- SNAP_CAPTURE_DONE (R229): A snapshot capture of LEN ms ends, its header and samples are complete, the SNAP request gets its final reply, and a JFX capture is handed to the fleet service. -/
  | snapCaptureDone (samples : List Nat)
  /-- VALVE_CHOP_PERIOD (R194): A chop period of a valve channel begins on its free-running grid, the regulator takes a pending TRIM level, and VD_I reports the mean of the period that ended. -/
  | valveChopPeriod (c : Fin 32) (mean : Nat) (res : Option Nat)
  /-- LOAD_PWM_PERIOD (R206): A PWM period of a load channel begins, a changed DUTY takes effect, and the switch turns on for the on-time. -/
  | loadPwmPeriod (n : Fin 48)
  /-- GNSS_PROMPT_EPOCH (R223): A prompt code epoch of a tracking channel passes, and pending frequency, tap, configuration and ADJ writes take effect. -/
  | gnssPromptEpoch (n : Fin 96) (samples : Nat)
  /-- ETH_LINK_UP (R285): An Ethernet port's link comes up after training or retraining, and ETH_STAT.LINK reads 1. -/
  | ethLinkUp (p : Fin 10) (sqi : Fin 8)
  /-- MAC_ENTRY_AGE_OUT (R284): A learned MAC table entry unseen for MAC_AGE seconds is removed, so later frames to it are flooded. -/
  | macEntryAgeOut (vid mac : Nat)
  /-- SERVICE_PORT_DETACH (R32): The far end is removed from J5, VBUS sourcing ends in the host role, and an attachment that stood at WATCH entry becomes able to wake the module when it is made again. -/
  | servicePortDetach
  /-- TIME_PULSE_TRAILING_EDGE (R237): WIDTH µs after its leading edge, a time pulse output returns to its inactive level. -/
  | timePulseTrailingEdge (p : Fin 2)
  deriving DecidableEq, Repr

end Sys2Proof
end

