-- ==== Sys2Proof/Decode.lean ====
section
/-! DEFINITION.  The command table gives its rows no bits, so no word of the table spells a command.  The chapter on Mavalor gives
the instructions that the function cores execute their words (R48, R49, Tables 3.2 to 3.17): below, the words of the
instruction commands and the commands of the words. -/

namespace Sys2Proof

/-- No row of the command table has bits. -/
def decodeTableWord (_nbits _w : Nat) : Option Instr := none

namespace Machine

/-! ### Instruction words (Table 3.2) -/

def wordReg (op : Nat) (a b c : Fin 32) (fn : Nat) : Word :=
  BitVec.ofNat 32 (op * 2 ^ 26 + a.val * 2 ^ 21 + b.val * 2 ^ 16 + c.val * 2 ^ 11 + fn)

def wordImm (op : Nat) (a b : Fin 32) (imm : BitVec 16) : Word :=
  BitVec.ofNat 32 (op * 2 ^ 26 + a.val * 2 ^ 21 + b.val * 2 ^ 16 + imm.toNat)

def wordQuad (op : Nat) (a b c d : Fin 32) (fn : Nat) : Word :=
  BitVec.ofNat 32 (op * 2 ^ 26 + a.val * 2 ^ 21 + b.val * 2 ^ 16 + c.val * 2 ^ 11 + d.val * 2 ^ 6 + fn)

def wordJump (op : Nat) (off : BitVec 26) : Word := BitVec.ofNat 32 (op * 2 ^ 26 + off.toNat)

/-- A field of `n` bits from bit `lo` of a word. -/
def wordField (w : Word) (lo n : Nat) : Nat := w.toNat / 2 ^ lo % 2 ^ n

/-- A register field. -/
def wordRegNo (w : Word) (lo : Nat) : Fin 32 := ⟨wordField w lo 5, Nat.mod_lt _ (by decide)⟩

/-- A word whose fields marked "0" are zero is the instruction's; another is ILLEGAL (R49). -/
def only (p : Bool) (i : Instr) : Option Instr := if p then some i else none

/-! ### Decoding (Table 3.3) -/

/-- OP 0x01 (Table 3.4). -/
def decode01 (c : Fin 16) (_env : Env) (fn : Nat) (a b d : Fin 32) : Option Instr :=
  match fn with
  | 0x000 => some (.add c a b d)
  | 0x001 => some (.sub c a b d)
  | 0x002 => some (.and c a b d)
  | 0x003 => some (.or c a b d)
  | 0x004 => some (.xor c a b d)
  | 0x005 => some (.nor c a b d)
  | 0x006 => some (.slt c a b d)
  | 0x007 => some (.sltu c a b d)
  | 0x008 => some (.sll c a b d)
  | 0x009 => some (.srl c a b d)
  | 0x00A => some (.sra c a b d)
  | 0x00B => some (.slli c a b d)
  | 0x00C => some (.srli c a b d)
  | 0x00D => some (.srai c a b d)
  | 0x00E => some (.addv c a b d)
  | 0x00F => some (.subv c a b d)
  | 0x010 => some (.adds c a b d)
  | 0x011 => some (.subs c a b d)
  | 0x012 => some (.min c a b d)
  | 0x013 => some (.max c a b d)
  | 0x014 => some (.minu c a b d)
  | 0x015 => some (.maxu c a b d)
  | 0x016 => only (d == 0) (.clz c a b)
  | 0x017 => only (d == 0) (.sextb c a b)
  | 0x018 => only (d == 0) (.sexth c a b)
  | _ => none

/-- OP 0x0A (Table 3.6). -/
def decode0A (c : Fin 16) (_env : Env) (fn : Nat) (a b d : Fin 32) : Option Instr :=
  match fn with
  | 0x000 => some (.mul c a b d)
  | 0x001 => some (.mulh c a b d)
  | 0x002 => some (.mulhu c a b d)
  | 0x004 => some (.div c a b d)
  | 0x005 => some (.divu c a b d)
  | 0x006 => some (.rem c a b d)
  | 0x007 => some (.remu c a b d)
  | _ => none

/-- OP 0x20 (Table 3.9). -/
def decode20 (c : Fin 16) (_env : Env) (fn : Nat) (a b d : Fin 32) : Option Instr :=
  match fn with
  | 0x000 => some (.fadd c a b d)
  | 0x001 => some (.fsub c a b d)
  | 0x002 => some (.fmul c a b d)
  | 0x003 => some (.fdiv c a b d)
  | 0x004 => only (d == 0) (.fsqrt c a b)
  | 0x005 => some (.fmin c a b d)
  | 0x006 => some (.fmax c a b d)
  | 0x007 => only (d == 0) (.fabs c a b)
  | 0x008 => only (d == 0) (.fneg c a b)
  | 0x009 => only (d == 0) (.fmov c a b)
  | 0x00A => some (.feq c a b d)
  | 0x00B => some (.flt c a b d)
  | 0x00C => some (.fle c a b d)
  | 0x00D => only (d == 0) (.fcvtSW c a b)
  | 0x00E => only (d == 0) (.fcvtWS c a b)
  | 0x00F => only (d == 0) (.ftrcWS c a b)
  | 0x010 => only (d == 0) (.fmvFG c a b)
  | 0x011 => only (d == 0) (.fmvGF c a b)
  | 0x012 => only (d == 0) (.fcvtSQ c a b)
  | 0x013 => only (d == 0) (.fcvtQS c a b)
  | _ => none

/-- OP 0x24 (Table 3.11). -/
def decode24 (c : Fin 16) (_env : Env) (fn : Nat) (a b d : Fin 32) : Option Instr :=
  match fn with
  | 0x000 => some (.qadd15 c a b d)
  | 0x001 => some (.qsub15 c a b d)
  | 0x002 => some (.qmul15 c a b d)
  | 0x003 => only (d == 0) (.qneg15 c a b)
  | 0x004 => only (d == 0) (.qabs15 c a b)
  | 0x005 => only (d == 0) (.qsat15 c a b)
  | 0x008 => some (.qadd31 c a b d)
  | 0x009 => some (.qsub31 c a b d)
  | 0x00A => some (.qmul31 c a b d)
  | 0x00B => only (d == 0) (.qneg31 c a b)
  | 0x00C => only (d == 0) (.qabs31 c a b)
  | 0x00D => some (.qshl31 c a b d)
  | _ => none

/-- OP 0x25 (Table 3.12). -/
def decode25 (c : Fin 16) (_env : Env) (fn : Nat) (a b d : Fin 32) : Option Instr :=
  match fn with
  | 0x000 => some (.mac15 c a b d)
  | 0x001 => some (.msu15 c a b d)
  | 0x002 => some (.mula15 c a b d)
  | 0x003 => some (.mac31 c a b d)
  | 0x004 => some (.msu31 c a b d)
  | 0x005 => some (.mula31 c a b d)
  | 0x008 => only (b == 0 && d == 0) (.aclr c a)
  | 0x009 => some (.ald c a b d)
  | 0x00A => only (d == 0) (.ardl c a b)
  | 0x00B => only (d == 0) (.ardh c a b)
  | 0x00C => some (.aext c a b d)
  | 0x00D => some (.aext15 c a b d)
  | _ => none

/-- OP 0x28 (Table 3.13). -/
def decode28 (c : Fin 16) (env : Env) (fn : Nat) (a b d : Fin 32) : Option Instr :=
  match fn with
  | 0x000 => only (a == 0 && b == 0 && d == 0) (.yield c)
  | 0x001 => only (d == 0) (.waitslot c a b)
  | 0x002 => only (b == 0 && d == 0) (.swap c a)
  | 0x003 => only (a == 0 && b == 0 && d == 0) (.eret c)
  | 0x004 => only (a == 0 && b == 0 && d == 0) (.nop c)
  | 0x008 => only (a == 0 && b == 0 && d == 0) (.barIo c env.wait)
  | 0x009 => only (a == 0 && b == 0 && d == 0) (.barMem c env.wait)
  | 0x00A => only (a == 0 && b == 0 && d == 0) (.barAll c env.wait)
  | 0x010 => only (b == 0) (.crd c a d)
  | 0x011 => only (a == 0) (.cwr c b d)
  | _ => none

/-- OP 0x2C (Table 3.16). -/
def decode2C (c : Fin 16) (_env : Env) (fn : Nat) (a b d : Fin 32) : Option Instr :=
  match fn with
  | 0x000 => some (.msend c a b d)
  | _ => none

/-- OP 0x2D (Table 3.16). -/
def decode2D (c : Fin 16) (_env : Env) (fn : Nat) (a b d : Fin 32) : Option Instr :=
  match fn with
  | 0x000 => some (.mrecv c a b d)
  | _ => none

/-- OP 0x2E (Table 3.16). -/
def decode2E (c : Fin 16) (_env : Env) (fn : Nat) (a b d : Fin 32) : Option Instr :=
  match fn with
  | 0x000 => some (.mrecvw c a b d)
  | _ => none

/-- OP 0x31 (Table 3.17). -/
def decode31 (c : Fin 16) (_env : Env) (fn : Nat) (a b d : Fin 32) : Option Instr :=
  match fn with
  | 0x000 => some (.rtrd c a b d)
  | 0x001 => some (.rtwr c a b d)
  | 0x002 => only (d == 0) (.rttag c a b)
  | _ => none

/-- OP 0x21 (Table 3.10), format QUAD. -/
def decode21 (c : Fin 16) (fn : Nat) (a b d e : Fin 32) : Option Instr :=
  match fn with
  | 0x00 => some (.fmadd c a b d e)
  | 0x01 => some (.fmsub c a b d e)
  | 0x02 => some (.fnmadd c a b d e)
  | _ => none

/-- The words of format IMM (Tables 3.5, 3.7, 3.8, 3.13, 3.14, 3.17). -/
def decodeImm (c : Fin 16) (env : Env) (op : Nat) (a b : Fin 32) (imm : BitVec 16) : Option Instr :=
  match op with
  | 0x02 => some (.addi c a b imm)
  | 0x03 => some (.andi c a b imm)
  | 0x04 => some (.ori c a b imm)
  | 0x05 => some (.xori c a b imm)
  | 0x06 => some (.slti c a b imm)
  | 0x07 => some (.sltiu c a b imm)
  | 0x08 => only (b == 0) (.lui c a imm)
  | 0x0C => some (.lw c a b imm env)
  | 0x0D => some (.lh c a b imm env)
  | 0x0E => some (.lhu c a b imm env)
  | 0x0F => some (.lb c a b imm env)
  | 0x10 => some (.lbu c a b imm env)
  | 0x11 => some (.sw c a b imm env.wait)
  | 0x12 => some (.sh c a b imm env.wait)
  | 0x13 => some (.sb c a b imm env.wait)
  | 0x14 => some (.beq c a b imm)
  | 0x15 => some (.bne c a b imm)
  | 0x16 => some (.blt c a b imm)
  | 0x17 => some (.bge c a b imm)
  | 0x18 => some (.bltu c a b imm)
  | 0x19 => some (.bgeu c a b imm)
  | 0x1C => some (.jalr c a b imm)
  | 0x1D => some (.flw c a b imm env)
  | 0x1E => some (.fsw c a b imm env.wait)
  | 0x29 => some (.lock c a b imm)
  | 0x2A => some (.trylock c a b imm)
  | 0x2B => some (.unlk c a b imm)
  | 0x2F => only (a == 0 && b == 0) (.trap c imm)
  | 0x30 => only (a == 0) (.tmark c b imm)
  | _ => none

/-- The instruction command of a word on core `c`, with what the fabric answers to its access; none: the word is ILLEGAL by its
OP, its FN or a field marked "0" (R49).  An f field of 16 or more, an accumulator field of 4 or more and a control register
that Table 3.18 does not list are judged by the instruction's meaning. -/
def decodeWord (c : Fin 16) (env : Env) (w : Word) : Option Instr :=
  let a := wordRegNo w 21
  let b := wordRegNo w 16
  let d := wordRegNo w 11
  let fn := wordField w 0 11
  match wordField w 26 6 with
  | 0x01 => decode01 c env fn a b d
  | 0x0A => decode0A c env fn a b d
  | 0x20 => decode20 c env fn a b d
  | 0x24 => decode24 c env fn a b d
  | 0x25 => decode25 c env fn a b d
  | 0x28 => decode28 c env fn a b d
  | 0x2C => decode2C c env fn a b d
  | 0x2D => decode2D c env fn a b d
  | 0x2E => decode2E c env fn a b d
  | 0x31 => decode31 c env fn a b d
  | 0x21 => decode21 c (wordField w 0 6) a b d (wordRegNo w 6)
  | 0x1A => some (.j c (BitVec.ofNat 26 (wordField w 0 26)))
  | 0x1B => some (.jal c (BitVec.ofNat 26 (wordField w 0 26)))
  | op => decodeImm c env op a b (BitVec.ofNat 16 (wordField w 0 16))

/-! ### Encoding -/

/-- The core, the fabric's answer and the word of an instruction command; none: the command is no instruction. -/
def encode (i : Instr) : Option (Fin 16 × Env × Word) :=
  match i with
  | .add c a b d => some (c, ⟨0, false, false⟩, wordReg 0x01 a b d 0x000)
  | .sub c a b d => some (c, ⟨0, false, false⟩, wordReg 0x01 a b d 0x001)
  | .and c a b d => some (c, ⟨0, false, false⟩, wordReg 0x01 a b d 0x002)
  | .or c a b d => some (c, ⟨0, false, false⟩, wordReg 0x01 a b d 0x003)
  | .xor c a b d => some (c, ⟨0, false, false⟩, wordReg 0x01 a b d 0x004)
  | .nor c a b d => some (c, ⟨0, false, false⟩, wordReg 0x01 a b d 0x005)
  | .slt c a b d => some (c, ⟨0, false, false⟩, wordReg 0x01 a b d 0x006)
  | .sltu c a b d => some (c, ⟨0, false, false⟩, wordReg 0x01 a b d 0x007)
  | .sll c a b d => some (c, ⟨0, false, false⟩, wordReg 0x01 a b d 0x008)
  | .srl c a b d => some (c, ⟨0, false, false⟩, wordReg 0x01 a b d 0x009)
  | .sra c a b d => some (c, ⟨0, false, false⟩, wordReg 0x01 a b d 0x00A)
  | .addv c a b d => some (c, ⟨0, false, false⟩, wordReg 0x01 a b d 0x00E)
  | .subv c a b d => some (c, ⟨0, false, false⟩, wordReg 0x01 a b d 0x00F)
  | .adds c a b d => some (c, ⟨0, false, false⟩, wordReg 0x01 a b d 0x010)
  | .subs c a b d => some (c, ⟨0, false, false⟩, wordReg 0x01 a b d 0x011)
  | .min c a b d => some (c, ⟨0, false, false⟩, wordReg 0x01 a b d 0x012)
  | .max c a b d => some (c, ⟨0, false, false⟩, wordReg 0x01 a b d 0x013)
  | .minu c a b d => some (c, ⟨0, false, false⟩, wordReg 0x01 a b d 0x014)
  | .maxu c a b d => some (c, ⟨0, false, false⟩, wordReg 0x01 a b d 0x015)
  | .mul c a b d => some (c, ⟨0, false, false⟩, wordReg 0x0A a b d 0x000)
  | .mulh c a b d => some (c, ⟨0, false, false⟩, wordReg 0x0A a b d 0x001)
  | .mulhu c a b d => some (c, ⟨0, false, false⟩, wordReg 0x0A a b d 0x002)
  | .div c a b d => some (c, ⟨0, false, false⟩, wordReg 0x0A a b d 0x004)
  | .divu c a b d => some (c, ⟨0, false, false⟩, wordReg 0x0A a b d 0x005)
  | .rem c a b d => some (c, ⟨0, false, false⟩, wordReg 0x0A a b d 0x006)
  | .remu c a b d => some (c, ⟨0, false, false⟩, wordReg 0x0A a b d 0x007)
  | .qadd15 c a b d => some (c, ⟨0, false, false⟩, wordReg 0x24 a b d 0x000)
  | .qsub15 c a b d => some (c, ⟨0, false, false⟩, wordReg 0x24 a b d 0x001)
  | .qmul15 c a b d => some (c, ⟨0, false, false⟩, wordReg 0x24 a b d 0x002)
  | .qadd31 c a b d => some (c, ⟨0, false, false⟩, wordReg 0x24 a b d 0x008)
  | .qsub31 c a b d => some (c, ⟨0, false, false⟩, wordReg 0x24 a b d 0x009)
  | .qmul31 c a b d => some (c, ⟨0, false, false⟩, wordReg 0x24 a b d 0x00A)
  | .qshl31 c a b d => some (c, ⟨0, false, false⟩, wordReg 0x24 a b d 0x00D)
  | .fadd c a b d => some (c, ⟨0, false, false⟩, wordReg 0x20 a b d 0x000)
  | .fsub c a b d => some (c, ⟨0, false, false⟩, wordReg 0x20 a b d 0x001)
  | .fmul c a b d => some (c, ⟨0, false, false⟩, wordReg 0x20 a b d 0x002)
  | .fdiv c a b d => some (c, ⟨0, false, false⟩, wordReg 0x20 a b d 0x003)
  | .fmin c a b d => some (c, ⟨0, false, false⟩, wordReg 0x20 a b d 0x005)
  | .fmax c a b d => some (c, ⟨0, false, false⟩, wordReg 0x20 a b d 0x006)
  | .feq c a b d => some (c, ⟨0, false, false⟩, wordReg 0x20 a b d 0x00A)
  | .flt c a b d => some (c, ⟨0, false, false⟩, wordReg 0x20 a b d 0x00B)
  | .fle c a b d => some (c, ⟨0, false, false⟩, wordReg 0x20 a b d 0x00C)
  | .mac15 c a b d => some (c, ⟨0, false, false⟩, wordReg 0x25 a b d 0x000)
  | .msu15 c a b d => some (c, ⟨0, false, false⟩, wordReg 0x25 a b d 0x001)
  | .mula15 c a b d => some (c, ⟨0, false, false⟩, wordReg 0x25 a b d 0x002)
  | .mac31 c a b d => some (c, ⟨0, false, false⟩, wordReg 0x25 a b d 0x003)
  | .msu31 c a b d => some (c, ⟨0, false, false⟩, wordReg 0x25 a b d 0x004)
  | .mula31 c a b d => some (c, ⟨0, false, false⟩, wordReg 0x25 a b d 0x005)
  | .ald c a b d => some (c, ⟨0, false, false⟩, wordReg 0x25 a b d 0x009)
  | .msend c a b d => some (c, ⟨0, false, false⟩, wordReg 0x2C a b d 0x000)
  | .mrecv c a b d => some (c, ⟨0, false, false⟩, wordReg 0x2D a b d 0x000)
  | .mrecvw c a b d => some (c, ⟨0, false, false⟩, wordReg 0x2E a b d 0x000)
  | .rtrd c a b d => some (c, ⟨0, false, false⟩, wordReg 0x31 a b d 0x000)
  | .rtwr c a b d => some (c, ⟨0, false, false⟩, wordReg 0x31 a b d 0x001)
  | .slli c a b sh => some (c, ⟨0, false, false⟩, wordReg 0x01 a b sh 0x00B)
  | .srli c a b sh => some (c, ⟨0, false, false⟩, wordReg 0x01 a b sh 0x00C)
  | .srai c a b sh => some (c, ⟨0, false, false⟩, wordReg 0x01 a b sh 0x00D)
  | .aext c a b sh => some (c, ⟨0, false, false⟩, wordReg 0x25 a b sh 0x00C)
  | .aext15 c a b sh => some (c, ⟨0, false, false⟩, wordReg 0x25 a b sh 0x00D)
  | .clz c a b => some (c, ⟨0, false, false⟩, wordReg 0x01 a b 0 0x016)
  | .sextb c a b => some (c, ⟨0, false, false⟩, wordReg 0x01 a b 0 0x017)
  | .sexth c a b => some (c, ⟨0, false, false⟩, wordReg 0x01 a b 0 0x018)
  | .fsqrt c a b => some (c, ⟨0, false, false⟩, wordReg 0x20 a b 0 0x004)
  | .fabs c a b => some (c, ⟨0, false, false⟩, wordReg 0x20 a b 0 0x007)
  | .fneg c a b => some (c, ⟨0, false, false⟩, wordReg 0x20 a b 0 0x008)
  | .fmov c a b => some (c, ⟨0, false, false⟩, wordReg 0x20 a b 0 0x009)
  | .fcvtSW c a b => some (c, ⟨0, false, false⟩, wordReg 0x20 a b 0 0x00D)
  | .fcvtWS c a b => some (c, ⟨0, false, false⟩, wordReg 0x20 a b 0 0x00E)
  | .ftrcWS c a b => some (c, ⟨0, false, false⟩, wordReg 0x20 a b 0 0x00F)
  | .fmvFG c a b => some (c, ⟨0, false, false⟩, wordReg 0x20 a b 0 0x010)
  | .fmvGF c a b => some (c, ⟨0, false, false⟩, wordReg 0x20 a b 0 0x011)
  | .fcvtSQ c a b => some (c, ⟨0, false, false⟩, wordReg 0x20 a b 0 0x012)
  | .fcvtQS c a b => some (c, ⟨0, false, false⟩, wordReg 0x20 a b 0 0x013)
  | .qneg15 c a b => some (c, ⟨0, false, false⟩, wordReg 0x24 a b 0 0x003)
  | .qabs15 c a b => some (c, ⟨0, false, false⟩, wordReg 0x24 a b 0 0x004)
  | .qsat15 c a b => some (c, ⟨0, false, false⟩, wordReg 0x24 a b 0 0x005)
  | .qneg31 c a b => some (c, ⟨0, false, false⟩, wordReg 0x24 a b 0 0x00B)
  | .qabs31 c a b => some (c, ⟨0, false, false⟩, wordReg 0x24 a b 0 0x00C)
  | .ardl c a b => some (c, ⟨0, false, false⟩, wordReg 0x25 a b 0 0x00A)
  | .ardh c a b => some (c, ⟨0, false, false⟩, wordReg 0x25 a b 0 0x00B)
  | .waitslot c a b => some (c, ⟨0, false, false⟩, wordReg 0x28 a b 0 0x001)
  | .rttag c a b => some (c, ⟨0, false, false⟩, wordReg 0x31 a b 0 0x002)
  | .addi c a b imm => some (c, ⟨0, false, false⟩, wordImm 0x02 a b imm)
  | .andi c a b imm => some (c, ⟨0, false, false⟩, wordImm 0x03 a b imm)
  | .ori c a b imm => some (c, ⟨0, false, false⟩, wordImm 0x04 a b imm)
  | .xori c a b imm => some (c, ⟨0, false, false⟩, wordImm 0x05 a b imm)
  | .slti c a b imm => some (c, ⟨0, false, false⟩, wordImm 0x06 a b imm)
  | .sltiu c a b imm => some (c, ⟨0, false, false⟩, wordImm 0x07 a b imm)
  | .beq c a b imm => some (c, ⟨0, false, false⟩, wordImm 0x14 a b imm)
  | .bne c a b imm => some (c, ⟨0, false, false⟩, wordImm 0x15 a b imm)
  | .blt c a b imm => some (c, ⟨0, false, false⟩, wordImm 0x16 a b imm)
  | .bge c a b imm => some (c, ⟨0, false, false⟩, wordImm 0x17 a b imm)
  | .bltu c a b imm => some (c, ⟨0, false, false⟩, wordImm 0x18 a b imm)
  | .bgeu c a b imm => some (c, ⟨0, false, false⟩, wordImm 0x19 a b imm)
  | .jalr c a b imm => some (c, ⟨0, false, false⟩, wordImm 0x1C a b imm)
  | .lock c a b imm => some (c, ⟨0, false, false⟩, wordImm 0x29 a b imm)
  | .trylock c a b imm => some (c, ⟨0, false, false⟩, wordImm 0x2A a b imm)
  | .unlk c a b imm => some (c, ⟨0, false, false⟩, wordImm 0x2B a b imm)
  | .lui c a imm => some (c, ⟨0, false, false⟩, wordImm 0x08 a 0 imm)
  | .lw c a b imm env => some (c, env, wordImm 0x0C a b imm)
  | .lh c a b imm env => some (c, env, wordImm 0x0D a b imm)
  | .lhu c a b imm env => some (c, env, wordImm 0x0E a b imm)
  | .lb c a b imm env => some (c, env, wordImm 0x0F a b imm)
  | .lbu c a b imm env => some (c, env, wordImm 0x10 a b imm)
  | .flw c a b imm env => some (c, env, wordImm 0x1D a b imm)
  | .sw c a b imm wait => some (c, ⟨wait, false, false⟩, wordImm 0x11 a b imm)
  | .sh c a b imm wait => some (c, ⟨wait, false, false⟩, wordImm 0x12 a b imm)
  | .sb c a b imm wait => some (c, ⟨wait, false, false⟩, wordImm 0x13 a b imm)
  | .fsw c a b imm wait => some (c, ⟨wait, false, false⟩, wordImm 0x1E a b imm)
  | .j c off => some (c, ⟨0, false, false⟩, wordJump 0x1A off)
  | .jal c off => some (c, ⟨0, false, false⟩, wordJump 0x1B off)
  | .fmadd c a b d e => some (c, ⟨0, false, false⟩, wordQuad 0x21 a b d e 0x00)
  | .fmsub c a b d e => some (c, ⟨0, false, false⟩, wordQuad 0x21 a b d e 0x01)
  | .fnmadd c a b d e => some (c, ⟨0, false, false⟩, wordQuad 0x21 a b d e 0x02)
  | .aclr c a => some (c, ⟨0, false, false⟩, wordReg 0x25 a 0 0 0x008)
  | .swap c a => some (c, ⟨0, false, false⟩, wordReg 0x28 a 0 0 0x002)
  | .yield c => some (c, ⟨0, false, false⟩, wordReg 0x28 0 0 0 0x000)
  | .eret c => some (c, ⟨0, false, false⟩, wordReg 0x28 0 0 0 0x003)
  | .nop c => some (c, ⟨0, false, false⟩, wordReg 0x28 0 0 0 0x004)
  | .barIo c wait => some (c, ⟨wait, false, false⟩, wordReg 0x28 0 0 0 0x008)
  | .barMem c wait => some (c, ⟨wait, false, false⟩, wordReg 0x28 0 0 0 0x009)
  | .barAll c wait => some (c, ⟨wait, false, false⟩, wordReg 0x28 0 0 0 0x00A)
  | .crd c a n => some (c, ⟨0, false, false⟩, wordReg 0x28 a 0 n 0x010)
  | .cwr c b n => some (c, ⟨0, false, false⟩, wordReg 0x28 0 b n 0x011)
  | .trap c imm => some (c, ⟨0, false, false⟩, wordImm 0x2F 0 0 imm)
  | .tmark c b imm => some (c, ⟨0, false, false⟩, wordImm 0x30 0 b imm)
  | _ => none

end Machine

end Sys2Proof
end

