-- ==== Sys2Proof/Config.lean ====
section
/-! DEFINITION.  The values the specification leaves open.  Each is a constant without a body, so nothing can
be proved of its value; each is named in the assumption log. -/

namespace Sys2Proof.Config

/-- A word of the Cellar Book window that no whole record covers: never written, or the undefined words of a
PAD record (R336).  The argument is the lap and the byte offset.  Log entry 5. -/
opaque bookWord : Nat → Nat → Nat

/-- The clamp energy, in 10 µJ, of a load switch-off whose command carries no measurement (R213): load, then the
free counter.  Log entry 6. -/
opaque clampEnergy : Nat → Nat → Nat

/-- Whether a quotient whose rounding the specification does not state is rounded up: the place it is used at,
the dividend and the divisor.  Log entry 7. -/
opaque roundUp : Nat → Nat → Nat → Bool

/-- A quotient of natural numbers whose rounding is left open: the floor, or one more where it is not exact. -/
def quot (site a b : Nat) : Nat := a / b + (if a % b = 0 then 0 else b2n (roundUp site a b))

/-- A quotient of an integer by a positive number whose rounding is left open. -/
def quotZ (site : Nat) (a : Int) (b : Nat) : Int :=
  Int.fdiv a b + (if Int.fmod a b = 0 then 0 else (b2n (roundUp site a.natAbs b) : Int))

/-- One colour channel of the edge-directed demosaic over a 5 × 5 window (Table 7.4, stage 5): pattern, position in
the pattern, channel, the 25 values row by row.  Log entry 8. -/
opaque demosaic : Nat → Nat → Nat → List Nat → Nat

/-- The median of four values, of which the second and third in order are given (Table 7.4, stage 4).  Log entry 9. -/
opaque median4 : Nat → Nat → Nat

/-- LINE_T of a frame in which fewer than two valid lines started (R131): the argument is the free counter.
Log entry 10. -/
opaque lineTime : Nat → Nat

/-- The grid cell in which Cuvee places a feature-map cell or a point whose projection (R153, R154) has no value: a table
word that is an infinity or a NaN, a focal length of 0, a distortion factor of 0.  The transform words, the header geometry
words, and the numbers of the cell or point.  None: no cell.  Log entry 11. -/
opaque groundCell : List Nat → List Nat → List Int → Option Nat

/-- Sine and cosine, in units of 2^−62, of an angle in degrees as dividend and divisor (R154).  Log entry 13. -/
opaque sinCos : Int → Nat → Int × Int

/-- The confidence m of several feature cells that fall in one grid cell (R153).  Log entry 12. -/
opaque combineM : List Nat → Nat

/-- The share, in 1/65,536, of one packet of a point whose packets all have mass 0 (R182): packets, then the index.
Log entry 14. -/
opaque zeroShare : Nat → Nat → Nat

/-- Chips of the code of a signal (R219, R221), by SIG.  Log entry 15. -/
opaque codeChips : Nat → Nat

/-- The eight words of a watch-log entry, from its contents (R230): MTC, FIX, latitude, longitude, HU, GNSS time,
uncertainty.  The 32 bytes cannot hold the listed items at their full width.  Log entry 16. -/
opaque watchEntry : Nat → Nat → Int → Int → Nat → Nat → Nat → List Nat

/-- The words of a snapshot header after the items whose place the manual's order fixes (R229).  Log entry 17. -/
opaque snapHeader : List Nat → List Nat

/-- A value the specification does not state for some operands: the place it is used at, and the operands.  Log
entry 18. -/
opaque unstated : Nat → List Nat → Nat

/-- A displacement in mm, east and north, of `forward` and `left` mm at a heading in 2^−16 revolution that is no multiple
of a quarter turn (R247).  Log entry 19. -/
opaque rotate : Nat → Int → Int → Int × Int

/-- The content of one file of an export (R258), in the format of ISO 11783-10: which file it is (0 for TASKDATA.XML, 1 for a
TLG of one session in XML, 2 for its BIN); the reference moisture, ID, EDGE, LAYERS, origin and the session's number, start and
first SEQ; its TIME_STATE and TIME_STEP records; and for each exported cell (i, j, session, offset, CODE, AREA, MASS, MOIST).
Log entry 20. -/
opaque exportFile : Nat → List Int → List (Nat × Nat × List Nat) →
    List (Int × Int × Nat × Nat × Nat × Nat × Nat × Nat) → List Nat

/-- The words of a list header or of an entry whose layout the specification does not give (NET_LIST, PEER_LIST,
DUMP_LIST beyond its fields): the place, the values.  Log entry 21. -/
opaque listWords : Nat → List Nat → List Nat

/-- The eight bytes of a setpoint condensed work state to a TC client (R277, ISO 11783-10): the engine sections mapped,
as a mask, and those that are on.  Log entry 22. -/
opaque tcSetpoint : Nat → Nat → List Nat

/-- The bytes of the factory record (R342), written at manufacture: the byte offset; and which ordering code of Table 0.1 the module
has: ZH-960-L, or ZH-960-C.  Log entry 23. -/
opaque codeL : Bool
opaque factoryByte : Nat → Nat

/-- A random value that the fleet service draws (R290, R292), by the free counter.  Log entry 24. -/
opaque random : Nat → Nat

/-- The content of a Hjelette bank image (R89), whose format the specification does not give: is it one; byte `k` of the
32 KiB half of ITCM; word `k` of the schedule table, at byte offset 4k.  Log entry 25. -/
opaque imageOk : List Nat → Bool
opaque imageByte : List Nat → Nat → Nat
opaque imageWord : List Nat → Nat → Nat

/-- Where a part of a software set is placed in main memory (R347, R351): the start or activation, and the part's place in
the set.  Log entry 26. -/
opaque partPlace : Nat → Nat → Nat

/-- The fabric address of a placed part: in main memory, on a multiple of 64. -/
def partAddr (run k : Nat) : Nat := 0x8000000000 + partPlace run k % 2 ^ 28 * 64

/-- The high-pass filter of a loss-plate input (R119), of which the specification states the corner alone: the setting HPF, the
filter's state and the amplified sample give the state after it and the 16-bit code.  Log entry 61. -/
opaque highPass : Nat → Int → Int → Int × Int

end Sys2Proof.Config
end

