-- ==== Sys2Proof/Machine/Arith.lean ====
section
/-! DEFINITION.  Saturation, rounding and shifting over exact integers, shared by the fixed-point
instructions (R57), the loop unit (R96), sensing (R114) and the machine functions (R173). -/

namespace Sys2Proof.Machine

/-- sat16 of R57: clamp to −32,768 … 32,767. -/
def sat16 (v : Int) : Int := clampZ (-32768) 32767 v

/-- sat32 of R57: clamp to −2^31 … 2^31 − 1. -/
def sat32 (v : Int) : Int := clampZ (-2147483648) 2147483647 v

/-- The accumulator range of R57: clamp to −2^39 … 2^39 − 1. -/
def sat40 (v : Int) : Int := clampZ (-549755813888) 549755813887 v

/-- Arithmetic right shift: the quotient rounded toward minus infinity. -/
def asr (v : Int) (n : Nat) : Int := Int.fdiv v (2 ^ n : Int)

/-- rnd(v, sh) of R57: add half of the last place and shift; rnd(v, 0) is v. -/
def rnd (v : Int) (sh : Nat) : Int := if sh = 0 then v else asr (v + (2 ^ (sh - 1) : Int)) sh

/-- A counter of w bits that saturates at its maximum value. -/
def satAdd (w v n : Nat) : Nat := min (v + n) (2 ^ w - 1)

/-- The integer square root by successive bits, `n` bits from the top. -/
def isqrtGo (v : Nat) : Nat → Nat → Nat
  | 0, r => r
  | n + 1, r => if (r + 2 ^ n) * (r + 2 ^ n) ≤ v then isqrtGo v n (r + 2 ^ n) else isqrtGo v n r

/-- ⌊√v⌋ for v below 2^64. -/
def isqrt (v : Nat) : Nat := isqrtGo v 32 0

/-- An exact fraction in lowest terms, for the quantities the manual computes without stating a rounding (the
duty estimate of R199, the thermal model of R210, the clamp account of R213). -/
structure Frac where
  num : Int
  den : Nat
  deriving DecidableEq, Repr

/-- The fraction n/d in lowest terms. -/
def Frac.of (n : Int) (d : Nat) : Frac := ⟨n / (Nat.gcd n.natAbs d : Int), d / Nat.gcd n.natAbs d⟩

/-- A whole number as a fraction. -/
def Frac.int (n : Int) : Frac := ⟨n, 1⟩

def Frac.add (a b : Frac) : Frac := Frac.of (a.num * b.den + b.num * a.den) (a.den * b.den)
def Frac.sub (a b : Frac) : Frac := Frac.of (a.num * b.den - b.num * a.den) (a.den * b.den)
def Frac.mul (a b : Frac) : Frac := Frac.of (a.num * b.num) (a.den * b.den)

def Frac.neg (a : Frac) : Frac := ⟨-a.num, a.den⟩

/-- Division by a positive whole number. -/
def Frac.divN (a : Frac) (n : Nat) : Frac := Frac.of a.num (a.den * n)

/-- Division by a fraction that is not 0. -/
def Frac.div (a b : Frac) : Frac :=
  Frac.of (a.num * b.den * (if b.num < 0 then -1 else 1)) (a.den * b.num.natAbs)

def Frac.le (a b : Frac) : Bool := decide (a.num * b.den ≤ b.num * a.den)
def Frac.lt (a b : Frac) : Bool := decide (a.num * b.den < b.num * a.den)

/-- The largest whole number not above the fraction. -/
def Frac.floor (a : Frac) : Int := Int.fdiv a.num a.den

/-- rnd of an exact fraction: the nearest whole number, halves upwards. -/
def Frac.round (a : Frac) : Int := Int.fdiv (2 * a.num + a.den) (2 * a.den)

/-- The value of a finite binary32 word; none for an infinity or a NaN. -/
def f32Val (w : Nat) : Option Frac :=
  let e := bits w 23 8
  let m := bits w 0 23
  if e = 255 then none
  else
    let sig := if e = 0 then m else m + 2 ^ 23
    let x := max e 1
    let v := if 150 ≤ x then Frac.of ((sig * 2 ^ (x - 150) : Nat)) 1 else Frac.of (sig : Nat) (2 ^ (150 - x))
    some (if bit w 31 then ⟨-v.num, v.den⟩ else v)

end Sys2Proof.Machine
end

