-- ==== Sys2Proof/Machine/Field.lean ====
section
/-! DEFINITION.  A register field of the peripheral window as data: where it lies, how many instances it
has, its access type (R2, Table 0.3) and its reset value (R6).  The machine keeps field values in one sorted
map; a field that no entry lists reads as its reset value. -/

namespace Sys2Proof

/-- The access types of Table 0.3 (R2). -/
inductive Acc where
  | rw | ro | wo | w1c | w1s | rc
  deriving DecidableEq, Repr

/-- One field of a register of the window.  `addr` is the byte address of the register of instance (0,0,0);
the three strides and counts place its other instances (block instance, then up to two inner indices);
`lo` and `w` are its lowest bit and its width; `prog` says that program privilege may write it (R377);
`reset` is the Reset column, by instance. -/
structure Fld where
  addr : Nat
  si : Nat
  ni : Nat
  sj : Nat
  nj : Nat
  sk : Nat
  nk : Nat
  lo : Nat
  w : Nat
  acc : Acc
  prog : Bool
  reset : Nat → Nat → Nat → Nat

/-- The byte address of the register that holds instance (i, j, k) of the field. -/
def Fld.at (f : Fld) (i j k : Nat) : Nat := f.addr + f.si * i + f.sj * j + f.sk * k

/-- The key under which instance (i, j, k) is kept: its bit address, with 64 places for each register. -/
def Fld.key (f : Fld) (i j k : Nat) : Nat := f.at i j k * 64 + f.lo

/-- A companion of the field outside the register itself: the word behind a latched register, such as the
high half that a read of the low half will latch.  No address reaches it. -/
def Fld.behind (f : Fld) : Fld := { f with lo := f.lo + 32, reset := fun _ _ _ => 0 }

/-- A block of Table 20.1: base, stride, number of instances, the first instance that exists, its fields. -/
structure Block where
  base : Nat
  stride : Nat
  count : Nat
  first : Nat
  flds : List Fld

/-- Field values by key, strictly rising in the key. -/
abbrev RegMap := List (Nat × Nat)

namespace Machine

/-- The value listed under a key, if any. -/
def regFind (m : RegMap) (k : Nat) : Option Nat :=
  match m with
  | [] => none
  | (a, v) :: t => if a = k then some v else if k < a then none else regFind t k

/-- The map with `v` under key `k`. -/
def regSet (m : RegMap) (k v : Nat) : RegMap :=
  match m with
  | [] => [(k, v)]
  | (a, x) :: t => if a = k then (k, v) :: t else if k < a then (k, v) :: (a, x) :: t else (a, x) :: regSet t k v

/-- The map without key `k`. -/
def regDel (m : RegMap) (k : Nat) : RegMap :=
  match m with
  | [] => []
  | (a, x) :: t => if a = k then t else if k < a then (a, x) :: t else (a, x) :: regDel t k

/-- Key `k` at `v`, where an unlisted key reads as `d`: no entry is listed for it when it equals `d`. -/
def regStore (m : RegMap) (k v d : Nat) : RegMap := if v = d then regDel m k else regSet m k v

/-- The map without any entry whose key satisfies `p`. -/
def regDrop (p : Nat → Bool) (m : RegMap) : RegMap := m.filter fun e => !p e.1

end Machine

namespace Reg

/-! Reset values that differ by instance (the Reset columns that name a table or an instance). -/

/-- MB_CFG reset of mailbox m, after Table 4.8. -/
def mbResetEn (m : Nat) : Nat := if m = 0 ∨ (56 ≤ m ∧ m ≤ 61) then 1 else 0
def mbResetDepth (m : Nat) : Nat := if m = 0 ∨ (56 ≤ m ∧ m ≤ 61) then 16 else 0
def mbResetMaxw (m : Nat) : Nat := if m = 0 then 4 else if 56 ≤ m ∧ m ≤ 61 then 16 else 0
def mbResetRecv (m : Nat) : Nat :=
  if m = 56 then 16 else if m = 57 then 17 else if m = 58 ∨ m = 59 then 18 else if m = 60 ∨ m = 61 then 19 else 0
def mbResetPerm (m : Nat) : Nat := if m = 0 then 0xF0000 else if 56 ≤ m ∧ m ≤ 61 then 0xFFFF else 0

/-- LG_CFG.STUD of load group g: the stud that feeds it (Table 19.7, R205). -/
def lgStudReset (g : Nat) : Nat := if g < 4 then g else (g - 4) / 2

/-- Traffic class, data class and control priority of requester r at reset (Table 16.2). -/
def reqResetTc (r : Nat) : Nat := if r < 36 ∨ r = 85 ∨ r = 86 then 1 else 0
def reqResetPrio (r : Nat) : Nat :=
  if r < 16 then 0x40 else if r < 20 then 0x80 else if r < 36 then 0xC0 else if r = 85 ∨ r = 86 then 0xA0 else 0
def reqResetClass (r : Nat) : Nat :=
  if r < 36 then 0 else if r < 68 then 3 else if r < 78 then 6 else if r < 82 then 5 else if r = 82 then 4
  else if r = 83 then 5 else if r = 84 then 6 else if r = 87 then 1 else 0

/-- ERR_SRC_CFG.SEV of source c at reset: the Default column of Table 17.1, NOTE = 0, DEGRADED = 1,
SERIOUS = 2, FATAL = 3 (R327). -/
def errResetSev (c : Nat) : Nat :=
  if c = 0x01 ∨ c = 0x02 ∨ c = 0x04 ∨ c = 0x05 ∨ c = 0x0B then 2
  else if c = 0x03 ∨ c = 0x07 ∨ c = 0x08 ∨ c = 0x09 ∨ c = 0x0A then 1
  else if c = 0x10 ∨ c = 0x11 then 3 else 0

/-- ERR_SRC_CFG.FLOOR of source c: the Floor column of Table 17.1. -/
def errResetFloor (c : Nat) : Nat :=
  if c = 0x01 ∨ c = 0x02 ∨ c = 0x05 then 2
  else if c = 0x04 ∨ c = 0x07 ∨ c = 0x0B then 1
  else if c = 0x10 ∨ c = 0x11 then 3 else 0

/-- Transform table words at reset: ROT00, ROT11 and ROT22 are 1.0 (Table 8.12). -/
def ttReset (j : Nat) : Nat := if j = 9 ∨ j = 13 ∨ j = 17 then 0x3F800000 else 0

end Reg

end Sys2Proof
end

