-- ==== Sys2Proof/Machine/Registers.lean ====
section
/-! DEFINITION.  Every register field of the peripheral window: its address, its instances, its bits, its
access type (Table 0.3), whether program privilege may write it (Table 20.2 to Table 20.5, R377) and its
reset value, as the register tables of the chapters state them.  R1 to R6 and R377 say how they act. -/

namespace Sys2Proof.Reg

/-! Table 1.7 DRAM window registers (function core control block, FCn at 0x2010_0000 + n × 0x1000). -/

def DWIN.EN : Fld := ⟨0x20100080, 0x1000, 16, 4, 4, 0, 1, 31, 1, .rw, false, fun _ j _ => if j = 0 then 1 else 0⟩
def DWIN.WP : Fld := ⟨0x20100080, 0x1000, 16, 4, 4, 0, 1, 30, 1, .rw, false, fun _ _ _ => 0⟩
def DWIN.BASE : Fld := ⟨0x20100080, 0x1000, 16, 4, 4, 0, 1, 0, 12, .rw, false, fun i j _ => 0x800 + 4 * i + j⟩

/-! Table 2.8 Power, reset and output supervisor registers (system control, 0x2000_0000). -/

def PWR_STATE.STATE : Fld := ⟨0x20000010, 0, 1, 0, 1, 0, 1, 0, 3, .ro, false, fun _ _ _ => 1⟩
def PWR_STATE.KEY : Fld := ⟨0x20000010, 0, 1, 0, 1, 0, 1, 4, 1, .ro, false, fun _ _ _ => 0⟩
def PWR_STATE.WAKE : Fld := ⟨0x20000010, 0, 1, 0, 1, 0, 1, 5, 1, .ro, false, fun _ _ _ => 0⟩
def PWR_STATE.ESTOP : Fld := ⟨0x20000010, 0, 1, 0, 1, 0, 1, 6, 1, .ro, false, fun _ _ _ => 0⟩
def PWR_STATE.FEED_LOW : Fld := ⟨0x20000010, 0, 1, 0, 1, 0, 1, 7, 1, .ro, false, fun _ _ _ => 0⟩
def RST_CAUSE.CAUSE : Fld := ⟨0x20000014, 0, 1, 0, 1, 0, 1, 0, 4, .ro, false, fun _ _ _ => 0⟩
def RST_CAUSE.HELD : Fld := ⟨0x20000014, 0, 1, 0, 1, 0, 1, 8, 1, .ro, false, fun _ _ _ => 0⟩
def RST_CAUSE.UNSEALED : Fld := ⟨0x20000014, 0, 1, 0, 1, 0, 1, 9, 1, .ro, false, fun _ _ _ => 0⟩
def RST_CAUSE.START_COUNT : Fld := ⟨0x20000014, 0, 1, 0, 1, 0, 1, 16, 16, .ro, false, fun _ _ _ => 0⟩
def RST_REQ.CMD : Fld := ⟨0x20000018, 0, 1, 0, 1, 0, 1, 0, 4, .wo, false, fun _ _ _ => 0⟩
def RST_REQ.PASS : Fld := ⟨0x20000018, 0, 1, 0, 1, 0, 1, 16, 16, .wo, false, fun _ _ _ => 0⟩
def WAKE_CFG.KEY_EN : Fld := ⟨0x20000020, 0, 1, 0, 1, 0, 1, 0, 1, .ro, false, fun _ _ _ => 1⟩
def WAKE_CFG.WAKE_EN : Fld := ⟨0x20000020, 0, 1, 0, 1, 0, 1, 1, 1, .rw, false, fun _ _ _ => 1⟩
def WAKE_CFG.WAKE_POL : Fld := ⟨0x20000020, 0, 1, 0, 1, 0, 1, 2, 1, .rw, false, fun _ _ _ => 0⟩
def WAKE_CFG.CAN_EN : Fld := ⟨0x20000020, 0, 1, 0, 1, 0, 1, 3, 1, .rw, false, fun _ _ _ => 0⟩
def WAKE_CFG.CAN_SEL : Fld := ⟨0x20000020, 0, 1, 0, 1, 0, 1, 4, 3, .rw, false, fun _ _ _ => 0⟩
def WAKE_CFG.USB_EN : Fld := ⟨0x20000020, 0, 1, 0, 1, 0, 1, 7, 1, .rw, false, fun _ _ _ => 1⟩
def WAKE_CFG.SNAP_EN : Fld := ⟨0x20000020, 0, 1, 0, 1, 0, 1, 8, 1, .rw, false, fun _ _ _ => 0⟩
def WAKE_CFG.SNAP_MIN : Fld := ⟨0x20000020, 0, 1, 0, 1, 0, 1, 16, 6, .rw, false, fun _ _ _ => 0xF⟩
def WAKE_SRC.SRC : Fld := ⟨0x20000024, 0, 1, 0, 1, 0, 1, 0, 2, .ro, false, fun _ _ _ => 0⟩
def KEYOFF_LIMIT.LIM : Fld := ⟨0x20000028, 0, 1, 0, 1, 0, 1, 0, 10, .rw, false, fun _ _ _ => 0x1E⟩
def OSV_CTL.SEAL : Fld := ⟨0x20000300, 0, 1, 0, 1, 0, 1, 0, 1, .w1s, false, fun _ _ _ => 0⟩
def OSV_CTL.SEAL_REF : Fld := ⟨0x20000300, 0, 1, 0, 1, 0, 1, 1, 1, .w1c, false, fun _ _ _ => 0⟩
def OSV_CTL.BAD_MODE : Fld := ⟨0x20000300, 0, 1, 0, 1, 0, 1, 2, 1, .ro, false, fun _ _ _ => 0⟩
def OSV_CTL.HOLDING : Fld := ⟨0x20000300, 0, 1, 0, 1, 0, 1, 8, 1, .ro, false, fun _ _ _ => 0⟩
def OSV_HOLD_TIME.HT : Fld := ⟨0x20000304, 0, 1, 0, 1, 0, 1, 0, 12, .rw, false, fun _ _ _ => 0xFA⟩
def OSV_ABORT_TIME.AT : Fld := ⟨0x20000308, 0, 1, 0, 1, 0, 1, 0, 7, .rw, false, fun _ _ _ => 0x32⟩
def OSV_VD.W : Fld := ⟨0x20000310, 0, 1, 4, 4, 0, 1, 0, 32, .rw, false, fun _ _ _ => 0x44444444⟩
def OSV_LC.W : Fld := ⟨0x20000320, 0, 1, 4, 6, 0, 1, 0, 32, .rw, false, fun _ _ _ => 0x44444444⟩
def OSV_HELD_VD.HELD : Fld := ⟨0x20000340, 0, 1, 0, 1, 0, 1, 0, 32, .ro, false, fun _ _ _ => 0⟩
def OSV_HELD_LC0.HELD : Fld := ⟨0x20000344, 0, 1, 0, 1, 0, 1, 0, 32, .ro, false, fun _ _ _ => 0⟩
def OSV_HELD_LC1.HELD : Fld := ⟨0x20000348, 0, 1, 0, 1, 0, 1, 0, 16, .ro, false, fun _ _ _ => 0⟩
def OSV_STAT.TIMEOUT_CNT : Fld := ⟨0x20000350, 0, 1, 0, 1, 0, 1, 0, 16, .rc, false, fun _ _ _ => 0⟩
def OSV_STAT.SEALED_WR_CNT : Fld := ⟨0x20000350, 0, 1, 0, 1, 0, 1, 16, 16, .rc, false, fun _ _ _ => 0⟩

/-! Table 4.1 Schedule table (offsets relative to the table base, 0x400 for bank A or 0x800 for bank B). -/

def SLOTMAP.W : Fld := ⟨0x20100400, 0x1000, 16, 0x400, 2, 4, 25, 0, 32, .rw, false, fun _ _ _ => 0x40404040⟩
def ENT_PC.PC : Fld := ⟨0x20100600, 0x1000, 16, 0x400, 2, 0x10, 32, 2, 14, .rw, false, fun _ _ _ => 0⟩
def ENT_ARG.W : Fld := ⟨0x20100604, 0x1000, 16, 0x400, 2, 0x10, 32, 0, 32, .rw, false, fun _ _ _ => 0⟩
def ENT_CTL.EN : Fld := ⟨0x20100608, 0x1000, 16, 0x400, 2, 0x10, 32, 0, 1, .rw, false, fun _ _ _ => 0⟩
def ENT_CTL.PRIV : Fld := ⟨0x20100608, 0x1000, 16, 0x400, 2, 0x10, 32, 1, 1, .rw, false, fun _ _ _ => 0⟩

/-! Table 4.6 Function core control block, FCn at 0x2010_0000 + n × 0x1000. -/

def CORE_CTL.RUN : Fld := ⟨0x20100000, 0x1000, 16, 0, 1, 0, 1, 0, 1, .rw, false, fun _ _ _ => 0⟩
def CORE_CTL.SPARE : Fld := ⟨0x20100000, 0x1000, 16, 0, 1, 0, 1, 1, 1, .rw, false, fun _ _ _ => 0⟩
def CORE_CTL.SWAP_EN : Fld := ⟨0x20100000, 0x1000, 16, 0, 1, 0, 1, 2, 1, .rw, false, fun _ _ _ => 0⟩
def CORE_CTL.RST : Fld := ⟨0x20100000, 0x1000, 16, 0, 1, 0, 1, 8, 1, .wo, false, fun _ _ _ => 0⟩
def CORE_CTL.SPARE_EN : Fld := ⟨0x20100000, 0x1000, 16, 0, 1, 0, 1, 16, 1, .rw, false, fun _ _ _ => 0⟩
def CORE_CTL.SPARE_CORE : Fld := ⟨0x20100000, 0x1000, 16, 0, 1, 0, 1, 20, 4, .rw, false, fun _ _ _ => 0⟩
def CORE_CTL.AUTO_MIG : Fld := ⟨0x20100000, 0x1000, 16, 0, 1, 0, 1, 24, 1, .rw, false, fun _ _ _ => 1⟩
def CORE_STAT.STATE : Fld := ⟨0x20100004, 0x1000, 16, 0, 1, 0, 1, 0, 3, .ro, false, fun _ _ _ => 0⟩
def CORE_STAT.PHYS : Fld := ⟨0x20100004, 0x1000, 16, 0, 1, 0, 1, 8, 4, .ro, false, fun i _ _ => i⟩
def CORE_STAT.ALIAS : Fld := ⟨0x20100004, 0x1000, 16, 0, 1, 0, 1, 12, 4, .ro, false, fun i _ _ => i⟩
def CORE_STAT.CTX : Fld := ⟨0x20100004, 0x1000, 16, 0, 1, 0, 1, 16, 4, .ro, false, fun _ _ _ => 0⟩
def BANK_CTL.VALID_A : Fld := ⟨0x20100008, 0x1000, 16, 0, 1, 0, 1, 0, 1, .ro, false, fun _ _ _ => 0⟩
def BANK_CTL.VALID_B : Fld := ⟨0x20100008, 0x1000, 16, 0, 1, 0, 1, 1, 1, .ro, false, fun _ _ _ => 0⟩
def BANK_CTL.VALIDATE : Fld := ⟨0x20100008, 0x1000, 16, 0, 1, 0, 1, 8, 1, .wo, false, fun _ _ _ => 0⟩
def BANK_CTL.INVALIDATE : Fld := ⟨0x20100008, 0x1000, 16, 0, 1, 0, 1, 9, 1, .wo, false, fun _ _ _ => 0⟩
def BANK_CTL.ERR : Fld := ⟨0x20100008, 0x1000, 16, 0, 1, 0, 1, 16, 4, .ro, false, fun _ _ _ => 0⟩
def BANK_CTL.ERR_ITEM : Fld := ⟨0x20100008, 0x1000, 16, 0, 1, 0, 1, 24, 7, .ro, false, fun _ _ _ => 0⟩
def FLAG_SUM.F : Fld := ⟨0x2010000C, 0x1000, 16, 0, 1, 0, 1, 8, 13, .w1c, false, fun _ _ _ => 0⟩
def LK_LIMIT.LIM : Fld := ⟨0x20100010, 0x1000, 16, 0, 1, 0, 1, 0, 16, .rw, false, fun _ _ _ => 0⟩
def LK_REL_CNT.CNT : Fld := ⟨0x20100014, 0x1000, 16, 0, 1, 0, 1, 0, 16, .rc, false, fun _ _ _ => 0⟩
def OVR_CFG.LIMIT : Fld := ⟨0x20100018, 0x1000, 16, 0, 1, 0, 1, 0, 4, .rw, false, fun _ _ _ => 2⟩
def OVR_CNT.OVERRUN : Fld := ⟨0x2010001C, 0x1000, 16, 0, 1, 0, 1, 0, 16, .rc, false, fun _ _ _ => 0⟩
def OVR_CNT.KILL : Fld := ⟨0x2010001C, 0x1000, 16, 0, 1, 0, 1, 16, 16, .rc, false, fun _ _ _ => 0⟩
def START_CNT.LATE : Fld := ⟨0x20100020, 0x1000, 16, 0, 1, 0, 1, 0, 16, .rc, false, fun _ _ _ => 0⟩
def START_CNT.SKIP : Fld := ⟨0x20100020, 0x1000, 16, 0, 1, 0, 1, 16, 16, .rc, false, fun _ _ _ => 0⟩
def SWAP_CNT.DELAY : Fld := ⟨0x20100024, 0x1000, 16, 0, 1, 0, 1, 0, 16, .rc, false, fun _ _ _ => 0⟩
def SWAP_CNT.TBL_IGN : Fld := ⟨0x20100024, 0x1000, 16, 0, 1, 0, 1, 16, 16, .rc, false, fun _ _ _ => 0⟩
def EVSRC.SRC : Fld := ⟨0x20100100, 0x1000, 16, 4, 32, 0, 1, 0, 8, .rw, false, fun _ _ _ => 0⟩

/-! Table 4.7 Core group block, 0x2011_0000. -/

def LSTEP_CFG.PAIR : Fld := ⟨0x20110000, 0, 1, 0, 1, 0, 1, 0, 8, .rw, false, fun _ _ _ => 1⟩
def LSTEP_CFG.IGN_CNT : Fld := ⟨0x20110000, 0, 1, 0, 1, 0, 1, 16, 16, .rc, false, fun _ _ _ => 0⟩
def SWAP_SET.CORES : Fld := ⟨0x20110004, 0, 1, 0, 1, 0, 1, 0, 16, .wo, false, fun _ _ _ => 0⟩
def SWAP_STAT.RESULT : Fld := ⟨0x20110008, 0, 1, 0, 1, 0, 1, 0, 2, .ro, false, fun _ _ _ => 0⟩
def SWAP_STAT.CORE : Fld := ⟨0x20110008, 0, 1, 0, 1, 0, 1, 8, 4, .ro, false, fun _ _ _ => 0⟩
def SWAP_STAT.PEND : Fld := ⟨0x20110008, 0, 1, 0, 1, 0, 1, 16, 16, .ro, false, fun _ _ _ => 0⟩
def MIG_GO.CORE : Fld := ⟨0x2011000C, 0, 1, 0, 1, 0, 1, 0, 4, .wo, false, fun _ _ _ => 0⟩
def MIG_GO.GO : Fld := ⟨0x2011000C, 0, 1, 0, 1, 0, 1, 31, 1, .wo, false, fun _ _ _ => 0⟩
def MIG_STAT.BUSY : Fld := ⟨0x20110010, 0, 1, 0, 1, 0, 1, 0, 1, .ro, false, fun _ _ _ => 0⟩
def MIG_STAT.CORE : Fld := ⟨0x20110010, 0, 1, 0, 1, 0, 1, 8, 4, .ro, false, fun _ _ _ => 0⟩
def MIG_STAT.SPARE : Fld := ⟨0x20110010, 0, 1, 0, 1, 0, 1, 12, 4, .ro, false, fun _ _ _ => 0⟩
def MIG_STAT.RESULT : Fld := ⟨0x20110010, 0, 1, 0, 1, 0, 1, 16, 2, .ro, false, fun _ _ _ => 0⟩
def MIG_STAT.DTCM_BAD : Fld := ⟨0x20110010, 0, 1, 0, 1, 0, 1, 20, 12, .ro, false, fun _ _ _ => 0⟩

/-! Table 4.8 Locks and mailboxes block, 0x2003_0000. -/

def LK_STATE.HOLDER : Fld := ⟨0x20030000, 0, 1, 4, 256, 0, 1, 0, 8, .ro, false, fun _ _ _ => 0xFF⟩
def LK_STATE.WAITERS : Fld := ⟨0x20030000, 0, 1, 4, 256, 0, 1, 8, 5, .ro, false, fun _ _ _ => 0⟩
def LK_STATE.ORPHAN : Fld := ⟨0x20030000, 0, 1, 4, 256, 0, 1, 16, 1, .ro, false, fun _ _ _ => 0⟩
def LK_FREE.LOCK : Fld := ⟨0x20030400, 0, 1, 0, 1, 0, 1, 0, 8, .wo, false, fun _ _ _ => 0⟩
def LK_STAT.DEADLOCK_CNT : Fld := ⟨0x20030404, 0, 1, 0, 1, 0, 1, 0, 16, .rc, false, fun _ _ _ => 0⟩
def LK_STAT.TIMEOUT_CNT : Fld := ⟨0x20030404, 0, 1, 0, 1, 0, 1, 16, 12, .rc, false, fun _ _ _ => 0⟩
def LK_STAT.FREE_IGN : Fld := ⟨0x20030404, 0, 1, 0, 1, 0, 1, 28, 4, .rc, false, fun _ _ _ => 0⟩
def MB_CFG.EN : Fld := ⟨0x20031000, 0, 1, 0x10, 64, 0, 1, 0, 1, .rw, false, fun _ j _ => mbResetEn j⟩
def MB_CFG.DEPTH : Fld := ⟨0x20031000, 0, 1, 0x10, 64, 0, 1, 8, 5, .rw, false, fun _ j _ => mbResetDepth j⟩
def MB_CFG.MAXW : Fld := ⟨0x20031000, 0, 1, 0x10, 64, 0, 1, 16, 5, .rw, false, fun _ j _ => mbResetMaxw j⟩
def MB_CFG.RECV : Fld := ⟨0x20031000, 0, 1, 0x10, 64, 0, 1, 24, 5, .rw, false, fun _ j _ => mbResetRecv j⟩
def MB_PERM.SEND : Fld := ⟨0x20031004, 0, 1, 0x10, 64, 0, 1, 0, 20, .rw, false, fun _ j _ => mbResetPerm j⟩
def MB_STAT.COUNT : Fld := ⟨0x20031008, 0, 1, 0x10, 64, 0, 1, 0, 5, .ro, false, fun _ _ _ => 0⟩
def MB_STAT.DROP : Fld := ⟨0x20031008, 0, 1, 0x10, 64, 0, 1, 8, 8, .rc, false, fun _ _ _ => 0⟩
def MB_STAT.FULL_CNT : Fld := ⟨0x20031008, 0, 1, 0x10, 64, 0, 1, 16, 16, .rc, false, fun _ _ _ => 0⟩
def MB_POOL.USED : Fld := ⟨0x20031400, 0, 1, 0, 1, 0, 1, 0, 13, .ro, false, fun _ _ _ => 0x640⟩
def MB_POOL.CFG_ERR : Fld := ⟨0x20031400, 0, 1, 0, 1, 0, 1, 16, 1, .w1c, false, fun _ _ _ => 0⟩

/-! Table 5.7 Loop block LPl, at block offset 0xC00 + 0x80 × l. -/

def LP_CFG.EN : Fld := ⟨0x20100C00, 0x1000, 16, 0x80, 8, 0, 1, 0, 1, .rw, false, fun _ _ _ => 0⟩
def LP_CFG.RATE : Fld := ⟨0x20100C00, 0x1000, 16, 0x80, 8, 0, 1, 1, 2, .rw, false, fun _ _ _ => 0⟩
def LP_CFG.PHASE : Fld := ⟨0x20100C00, 0x1000, 16, 0x80, 8, 0, 1, 3, 7, .rw, false, fun _ _ _ => 0⟩
def LP_CFG.SP_SRC : Fld := ⟨0x20100C00, 0x1000, 16, 0x80, 8, 0, 1, 10, 1, .rw, false, fun _ _ _ => 0⟩
def LP_CFG.FF_SRC : Fld := ⟨0x20100C00, 0x1000, 16, 0x80, 8, 0, 1, 11, 1, .rw, false, fun _ _ _ => 0⟩
def LP_CFG.MF : Fld := ⟨0x20100C00, 0x1000, 16, 0x80, 8, 0, 1, 12, 5, .rw, false, fun _ _ _ => 0⟩
def LP_CFG.REP_EN : Fld := ⟨0x20100C00, 0x1000, 16, 0x80, 8, 0, 1, 17, 1, .rw, false, fun _ _ _ => 0⟩
def LP_CFG.LEARN : Fld := ⟨0x20100C00, 0x1000, 16, 0x80, 8, 0, 1, 18, 1, .rw, false, fun _ _ _ => 0⟩
def LP_CFG.STALE_POL : Fld := ⟨0x20100C00, 0x1000, 16, 0x80, 8, 0, 1, 19, 1, .rw, false, fun _ _ _ => 0⟩
def LP_CFG.REP_MAP : Fld := ⟨0x20100C00, 0x1000, 16, 0x80, 8, 0, 1, 20, 12, .rw, false, fun _ _ _ => 0⟩
def LP_IN.ADDR : Fld := ⟨0x20100C04, 0x1000, 16, 0x80, 8, 0, 1, 2, 26, .rw, false, fun _ _ _ => 0⟩
def LP_OUT.ADDR : Fld := ⟨0x20100C08, 0x1000, 16, 0x80, 8, 0, 1, 2, 26, .rw, false, fun _ _ _ => 0⟩
def LP_STAMP.ADDR : Fld := ⟨0x20100C0C, 0x1000, 16, 0x80, 8, 0, 1, 2, 26, .rw, false, fun _ _ _ => 0⟩
def LP_SP.SP : Fld := ⟨0x20100C10, 0x1000, 16, 0x80, 8, 0, 1, 0, 16, .rw, true, fun _ _ _ => 0⟩
def LP_FF.FF : Fld := ⟨0x20100C14, 0x1000, 16, 0x80, 8, 0, 1, 0, 16, .rw, true, fun _ _ _ => 0⟩
def LP_CTL.COEF_SWAP : Fld := ⟨0x20100C18, 0x1000, 16, 0x80, 8, 0, 1, 0, 1, .w1s, false, fun _ _ _ => 0⟩
def LP_CTL.INT_LOAD : Fld := ⟨0x20100C18, 0x1000, 16, 0x80, 8, 0, 1, 1, 1, .w1s, false, fun _ _ _ => 0⟩
def LP_CTL.OUT_DLY : Fld := ⟨0x20100C18, 0x1000, 16, 0x80, 8, 0, 1, 2, 9, .rw, false, fun _ _ _ => 0x14⟩
def LP_CTL.STALE_MAX : Fld := ⟨0x20100C18, 0x1000, 16, 0x80, 8, 0, 1, 11, 5, .rw, false, fun _ _ _ => 0⟩
def LP_CTL.OUT_TPL : Fld := ⟨0x20100C18, 0x1000, 16, 0x80, 8, 0, 1, 16, 16, .rw, false, fun _ _ _ => 0⟩
def LP_STAT.STATE : Fld := ⟨0x20100C1C, 0x1000, 16, 0x80, 8, 0, 1, 0, 2, .ro, false, fun _ _ _ => 0⟩
def LP_STAT.BAND : Fld := ⟨0x20100C1C, 0x1000, 16, 0x80, 8, 0, 1, 2, 2, .ro, false, fun _ _ _ => 0⟩
def LP_STAT.TBL : Fld := ⟨0x20100C1C, 0x1000, 16, 0x80, 8, 0, 1, 4, 3, .ro, false, fun _ _ _ => 0⟩
def LP_STAT.OFFBAND : Fld := ⟨0x20100C1C, 0x1000, 16, 0x80, 8, 0, 1, 7, 1, .ro, false, fun _ _ _ => 0⟩
def LP_STAT.COEF_GEN : Fld := ⟨0x20100C1C, 0x1000, 16, 0x80, 8, 0, 1, 8, 8, .ro, false, fun _ _ _ => 0⟩
def LP_STAT.STALE_RUN : Fld := ⟨0x20100C1C, 0x1000, 16, 0x80, 8, 0, 1, 16, 8, .ro, false, fun _ _ _ => 0⟩
def SH_KP.K : Fld := ⟨0x20100C20, 0x1000, 16, 0x80, 8, 0, 1, 0, 16, .rw, false, fun _ _ _ => 0⟩
def SH_KP.SH : Fld := ⟨0x20100C20, 0x1000, 16, 0x80, 8, 0, 1, 16, 3, .rw, false, fun _ _ _ => 0⟩
def SH_KI.K : Fld := ⟨0x20100C24, 0x1000, 16, 0x80, 8, 0, 1, 0, 16, .rw, false, fun _ _ _ => 0⟩
def SH_KI.SH : Fld := ⟨0x20100C24, 0x1000, 16, 0x80, 8, 0, 1, 16, 3, .rw, false, fun _ _ _ => 0⟩
def SH_KD.K : Fld := ⟨0x20100C28, 0x1000, 16, 0x80, 8, 0, 1, 0, 16, .rw, false, fun _ _ _ => 0⟩
def SH_KD.SH : Fld := ⟨0x20100C28, 0x1000, 16, 0x80, 8, 0, 1, 16, 3, .rw, false, fun _ _ _ => 0⟩
def SH_DF.DF : Fld := ⟨0x20100C2C, 0x1000, 16, 0x80, 8, 0, 1, 0, 16, .rw, false, fun _ _ _ => 0x7FFF⟩
def SH_ULIM.UMIN : Fld := ⟨0x20100C30, 0x1000, 16, 0x80, 8, 0, 1, 0, 16, .rw, false, fun _ _ _ => 0x8000⟩
def SH_ULIM.UMAX : Fld := ⟨0x20100C30, 0x1000, 16, 0x80, 8, 0, 1, 16, 16, .rw, false, fun _ _ _ => 0x7FFF⟩
def SH_ILIM.IMIN : Fld := ⟨0x20100C34, 0x1000, 16, 0x80, 8, 0, 1, 0, 16, .rw, false, fun _ _ _ => 0x8000⟩
def SH_ILIM.IMAX : Fld := ⟨0x20100C34, 0x1000, 16, 0x80, 8, 0, 1, 16, 16, .rw, false, fun _ _ _ => 0x7FFF⟩
def SH_RLIM.RLIM : Fld := ⟨0x20100C38, 0x1000, 16, 0x80, 8, 0, 1, 0, 16, .rw, false, fun _ _ _ => 0⟩
def SH_GAINS.FFK : Fld := ⟨0x20100C3C, 0x1000, 16, 0x80, 8, 0, 1, 0, 16, .rw, false, fun _ _ _ => 0⟩
def SH_GAINS.REPK : Fld := ⟨0x20100C3C, 0x1000, 16, 0x80, 8, 0, 1, 16, 16, .rw, false, fun _ _ _ => 0⟩
def AC_KP.K : Fld := ⟨0x20100C40, 0x1000, 16, 0x80, 8, 0, 1, 0, 16, .ro, false, fun _ _ _ => 0⟩
def AC_KP.SH : Fld := ⟨0x20100C40, 0x1000, 16, 0x80, 8, 0, 1, 16, 3, .ro, false, fun _ _ _ => 0⟩
def AC_KI.K : Fld := ⟨0x20100C44, 0x1000, 16, 0x80, 8, 0, 1, 0, 16, .ro, false, fun _ _ _ => 0⟩
def AC_KI.SH : Fld := ⟨0x20100C44, 0x1000, 16, 0x80, 8, 0, 1, 16, 3, .ro, false, fun _ _ _ => 0⟩
def AC_KD.K : Fld := ⟨0x20100C48, 0x1000, 16, 0x80, 8, 0, 1, 0, 16, .ro, false, fun _ _ _ => 0⟩
def AC_KD.SH : Fld := ⟨0x20100C48, 0x1000, 16, 0x80, 8, 0, 1, 16, 3, .ro, false, fun _ _ _ => 0⟩
def AC_DF.DF : Fld := ⟨0x20100C4C, 0x1000, 16, 0x80, 8, 0, 1, 0, 16, .ro, false, fun _ _ _ => 0x7FFF⟩
def AC_ULIM.UMIN : Fld := ⟨0x20100C50, 0x1000, 16, 0x80, 8, 0, 1, 0, 16, .ro, false, fun _ _ _ => 0x8000⟩
def AC_ULIM.UMAX : Fld := ⟨0x20100C50, 0x1000, 16, 0x80, 8, 0, 1, 16, 16, .ro, false, fun _ _ _ => 0x7FFF⟩
def AC_ILIM.IMIN : Fld := ⟨0x20100C54, 0x1000, 16, 0x80, 8, 0, 1, 0, 16, .ro, false, fun _ _ _ => 0x8000⟩
def AC_ILIM.IMAX : Fld := ⟨0x20100C54, 0x1000, 16, 0x80, 8, 0, 1, 16, 16, .ro, false, fun _ _ _ => 0x7FFF⟩
def AC_RLIM.RLIM : Fld := ⟨0x20100C58, 0x1000, 16, 0x80, 8, 0, 1, 0, 16, .ro, false, fun _ _ _ => 0⟩
def AC_GAINS.FFK : Fld := ⟨0x20100C5C, 0x1000, 16, 0x80, 8, 0, 1, 0, 16, .ro, false, fun _ _ _ => 0⟩
def AC_GAINS.REPK : Fld := ⟨0x20100C5C, 0x1000, 16, 0x80, 8, 0, 1, 16, 16, .ro, false, fun _ _ _ => 0⟩
def LP_FLAGS.F : Fld := ⟨0x20100C60, 0x1000, 16, 0x80, 8, 0, 1, 0, 13, .w1c, false, fun _ _ _ => 0⟩
def LP_EVMASK.F : Fld := ⟨0x20100C64, 0x1000, 16, 0x80, 8, 0, 1, 0, 13, .rw, false, fun _ _ _ => 0⟩
def LP_U.U : Fld := ⟨0x20100C68, 0x1000, 16, 0x80, 8, 0, 1, 0, 16, .ro, false, fun _ _ _ => 0⟩
def LP_U.V : Fld := ⟨0x20100C68, 0x1000, 16, 0x80, 8, 0, 1, 16, 16, .ro, false, fun _ _ _ => 0⟩
def LP_INT.I : Fld := ⟨0x20100C6C, 0x1000, 16, 0x80, 8, 0, 1, 0, 32, .ro, false, fun _ _ _ => 0⟩
def LP_UINIT.U0 : Fld := ⟨0x20100C70, 0x1000, 16, 0x80, 8, 0, 1, 0, 16, .rw, false, fun _ _ _ => 0⟩
def LP_X.X : Fld := ⟨0x20100C74, 0x1000, 16, 0x80, 8, 0, 1, 0, 16, .ro, false, fun _ _ _ => 0⟩
def LP_X.E : Fld := ⟨0x20100C74, 0x1000, 16, 0x80, 8, 0, 1, 16, 16, .ro, false, fun _ _ _ => 0⟩
def LP_MTC.MTC : Fld := ⟨0x20100C78, 0x1000, 16, 0x80, 8, 0, 1, 0, 32, .ro, false, fun _ _ _ => 0⟩
def LP_CNT.SAMPLES : Fld := ⟨0x20100C7C, 0x1000, 16, 0x80, 8, 0, 1, 0, 16, .rc, false, fun _ _ _ => 0⟩
def LP_CNT.OB : Fld := ⟨0x20100C7C, 0x1000, 16, 0x80, 8, 0, 1, 16, 16, .rc, false, fun _ _ _ => 0⟩

/-! Table 5.8 Band detector, at block offset 0x180. -/

def BAND_SRC.ADDR : Fld := ⟨0x20100180, 0x1000, 16, 0, 1, 0, 1, 2, 26, .rw, false, fun _ _ _ => 0⟩
def BAND_THR0.T1 : Fld := ⟨0x20100184, 0x1000, 16, 0, 1, 0, 1, 0, 16, .rw, false, fun _ _ _ => 0x2666⟩
def BAND_THR0.T2 : Fld := ⟨0x20100184, 0x1000, 16, 0, 1, 0, 1, 16, 16, .rw, false, fun _ _ _ => 0x4666⟩
def BAND_THR1.T3 : Fld := ⟨0x20100188, 0x1000, 16, 0, 1, 0, 1, 0, 16, .rw, false, fun _ _ _ => 0x6666⟩
def BAND_THR1.HYS : Fld := ⟨0x20100188, 0x1000, 16, 0, 1, 0, 1, 16, 16, .rw, false, fun _ _ _ => 0x3D7⟩
def BAND_CFG.DWELL : Fld := ⟨0x2010018C, 0x1000, 16, 0, 1, 0, 1, 0, 8, .rw, false, fun _ _ _ => 5⟩
def BAND_CFG.FIXED : Fld := ⟨0x2010018C, 0x1000, 16, 0, 1, 0, 1, 8, 2, .rw, false, fun _ _ _ => 0⟩
def BAND_STAT.BAND : Fld := ⟨0x20100190, 0x1000, 16, 0, 1, 0, 1, 0, 2, .ro, false, fun _ _ _ => 0⟩
def BAND_STAT.CAND : Fld := ⟨0x20100190, 0x1000, 16, 0, 1, 0, 1, 2, 2, .ro, false, fun _ _ _ => 0⟩
def BAND_STAT.COUNT : Fld := ⟨0x20100190, 0x1000, 16, 0, 1, 0, 1, 8, 8, .ro, false, fun _ _ _ => 0⟩
def BAND_STAT.CHANGES : Fld := ⟨0x20100190, 0x1000, 16, 0, 1, 0, 1, 16, 16, .rc, false, fun _ _ _ => 0⟩

/-! Table 5.9 Trace, at block offset 0x1A0. -/

def TR_CFG.EN : Fld := ⟨0x201001A0, 0x1000, 16, 0, 1, 0, 1, 0, 1, .rw, false, fun _ _ _ => 0⟩
def TR_CFG.TSRC : Fld := ⟨0x201001A0, 0x1000, 16, 0, 1, 0, 1, 1, 3, .rw, false, fun _ _ _ => 0⟩
def TR_CFG.TLOOP : Fld := ⟨0x201001A0, 0x1000, 16, 0, 1, 0, 1, 4, 3, .rw, false, fun _ _ _ => 0⟩
def TR_CFG.TNODE : Fld := ⟨0x201001A0, 0x1000, 16, 0, 1, 0, 1, 8, 4, .rw, false, fun _ _ _ => 0⟩
def TR_CFG.PRE : Fld := ⟨0x201001A0, 0x1000, 16, 0, 1, 0, 1, 16, 12, .rw, false, fun _ _ _ => 0⟩
def TR_LEVEL.LEVEL : Fld := ⟨0x201001A4, 0x1000, 16, 0, 1, 0, 1, 0, 16, .rw, false, fun _ _ _ => 0⟩
def TR_LEVEL.FMASK : Fld := ⟨0x201001A4, 0x1000, 16, 0, 1, 0, 1, 16, 13, .rw, false, fun _ _ _ => 0⟩
def TR_CTL.ARM : Fld := ⟨0x201001A8, 0x1000, 16, 0, 1, 0, 1, 0, 1, .w1s, false, fun _ _ _ => 0⟩
def TR_CTL.SOFT : Fld := ⟨0x201001A8, 0x1000, 16, 0, 1, 0, 1, 1, 1, .w1s, false, fun _ _ _ => 0⟩
def TR_CTL.STOP : Fld := ⟨0x201001A8, 0x1000, 16, 0, 1, 0, 1, 2, 1, .w1s, false, fun _ _ _ => 0⟩
def TR_STAT.STATE : Fld := ⟨0x201001AC, 0x1000, 16, 0, 1, 0, 1, 0, 2, .ro, false, fun _ _ _ => 0⟩
def TR_STAT.WRAP : Fld := ⟨0x201001AC, 0x1000, 16, 0, 1, 0, 1, 2, 1, .ro, false, fun _ _ _ => 0⟩
def TR_STAT.CFG_ERR : Fld := ⟨0x201001AC, 0x1000, 16, 0, 1, 0, 1, 3, 1, .ro, false, fun _ _ _ => 0⟩
def TR_STAT.TRIG_PTR : Fld := ⟨0x201001AC, 0x1000, 16, 0, 1, 0, 1, 4, 12, .ro, false, fun _ _ _ => 0⟩
def TR_STAT.WR_PTR : Fld := ⟨0x201001AC, 0x1000, 16, 0, 1, 0, 1, 16, 12, .ro, false, fun _ _ _ => 0⟩
def TR_TRIG_MTC.MTC : Fld := ⟨0x201001B0, 0x1000, 16, 0, 1, 0, 1, 0, 32, .ro, false, fun _ _ _ => 0⟩
def TR_RDPTR.PTR : Fld := ⟨0x201001B4, 0x1000, 16, 0, 1, 0, 1, 0, 12, .rw, false, fun _ _ _ => 0⟩
def TR_RDDATA.W : Fld := ⟨0x201001B8, 0x1000, 16, 0, 1, 0, 1, 0, 32, .ro, false, fun _ _ _ => 0⟩
def TR_LOST.MARK_LOST : Fld := ⟨0x201001BC, 0x1000, 16, 0, 1, 0, 1, 0, 16, .rc, false, fun _ _ _ => 0⟩
def TR_NODES.NODES : Fld := ⟨0x201001C0, 0x1000, 16, 4, 8, 0, 1, 0, 16, .rw, false, fun _ _ _ => 0⟩

/-! Table 5.10 Repetitive table RTt, at block offset 0x200 + 0x20 × t. -/

def RT_CFG.LEN : Fld := ⟨0x20100200, 0x1000, 16, 0x20, 8, 0, 1, 0, 11, .rw, false, fun _ _ _ => 0⟩
def RT_CFG.INTERP : Fld := ⟨0x20100200, 0x1000, 16, 0x20, 8, 0, 1, 11, 1, .rw, false, fun _ _ _ => 1⟩
def RT_CFG.OB_MODE : Fld := ⟨0x20100200, 0x1000, 16, 0x20, 8, 0, 1, 12, 2, .rw, false, fun _ _ _ => 0⟩
def RT_CFG.SWITCH : Fld := ⟨0x20100200, 0x1000, 16, 0x20, 8, 0, 1, 16, 1, .w1s, false, fun _ _ _ => 0⟩
def RT_ANG.ADDR : Fld := ⟨0x20100204, 0x1000, 16, 0x20, 8, 0, 1, 2, 26, .rw, false, fun _ _ _ => 0⟩
def RT_ADV.ADV : Fld := ⟨0x20100208, 0x1000, 16, 0x20, 8, 0, 1, 0, 16, .rw, false, fun _ _ _ => 0⟩
def RT_ADV.MIN_REVS : Fld := ⟨0x20100208, 0x1000, 16, 0x20, 8, 0, 1, 16, 16, .rw, false, fun _ _ _ => 8⟩
def RT_LRN.LG : Fld := ⟨0x2010020C, 0x1000, 16, 0x20, 8, 0, 1, 0, 16, .rw, false, fun _ _ _ => 0⟩
def RT_LRN.LEAK : Fld := ⟨0x2010020C, 0x1000, 16, 0x20, 8, 0, 1, 16, 16, .rw, false, fun _ _ _ => 0⟩
def RT_OB.OB_GAIN : Fld := ⟨0x20100210, 0x1000, 16, 0x20, 8, 0, 1, 0, 16, .rw, false, fun _ _ _ => 0x4000⟩
def RT_OB.OB_LIM : Fld := ⟨0x20100210, 0x1000, 16, 0x20, 8, 0, 1, 16, 16, .rw, false, fun _ _ _ => 0x400⟩
def RT_SHTAG.TAG : Fld := ⟨0x20100214, 0x1000, 16, 0x20, 8, 0, 1, 0, 32, .rw, false, fun _ _ _ => 0⟩
def RT_TAG.TAG : Fld := ⟨0x20100218, 0x1000, 16, 0x20, 8, 0, 1, 0, 32, .ro, false, fun _ _ _ => 0⟩
def RT_CNT.OB : Fld := ⟨0x2010021C, 0x1000, 16, 0x20, 8, 0, 1, 0, 16, .rc, false, fun _ _ _ => 0⟩
def RT_CNT.SAT : Fld := ⟨0x2010021C, 0x1000, 16, 0x20, 8, 0, 1, 16, 16, .rc, false, fun _ _ _ => 0⟩

/-! Table 6.6 AIN block, AINn at 0x2030_0000 + n × 0x40. -/

def AIN_CFG.MODE : Fld := ⟨0x20300000, 0x40, 40, 0, 1, 0, 1, 0, 3, .rw, false, fun _ _ _ => 0⟩
def AIN_CFG.RANGE : Fld := ⟨0x20300000, 0x40, 40, 0, 1, 0, 1, 4, 2, .rw, false, fun _ _ _ => 0⟩
def AIN_CFG.PULL : Fld := ⟨0x20300000, 0x40, 40, 0, 1, 0, 1, 6, 2, .rw, false, fun _ _ _ => 0⟩
def AIN_CFG.RATE : Fld := ⟨0x20300000, 0x40, 40, 0, 1, 0, 1, 8, 2, .rw, false, fun _ _ _ => 1⟩
def AIN_CFG.PHASE : Fld := ⟨0x20300000, 0x40, 40, 0, 1, 0, 1, 10, 7, .rw, false, fun _ _ _ => 0⟩
def AIN_CFG.FPOL : Fld := ⟨0x20300000, 0x40, 40, 0, 1, 0, 1, 17, 2, .rw, false, fun _ _ _ => 0⟩
def AIN_CFG.EV : Fld := ⟨0x20300000, 0x40, 40, 0, 1, 0, 1, 19, 1, .rw, false, fun _ _ _ => 0⟩
def AIN_CFG.ROLE : Fld := ⟨0x20300000, 0x40, 40, 0, 1, 0, 1, 20, 4, .rw, false, fun _ _ _ => 0⟩
def AIN_CFG.IDX_CH : Fld := ⟨0x20300000, 0x40, 40, 0, 1, 0, 1, 24, 6, .rw, false, fun _ _ _ => 0x3F⟩
def AIN_FILT.ALPHA : Fld := ⟨0x20300004, 0x40, 40, 0, 1, 0, 1, 0, 16, .rw, false, fun _ _ _ => 0x7FFF⟩
def AIN_FILT.FDLY : Fld := ⟨0x20300004, 0x40, 40, 0, 1, 0, 1, 16, 8, .rw, false, fun _ _ _ => 0xA⟩
def AIN_SCALE.GAIN : Fld := ⟨0x20300008, 0x40, 40, 0, 1, 0, 1, 0, 16, .rw, false, fun _ _ _ => 0x7FFF⟩
def AIN_SCALE.SH : Fld := ⟨0x20300008, 0x40, 40, 0, 1, 0, 1, 16, 3, .rw, false, fun _ _ _ => 0⟩
def AIN_OFFS.OFFS : Fld := ⟨0x2030000C, 0x40, 40, 0, 1, 0, 1, 0, 16, .rw, false, fun _ _ _ => 0⟩
def AIN_LIM.LO : Fld := ⟨0x20300010, 0x40, 40, 0, 1, 0, 1, 0, 16, .rw, false, fun _ _ _ => 0⟩
def AIN_LIM.HI : Fld := ⟨0x20300010, 0x40, 40, 0, 1, 0, 1, 16, 16, .rw, false, fun _ _ _ => 0xFFFF⟩
def AIN_SUBST.SUBST : Fld := ⟨0x20300014, 0x40, 40, 0, 1, 0, 1, 0, 16, .rw, false, fun _ _ _ => 0⟩
def AIN_VAL.VAL : Fld := ⟨0x20300018, 0x40, 40, 0, 1, 0, 1, 0, 16, .ro, false, fun _ _ _ => 0⟩
def AIN_VAL.FLT : Fld := ⟨0x20300018, 0x40, 40, 0, 1, 0, 1, 16, 1, .ro, false, fun _ _ _ => 0⟩
def AIN_VAL.SEQ : Fld := ⟨0x20300018, 0x40, 40, 0, 1, 0, 1, 20, 12, .ro, false, fun _ _ _ => 0⟩
def AIN_RAW.RAW : Fld := ⟨0x2030001C, 0x40, 40, 0, 1, 0, 1, 0, 16, .ro, false, fun _ _ _ => 0⟩
def AIN_MTC_LO.MTC : Fld := ⟨0x20300020, 0x40, 40, 0, 1, 0, 1, 0, 32, .ro, false, fun _ _ _ => 0⟩
def AIN_MTC_HI.MTC : Fld := ⟨0x20300024, 0x40, 40, 0, 1, 0, 1, 0, 32, .ro, false, fun _ _ _ => 0⟩
def AIN_FREQ.FREQ : Fld := ⟨0x20300028, 0x40, 40, 0, 1, 0, 1, 0, 25, .ro, false, fun _ _ _ => 0⟩
def AIN_ANG.ANGLE : Fld := ⟨0x2030002C, 0x40, 40, 0, 1, 0, 1, 0, 16, .ro, false, fun _ _ _ => 0⟩
def AIN_ANG.REVS : Fld := ⟨0x2030002C, 0x40, 40, 0, 1, 0, 1, 16, 16, .ro, false, fun _ _ _ => 0⟩
def AIN_ACFG.PPR : Fld := ⟨0x20300030, 0x40, 40, 0, 1, 0, 1, 0, 12, .rw, false, fun _ _ _ => 1⟩
def AIN_ACFG.INTERP : Fld := ⟨0x20300030, 0x40, 40, 0, 1, 0, 1, 14, 1, .rw, false, fun _ _ _ => 0⟩
def AIN_ACFG.NAVG : Fld := ⟨0x20300030, 0x40, 40, 0, 1, 0, 1, 16, 4, .rw, false, fun _ _ _ => 1⟩
def AIN_ACFG.FSH : Fld := ⟨0x20300030, 0x40, 40, 0, 1, 0, 1, 20, 5, .rw, false, fun _ _ _ => 0⟩
def AIN_ACFG.TMO : Fld := ⟨0x20300030, 0x40, 40, 0, 1, 0, 1, 25, 7, .rw, false, fun _ _ _ => 0xA⟩
def AIN_STAT.F : Fld := ⟨0x20300034, 0x40, 40, 0, 1, 0, 1, 0, 6, .w1c, false, fun _ _ _ => 0⟩
def AIN_STAT.SYNC : Fld := ⟨0x20300034, 0x40, 40, 0, 1, 0, 1, 8, 1, .ro, false, fun _ _ _ => 0⟩
def AIN_STAT.ROLE_DUP : Fld := ⟨0x20300034, 0x40, 40, 0, 1, 0, 1, 9, 1, .ro, false, fun _ _ _ => 0⟩
def AIN_STAT.CFG_ERR : Fld := ⟨0x20300034, 0x40, 40, 0, 1, 0, 1, 10, 1, .ro, false, fun _ _ _ => 0⟩
def AIN_CNT.FAULTS : Fld := ⟨0x20300038, 0x40, 40, 0, 1, 0, 1, 0, 16, .rc, false, fun _ _ _ => 0⟩
def AIN_CNT.SYNC_ERR : Fld := ⟨0x20300038, 0x40, 40, 0, 1, 0, 1, 16, 16, .rc, false, fun _ _ _ => 0⟩

/-! Table 6.7 LS block, LSn at 0x2030_4000 + n × 0x80. -/

def LS_CFG.EN : Fld := ⟨0x20304000, 0x80, 16, 0, 1, 0, 1, 0, 1, .rw, false, fun _ _ _ => 0⟩
def LS_CFG.GAIN : Fld := ⟨0x20304000, 0x80, 16, 0, 1, 0, 1, 1, 3, .rw, false, fun _ _ _ => 0⟩
def LS_CFG.HPF : Fld := ⟨0x20304000, 0x80, 16, 0, 1, 0, 1, 4, 2, .rw, false, fun _ _ _ => 1⟩
def LS_CFG.BIN : Fld := ⟨0x20304000, 0x80, 16, 0, 1, 0, 1, 6, 2, .rw, false, fun _ _ _ => 1⟩
def LS_CFG.EV : Fld := ⟨0x20304000, 0x80, 16, 0, 1, 0, 1, 8, 1, .rw, false, fun _ _ _ => 0⟩
def LS_CFG.BIN_EV : Fld := ⟨0x20304000, 0x80, 16, 0, 1, 0, 1, 9, 1, .rw, false, fun _ _ _ => 0⟩
def LS_THR.ON : Fld := ⟨0x20304004, 0x80, 16, 0, 1, 0, 1, 0, 16, .rw, false, fun _ _ _ => 0x400⟩
def LS_THR.OFF : Fld := ⟨0x20304004, 0x80, 16, 0, 1, 0, 1, 16, 16, .rw, false, fun _ _ _ => 0x200⟩
def LS_GRAIN.GMIN : Fld := ⟨0x20304008, 0x80, 16, 0, 1, 0, 1, 0, 16, .rw, false, fun _ _ _ => 0x800⟩
def LS_GRAIN.GMAX : Fld := ⟨0x20304008, 0x80, 16, 0, 1, 0, 1, 16, 16, .rw, false, fun _ _ _ => 0x6000⟩
def LS_TIME.GDUR : Fld := ⟨0x2030400C, 0x80, 16, 0, 1, 0, 1, 0, 8, .rw, false, fun _ _ _ => 0x19⟩
def LS_TIME.END_N : Fld := ⟨0x2030400C, 0x80, 16, 0, 1, 0, 1, 8, 4, .rw, false, fun _ _ _ => 4⟩
def LS_TIME.DEAD_N : Fld := ⟨0x2030400C, 0x80, 16, 0, 1, 0, 1, 16, 8, .rw, false, fun _ _ _ => 5⟩
def LS_TIME.SILENT_T : Fld := ⟨0x2030400C, 0x80, 16, 0, 1, 0, 1, 24, 8, .rw, false, fun _ _ _ => 0⟩
def LS_CLIP.CLIP : Fld := ⟨0x20304010, 0x80, 16, 0, 1, 0, 1, 0, 16, .rw, false, fun _ _ _ => 0x7F00⟩
def LS_CLIP.OPEN_THR : Fld := ⟨0x20304010, 0x80, 16, 0, 1, 0, 1, 16, 16, .rw, false, fun _ _ _ => 0x800⟩
def LS_GRAIN_CNT.W : Fld := ⟨0x20304014, 0x80, 16, 0, 1, 0, 1, 0, 32, .rc, false, fun _ _ _ => 0⟩
def LS_MOG_CNT.W : Fld := ⟨0x20304018, 0x80, 16, 0, 1, 0, 1, 0, 32, .rc, false, fun _ _ _ => 0⟩
def LS_REJ_CNT.W : Fld := ⟨0x2030401C, 0x80, 16, 0, 1, 0, 1, 0, 32, .rc, false, fun _ _ _ => 0⟩
def LS_PILE.W : Fld := ⟨0x20304020, 0x80, 16, 0, 1, 0, 1, 0, 32, .rc, false, fun _ _ _ => 0⟩
def LS_BIN.GRAIN : Fld := ⟨0x20304024, 0x80, 16, 0, 1, 0, 1, 0, 12, .rc, false, fun _ _ _ => 0⟩
def LS_BIN.MOG : Fld := ⟨0x20304024, 0x80, 16, 0, 1, 0, 1, 12, 10, .rc, false, fun _ _ _ => 0⟩
def LS_BIN.REJ : Fld := ⟨0x20304024, 0x80, 16, 0, 1, 0, 1, 22, 6, .rc, false, fun _ _ _ => 0⟩
def LS_BIN.FLT : Fld := ⟨0x20304024, 0x80, 16, 0, 1, 0, 1, 29, 1, .rc, false, fun _ _ _ => 0⟩
def LS_BIN.TRUNC : Fld := ⟨0x20304024, 0x80, 16, 0, 1, 0, 1, 30, 1, .rc, false, fun _ _ _ => 0⟩
def LS_BIN.VALID : Fld := ⟨0x20304024, 0x80, 16, 0, 1, 0, 1, 31, 1, .rc, false, fun _ _ _ => 0⟩
def LS_BIN_MTC.MTC : Fld := ⟨0x20304028, 0x80, 16, 0, 1, 0, 1, 0, 32, .ro, false, fun _ _ _ => 0⟩
def LS_FIFO.LEVEL : Fld := ⟨0x2030402C, 0x80, 16, 0, 1, 0, 1, 0, 5, .ro, false, fun _ _ _ => 0⟩
def LS_FIFO.OVF : Fld := ⟨0x2030402C, 0x80, 16, 0, 1, 0, 1, 16, 16, .rc, false, fun _ _ _ => 0⟩
def LS_LAST.PEAK : Fld := ⟨0x20304030, 0x80, 16, 0, 1, 0, 1, 0, 16, .ro, false, fun _ _ _ => 0⟩
def LS_LAST.N : Fld := ⟨0x20304030, 0x80, 16, 0, 1, 0, 1, 16, 9, .ro, false, fun _ _ _ => 0⟩
def LS_LAST.CLASS : Fld := ⟨0x20304030, 0x80, 16, 0, 1, 0, 1, 25, 2, .ro, false, fun _ _ _ => 0⟩
def LS_STAT.F : Fld := ⟨0x20304034, 0x80, 16, 0, 1, 0, 1, 0, 4, .w1c, false, fun _ _ _ => 0⟩
def LS_STAT.ACTIVE : Fld := ⟨0x20304034, 0x80, 16, 0, 1, 0, 1, 8, 4, .ro, false, fun _ _ _ => 0⟩
def LS_SEQ.BSEQ : Fld := ⟨0x20304038, 0x80, 16, 0, 1, 0, 1, 0, 16, .ro, false, fun _ _ _ => 0⟩
def LS_SEQ.RESTARTS : Fld := ⟨0x20304038, 0x80, 16, 0, 1, 0, 1, 16, 8, .ro, false, fun _ _ _ => 0⟩
def LS_CTL.RESTART : Fld := ⟨0x2030403C, 0x80, 16, 0, 1, 0, 1, 0, 1, .wo, false, fun _ _ _ => 0⟩

/-! Table 6.8 IMU block, at 0x2030_0C00. -/

def IMU_CFG.EN : Fld := ⟨0x20300C00, 0, 1, 0, 1, 0, 1, 0, 1, .rw, false, fun _ _ _ => 1⟩
def IMU_CFG.AFS : Fld := ⟨0x20300C00, 0, 1, 0, 1, 0, 1, 1, 2, .rw, false, fun _ _ _ => 2⟩
def IMU_CFG.GFS : Fld := ⟨0x20300C00, 0, 1, 0, 1, 0, 1, 3, 2, .rw, false, fun _ _ _ => 1⟩
def IMU_CFG.LPF : Fld := ⟨0x20300C00, 0, 1, 0, 1, 0, 1, 5, 2, .rw, false, fun _ _ _ => 0⟩
def IMU_ROT.LO : Fld := ⟨0x20300C04, 0, 1, 4, 5, 0, 1, 0, 16, .rw, false, fun _ j _ => if j = 0 ∨ j = 2 ∨ j = 4 then 0x7FFF else 0⟩
def IMU_ROT.HI : Fld := ⟨0x20300C04, 0, 1, 4, 4, 0, 1, 16, 16, .rw, false, fun _ _ _ => 0⟩
def IMU_AXIS.VAL : Fld := ⟨0x20300C20, 0, 1, 4, 6, 0, 1, 0, 16, .ro, false, fun _ _ _ => 0⟩
def IMU_AXIS.FLT : Fld := ⟨0x20300C20, 0, 1, 4, 6, 0, 1, 16, 1, .ro, false, fun _ _ _ => 0⟩
def IMU_AXIS.SEQ : Fld := ⟨0x20300C20, 0, 1, 4, 6, 0, 1, 20, 12, .ro, false, fun _ _ _ => 0⟩
def IMU_TEMP.T : Fld := ⟨0x20300C38, 0, 1, 0, 1, 0, 1, 0, 16, .ro, false, fun _ _ _ => 0⟩
def IMU_MTC_LO.MTC : Fld := ⟨0x20300C3C, 0, 1, 0, 1, 0, 1, 0, 32, .ro, false, fun _ _ _ => 0⟩
def IMU_MTC_HI.MTC : Fld := ⟨0x20300C40, 0, 1, 0, 1, 0, 1, 0, 32, .ro, false, fun _ _ _ => 0⟩
def IMU_STAT.AXIS_FLT : Fld := ⟨0x20300C44, 0, 1, 0, 1, 0, 1, 0, 6, .ro, false, fun _ _ _ => 0⟩
def IMU_STAT.SELFTEST_FAIL : Fld := ⟨0x20300C44, 0, 1, 0, 1, 0, 1, 8, 1, .ro, false, fun _ _ _ => 0⟩

/-! Table 7.9 Camera port block, CAMn at 0x2040_0000 + n × 0x800. -/

def CAM_CFG.EN : Fld := ⟨0x20400000, 0x800, 10, 0, 1, 0, 1, 0, 1, .rw, false, fun _ _ _ => 0⟩
def CAM_CFG.PIPE : Fld := ⟨0x20400000, 0x800, 10, 0, 1, 0, 1, 1, 3, .rw, false, fun _ _ _ => 7⟩
def CAM_CFG.DT : Fld := ⟨0x20400000, 0x800, 10, 0, 1, 0, 1, 4, 6, .rw, false, fun _ _ _ => 0x2C⟩
def CAM_CFG.NEXP : Fld := ⟨0x20400000, 0x800, 10, 0, 1, 0, 1, 10, 2, .rw, false, fun _ _ _ => 1⟩
def CAM_CFG.VCBASE : Fld := ⟨0x20400000, 0x800, 10, 0, 1, 0, 1, 12, 4, .rw, false, fun _ _ _ => 0⟩
def CAM_CFG.EMB_EN : Fld := ⟨0x20400000, 0x800, 10, 0, 1, 0, 1, 16, 1, .rw, false, fun _ _ _ => 0⟩
def CAM_CFG.LAT : Fld := ⟨0x20400000, 0x800, 10, 0, 1, 0, 1, 17, 2, .rw, false, fun _ _ _ => 0⟩
def CAM_CFG.GEN_REG_EN : Fld := ⟨0x20400000, 0x800, 10, 0, 1, 0, 1, 19, 1, .rw, false, fun _ _ _ => 0⟩
def CAM_CFG.FRAME_EV : Fld := ⟨0x20400000, 0x800, 10, 0, 1, 0, 1, 20, 1, .rw, false, fun _ _ _ => 0⟩
def CAM_SIZE.WIDTH : Fld := ⟨0x20400004, 0x800, 10, 0, 1, 0, 1, 0, 12, .rw, false, fun _ _ _ => 0⟩
def CAM_SIZE.HEIGHT : Fld := ⟨0x20400004, 0x800, 10, 0, 1, 0, 1, 16, 12, .rw, false, fun _ _ _ => 0⟩
def CAM_PERIOD.PERIOD : Fld := ⟨0x20400008, 0x800, 10, 0, 1, 0, 1, 0, 32, .rw, false, fun _ _ _ => 0x65B9AB⟩
def CAM_TOL.LATE_TOL : Fld := ⟨0x2040000C, 0x800, 10, 0, 1, 0, 1, 0, 16, .rw, false, fun _ _ _ => 0x1F4⟩
def CAM_TOL.MISS_LIMIT : Fld := ⟨0x2040000C, 0x800, 10, 0, 1, 0, 1, 16, 8, .rw, false, fun _ _ _ => 3⟩
def CAM_TOL.ADMIT_N : Fld := ⟨0x2040000C, 0x800, 10, 0, 1, 0, 1, 24, 8, .rw, false, fun _ _ _ => 3⟩
def CAM_OFS.SENSOR_OFS : Fld := ⟨0x20400010, 0x800, 10, 0, 1, 0, 1, 0, 32, .rw, false, fun _ _ _ => 0⟩
def CAM_LINK.GEAR : Fld := ⟨0x20400014, 0x800, 10, 0, 1, 0, 1, 0, 2, .rw, false, fun _ _ _ => 2⟩
def CAM_LINK.I2C : Fld := ⟨0x20400014, 0x800, 10, 0, 1, 0, 1, 4, 2, .rw, false, fun _ _ _ => 1⟩
def CAM_LINK.STATE : Fld := ⟨0x20400014, 0x800, 10, 0, 1, 0, 1, 8, 3, .ro, false, fun _ _ _ => 0⟩
def CAM_LINK.LINK_UP : Fld := ⟨0x20400014, 0x800, 10, 0, 1, 0, 1, 11, 1, .ro, false, fun _ _ _ => 0⟩
def CAM_LINK.LINK_ERR : Fld := ⟨0x20400014, 0x800, 10, 0, 1, 0, 1, 16, 16, .rc, false, fun _ _ _ => 0⟩
def CAM_FLAGS.F : Fld := ⟨0x20400018, 0x800, 10, 0, 1, 0, 1, 0, 16, .w1c, true, fun _ _ _ => 0⟩
def CAM_EVMASK.F : Fld := ⟨0x2040001C, 0x800, 10, 0, 1, 0, 1, 0, 16, .rw, false, fun _ _ _ => 0⟩
def CAM_CNT0.CRC : Fld := ⟨0x20400020, 0x800, 10, 0, 1, 0, 1, 0, 16, .rc, false, fun _ _ _ => 0⟩
def CAM_CNT0.ECC_CORR : Fld := ⟨0x20400020, 0x800, 10, 0, 1, 0, 1, 16, 16, .rc, false, fun _ _ _ => 0⟩
def CAM_CNT1.SHORT : Fld := ⟨0x20400024, 0x800, 10, 0, 1, 0, 1, 0, 16, .rc, false, fun _ _ _ => 0⟩
def CAM_CNT1.EXTRA : Fld := ⟨0x20400024, 0x800, 10, 0, 1, 0, 1, 16, 16, .rc, false, fun _ _ _ => 0⟩
def CAM_CNT2.LATE : Fld := ⟨0x20400028, 0x800, 10, 0, 1, 0, 1, 0, 16, .rc, false, fun _ _ _ => 0⟩
def CAM_CNT2.MISSING : Fld := ⟨0x20400028, 0x800, 10, 0, 1, 0, 1, 16, 16, .rc, false, fun _ _ _ => 0⟩
def CAM_CNT3.GEN_MISMATCH : Fld := ⟨0x2040002C, 0x800, 10, 0, 1, 0, 1, 0, 16, .rc, false, fun _ _ _ => 0⟩
def CAM_CNT3.NOBUF : Fld := ⟨0x2040002C, 0x800, 10, 0, 1, 0, 1, 16, 16, .rc, false, fun _ _ _ => 0⟩
def CAM_CNT4.EARLY : Fld := ⟨0x20400030, 0x800, 10, 0, 1, 0, 1, 0, 16, .rc, false, fun _ _ _ => 0⟩
def CAM_CNT4.SET_IGN : Fld := ⟨0x20400030, 0x800, 10, 0, 1, 0, 1, 16, 16, .rc, false, fun _ _ _ => 0⟩
def CAM_FRAME.FSEQ : Fld := ⟨0x20400034, 0x800, 10, 0, 1, 0, 1, 0, 16, .ro, false, fun _ _ _ => 0⟩
def CAM_FRAME.WBUF : Fld := ⟨0x20400034, 0x800, 10, 0, 1, 0, 1, 16, 4, .ro, false, fun _ _ _ => 0⟩
def CAM_FRAME.WACT : Fld := ⟨0x20400034, 0x800, 10, 0, 1, 0, 1, 20, 1, .ro, false, fun _ _ _ => 0⟩
def CAM_FRAME.GEN_LAST : Fld := ⟨0x20400034, 0x800, 10, 0, 1, 0, 1, 24, 8, .ro, false, fun _ _ _ => 0⟩
def CAM_FS_LO.MTC : Fld := ⟨0x20400038, 0x800, 10, 0, 1, 0, 1, 0, 32, .ro, false, fun _ _ _ => 0⟩
def CAM_FS_HI.MTC : Fld := ⟨0x2040003C, 0x800, 10, 0, 1, 0, 1, 0, 32, .ro, false, fun _ _ _ => 0⟩
def FR_BASE_LO.ADDR : Fld := ⟨0x20400040, 0x800, 10, 0, 1, 0, 1, 12, 20, .rw, false, fun _ _ _ => 0⟩
def FR_BASE_HI.ADDR : Fld := ⟨0x20400044, 0x800, 10, 0, 1, 0, 1, 0, 8, .rw, false, fun _ _ _ => 0⟩
def FR_CFG.NBUF : Fld := ⟨0x20400048, 0x800, 10, 0, 1, 0, 1, 0, 5, .rw, false, fun _ _ _ => 4⟩
def FR_CFG.STRIDE : Fld := ⟨0x20400048, 0x800, 10, 0, 1, 0, 1, 12, 20, .rw, false, fun _ _ _ => 0⟩
def FR_HOLD.HOLD : Fld := ⟨0x2040004C, 0x800, 10, 0, 1, 0, 1, 0, 16, .rw, false, fun _ _ _ => 0⟩
def DESC_BASE_LO.ADDR : Fld := ⟨0x20400050, 0x800, 10, 0, 1, 0, 1, 11, 21, .rw, false, fun _ _ _ => 0⟩
def DESC_BASE_HI.ADDR : Fld := ⟨0x20400054, 0x800, 10, 0, 1, 0, 1, 0, 8, .rw, false, fun _ _ _ => 0⟩
def STAT_BASE_LO.ADDR : Fld := ⟨0x20400058, 0x800, 10, 0, 1, 0, 1, 16, 16, .rw, false, fun _ _ _ => 0⟩
def STAT_BASE_HI.ADDR : Fld := ⟨0x2040005C, 0x800, 10, 0, 1, 0, 1, 0, 8, .rw, false, fun _ _ _ => 0⟩
def OUT_CFG.FMT : Fld := ⟨0x20400060, 0x800, 10, 0, 1, 0, 1, 0, 2, .rw, false, fun _ _ _ => 0⟩
def OUT_CFG.SCALE : Fld := ⟨0x20400060, 0x800, 10, 0, 1, 0, 1, 2, 2, .rw, false, fun _ _ _ => 0⟩
def OUT_CFG.TAP_LIN : Fld := ⟨0x20400060, 0x800, 10, 0, 1, 0, 1, 4, 1, .rw, false, fun _ _ _ => 0⟩
def OUT_CFG.TAP_MERGE : Fld := ⟨0x20400060, 0x800, 10, 0, 1, 0, 1, 5, 1, .rw, false, fun _ _ _ => 0⟩
def OUT_CFG.TAP_TONE : Fld := ⟨0x20400060, 0x800, 10, 0, 1, 0, 1, 6, 1, .rw, false, fun _ _ _ => 0⟩
def OUT_CFG.LIN_EXP : Fld := ⟨0x20400060, 0x800, 10, 0, 1, 0, 1, 8, 2, .rw, false, fun _ _ _ => 0⟩
def TAP_OFS.OFS : Fld := ⟨0x20400064, 0x800, 10, 4, 3, 0, 1, 0, 20, .rw, false, fun _ _ _ => 0⟩
def SET_CTL.NW : Fld := ⟨0x20400080, 0x800, 10, 0, 1, 0, 1, 0, 5, .rw, true, fun _ _ _ => 1⟩
def SET_CTL.GO : Fld := ⟨0x20400080, 0x800, 10, 0, 1, 0, 1, 8, 1, .w1s, true, fun _ _ _ => 0⟩
def SET_CTL.GEN : Fld := ⟨0x20400080, 0x800, 10, 0, 1, 0, 1, 16, 8, .ro, false, fun _ _ _ => 0⟩
def SET_DEV.DEV : Fld := ⟨0x20400084, 0x800, 10, 0, 1, 0, 1, 0, 7, .rw, false, fun _ _ _ => 0⟩
def SET_DEV.ADDR16 : Fld := ⟨0x20400084, 0x800, 10, 0, 1, 0, 1, 8, 1, .rw, false, fun _ _ _ => 0⟩
def SET_DEV.DATA16 : Fld := ⟨0x20400084, 0x800, 10, 0, 1, 0, 1, 9, 1, .rw, false, fun _ _ _ => 0⟩
def SET_GENREG.REG : Fld := ⟨0x20400088, 0x800, 10, 0, 1, 0, 1, 0, 16, .rw, false, fun _ _ _ => 0⟩
def SET_GENREG.EMB_BYTE : Fld := ⟨0x20400088, 0x800, 10, 0, 1, 0, 1, 16, 12, .rw, false, fun _ _ _ => 0⟩
def SET_DONE_MTC.MTC : Fld := ⟨0x2040008C, 0x800, 10, 0, 1, 0, 1, 0, 32, .ro, false, fun _ _ _ => 0⟩
def SET_W.REG : Fld := ⟨0x204000C0, 0x800, 10, 4, 16, 0, 1, 0, 16, .rw, true, fun _ _ _ => 0⟩
def SET_W.DATA : Fld := ⟨0x204000C0, 0x800, 10, 4, 16, 0, 1, 16, 16, .rw, true, fun _ _ _ => 0⟩

/-! Table 7.10 Image pipe block, PIPEp at 0x2041_0000 + p × 0x4000. -/

def PIPE_CFG.CFA : Fld := ⟨0x20410000, 0x4000, 4, 0, 1, 0, 1, 0, 2, .rw, false, fun _ _ _ => 0⟩
def PIPE_CFG.MONO : Fld := ⟨0x20410000, 0x4000, 4, 0, 1, 0, 1, 2, 1, .rw, false, fun _ _ _ => 0⟩
def PIPE_CFG.DYN_EN : Fld := ⟨0x20410000, 0x4000, 4, 0, 1, 0, 1, 3, 1, .rw, false, fun _ _ _ => 0⟩
def PIPE_CTL.TBL_SWITCH : Fld := ⟨0x20410004, 0x4000, 4, 0, 1, 0, 1, 0, 1, .w1s, false, fun _ _ _ => 0⟩
def PIPE_STAT.TBL_GEN : Fld := ⟨0x20410008, 0x4000, 4, 0, 1, 0, 1, 0, 8, .ro, false, fun _ _ _ => 0⟩
def PIPE_STAT.LOAD : Fld := ⟨0x20410008, 0x4000, 4, 0, 1, 0, 1, 8, 10, .ro, false, fun _ _ _ => 0⟩
def PIPE_STAT.PORTS : Fld := ⟨0x20410008, 0x4000, 4, 0, 1, 0, 1, 18, 10, .ro, false, fun _ _ _ => 0⟩
def PIPE_CNT.OVERRUN : Fld := ⟨0x2041000C, 0x4000, 4, 0, 1, 0, 1, 0, 16, .rc, false, fun _ _ _ => 0⟩
def PIPE_CNT.SHADOW_IGN : Fld := ⟨0x2041000C, 0x4000, 4, 0, 1, 0, 1, 16, 16, .rc, false, fun _ _ _ => 0⟩
def PIPE_CNT1.DPC_SKIP : Fld := ⟨0x20410010, 0x4000, 4, 0, 1, 0, 1, 0, 16, .rc, false, fun _ _ _ => 0⟩
def MERGE_R.R1 : Fld := ⟨0x20410040, 0x4000, 4, 0, 1, 0, 1, 0, 16, .rw, false, fun _ _ _ => 0x1000⟩
def MERGE_R.R2 : Fld := ⟨0x20410040, 0x4000, 4, 0, 1, 0, 1, 16, 16, .rw, false, fun _ _ _ => 0x1000⟩
def MERGE_KNEE.KNEE : Fld := ⟨0x20410044, 0x4000, 4, 0, 1, 0, 1, 0, 24, .rw, false, fun _ _ _ => 0xF00000⟩
def BLACK01.BLACK0 : Fld := ⟨0x20410048, 0x4000, 4, 0, 1, 0, 1, 0, 16, .rw, false, fun _ _ _ => 0⟩
def BLACK01.BLACK1 : Fld := ⟨0x20410048, 0x4000, 4, 0, 1, 0, 1, 16, 16, .rw, false, fun _ _ _ => 0⟩
def BLACK23.BLACK2 : Fld := ⟨0x2041004C, 0x4000, 4, 0, 1, 0, 1, 0, 16, .rw, false, fun _ _ _ => 0⟩
def BLACK23.BLACK3 : Fld := ⟨0x2041004C, 0x4000, 4, 0, 1, 0, 1, 16, 16, .rw, false, fun _ _ _ => 0⟩
def DPC_LIST_LO.ADDR : Fld := ⟨0x20410050, 0x4000, 4, 0, 1, 0, 1, 2, 30, .rw, false, fun _ _ _ => 0⟩
def DPC_LIST_HI.ADDR : Fld := ⟨0x20410054, 0x4000, 4, 0, 1, 0, 1, 0, 8, .rw, false, fun _ _ _ => 0⟩
def DPC_CFG.DPC_N : Fld := ⟨0x20410058, 0x4000, 4, 0, 1, 0, 1, 0, 12, .rw, false, fun _ _ _ => 0⟩
def DPC_CFG.DYN_THR : Fld := ⟨0x20410058, 0x4000, 4, 0, 1, 0, 1, 16, 16, .rw, false, fun _ _ _ => 0x1000⟩
def CCM.LO : Fld := ⟨0x20410060, 0x4000, 4, 4, 5, 0, 1, 0, 16, .rw, false, fun _ j _ => if j = 0 ∨ j = 2 ∨ j = 4 then 0x1000 else 0⟩
def CCM.HI : Fld := ⟨0x20410060, 0x4000, 4, 4, 4, 0, 1, 16, 16, .rw, false, fun _ _ _ => 0⟩
def WB_RG.GR : Fld := ⟨0x20410074, 0x4000, 4, 0, 1, 0, 1, 0, 16, .rw, false, fun _ _ _ => 0x1000⟩
def WB_RG.GG : Fld := ⟨0x20410074, 0x4000, 4, 0, 1, 0, 1, 16, 16, .rw, false, fun _ _ _ => 0x1000⟩
def WB_B.GB : Fld := ⟨0x20410078, 0x4000, 4, 0, 1, 0, 1, 0, 16, .rw, false, fun _ _ _ => 0x1000⟩
def AC_MERGE_R.R1 : Fld := ⟨0x204100C0, 0x4000, 4, 0, 1, 0, 1, 0, 16, .ro, false, fun _ _ _ => 0x1000⟩
def AC_MERGE_R.R2 : Fld := ⟨0x204100C0, 0x4000, 4, 0, 1, 0, 1, 16, 16, .ro, false, fun _ _ _ => 0x1000⟩
def AC_MERGE_KNEE.KNEE : Fld := ⟨0x204100C4, 0x4000, 4, 0, 1, 0, 1, 0, 24, .ro, false, fun _ _ _ => 0xF00000⟩
def AC_BLACK01.BLACK0 : Fld := ⟨0x204100C8, 0x4000, 4, 0, 1, 0, 1, 0, 16, .ro, false, fun _ _ _ => 0⟩
def AC_BLACK01.BLACK1 : Fld := ⟨0x204100C8, 0x4000, 4, 0, 1, 0, 1, 16, 16, .ro, false, fun _ _ _ => 0⟩
def AC_BLACK23.BLACK2 : Fld := ⟨0x204100CC, 0x4000, 4, 0, 1, 0, 1, 0, 16, .ro, false, fun _ _ _ => 0⟩
def AC_BLACK23.BLACK3 : Fld := ⟨0x204100CC, 0x4000, 4, 0, 1, 0, 1, 16, 16, .ro, false, fun _ _ _ => 0⟩
def AC_DPC_LIST_LO.ADDR : Fld := ⟨0x204100D0, 0x4000, 4, 0, 1, 0, 1, 2, 30, .ro, false, fun _ _ _ => 0⟩
def AC_DPC_LIST_HI.ADDR : Fld := ⟨0x204100D4, 0x4000, 4, 0, 1, 0, 1, 0, 8, .ro, false, fun _ _ _ => 0⟩
def AC_DPC_CFG.DPC_N : Fld := ⟨0x204100D8, 0x4000, 4, 0, 1, 0, 1, 0, 12, .ro, false, fun _ _ _ => 0⟩
def AC_DPC_CFG.DYN_THR : Fld := ⟨0x204100D8, 0x4000, 4, 0, 1, 0, 1, 16, 16, .ro, false, fun _ _ _ => 0x1000⟩
def AC_CCM.LO : Fld := ⟨0x204100E0, 0x4000, 4, 4, 5, 0, 1, 0, 16, .ro, false, fun _ j _ => if j = 0 ∨ j = 2 ∨ j = 4 then 0x1000 else 0⟩
def AC_CCM.HI : Fld := ⟨0x204100E0, 0x4000, 4, 4, 4, 0, 1, 16, 16, .ro, false, fun _ _ _ => 0⟩
def AC_WB_RG.GR : Fld := ⟨0x204100F4, 0x4000, 4, 0, 1, 0, 1, 0, 16, .ro, false, fun _ _ _ => 0x1000⟩
def AC_WB_RG.GG : Fld := ⟨0x204100F4, 0x4000, 4, 0, 1, 0, 1, 16, 16, .ro, false, fun _ _ _ => 0x1000⟩
def AC_WB_B.GB : Fld := ⟨0x204100F8, 0x4000, 4, 0, 1, 0, 1, 0, 16, .ro, false, fun _ _ _ => 0x1000⟩
def LIN_SH.L : Fld := ⟨0x20411000, 0x4000, 4, 4, 257, 0, 1, 0, 24, .rw, false, fun _ j _ => min (j * 65536) 0xFFFFFF⟩
def LIN_AC.L : Fld := ⟨0x20411800, 0x4000, 4, 4, 257, 0, 1, 0, 24, .ro, false, fun _ j _ => min (j * 65536) 0xFFFFFF⟩
def TONE_SH.T : Fld := ⟨0x20412000, 0x4000, 4, 0x400, 3, 4, 257, 0, 16, .rw, false, fun _ _ k => min (k * 256) 0xFFFF⟩
def TONE_AC.T : Fld := ⟨0x20413000, 0x4000, 4, 0x400, 3, 4, 257, 0, 16, .ro, false, fun _ _ k => min (k * 256) 0xFFFF⟩

/-! Table 8.9 Cuvee global registers, at 0x2050_0000. -/

def CV_CTL.EN : Fld := ⟨0x20500000, 0, 1, 0, 1, 0, 1, 0, 1, .rw, false, fun _ _ _ => 0⟩
def CV_CTL.REV_EN : Fld := ⟨0x20500000, 0, 1, 0, 1, 0, 1, 1, 1, .rw, false, fun _ _ _ => 1⟩
def CV_CTL.GRID_EN : Fld := ⟨0x20500000, 0, 1, 0, 1, 0, 1, 2, 1, .rw, false, fun _ _ _ => 0⟩
def CV_EPOCH.WAIT_LIMIT : Fld := ⟨0x20500004, 0, 1, 0, 1, 0, 1, 0, 8, .rw, false, fun _ _ _ => 0x50⟩
def CV_EPOCH.REV_HORIZON : Fld := ⟨0x20500004, 0, 1, 0, 1, 0, 1, 8, 12, .rw, false, fun _ _ _ => 0x64⟩
def CV_EPOCH.DROP_N : Fld := ⟨0x20500004, 0, 1, 0, 1, 0, 1, 24, 4, .rw, false, fun _ _ _ => 2⟩
def CV_CONF.DECAY : Fld := ⟨0x20500008, 0, 1, 0, 1, 0, 1, 0, 8, .rw, false, fun _ _ _ => 0xE0⟩
def CV_CONF.C_FLOOR : Fld := ⟨0x20500008, 0, 1, 0, 1, 0, 1, 8, 8, .rw, false, fun _ _ _ => 0x10⟩
def CV_CONF.C_MIN : Fld := ⟨0x20500008, 0, 1, 0, 1, 0, 1, 16, 8, .rw, false, fun _ _ _ => 0x40⟩
def CV_CONF.H_MARGIN : Fld := ⟨0x20500008, 0, 1, 0, 1, 0, 1, 24, 8, .rw, false, fun _ _ _ => 0x20⟩
def CV_RES.RES_THR : Fld := ⟨0x2050000C, 0, 1, 0, 1, 0, 1, 0, 8, .rw, false, fun _ _ _ => 0xC⟩
def CV_RES.RES_N : Fld := ⟨0x2050000C, 0, 1, 0, 1, 0, 1, 8, 4, .rw, false, fun _ _ _ => 4⟩
def CV_RES.READMIT_N : Fld := ⟨0x2050000C, 0, 1, 0, 1, 0, 1, 12, 4, .rw, false, fun _ _ _ => 8⟩
def CV_RES.H_UP : Fld := ⟨0x2050000C, 0, 1, 0, 1, 0, 1, 16, 8, .rw, false, fun _ _ _ => 4⟩
def CV_RES.H_DN : Fld := ⟨0x2050000C, 0, 1, 0, 1, 0, 1, 24, 8, .rw, false, fun _ _ _ => 0x10⟩
def CV_CON.CON_THR : Fld := ⟨0x20500010, 0, 1, 0, 1, 0, 1, 0, 8, .rw, false, fun _ _ _ => 0x14⟩
def CV_CON.CON_N : Fld := ⟨0x20500010, 0, 1, 0, 1, 0, 1, 8, 4, .rw, false, fun _ _ _ => 4⟩
def CV_CON.SHARE_MIN : Fld := ⟨0x20500010, 0, 1, 0, 1, 0, 1, 16, 12, .rw, false, fun _ _ _ => 0x190⟩
def CV_RESMASK_LO.W : Fld := ⟨0x20500014, 0, 1, 0, 1, 0, 1, 0, 32, .rw, false, fun _ _ _ => 0xFFFFFFFF⟩
def CV_RESMASK_HI.W : Fld := ⟨0x20500018, 0, 1, 0, 1, 0, 1, 0, 32, .rw, false, fun _ _ _ => 0xFFFFFFFF⟩
def GRID_BASE_LO.ADDR : Fld := ⟨0x20500020, 0, 1, 0, 1, 0, 1, 21, 11, .rw, false, fun _ _ _ => 0⟩
def GRID_BASE_HI.ADDR : Fld := ⟨0x20500024, 0, 1, 0, 1, 0, 1, 0, 8, .rw, false, fun _ _ _ => 0⟩
def GRID_CFG.NBUF : Fld := ⟨0x20500028, 0, 1, 0, 1, 0, 1, 0, 4, .rw, false, fun _ _ _ => 4⟩
def GRID_PUB.EPOCH : Fld := ⟨0x2050002C, 0, 1, 0, 1, 0, 1, 0, 32, .ro, false, fun _ _ _ => 0⟩
def GRID_STAT.SLOT : Fld := ⟨0x20500030, 0, 1, 0, 1, 0, 1, 0, 3, .ro, false, fun _ _ _ => 0⟩
def GRID_STAT.VALID : Fld := ⟨0x20500030, 0, 1, 0, 1, 0, 1, 8, 1, .ro, false, fun _ _ _ => 0⟩
def GRID_STAT.MASKED : Fld := ⟨0x20500030, 0, 1, 0, 1, 0, 1, 16, 16, .ro, false, fun _ _ _ => 0⟩
def GRID_PUB_MTC_LO.MTC : Fld := ⟨0x20500034, 0, 1, 0, 1, 0, 1, 0, 32, .ro, false, fun _ _ _ => 0⟩
def GRID_PUB_MTC_HI.MTC : Fld := ⟨0x20500038, 0, 1, 0, 1, 0, 1, 0, 32, .ro, false, fun _ _ _ => 0⟩
def MOTION_SPD.ADDR : Fld := ⟨0x20500040, 0, 1, 0, 1, 0, 1, 2, 26, .rw, false, fun _ _ _ => 0⟩
def MOTION_YAW.ADDR : Fld := ⟨0x20500044, 0, 1, 0, 1, 0, 1, 2, 26, .rw, false, fun _ _ _ => 0⟩
def MOTION_YAW.GFS : Fld := ⟨0x20500044, 0, 1, 0, 1, 0, 1, 30, 2, .rw, false, fun _ _ _ => 1⟩
def ROLE_MAP.W : Fld := ⟨0x20500048, 0, 1, 4, 2, 0, 1, 0, 32, .rw, false, fun _ _ _ => 0⟩
def CV_FLAGS.F : Fld := ⟨0x20500050, 0, 1, 0, 1, 0, 1, 0, 10, .w1c, false, fun _ _ _ => 0⟩
def CV_EVMASK.F : Fld := ⟨0x20500054, 0, 1, 0, 1, 0, 1, 0, 10, .rw, false, fun _ _ _ => 0⟩
def CV_CNT0.LATE : Fld := ⟨0x20500058, 0, 1, 0, 1, 0, 1, 0, 16, .rc, false, fun _ _ _ => 0⟩
def CV_CNT0.REV : Fld := ⟨0x20500058, 0, 1, 0, 1, 0, 1, 16, 16, .rc, false, fun _ _ _ => 0⟩
def CV_CNT1.LATE_DROP : Fld := ⟨0x2050005C, 0, 1, 0, 1, 0, 1, 0, 16, .rc, false, fun _ _ _ => 0⟩
def CV_CNT1.EP_DROP : Fld := ⟨0x2050005C, 0, 1, 0, 1, 0, 1, 16, 16, .rc, false, fun _ _ _ => 0⟩
def CV_CNT2.FUTURE : Fld := ⟨0x20500060, 0, 1, 0, 1, 0, 1, 0, 16, .rc, false, fun _ _ _ => 0⟩
def CV_CNT2.RELEASE_TMO : Fld := ⟨0x20500060, 0, 1, 0, 1, 0, 1, 16, 16, .rc, false, fun _ _ _ => 0⟩
def CV_LOAD.PROC_LAST : Fld := ⟨0x20500064, 0, 1, 0, 1, 0, 1, 0, 16, .ro, false, fun _ _ _ => 0⟩
def CV_LOAD.PROC_MAX : Fld := ⟨0x20500064, 0, 1, 0, 1, 0, 1, 16, 16, .rc, false, fun _ _ _ => 0⟩
def CV_SRAM.USED : Fld := ⟨0x20500068, 0, 1, 0, 1, 0, 1, 0, 10, .ro, false, fun _ _ _ => 0⟩
def HG_SH.W : Fld := ⟨0x20500070, 0, 1, 4, 4, 0, 1, 0, 32, .rw, false, fun _ _ _ => 0⟩
def HG_CTL.COMMIT : Fld := ⟨0x20500080, 0, 1, 0, 1, 0, 1, 0, 1, .w1s, false, fun _ _ _ => 0⟩
def HG_CTL.PEND : Fld := ⟨0x20500080, 0, 1, 0, 1, 0, 1, 1, 1, .ro, false, fun _ _ _ => 0⟩
def HG_CTL.GEN : Fld := ⟨0x20500080, 0, 1, 0, 1, 0, 1, 8, 8, .ro, false, fun _ _ _ => 0⟩
def HG_CTL.IGN : Fld := ⟨0x20500080, 0, 1, 0, 1, 0, 1, 16, 16, .rc, false, fun _ _ _ => 0⟩
def HG_AC.W : Fld := ⟨0x20500090, 0, 1, 4, 4, 0, 1, 0, 32, .ro, false, fun _ _ _ => 0⟩

/-! Table 8.10 Sensor slot SENSs, at 0x2050_1000 + s × 0x40. -/

def SENS_CFG.EN : Fld := ⟨0x20501000, 0x40, 16, 0, 1, 0, 1, 0, 1, .rw, false, fun _ _ _ => 0⟩
def SENS_CFG.KIND : Fld := ⟨0x20501000, 0x40, 16, 0, 1, 0, 1, 1, 2, .rw, false, fun _ _ _ => 0⟩
def SENS_CFG.SRC : Fld := ⟨0x20501000, 0x40, 16, 0, 1, 0, 1, 4, 4, .rw, false, fun _ _ _ => 0⟩
def SENS_CFG.STREAM : Fld := ⟨0x20501000, 0x40, 16, 0, 1, 0, 1, 8, 8, .rw, false, fun _ _ _ => 0⟩
def SENS_CFG.MODEL : Fld := ⟨0x20501000, 0x40, 16, 0, 1, 0, 1, 16, 4, .rw, false, fun _ _ _ => 0⟩
def SENS_CFG.PROB_USE : Fld := ⟨0x20501000, 0x40, 16, 0, 1, 0, 1, 20, 1, .rw, false, fun _ _ _ => 0⟩
def SENS_CFG.MASK : Fld := ⟨0x20501000, 0x40, 16, 0, 1, 0, 1, 21, 1, .rw, false, fun _ _ _ => 0⟩
def SENS_CFG.JIT : Fld := ⟨0x20501000, 0x40, 16, 0, 1, 0, 1, 24, 8, .rw, false, fun _ _ _ => 5⟩
def SENS_PERIOD.PERIOD : Fld := ⟨0x20501004, 0x40, 16, 0, 1, 0, 1, 0, 32, .rw, false, fun _ _ _ => 0⟩
def SENS_HCFG.H0 : Fld := ⟨0x20501008, 0x40, 16, 0, 1, 0, 1, 0, 8, .rw, false, fun _ _ _ => 0xC0⟩
def SENS_HCFG.H_ADMIT : Fld := ⟨0x20501008, 0x40, 16, 0, 1, 0, 1, 8, 8, .rw, false, fun _ _ _ => 0xA0⟩
def SENS_STAT.STATE : Fld := ⟨0x2050100C, 0x40, 16, 0, 1, 0, 1, 0, 2, .ro, false, fun _ _ _ => 0⟩
def SENS_STAT.REASON : Fld := ⟨0x2050100C, 0x40, 16, 0, 1, 0, 1, 4, 3, .ro, false, fun _ _ _ => 0⟩
def SENS_STAT.HEALTH : Fld := ⟨0x2050100C, 0x40, 16, 0, 1, 0, 1, 8, 8, .ro, false, fun _ _ _ => 0⟩
def SENS_STAT.RESID : Fld := ⟨0x2050100C, 0x40, 16, 0, 1, 0, 1, 16, 8, .ro, false, fun _ _ _ => 0⟩
def SENS_STAT.DROP_RUN : Fld := ⟨0x2050100C, 0x40, 16, 0, 1, 0, 1, 24, 4, .ro, false, fun _ _ _ => 0⟩
def SENS_CNT0.LATE : Fld := ⟨0x20501010, 0x40, 16, 0, 1, 0, 1, 0, 16, .rc, false, fun _ _ _ => 0⟩
def SENS_CNT0.FUTURE : Fld := ⟨0x20501010, 0x40, 16, 0, 1, 0, 1, 16, 16, .rc, false, fun _ _ _ => 0⟩
def SENS_CNT1.DROPOUTS : Fld := ⟨0x20501014, 0x40, 16, 0, 1, 0, 1, 0, 16, .rc, false, fun _ _ _ => 0⟩
def SENS_CNT1.MASKS : Fld := ⟨0x20501014, 0x40, 16, 0, 1, 0, 1, 16, 16, .rc, false, fun _ _ _ => 0⟩
def SENS_CNT2.LOST : Fld := ⟨0x20501018, 0x40, 16, 0, 1, 0, 1, 0, 16, .rc, false, fun _ _ _ => 0⟩
def SENS_CNT2.OBJECTS : Fld := ⟨0x20501018, 0x40, 16, 0, 1, 0, 1, 16, 16, .rc, false, fun _ _ _ => 0⟩
def SENS_LAST_LO.MTC : Fld := ⟨0x2050101C, 0x40, 16, 0, 1, 0, 1, 0, 32, .ro, false, fun _ _ _ => 0⟩
def SENS_LAST_HI.MTC : Fld := ⟨0x20501020, 0x40, 16, 0, 1, 0, 1, 0, 32, .ro, false, fun _ _ _ => 0⟩
def SENS_GEN.TT_GEN : Fld := ⟨0x20501024, 0x40, 16, 0, 1, 0, 1, 0, 8, .ro, false, fun _ _ _ => 0⟩
def SENS_GEN.MODEL_GEN : Fld := ⟨0x20501024, 0x40, 16, 0, 1, 0, 1, 8, 8, .ro, false, fun _ _ _ => 0⟩
def SENS_GEN.FRAME_GEN : Fld := ⟨0x20501024, 0x40, 16, 0, 1, 0, 1, 16, 8, .ro, false, fun _ _ _ => 0⟩
def SENS_GEN.TBL_GEN : Fld := ⟨0x20501024, 0x40, 16, 0, 1, 0, 1, 24, 8, .ro, false, fun _ _ _ => 0⟩

/-! Table 8.11 Model slot MSm, at 0x2050_1800 + m × 0x20. -/

def MS_SH_LO.ADDR : Fld := ⟨0x20501800, 0x20, 16, 0, 1, 0, 1, 6, 26, .rw, false, fun _ _ _ => 0⟩
def MS_SH_HI.ADDR : Fld := ⟨0x20501804, 0x20, 16, 0, 1, 0, 1, 0, 8, .rw, false, fun _ _ _ => 0⟩
def MS_CTL.SWAP : Fld := ⟨0x20501808, 0x20, 16, 0, 1, 0, 1, 0, 1, .w1s, false, fun _ _ _ => 0⟩
def MS_STAT.GEN : Fld := ⟨0x2050180C, 0x20, 16, 0, 1, 0, 1, 0, 8, .ro, false, fun _ _ _ => 0⟩
def MS_STAT.PEND : Fld := ⟨0x2050180C, 0x20, 16, 0, 1, 0, 1, 8, 1, .ro, false, fun _ _ _ => 0⟩
def MS_STAT.OLD_BUSY : Fld := ⟨0x2050180C, 0x20, 16, 0, 1, 0, 1, 9, 1, .ro, false, fun _ _ _ => 0⟩
def MS_STAT.ERR : Fld := ⟨0x2050180C, 0x20, 16, 0, 1, 0, 1, 12, 4, .ro, false, fun _ _ _ => 0⟩
def MS_STAT.SRAM : Fld := ⟨0x2050180C, 0x20, 16, 0, 1, 0, 1, 16, 10, .ro, false, fun _ _ _ => 0⟩
def MS_FROM.EPOCH : Fld := ⟨0x20501810, 0x20, 16, 0, 1, 0, 1, 0, 32, .ro, false, fun _ _ _ => 0⟩
def MS_AC_LO.ADDR : Fld := ⟨0x20501814, 0x20, 16, 0, 1, 0, 1, 6, 26, .ro, false, fun _ _ _ => 0⟩
def MS_AC_HI.ADDR : Fld := ⟨0x20501818, 0x20, 16, 0, 1, 0, 1, 0, 8, .ro, false, fun _ _ _ => 0⟩

/-! Table 8.12 Transform table TTs, shadow at 0x2050_2000 + s × 0x80, active at 0x2050_3000 + s × 0x80. -/

def TT_SH.W : Fld := ⟨0x20502000, 0x80, 16, 4, 21, 0, 1, 0, 32, .rw, false, fun _ j _ => ttReset j⟩
def TT_AC.W : Fld := ⟨0x20503000, 0x80, 16, 4, 21, 0, 1, 0, 32, .ro, false, fun _ j _ => ttReset j⟩
def TT_CTL.COMMIT : Fld := ⟨0x2050207C, 0x80, 16, 0, 1, 0, 1, 0, 1, .w1s, false, fun _ _ _ => 0⟩
def TT_CTL.PEND : Fld := ⟨0x2050207C, 0x80, 16, 0, 1, 0, 1, 1, 1, .ro, false, fun _ _ _ => 0⟩
def TT_CTL.GEN : Fld := ⟨0x2050207C, 0x80, 16, 0, 1, 0, 1, 8, 8, .ro, false, fun _ _ _ => 0⟩
def TT_CTL.IGN : Fld := ⟨0x2050207C, 0x80, 16, 0, 1, 0, 1, 16, 16, .rc, false, fun _ _ _ => 0⟩

/-! Table 9.6 Machine function MFm, at 0x2060_0000 + m × 0x200. -/

def MF_CFG.EN : Fld := ⟨0x20600000, 0x200, 32, 0, 1, 0, 1, 0, 1, .rw, false, fun _ _ _ => 0⟩
def MF_CFG.SP_MODE : Fld := ⟨0x20600000, 0x200, 32, 0, 1, 0, 1, 1, 2, .rw, false, fun _ _ _ => 0⟩
def MF_CFG.FF_TO_SP : Fld := ⟨0x20600000, 0x200, 32, 0, 1, 0, 1, 3, 1, .rw, false, fun _ _ _ => 0⟩
def MF_CFG.TAP : Fld := ⟨0x20600000, 0x200, 32, 0, 1, 0, 1, 4, 4, .rw, false, fun _ _ _ => 0⟩
def MF_CFG.OWNER : Fld := ⟨0x20600000, 0x200, 32, 0, 1, 0, 1, 8, 5, .rw, false, fun _ _ _ => 0x1F⟩
def MF_CFG.STALE_POL : Fld := ⟨0x20600000, 0x200, 32, 0, 1, 0, 1, 13, 2, .rw, false, fun _ _ _ => 0⟩
def MF_CFG.CON_POL : Fld := ⟨0x20600000, 0x200, 32, 0, 1, 0, 1, 15, 2, .rw, false, fun _ _ _ => 0⟩
def MF_CFG.TRIM_EN : Fld := ⟨0x20600000, 0x200, 32, 0, 1, 0, 1, 17, 1, .rw, false, fun _ _ _ => 0⟩
def MF_CFG.OBJ : Fld := ⟨0x20600000, 0x200, 32, 0, 1, 0, 1, 18, 3, .rw, false, fun _ _ _ => 0⟩
def MF_CFG.AGE_MAX : Fld := ⟨0x20600000, 0x200, 32, 0, 1, 0, 1, 24, 8, .rw, false, fun _ _ _ => 0⟩
def MF_SP.SP : Fld := ⟨0x20600004, 0x200, 32, 0, 1, 0, 1, 0, 16, .rw, true, fun _ _ _ => 0⟩
def MF_FB.FB : Fld := ⟨0x20600008, 0x200, 32, 0, 1, 0, 1, 0, 16, .rw, false, fun _ _ _ => 0⟩
def MF_LIM.MIN : Fld := ⟨0x2060000C, 0x200, 32, 0, 1, 0, 1, 0, 16, .rw, false, fun _ _ _ => 0x8000⟩
def MF_LIM.MAX : Fld := ⟨0x2060000C, 0x200, 32, 0, 1, 0, 1, 16, 16, .rw, false, fun _ _ _ => 0x7FFF⟩
def MF_RLIM.SP_RLIM : Fld := ⟨0x20600010, 0x200, 32, 0, 1, 0, 1, 0, 16, .rw, false, fun _ _ _ => 0⟩
def MF_RLIM.FF_RLIM : Fld := ⟨0x20600010, 0x200, 32, 0, 1, 0, 1, 16, 16, .rw, false, fun _ _ _ => 0⟩
def MF_FFK.FFK : Fld := ⟨0x20600014, 0x200, 32, 0, 1, 0, 1, 0, 16, .rw, false, fun _ _ _ => 0⟩
def MF_FFK.NOM : Fld := ⟨0x20600014, 0x200, 32, 0, 1, 0, 1, 16, 16, .rw, false, fun _ _ _ => 0⟩
def MF_TRIM_K.KT : Fld := ⟨0x20600018, 0x200, 32, 0, 1, 0, 1, 0, 16, .rw, false, fun _ _ _ => 0⟩
def MF_TRIM_LIM.TMIN : Fld := ⟨0x2060001C, 0x200, 32, 0, 1, 0, 1, 0, 16, .rw, false, fun _ _ _ => 0⟩
def MF_TRIM_LIM.TMAX : Fld := ⟨0x2060001C, 0x200, 32, 0, 1, 0, 1, 16, 16, .rw, false, fun _ _ _ => 0⟩
def MF_CTL.TRIM_CLR : Fld := ⟨0x20600020, 0x200, 32, 0, 1, 0, 1, 0, 1, .w1s, false, fun _ _ _ => 0⟩
def MF_OUT.SP : Fld := ⟨0x20600024, 0x200, 32, 0, 1, 0, 1, 0, 16, .ro, false, fun _ _ _ => 0⟩
def MF_OUT.FF : Fld := ⟨0x20600024, 0x200, 32, 0, 1, 0, 1, 16, 16, .ro, false, fun _ _ _ => 0⟩
def MF_STAT.POL : Fld := ⟨0x20600028, 0x200, 32, 0, 1, 0, 1, 0, 2, .ro, false, fun _ _ _ => 0⟩
def MF_STAT.TRIM : Fld := ⟨0x20600028, 0x200, 32, 0, 1, 0, 1, 16, 16, .ro, false, fun _ _ _ => 0⟩
def MF_FLAGS.F : Fld := ⟨0x2060002C, 0x200, 32, 0, 1, 0, 1, 0, 9, .w1c, false, fun _ _ _ => 0⟩
def MF_EVMASK.F : Fld := ⟨0x20600030, 0x200, 32, 0, 1, 0, 1, 0, 9, .rw, false, fun _ _ _ => 0⟩
def MF_CNT.OWNER_IGN : Fld := ⟨0x20600034, 0x200, 32, 0, 1, 0, 1, 0, 16, .rc, false, fun _ _ _ => 0⟩
def MF_CNT.POL_FRAMES : Fld := ⟨0x20600034, 0x200, 32, 0, 1, 0, 1, 16, 16, .rc, false, fun _ _ _ => 0⟩

/-! Table 9.7 Racking Line, at 0x2060_4000. -/

def RL_CFG.EN : Fld := ⟨0x20604000, 0, 1, 0, 1, 0, 1, 0, 1, .rw, false, fun _ _ _ => 0⟩
def RL_CFG.CUT : Fld := ⟨0x20604000, 0, 1, 0, 1, 0, 1, 1, 1, .rw, false, fun _ _ _ => 1⟩
def RL_CFG.EDGE_EN : Fld := ⟨0x20604000, 0, 1, 0, 1, 0, 1, 2, 1, .rw, false, fun _ _ _ => 0⟩
def RL_CFG.C_USE : Fld := ⟨0x20604000, 0, 1, 0, 1, 0, 1, 8, 8, .rw, false, fun _ _ _ => 0x40⟩
def RL_CFG.EDGE_MIN : Fld := ⟨0x20604000, 0, 1, 0, 1, 0, 1, 16, 7, .rw, false, fun _ _ _ => 0x40⟩
def RL_CFG.NOMCELL : Fld := ⟨0x20604000, 0, 1, 0, 1, 0, 1, 24, 7, .rw, false, fun _ _ _ => 0⟩
def RL_SPD.ADDR : Fld := ⟨0x20604004, 0, 1, 0, 1, 0, 1, 2, 26, .rw, false, fun _ _ _ => 0⟩
def RL_STAT.GEN : Fld := ⟨0x20604008, 0, 1, 0, 1, 0, 1, 0, 8, .ro, false, fun _ _ _ => 0⟩
def RL_STAT.PKTS : Fld := ⟨0x20604008, 0, 1, 0, 1, 0, 1, 8, 12, .ro, false, fun _ _ _ => 0⟩
def RL_GRID.EPOCH : Fld := ⟨0x2060400C, 0, 1, 0, 1, 0, 1, 0, 32, .ro, false, fun _ _ _ => 0⟩
def RL_AGE.AGE : Fld := ⟨0x20604010, 0, 1, 0, 1, 0, 1, 0, 16, .ro, false, fun _ _ _ => 0xFFFF⟩
def RL_STRIP.NEXT : Fld := ⟨0x20604014, 0, 1, 0, 1, 0, 1, 0, 32, .ro, false, fun _ _ _ => 0⟩
def RL_TRAVEL.FRAC : Fld := ⟨0x20604018, 0, 1, 0, 1, 0, 1, 0, 14, .ro, false, fun _ _ _ => 0⟩
def RL_TRAVEL.DEBT : Fld := ⟨0x20604018, 0, 1, 0, 1, 0, 1, 16, 16, .ro, false, fun _ _ _ => 0⟩
def RL_FLAGS.F : Fld := ⟨0x2060401C, 0, 1, 0, 1, 0, 1, 0, 8, .w1c, false, fun _ _ _ => 0⟩
def RL_EVMASK.F : Fld := ⟨0x20604020, 0, 1, 0, 1, 0, 1, 0, 8, .rw, false, fun _ _ _ => 0⟩
def RL_CNT0.OVF : Fld := ⟨0x20604024, 0, 1, 0, 1, 0, 1, 0, 16, .rc, false, fun _ _ _ => 0⟩
def RL_CNT0.ATT_OLD : Fld := ⟨0x20604024, 0, 1, 0, 1, 0, 1, 16, 16, .rc, false, fun _ _ _ => 0⟩
def RL_CNT1.STRIP_DROP : Fld := ⟨0x20604028, 0, 1, 0, 1, 0, 1, 0, 16, .rc, false, fun _ _ _ => 0⟩
def RL_CNT1.SKIPPED : Fld := ⟨0x20604028, 0, 1, 0, 1, 0, 1, 16, 12, .rc, false, fun _ _ _ => 0⟩
def RL_CNT1.LATE : Fld := ⟨0x20604028, 0, 1, 0, 1, 0, 1, 28, 4, .rc, false, fun _ _ _ => 0⟩
def STRIP_BASE_LO.ADDR : Fld := ⟨0x20604040, 0, 1, 0, 1, 0, 1, 12, 20, .rw, false, fun _ _ _ => 0⟩
def STRIP_BASE_HI.ADDR : Fld := ⟨0x20604044, 0, 1, 0, 1, 0, 1, 0, 8, .rw, false, fun _ _ _ => 0⟩
def STRIP_CFG.LOG2N : Fld := ⟨0x20604048, 0, 1, 0, 1, 0, 1, 0, 4, .rw, false, fun _ _ _ => 0xA⟩
def STRIP_CFG.EV : Fld := ⟨0x20604048, 0, 1, 0, 1, 0, 1, 8, 1, .rw, false, fun _ _ _ => 0⟩
def STRIP_WR.IDX : Fld := ⟨0x2060404C, 0, 1, 0, 1, 0, 1, 0, 16, .ro, false, fun _ _ _ => 0⟩
def STRIP_RD.IDX : Fld := ⟨0x20604050, 0, 1, 0, 1, 0, 1, 0, 16, .rw, false, fun _ _ _ => 0⟩

/-! Table 9.8 Stage STGi, i = 1 to 7, at 0x2060_4100 + i × 0x20. -/

def STG_CFG.EN : Fld := ⟨0x20604100, 0x20, 8, 0, 1, 0, 1, 0, 1, .rw, false, fun _ _ _ => 0⟩
def STG_CFG.K : Fld := ⟨0x20604100, 0x20, 8, 0, 1, 0, 1, 16, 16, .rw, false, fun _ _ _ => 0⟩
def STG_SRC.ADDR : Fld := ⟨0x20604104, 0x20, 8, 0, 1, 0, 1, 2, 26, .rw, false, fun _ _ _ => 0⟩
def STG_FIX.FIXV : Fld := ⟨0x20604108, 0x20, 8, 0, 1, 0, 1, 0, 16, .rw, false, fun _ _ _ => 0x7FFF⟩
def STG_FIX.DW : Fld := ⟨0x20604108, 0x20, 8, 0, 1, 0, 1, 16, 16, .rw, false, fun _ _ _ => 0x2000⟩
def STG_STAT.ADV : Fld := ⟨0x2060410C, 0x20, 8, 0, 1, 0, 1, 0, 16, .ro, false, fun _ _ _ => 0⟩
def STG_STAT.PKTS : Fld := ⟨0x2060410C, 0x20, 8, 0, 1, 0, 1, 16, 12, .ro, false, fun _ _ _ => 0⟩

/-! Table 9.9 Tap TAPt, t = 0 to 15, at 0x2060_4200 + t × 0x20. -/

def TAP_CFG.EN : Fld := ⟨0x20604200, 0x20, 16, 0, 1, 0, 1, 0, 1, .rw, false, fun _ _ _ => 0⟩
def TAP_CFG.MODE : Fld := ⟨0x20604200, 0x20, 16, 0, 1, 0, 1, 1, 1, .rw, false, fun _ _ _ => 0⟩
def TAP_CFG.STAGE : Fld := ⟨0x20604200, 0x20, 16, 0, 1, 0, 1, 2, 3, .rw, false, fun _ _ _ => 0⟩
def TAP_CFG.POS : Fld := ⟨0x20604200, 0x20, 16, 0, 1, 0, 1, 16, 16, .rw, false, fun _ _ _ => 0⟩
def TAP_WIN.LEAD : Fld := ⟨0x20604204, 0x20, 16, 0, 1, 0, 1, 0, 16, .rw, false, fun _ _ _ => 0⟩
def TAP_WIN.WIN : Fld := ⟨0x20604204, 0x20, 16, 0, 1, 0, 1, 16, 16, .rw, false, fun _ _ _ => 1⟩
def TAP_OUT.VAL : Fld := ⟨0x20604208, 0x20, 16, 0, 1, 0, 1, 0, 16, .ro, false, fun _ _ _ => 0⟩
def TAP_OUT.COVER : Fld := ⟨0x20604208, 0x20, 16, 0, 1, 0, 1, 16, 8, .ro, false, fun _ _ _ => 0⟩
def TAP_INFO.F : Fld := ⟨0x2060420C, 0x20, 16, 0, 1, 0, 1, 0, 13, .ro, false, fun _ _ _ => 0x1000⟩

/-! Table 9.10 Attribution channel ATa, a = 0 to 15, at 0x2060_4400 + a × 0x20. -/

def AT_CFG.EN : Fld := ⟨0x20604400, 0x20, 16, 0, 1, 0, 1, 0, 1, .rw, false, fun _ _ _ => 0⟩
def AT_CFG.KIND : Fld := ⟨0x20604400, 0x20, 16, 0, 1, 0, 1, 1, 2, .rw, false, fun _ _ _ => 0⟩
def AT_CFG.CLASS : Fld := ⟨0x20604400, 0x20, 16, 0, 1, 0, 1, 3, 2, .rw, false, fun _ _ _ => 0⟩
def AT_CFG.STAGE : Fld := ⟨0x20604400, 0x20, 16, 0, 1, 0, 1, 5, 3, .rw, false, fun _ _ _ => 0⟩
def AT_CFG.SRC : Fld := ⟨0x20604400, 0x20, 16, 0, 1, 0, 1, 8, 4, .rw, false, fun _ _ _ => 0⟩
def AT_CFG.LSMASK : Fld := ⟨0x20604400, 0x20, 16, 0, 1, 0, 1, 16, 16, .rw, false, fun _ _ _ => 0⟩
def AT_POS.POS : Fld := ⟨0x20604404, 0x20, 16, 0, 1, 0, 1, 0, 16, .rw, false, fun _ _ _ => 0⟩
def AT_POS.ALPHA : Fld := ⟨0x20604404, 0x20, 16, 0, 1, 0, 1, 16, 16, .rw, false, fun _ _ _ => 0x666⟩
def AT_RATE.RATE : Fld := ⟨0x20604408, 0x20, 16, 0, 1, 0, 1, 0, 16, .ro, false, fun _ _ _ => 0⟩
def AT_RATE.FLT : Fld := ⟨0x20604408, 0x20, 16, 0, 1, 0, 1, 16, 1, .ro, false, fun _ _ _ => 0⟩
def AT_CNT.EMPTY : Fld := ⟨0x2060440C, 0x20, 16, 0, 1, 0, 1, 0, 16, .rc, false, fun _ _ _ => 0⟩
def AT_CNT.MISS : Fld := ⟨0x2060440C, 0x20, 16, 0, 1, 0, 1, 16, 16, .rc, false, fun _ _ _ => 0⟩

/-! Table 9.11 Objective, at 0x2060_4600. -/

def OBJ_STAT.GEN : Fld := ⟨0x20604600, 0, 1, 0, 1, 0, 1, 0, 8, .ro, false, fun _ _ _ => 0⟩
def OBJ.LIMIT : Fld := ⟨0x20604610, 0, 1, 4, 8, 0, 1, 0, 16, .rw, true, fun _ _ _ => 0x7FFF⟩
def OBJ.AT : Fld := ⟨0x20604610, 0, 1, 4, 8, 0, 1, 16, 4, .rw, true, fun _ _ _ => 0⟩

/-! Table 9.12 Measurement input MIk, k = 0 to 7, at 0x2060_4700 + k × 0x10. -/

def MI_CFG.EN : Fld := ⟨0x20604700, 0x10, 8, 0, 1, 0, 1, 0, 1, .rw, false, fun _ _ _ => 0⟩
def MI_CFG.ROLE : Fld := ⟨0x20604700, 0x10, 8, 0, 1, 0, 1, 4, 4, .rw, false, fun _ _ _ => 0⟩
def MI_CFG.FUT : Fld := ⟨0x20604700, 0x10, 8, 0, 1, 0, 1, 16, 16, .rc, false, fun _ _ _ => 0⟩
def MI_MTC_LO.MTC : Fld := ⟨0x20604704, 0x10, 8, 0, 1, 0, 1, 0, 32, .rw, true, fun _ _ _ => 0⟩
def MI_MTC_HI.MTC : Fld := ⟨0x20604708, 0x10, 8, 0, 1, 0, 1, 0, 32, .rw, true, fun _ _ _ => 0⟩
def MI_VAL.VAL : Fld := ⟨0x2060470C, 0x10, 8, 0, 1, 0, 1, 0, 16, .rw, true, fun _ _ _ => 0⟩
def MI_VAL.FLT : Fld := ⟨0x2060470C, 0x10, 8, 0, 1, 0, 1, 16, 1, .rw, true, fun _ _ _ => 0⟩

/-! Table 10.5 Valve bank block, VBb at 0x2070_0000 + b × 0x100. -/

def VB_CFG.EN : Fld := ⟨0x20700000, 0x100, 8, 0, 1, 0, 1, 0, 1, .rw, false, fun _ _ _ => 0⟩
def VB_CFG.BOOST_V : Fld := ⟨0x20700000, 0x100, 8, 0, 1, 0, 1, 8, 8, .rw, false, fun _ _ _ => 0x78⟩
def VB_CFG.OVERLAP_POLICY : Fld := ⟨0x20700000, 0x100, 8, 0, 1, 0, 1, 16, 2, .rw, false, fun _ _ _ => 0⟩
def VB_CFG.BOOST_WAIT : Fld := ⟨0x20700000, 0x100, 8, 0, 1, 0, 1, 20, 12, .rw, false, fun _ _ _ => 0xC8⟩
def VB_STAT.RAIL_V : Fld := ⟨0x20700004, 0x100, 8, 0, 1, 0, 1, 0, 8, .ro, false, fun _ _ _ => 0⟩
def VB_STAT.HS_SRC : Fld := ⟨0x20700004, 0x100, 8, 0, 1, 0, 1, 8, 2, .ro, false, fun _ _ _ => 0⟩
def VB_STAT.BOOSTING : Fld := ⟨0x20700004, 0x100, 8, 0, 1, 0, 1, 10, 1, .ro, false, fun _ _ _ => 0⟩
def VB_STAT.BOOSTER : Fld := ⟨0x20700004, 0x100, 8, 0, 1, 0, 1, 12, 2, .ro, false, fun _ _ _ => 0⟩
def VB_STAT.WAITING : Fld := ⟨0x20700004, 0x100, 8, 0, 1, 0, 1, 16, 4, .ro, false, fun _ _ _ => 0⟩
def VB_STAT.RAIL_READY : Fld := ⟨0x20700004, 0x100, 8, 0, 1, 0, 1, 20, 1, .ro, false, fun _ _ _ => 0⟩
def VB_STAT1.HOLD_SUM : Fld := ⟨0x20700008, 0x100, 8, 0, 1, 0, 1, 0, 12, .ro, false, fun _ _ _ => 0⟩
def VB_STAT1.TEMP : Fld := ⟨0x20700008, 0x100, 8, 0, 1, 0, 1, 16, 8, .ro, false, fun _ _ _ => 0⟩
def VB_FLAGS.F : Fld := ⟨0x2070000C, 0x100, 8, 0, 1, 0, 1, 0, 6, .w1c, false, fun _ _ _ => 0⟩
def VB_EVMASK.F : Fld := ⟨0x20700010, 0x100, 8, 0, 1, 0, 1, 0, 6, .rw, false, fun _ _ _ => 0⟩
def VB_CNT0.DEFERRED : Fld := ⟨0x20700014, 0x100, 8, 0, 1, 0, 1, 0, 16, .rc, false, fun _ _ _ => 0⟩
def VB_CNT0.SKIPPED : Fld := ⟨0x20700014, 0x100, 8, 0, 1, 0, 1, 16, 16, .rc, false, fun _ _ _ => 0⟩
def VB_CNT1.REJECTED : Fld := ⟨0x20700018, 0x100, 8, 0, 1, 0, 1, 0, 16, .rc, false, fun _ _ _ => 0⟩
def VB_CNT1.DOWNGRADES : Fld := ⟨0x20700018, 0x100, 8, 0, 1, 0, 1, 16, 16, .rc, false, fun _ _ _ => 0⟩
def VB_LATE.LAST : Fld := ⟨0x2070001C, 0x100, 8, 0, 1, 0, 1, 0, 16, .ro, false, fun _ _ _ => 0⟩
def VB_LATE.MAX : Fld := ⟨0x2070001C, 0x100, 8, 0, 1, 0, 1, 16, 16, .rc, false, fun _ _ _ => 0⟩
def VB_CTL.CLEAR : Fld := ⟨0x20700020, 0x100, 8, 0, 1, 0, 1, 0, 1, .wo, false, fun _ _ _ => 0⟩
def VB_CTL.RST : Fld := ⟨0x20700020, 0x100, 8, 0, 1, 0, 1, 8, 1, .wo, false, fun _ _ _ => 0⟩

/-! Table 10.6 Valve channel block, VDc at 0x2070_1000 + c × 0x80. -/

def VD_CFG.EN : Fld := ⟨0x20701000, 0x80, 32, 0, 1, 0, 1, 0, 1, .rw, false, fun _ _ _ => 0⟩
def VD_CFG.B_EN : Fld := ⟨0x20701000, 0x80, 32, 0, 1, 0, 1, 1, 1, .rw, false, fun _ _ _ => 0⟩
def VD_CFG.SOFF_B : Fld := ⟨0x20701000, 0x80, 32, 0, 1, 0, 1, 2, 2, .rw, false, fun _ _ _ => 2⟩
def VD_CFG.SOFF_P : Fld := ⟨0x20701000, 0x80, 32, 0, 1, 0, 1, 4, 2, .rw, false, fun _ _ _ => 2⟩
def VD_CFG.SOFF_H : Fld := ⟨0x20701000, 0x80, 32, 0, 1, 0, 1, 6, 2, .rw, false, fun _ _ _ => 2⟩
def VD_CFG.CHOP : Fld := ⟨0x20701000, 0x80, 32, 0, 1, 0, 1, 8, 2, .rw, false, fun _ _ _ => 1⟩
def VD_CFG.DUTY_POL : Fld := ⟨0x20701000, 0x80, 32, 0, 1, 0, 1, 10, 1, .rw, false, fun _ _ _ => 0⟩
def VD_CFG.DITH_EN : Fld := ⟨0x20701000, 0x80, 32, 0, 1, 0, 1, 12, 1, .rw, false, fun _ _ _ => 0⟩
def VD_BOOST.B_I : Fld := ⟨0x20701004, 0x80, 32, 0, 1, 0, 1, 0, 16, .rw, false, fun _ _ _ => 0⟩
def VD_BOOST.B_T : Fld := ⟨0x20701004, 0x80, 32, 0, 1, 0, 1, 16, 12, .rw, false, fun _ _ _ => 0⟩
def VD_PEAK.P_I : Fld := ⟨0x20701008, 0x80, 32, 0, 1, 0, 1, 0, 16, .rw, false, fun _ _ _ => 0⟩
def VD_PEAK.P_T : Fld := ⟨0x20701008, 0x80, 32, 0, 1, 0, 1, 16, 16, .rw, false, fun _ _ _ => 0⟩
def VD_HOLD.H_T : Fld := ⟨0x2070100C, 0x80, 32, 0, 1, 0, 1, 0, 16, .rw, false, fun _ _ _ => 0⟩
def VD_DITH.DITH_F : Fld := ⟨0x20701010, 0x80, 32, 0, 1, 0, 1, 0, 9, .rw, false, fun _ _ _ => 0x32⟩
def VD_DITH.DITH_A : Fld := ⟨0x20701010, 0x80, 32, 0, 1, 0, 1, 16, 8, .rw, false, fun _ _ _ => 0⟩
def VD_DUTY.IRMS : Fld := ⟨0x20701014, 0x80, 32, 0, 1, 0, 1, 0, 16, .rw, false, fun _ _ _ => 0x1770⟩
def VD_DUTY.WIN : Fld := ⟨0x20701014, 0x80, 32, 0, 1, 0, 1, 16, 8, .rw, false, fun _ _ _ => 0x64⟩
def VD_CMD.HOLD_I : Fld := ⟨0x20701018, 0x80, 32, 0, 1, 0, 1, 0, 16, .rw, true, fun _ _ _ => 0⟩
def VD_CMD.OP : Fld := ⟨0x20701018, 0x80, 32, 0, 1, 0, 1, 16, 2, .rw, true, fun _ _ _ => 0⟩
def VD_STAT.PHASE : Fld := ⟨0x2070101C, 0x80, 32, 0, 1, 0, 1, 0, 3, .ro, false, fun _ _ _ => 0⟩
def VD_STAT.DUTY_ACT : Fld := ⟨0x2070101C, 0x80, 32, 0, 1, 0, 1, 4, 1, .ro, false, fun _ _ _ => 0⟩
def VD_STAT.SOFF_USED : Fld := ⟨0x2070101C, 0x80, 32, 0, 1, 0, 1, 5, 2, .ro, false, fun _ _ _ => 0⟩
def VD_STAT.HOLD_EFF : Fld := ⟨0x2070101C, 0x80, 32, 0, 1, 0, 1, 16, 16, .ro, false, fun _ _ _ => 0⟩
def VD_I.I : Fld := ⟨0x20701020, 0x80, 32, 0, 1, 0, 1, 0, 16, .ro, false, fun _ _ _ => 0⟩
def VD_I.RES : Fld := ⟨0x20701020, 0x80, 32, 0, 1, 0, 1, 16, 16, .ro, false, fun _ _ _ => 0xFFFF⟩
def VD_FLAGS.F : Fld := ⟨0x20701024, 0x80, 32, 0, 1, 0, 1, 0, 14, .w1c, false, fun _ _ _ => 0⟩
def VD_EVMASK.F : Fld := ⟨0x20701028, 0x80, 32, 0, 1, 0, 1, 0, 14, .rw, false, fun _ _ _ => 0⟩
def VD_CLAMP_E.E : Fld := ⟨0x2070102C, 0x80, 32, 0, 1, 0, 1, 0, 32, .rc, false, fun _ _ _ => 0⟩
def VD_CNT0.STARTS : Fld := ⟨0x20701030, 0x80, 32, 0, 1, 0, 1, 0, 16, .rc, false, fun _ _ _ => 0⟩
def VD_CNT0.RESTARTS : Fld := ⟨0x20701030, 0x80, 32, 0, 1, 0, 1, 16, 16, .rc, false, fun _ _ _ => 0⟩
def VD_CNT1.DOWNGRADES : Fld := ⟨0x20701034, 0x80, 32, 0, 1, 0, 1, 0, 16, .rc, false, fun _ _ _ => 0⟩
def VD_CNT1.LIMITED : Fld := ⟨0x20701034, 0x80, 32, 0, 1, 0, 1, 16, 16, .rc, false, fun _ _ _ => 0⟩
def VD_LATE.LAST : Fld := ⟨0x20701038, 0x80, 32, 0, 1, 0, 1, 0, 16, .ro, false, fun _ _ _ => 0⟩
def VD_LATE.LATE_CNT : Fld := ⟨0x20701038, 0x80, 32, 0, 1, 0, 1, 16, 16, .rc, false, fun _ _ _ => 0⟩
def VD_DUTY_STAT.IRMS_EST : Fld := ⟨0x2070103C, 0x80, 32, 0, 1, 0, 1, 0, 16, .ro, false, fun _ _ _ => 0⟩
def VD_MTC.MTC : Fld := ⟨0x20701040, 0x80, 32, 0, 1, 0, 1, 0, 32, .ro, false, fun _ _ _ => 0⟩

/-! Table 11.3 Load channel block, LCn at 0x2071_0000 + n × 0x40. -/

def LC_CFG.EN : Fld := ⟨0x20710000, 0x40, 48, 0, 1, 0, 1, 0, 1, .rw, false, fun _ _ _ => 0⟩
def LC_CFG.HEAVY : Fld := ⟨0x20710000, 0x40, 48, 0, 1, 0, 1, 1, 1, .ro, false, fun i _ _ => if i < 16 then 1 else 0⟩
def LC_CFG.OFF_DIAG : Fld := ⟨0x20710000, 0x40, 48, 0, 1, 0, 1, 2, 1, .rw, false, fun _ _ _ => 0⟩
def LC_CFG.FINE : Fld := ⟨0x20710000, 0x40, 48, 0, 1, 0, 1, 3, 1, .rw, false, fun _ _ _ => 0⟩
def LC_CFG.THERM_N : Fld := ⟨0x20710000, 0x40, 48, 0, 1, 0, 1, 4, 4, .rw, false, fun _ _ _ => 3⟩
def LC_CFG.PWM_F : Fld := ⟨0x20710000, 0x40, 48, 0, 1, 0, 1, 8, 10, .rw, false, fun _ _ _ => 0xC8⟩
def LC_LIM.ILIM : Fld := ⟨0x20710004, 0x40, 48, 0, 1, 0, 1, 0, 10, .rw, false, fun i _ _ => if i < 16 then 100 else 30⟩
def LC_LIM.INRUSH_I : Fld := ⟨0x20710004, 0x40, 48, 0, 1, 0, 1, 16, 10, .rw, false, fun _ _ _ => 0⟩
def LC_INRUSH.INRUSH_T : Fld := ⟨0x20710008, 0x40, 48, 0, 1, 0, 1, 0, 8, .rw, false, fun _ _ _ => 0⟩
def LC_INRUSH.LIM_T : Fld := ⟨0x20710008, 0x40, 48, 0, 1, 0, 1, 16, 8, .rw, false, fun _ _ _ => 0xA⟩
def LC_OL.OL_THR : Fld := ⟨0x2071000C, 0x40, 48, 0, 1, 0, 1, 0, 10, .rw, false, fun _ _ _ => 0xA⟩
def LC_CE.CE_BUDGET : Fld := ⟨0x20710010, 0x40, 48, 0, 1, 0, 1, 0, 16, .rw, false, fun _ _ _ => 0x3E8⟩
def LC_CE.CE_WIN : Fld := ⟨0x20710010, 0x40, 48, 0, 1, 0, 1, 16, 8, .rw, false, fun _ _ _ => 0x64⟩
def LC_CMD.DUTY : Fld := ⟨0x20710014, 0x40, 48, 0, 1, 0, 1, 0, 10, .rw, true, fun _ _ _ => 0⟩
def LC_CMD.OP : Fld := ⟨0x20710014, 0x40, 48, 0, 1, 0, 1, 16, 2, .rw, true, fun _ _ _ => 0⟩
def LC_STAT.STATE : Fld := ⟨0x20710018, 0x40, 48, 0, 1, 0, 1, 0, 3, .ro, false, fun _ _ _ => 0⟩
def LC_STAT.INRUSH : Fld := ⟨0x20710018, 0x40, 48, 0, 1, 0, 1, 3, 1, .ro, false, fun _ _ _ => 0⟩
def LC_STAT.AT_LIMIT : Fld := ⟨0x20710018, 0x40, 48, 0, 1, 0, 1, 4, 1, .ro, false, fun _ _ _ => 0⟩
def LC_I.I : Fld := ⟨0x2071001C, 0x40, 48, 0, 1, 0, 1, 0, 16, .ro, false, fun _ _ _ => 0⟩
def LC_I.VOUT : Fld := ⟨0x2071001C, 0x40, 48, 0, 1, 0, 1, 16, 16, .ro, false, fun _ _ _ => 0⟩
def LC_TEMP.TEMP : Fld := ⟨0x20710020, 0x40, 48, 0, 1, 0, 1, 0, 8, .ro, false, fun _ _ _ => 0⟩
def LC_TEMP.P : Fld := ⟨0x20710020, 0x40, 48, 0, 1, 0, 1, 16, 16, .ro, false, fun _ _ _ => 0⟩
def LC_CE_ACC.E : Fld := ⟨0x20710024, 0x40, 48, 0, 1, 0, 1, 0, 16, .ro, false, fun _ _ _ => 0⟩
def LC_FLAGS.F : Fld := ⟨0x20710028, 0x40, 48, 0, 1, 0, 1, 0, 9, .w1c, false, fun _ _ _ => 0⟩
def LC_EVMASK.F : Fld := ⟨0x2071002C, 0x40, 48, 0, 1, 0, 1, 0, 9, .rw, false, fun _ _ _ => 0⟩
def LC_CLAMP_E.E : Fld := ⟨0x20710030, 0x40, 48, 0, 1, 0, 1, 0, 32, .rc, false, fun _ _ _ => 0⟩
def LC_CNT0.SWITCH_ONS : Fld := ⟨0x20710034, 0x40, 48, 0, 1, 0, 1, 0, 16, .rc, false, fun _ _ _ => 0⟩
def LC_CNT0.REFUSED : Fld := ⟨0x20710034, 0x40, 48, 0, 1, 0, 1, 16, 16, .rc, false, fun _ _ _ => 0⟩
def LC_CNT1.UV_RESTARTS : Fld := ⟨0x20710038, 0x40, 48, 0, 1, 0, 1, 0, 16, .rc, false, fun _ _ _ => 0⟩
def LC_CNT1.THERM_RESTARTS : Fld := ⟨0x20710038, 0x40, 48, 0, 1, 0, 1, 16, 16, .rc, false, fun _ _ _ => 0⟩
def LC_MTC.MTC : Fld := ⟨0x2071003C, 0x40, 48, 0, 1, 0, 1, 0, 32, .ro, false, fun _ _ _ => 0⟩

/-! Table 11.4 Load group block, LGg at 0x2071_1000 + g × 0x40. -/

def LG_CFG.UV_OFF : Fld := ⟨0x20711000, 0x40, 12, 0, 1, 0, 1, 0, 8, .rw, false, fun _ _ _ => 0x46⟩
def LG_CFG.UV_HYS : Fld := ⟨0x20711000, 0x40, 12, 0, 1, 0, 1, 8, 8, .rw, false, fun _ _ _ => 0xA⟩
def LG_CFG.UV_DLY : Fld := ⟨0x20711000, 0x40, 12, 0, 1, 0, 1, 16, 8, .rw, false, fun _ _ _ => 0x32⟩
def LG_CFG.STUD : Fld := ⟨0x20711000, 0x40, 12, 0, 1, 0, 1, 24, 2, .ro, false, fun i _ _ => lgStudReset i⟩
def LG_STAT.FEED_V : Fld := ⟨0x20711004, 0x40, 12, 0, 1, 0, 1, 0, 10, .ro, false, fun _ _ _ => 0⟩
def LG_STAT.DIE_T : Fld := ⟨0x20711004, 0x40, 12, 0, 1, 0, 1, 16, 8, .ro, false, fun _ _ _ => 0⟩
def LG_STAT.UV_ACT : Fld := ⟨0x20711004, 0x40, 12, 0, 1, 0, 1, 24, 1, .ro, false, fun _ _ _ => 0⟩
def LG_CUR.I : Fld := ⟨0x20711008, 0x40, 12, 0, 1, 0, 1, 0, 16, .ro, false, fun _ _ _ => 0⟩
def LG_FLAGS.F : Fld := ⟨0x2071100C, 0x40, 12, 0, 1, 0, 1, 0, 2, .w1c, false, fun _ _ _ => 0⟩
def LG_EVMASK.F : Fld := ⟨0x20711010, 0x40, 12, 0, 1, 0, 1, 0, 2, .rw, false, fun _ _ _ => 0⟩
def LG_CTL.CLEAR : Fld := ⟨0x20711014, 0x40, 12, 0, 1, 0, 1, 0, 1, .wo, false, fun _ _ _ => 0⟩
def LG_CTL.RST : Fld := ⟨0x20711014, 0x40, 12, 0, 1, 0, 1, 8, 1, .wo, false, fun _ _ _ => 0⟩
def LG_CNT.UV_EVENTS : Fld := ⟨0x20711018, 0x40, 12, 0, 1, 0, 1, 0, 16, .rc, false, fun _ _ _ => 0⟩
def LG_CNT.HOT : Fld := ⟨0x20711018, 0x40, 12, 0, 1, 0, 1, 16, 16, .rc, false, fun _ _ _ => 0⟩

/-! Table 12.7 Time unit, at 0x2080_0000. -/

def TU_STAT.STATE : Fld := ⟨0x20800000, 0, 1, 0, 1, 0, 1, 0, 2, .ro, false, fun _ _ _ => 0⟩
def TU_STAT.CODE : Fld := ⟨0x20800000, 0, 1, 0, 1, 0, 1, 4, 3, .ro, false, fun _ _ _ => 0⟩
def TU_STAT.LOCK_RUN : Fld := ⟨0x20800000, 0, 1, 0, 1, 0, 1, 8, 4, .ro, false, fun _ _ _ => 0⟩
def TU_CFG.LOCK_THR : Fld := ⟨0x20800004, 0, 1, 0, 1, 0, 1, 0, 10, .rw, false, fun _ _ _ => 0x64⟩
def TU_CFG.LOCK_N : Fld := ⟨0x20800004, 0, 1, 0, 1, 0, 1, 12, 4, .rw, false, fun _ _ _ => 3⟩
def TU_CFG.LOSS_T : Fld := ⟨0x20800004, 0, 1, 0, 1, 0, 1, 16, 5, .rw, false, fun _ _ _ => 3⟩
def TU_HOLD.HOLDOVER_LIMIT : Fld := ⟨0x20800008, 0, 1, 0, 1, 0, 1, 0, 12, .rw, false, fun _ _ _ => 0x258⟩
def TU_HU_F.F : Fld := ⟨0x2080000C, 0, 1, 0, 1, 0, 1, 0, 24, .rw, false, fun _ _ _ => 0x1388⟩
def TU_HU_A.A : Fld := ⟨0x20800010, 0, 1, 0, 1, 0, 1, 0, 16, .rw, false, fun _ _ _ => 0xA⟩
def TU_U.U : Fld := ⟨0x20800014, 0, 1, 0, 1, 0, 1, 0, 32, .ro, false, fun _ _ _ => 0xFFFFFFFF⟩
def TU_SINCE.T : Fld := ⟨0x20800018, 0, 1, 0, 1, 0, 1, 0, 16, .ro, false, fun _ _ _ => 0⟩
def TU_NOW_MTC_LO.W : Fld := ⟨0x20800020, 0, 1, 0, 1, 0, 1, 0, 32, .ro, false, fun _ _ _ => 0⟩
def TU_NOW_MTC_HI.W : Fld := ⟨0x20800024, 0, 1, 0, 1, 0, 1, 0, 32, .ro, false, fun _ _ _ => 0⟩
def TU_NOW_T_LO.W : Fld := ⟨0x20800028, 0, 1, 0, 1, 0, 1, 0, 32, .ro, false, fun _ _ _ => 0⟩
def TU_NOW_T_HI.W : Fld := ⟨0x2080002C, 0, 1, 0, 1, 0, 1, 0, 32, .ro, false, fun _ _ _ => 0⟩
def TU_NOW_INFO.CODE : Fld := ⟨0x20800030, 0, 1, 0, 1, 0, 1, 0, 3, .ro, false, fun _ _ _ => 0⟩
def TU_NOW_INFO.U : Fld := ⟨0x20800030, 0, 1, 0, 1, 0, 1, 8, 24, .ro, false, fun _ _ _ => 0xFFFFFF⟩
def CONV_MTC_LO.W : Fld := ⟨0x20800040, 0, 1, 0, 1, 0, 1, 0, 32, .ro, false, fun _ _ _ => 0⟩
def CONV_MTC_HI.W : Fld := ⟨0x20800044, 0, 1, 0, 1, 0, 1, 0, 32, .ro, false, fun _ _ _ => 0⟩
def CONV_T_LO.W : Fld := ⟨0x20800048, 0, 1, 0, 1, 0, 1, 0, 32, .ro, false, fun _ _ _ => 0⟩
def CONV_T_HI.W : Fld := ⟨0x2080004C, 0, 1, 0, 1, 0, 1, 0, 32, .ro, false, fun _ _ _ => 0⟩
def CONV_RATE.Y : Fld := ⟨0x20800050, 0, 1, 0, 1, 0, 1, 0, 32, .ro, false, fun _ _ _ => 0⟩
def CONV_SLEW.S : Fld := ⟨0x20800054, 0, 1, 0, 1, 0, 1, 0, 32, .ro, false, fun _ _ _ => 0⟩
def TU_LEAP.LEAP : Fld := ⟨0x20800058, 0, 1, 0, 1, 0, 1, 0, 8, .ro, false, fun _ _ _ => 0⟩
def TU_LEAP.VALID : Fld := ⟨0x20800058, 0, 1, 0, 1, 0, 1, 8, 1, .ro, false, fun _ _ _ => 0⟩
def TU_FLAGS.F : Fld := ⟨0x20800060, 0, 1, 0, 1, 0, 1, 0, 6, .w1c, false, fun _ _ _ => 0⟩
def TU_EVMASK.F : Fld := ⟨0x20800064, 0, 1, 0, 1, 0, 1, 0, 6, .rw, false, fun _ _ _ => 0⟩
def TU_CNT.STEPS : Fld := ⟨0x20800068, 0, 1, 0, 1, 0, 1, 0, 16, .rc, false, fun _ _ _ => 0⟩
def TU_CNT.HOLDOVERS : Fld := ⟨0x20800068, 0, 1, 0, 1, 0, 1, 16, 16, .rc, false, fun _ _ _ => 0⟩
def TU_STEP.PHI : Fld := ⟨0x2080006C, 0, 1, 0, 1, 0, 1, 0, 32, .ro, false, fun _ _ _ => 0⟩

/-! Table 12.8 Time pulse TPp, p = 0 or 1, at 0x2080_0100 + p × 0x20. -/

def TP_CFG.EN : Fld := ⟨0x20800100, 0x20, 2, 0, 1, 0, 1, 0, 1, .rw, false, fun _ _ _ => 0⟩
def TP_CFG.POL : Fld := ⟨0x20800100, 0x20, 2, 0, 1, 0, 1, 1, 1, .rw, false, fun _ _ _ => 0⟩
def TP_CFG.PER : Fld := ⟨0x20800100, 0x20, 2, 0, 1, 0, 1, 2, 2, .rw, false, fun _ _ _ => 0⟩
def TP_CFG.FREE_POL : Fld := ⟨0x20800100, 0x20, 2, 0, 1, 0, 1, 4, 1, .rw, false, fun _ _ _ => 0⟩
def TP_CFG.EV : Fld := ⟨0x20800100, 0x20, 2, 0, 1, 0, 1, 5, 1, .rw, false, fun _ _ _ => 0⟩
def TP_CFG.WIDTH : Fld := ⟨0x20800100, 0x20, 2, 0, 1, 0, 1, 12, 19, .rw, false, fun _ _ _ => 0x186A0⟩
def TP_DLY.CABLE_DLY : Fld := ⟨0x20800104, 0x20, 2, 0, 1, 0, 1, 0, 24, .rw, false, fun _ _ _ => 0⟩
def TP_STAT.ACTIVE : Fld := ⟨0x20800108, 0x20, 2, 0, 1, 0, 1, 0, 1, .ro, false, fun _ _ _ => 0⟩
def TP_STAT.CODE : Fld := ⟨0x20800108, 0x20, 2, 0, 1, 0, 1, 1, 3, .ro, false, fun _ _ _ => 0⟩
def TP_MTC_LO.MTC : Fld := ⟨0x2080010C, 0x20, 2, 0, 1, 0, 1, 0, 32, .ro, false, fun _ _ _ => 0⟩
def TP_MTC_HI.MTC : Fld := ⟨0x20800110, 0x20, 2, 0, 1, 0, 1, 0, 32, .ro, false, fun _ _ _ => 0⟩
def TP_FRAC.FRAC : Fld := ⟨0x20800114, 0x20, 2, 0, 1, 0, 1, 0, 6, .ro, false, fun _ _ _ => 0⟩
def TP_CNT.SKIP : Fld := ⟨0x20800118, 0x20, 2, 0, 1, 0, 1, 0, 16, .rc, false, fun _ _ _ => 0⟩
def TP_CNT.EDGES : Fld := ⟨0x20800118, 0x20, 2, 0, 1, 0, 1, 16, 16, .rc, false, fun _ _ _ => 0⟩

/-! Table 12.11 GNSS channel GCn, at 0x2081_0000 + n × 0x40. -/

def GC_CFG.EN : Fld := ⟨0x20810000, 0x40, 96, 0, 1, 0, 1, 0, 1, .rw, true, fun _ _ _ => 0⟩
def GC_CFG.SIG : Fld := ⟨0x20810000, 0x40, 96, 0, 1, 0, 1, 4, 4, .rw, true, fun _ _ _ => 0⟩
def GC_CFG.PRN : Fld := ⟨0x20810000, 0x40, 96, 0, 1, 0, 1, 8, 6, .rw, true, fun _ _ _ => 0⟩
def GC_CFG.ANT : Fld := ⟨0x20810000, 0x40, 96, 0, 1, 0, 1, 14, 1, .rw, true, fun _ _ _ => 0⟩
def GC_CFG.DUMP_N : Fld := ⟨0x20810000, 0x40, 96, 0, 1, 0, 1, 16, 4, .rw, true, fun _ _ _ => 1⟩
def GC_CFG.DUMP_EV : Fld := ⟨0x20810000, 0x40, 96, 0, 1, 0, 1, 20, 1, .rw, true, fun _ _ _ => 0⟩
def GC_CFG.OWNER : Fld := ⟨0x20810000, 0x40, 96, 0, 1, 0, 1, 24, 5, .ro, true, fun _ _ _ => 0x10⟩
def GC_CODE_FRQ.FRQ : Fld := ⟨0x20810004, 0x40, 96, 0, 1, 0, 1, 0, 32, .rw, true, fun _ _ _ => 0⟩
def GC_CARR_FRQ.FRQ : Fld := ⟨0x20810008, 0x40, 96, 0, 1, 0, 1, 0, 32, .rw, true, fun _ _ _ => 0⟩
def GC_TAPS.SP : Fld := ⟨0x2081000C, 0x40, 96, 0, 1, 0, 1, 0, 7, .rw, true, fun _ _ _ => 0x10⟩
def GC_CODE_ADJ.ADJ : Fld := ⟨0x20810010, 0x40, 96, 0, 1, 0, 1, 0, 16, .wo, true, fun _ _ _ => 0⟩
def GC_CARR_ADJ.ADJ : Fld := ⟨0x20810014, 0x40, 96, 0, 1, 0, 1, 0, 16, .wo, true, fun _ _ _ => 0⟩
def GC_CODE_PH.CHIP : Fld := ⟨0x20810018, 0x40, 96, 0, 1, 0, 1, 16, 16, .ro, false, fun _ _ _ => 0⟩
def GC_CODE_PH.FRAC : Fld := ⟨0x20810018, 0x40, 96, 0, 1, 0, 1, 0, 16, .ro, false, fun _ _ _ => 0⟩
def GC_CARR_CYC.W : Fld := ⟨0x2081001C, 0x40, 96, 0, 1, 0, 1, 0, 32, .ro, false, fun _ _ _ => 0⟩
def GC_CARR_FR.W : Fld := ⟨0x20810020, 0x40, 96, 0, 1, 0, 1, 0, 32, .ro, false, fun _ _ _ => 0⟩
def GC_DUMP_MTC_LO.MTC : Fld := ⟨0x20810024, 0x40, 96, 0, 1, 0, 1, 0, 32, .ro, false, fun _ _ _ => 0⟩
def GC_DUMP_MTC_HI.MTC : Fld := ⟨0x20810028, 0x40, 96, 0, 1, 0, 1, 0, 32, .ro, false, fun _ _ _ => 0⟩
def GC_FLAGS.F : Fld := ⟨0x2081002C, 0x40, 96, 0, 1, 0, 1, 0, 2, .w1c, false, fun _ _ _ => 0⟩
def GC_CNT.DUMPS : Fld := ⟨0x20810030, 0x40, 96, 0, 1, 0, 1, 0, 16, .rc, false, fun _ _ _ => 0⟩
def GC_CNT.LOST : Fld := ⟨0x20810030, 0x40, 96, 0, 1, 0, 1, 16, 16, .rc, false, fun _ _ _ => 0⟩

/-! Table 12.12 GNSS front end, at 0x2081_2000. -/

def GF_CFG.BIAS0 : Fld := ⟨0x20812000, 0, 1, 0, 1, 0, 1, 0, 1, .rw, false, fun _ _ _ => 1⟩
def GF_CFG.BIAS1 : Fld := ⟨0x20812000, 0, 1, 0, 1, 0, 1, 1, 1, .rw, false, fun _ _ _ => 1⟩
def GF_CFG.JAM_THR : Fld := ⟨0x20812000, 0, 1, 0, 1, 0, 1, 8, 8, .rw, false, fun _ _ _ => 0xA⟩
def GF_STAT.OPEN0 : Fld := ⟨0x20812004, 0, 1, 0, 1, 0, 1, 0, 1, .ro, false, fun _ _ _ => 0⟩
def GF_STAT.SHORT0 : Fld := ⟨0x20812004, 0, 1, 0, 1, 0, 1, 1, 1, .ro, false, fun _ _ _ => 0⟩
def GF_STAT.OPEN1 : Fld := ⟨0x20812004, 0, 1, 0, 1, 0, 1, 2, 1, .ro, false, fun _ _ _ => 0⟩
def GF_STAT.SHORT1 : Fld := ⟨0x20812004, 0, 1, 0, 1, 0, 1, 3, 1, .ro, false, fun _ _ _ => 0⟩
def GF_AGC.S0 : Fld := ⟨0x20812008, 0, 1, 0, 1, 0, 1, 0, 8, .ro, false, fun _ _ _ => 0⟩
def GF_AGC.S1 : Fld := ⟨0x20812008, 0, 1, 0, 1, 0, 1, 8, 8, .ro, false, fun _ _ _ => 0⟩
def GF_AGC.S2 : Fld := ⟨0x20812008, 0, 1, 0, 1, 0, 1, 16, 8, .ro, false, fun _ _ _ => 0⟩
def GF_AGC.S3 : Fld := ⟨0x20812008, 0, 1, 0, 1, 0, 1, 24, 8, .ro, false, fun _ _ _ => 0⟩
def GF_FLAGS.F : Fld := ⟨0x2081200C, 0, 1, 0, 1, 0, 1, 0, 3, .w1c, false, fun _ _ _ => 0⟩
def GF_DUMP_BASE_LO.ADDR : Fld := ⟨0x20812020, 0, 1, 0, 1, 0, 1, 12, 20, .rw, false, fun _ _ _ => 0⟩
def GF_DUMP_BASE_HI.ADDR : Fld := ⟨0x20812024, 0, 1, 0, 1, 0, 1, 0, 8, .rw, false, fun _ _ _ => 0⟩
def GF_DUMP_CFG.LOG2N : Fld := ⟨0x20812028, 0, 1, 0, 1, 0, 1, 0, 4, .rw, false, fun _ _ _ => 0xA⟩
def GF_DUMP_WR.IDX : Fld := ⟨0x2081202C, 0, 1, 0, 1, 0, 1, 0, 16, .ro, false, fun _ _ _ => 0⟩
def GF_DUMP_RD.IDX : Fld := ⟨0x20812030, 0, 1, 0, 1, 0, 1, 0, 16, .rw, true, fun _ _ _ => 0⟩
def GF_CLAIM.W : Fld := ⟨0x20812040, 0, 1, 4, 3, 0, 1, 0, 32, .ro, false, fun _ _ _ => 0⟩
def GF_SOL.SEQ : Fld := ⟨0x20812050, 0, 1, 0, 1, 0, 1, 0, 32, .ro, false, fun _ _ _ => 0⟩
def GF_SOL_RD.IDX : Fld := ⟨0x20812054, 0, 1, 0, 1, 0, 1, 0, 16, .rw, true, fun _ _ _ => 0⟩
def GF_CNT.IGN : Fld := ⟨0x20812058, 0, 1, 0, 1, 0, 1, 0, 16, .rc, false, fun _ _ _ => 0⟩
def GF_CNT.SOL_DROP : Fld := ⟨0x20812058, 0, 1, 0, 1, 0, 1, 16, 16, .rc, false, fun _ _ _ => 0⟩

/-! Table 13.5 Trellis control, at 0x2090_0000. -/

def TL_CTL.EN : Fld := ⟨0x20900000, 0, 1, 0, 1, 0, 1, 0, 1, .rw, false, fun _ _ _ => 0⟩
def TL_CTL.COV_SRC : Fld := ⟨0x20900000, 0, 1, 0, 1, 0, 1, 1, 1, .rw, false, fun _ _ _ => 0⟩
def TL_CTL.REV_EN : Fld := ⟨0x20900000, 0, 1, 0, 1, 0, 1, 2, 1, .rw, false, fun _ _ _ => 1⟩
def TL_CTL.FLEET_EN : Fld := ⟨0x20900000, 0, 1, 0, 1, 0, 1, 3, 1, .rw, false, fun _ _ _ => 1⟩
def TL_CTL.NOTIME_POL : Fld := ⟨0x20900000, 0, 1, 0, 1, 0, 1, 4, 1, .rw, false, fun _ _ _ => 0⟩
def TL_CTL.WIDTH_MODE : Fld := ⟨0x20900000, 0, 1, 0, 1, 0, 1, 5, 2, .rw, false, fun _ _ _ => 0⟩
def TL_CTL.FLUSH_S : Fld := ⟨0x20900000, 0, 1, 0, 1, 0, 1, 8, 8, .rw, false, fun _ _ _ => 0x1E⟩
def TL_FIELD.STATE : Fld := ⟨0x20900004, 0, 1, 0, 1, 0, 1, 0, 2, .ro, false, fun _ _ _ => 0⟩
def TL_FIELD.EDGE : Fld := ⟨0x20900004, 0, 1, 0, 1, 0, 1, 4, 4, .ro, false, fun _ _ _ => 0⟩
def TL_FIELD.SESSION : Fld := ⟨0x20900004, 0, 1, 0, 1, 0, 1, 8, 8, .ro, false, fun _ _ _ => 0⟩
def TL_FIELD.LAYERS : Fld := ⟨0x20900004, 0, 1, 0, 1, 0, 1, 16, 16, .ro, false, fun _ _ _ => 0⟩
def TL_FIELD_ID.ID : Fld := ⟨0x20900008, 0, 1, 0, 1, 0, 1, 0, 32, .ro, false, fun _ _ _ => 0⟩
def TL_SRC.FLOW_AT : Fld := ⟨0x2090000C, 0, 1, 0, 1, 0, 1, 0, 4, .rw, false, fun _ _ _ => 0⟩
def TL_SRC.MOIST_AT : Fld := ⟨0x2090000C, 0, 1, 0, 1, 0, 1, 4, 4, .rw, false, fun _ _ _ => 0⟩
def TL_SRC.LOSS0_AT : Fld := ⟨0x2090000C, 0, 1, 0, 1, 0, 1, 8, 4, .rw, false, fun _ _ _ => 0⟩
def TL_SRC.LOSS1_AT : Fld := ⟨0x2090000C, 0, 1, 0, 1, 0, 1, 12, 4, .rw, false, fun _ _ _ => 0⟩
def TL_SRC.CAL : Fld := ⟨0x2090000C, 0, 1, 0, 1, 0, 1, 16, 16, .rw, false, fun _ _ _ => 0x4000⟩
def TL_PASS.PASS_GAP : Fld := ⟨0x20900010, 0, 1, 0, 1, 0, 1, 0, 8, .rw, false, fun _ _ _ => 0xA⟩
def TL_PASS.ROWS : Fld := ⟨0x20900010, 0, 1, 0, 1, 0, 1, 8, 8, .rw, false, fun _ _ _ => 0xA⟩
def TL_PASS.C_MIN : Fld := ⟨0x20900010, 0, 1, 0, 1, 0, 1, 16, 8, .rw, false, fun _ _ _ => 0x40⟩
def TL_STRIP.LAST : Fld := ⟨0x20900014, 0, 1, 0, 1, 0, 1, 0, 32, .ro, false, fun _ _ _ => 0⟩
def TL_TILES.USED : Fld := ⟨0x20900018, 0, 1, 0, 1, 0, 1, 0, 17, .ro, false, fun _ _ _ => 0⟩
def TL_GAP.GAP : Fld := ⟨0x2090001C, 0, 1, 0, 1, 0, 1, 0, 32, .ro, false, fun _ _ _ => 0⟩
def TL_FLAGS.F : Fld := ⟨0x20900020, 0, 1, 0, 1, 0, 1, 0, 8, .w1c, false, fun _ _ _ => 0⟩
def TL_EVMASK.F : Fld := ⟨0x20900024, 0, 1, 0, 1, 0, 1, 0, 8, .rw, false, fun _ _ _ => 0⟩
def TL_CNT0.PLACED : Fld := ⟨0x20900028, 0, 1, 0, 1, 0, 1, 0, 16, .rc, false, fun _ _ _ => 0⟩
def TL_CNT0.UNPLACED : Fld := ⟨0x20900028, 0, 1, 0, 1, 0, 1, 16, 16, .rc, false, fun _ _ _ => 0⟩
def TL_CNT1.REV_APPLIED : Fld := ⟨0x2090002C, 0, 1, 0, 1, 0, 1, 0, 16, .rc, false, fun _ _ _ => 0⟩
def TL_CNT1.REV_AHEAD : Fld := ⟨0x2090002C, 0, 1, 0, 1, 0, 1, 16, 16, .rc, false, fun _ _ _ => 0⟩
def TL_CNT2.FLEET_MERGED : Fld := ⟨0x20900030, 0, 1, 0, 1, 0, 1, 0, 16, .rc, false, fun _ _ _ => 0⟩
def TL_CNT2.FLEET_REJ : Fld := ⟨0x20900030, 0, 1, 0, 1, 0, 1, 16, 16, .rc, false, fun _ _ _ => 0⟩
def TL_CNT3.TILE_FULL : Fld := ⟨0x20900034, 0, 1, 0, 1, 0, 1, 0, 16, .rc, false, fun _ _ _ => 0⟩
def TL_CNT3.HG_MISS : Fld := ⟨0x20900034, 0, 1, 0, 1, 0, 1, 16, 16, .rc, false, fun _ _ _ => 0⟩
def TL_FLUSH_MTC_LO.MTC : Fld := ⟨0x20900038, 0, 1, 0, 1, 0, 1, 0, 32, .ro, false, fun _ _ _ => 0⟩
def TL_FLUSH_MTC_HI.MTC : Fld := ⟨0x2090003C, 0, 1, 0, 1, 0, 1, 0, 32, .ro, false, fun _ _ _ => 0⟩
def SC_CFG.EN : Fld := ⟨0x20900200, 0, 1, 0, 1, 0, 1, 0, 1, .rw, false, fun _ _ _ => 0⟩
def SC_CFG.MASTER : Fld := ⟨0x20900200, 0, 1, 0, 1, 0, 1, 1, 1, .rw, true, fun _ _ _ => 0⟩
def SC_CFG.NOFIX_POL : Fld := ⟨0x20900200, 0, 1, 0, 1, 0, 1, 2, 2, .rw, false, fun _ _ _ => 1⟩
def SC_CFG.ON_FRAC : Fld := ⟨0x20900200, 0, 1, 0, 1, 0, 1, 8, 8, .rw, false, fun _ _ _ => 0x80⟩
def SC_CFG.OFF_FRAC : Fld := ⟨0x20900200, 0, 1, 0, 1, 0, 1, 16, 8, .rw, false, fun _ _ _ => 0x1A⟩
def SC_CFG.NSEC : Fld := ⟨0x20900200, 0, 1, 0, 1, 0, 1, 24, 7, .rw, false, fun _ _ _ => 0⟩
def SC_REF.X : Fld := ⟨0x20900204, 0, 1, 0, 1, 0, 1, 0, 16, .rw, false, fun _ _ _ => 0⟩
def SC_REF.Y : Fld := ⟨0x20900204, 0, 1, 0, 1, 0, 1, 16, 16, .rw, false, fun _ _ _ => 0⟩
def SC_STATE0.ON : Fld := ⟨0x20900208, 0, 1, 0, 1, 0, 1, 0, 32, .ro, false, fun _ _ _ => 0⟩
def SC_STATE1.ON : Fld := ⟨0x2090020C, 0, 1, 0, 1, 0, 1, 0, 32, .ro, false, fun _ _ _ => 0⟩
def SC_CNT.SWITCHES : Fld := ⟨0x20900210, 0, 1, 0, 1, 0, 1, 0, 16, .rc, false, fun _ _ _ => 0⟩
def SC_CNT.MISS : Fld := ⟨0x20900210, 0, 1, 0, 1, 0, 1, 16, 16, .rc, false, fun _ _ _ => 0⟩

/-! Table 13.6 Section SCk, k = 0 to 63, at 0x2090_0400 + k × 0x10, with its status at 0x2090_0800 + k × 4. -/

def SC_GEOM.SC_Y : Fld := ⟨0x20900400, 0x10, 64, 0, 1, 0, 1, 0, 16, .rw, false, fun _ _ _ => 0⟩
def SC_GEOM.SC_WIDTH : Fld := ⟨0x20900400, 0x10, 64, 0, 1, 0, 1, 16, 16, .rw, false, fun _ _ _ => 0⟩
def SC_LAT.LAT_ON : Fld := ⟨0x20900404, 0x10, 64, 0, 1, 0, 1, 0, 12, .rw, false, fun _ _ _ => 0⟩
def SC_LAT.LAT_OFF : Fld := ⟨0x20900404, 0x10, 64, 0, 1, 0, 1, 16, 12, .rw, false, fun _ _ _ => 0⟩
def SC_ADDR.EN : Fld := ⟨0x20900408, 0x10, 64, 0, 1, 0, 1, 0, 1, .rw, false, fun _ _ _ => 0⟩
def SC_ADDR.ADDR : Fld := ⟨0x20900408, 0x10, 64, 0, 1, 0, 1, 2, 26, .rw, false, fun _ _ _ => 0⟩
def SC_ON_WORD.W : Fld := ⟨0x2090040C, 0x10, 64, 0, 1, 0, 1, 0, 32, .rw, false, fun _ _ _ => 0x10000⟩
def SC_STAT.U_ON : Fld := ⟨0x20900800, 4, 64, 0, 1, 0, 1, 0, 8, .ro, false, fun _ _ _ => 0⟩
def SC_STAT.U_OFF : Fld := ⟨0x20900800, 4, 64, 0, 1, 0, 1, 8, 8, .ro, false, fun _ _ _ => 0⟩
def SC_STAT.STATE : Fld := ⟨0x20900800, 4, 64, 0, 1, 0, 1, 16, 1, .ro, false, fun _ _ _ => 0⟩
def SC_STAT.EFF : Fld := ⟨0x20900800, 4, 64, 0, 1, 0, 1, 17, 1, .ro, false, fun _ _ _ => 0⟩

/-! Table 14.8 CAN controller block, CANn at 0x20A0_0000 + n × 0x1000. -/

def CAN_CTL.INIT : Fld := ⟨0x20A00000, 0x1000, 8, 0, 1, 0, 1, 0, 1, .rw, false, fun _ _ _ => 1⟩
def CAN_CTL.MODE : Fld := ⟨0x20A00000, 0x1000, 8, 0, 1, 0, 1, 1, 2, .rw, false, fun _ _ _ => 0⟩
def CAN_CTL.FD_EN : Fld := ⟨0x20A00000, 0x1000, 8, 0, 1, 0, 1, 3, 1, .rw, false, fun _ _ _ => 0⟩
def CAN_CTL.BRS_EN : Fld := ⟨0x20A00000, 0x1000, 8, 0, 1, 0, 1, 4, 1, .rw, false, fun _ _ _ => 0⟩
def CAN_CTL.BO_AUTO : Fld := ⟨0x20A00000, 0x1000, 8, 0, 1, 0, 1, 5, 1, .rw, false, fun _ _ _ => 1⟩
def CAN_CTL.RECOVER : Fld := ⟨0x20A00000, 0x1000, 8, 0, 1, 0, 1, 8, 1, .wo, false, fun _ _ _ => 0⟩
def CAN_CTL.RST : Fld := ⟨0x20A00000, 0x1000, 8, 0, 1, 0, 1, 9, 1, .wo, false, fun _ _ _ => 0⟩
def CAN_CFG.OWNER : Fld := ⟨0x20A00004, 0x1000, 8, 0, 1, 0, 1, 0, 5, .rw, false, fun _ _ _ => 0x1F⟩
def CAN_CFG.DEFAULT : Fld := ⟨0x20A00004, 0x1000, 8, 0, 1, 0, 1, 8, 1, .rw, false, fun _ _ _ => 1⟩
def CAN_CFG.QN : Fld := ⟨0x20A00004, 0x1000, 8, 0, 1, 0, 1, 9, 7, .rw, false, fun _ _ _ => 0x20⟩
def CAN_CFG.QFULL_POL : Fld := ⟨0x20A00004, 0x1000, 8, 0, 1, 0, 1, 16, 1, .rw, false, fun _ _ _ => 0⟩
def CAN_CFG.LOCK_POL : Fld := ⟨0x20A00004, 0x1000, 8, 0, 1, 0, 1, 17, 1, .rw, false, fun _ _ _ => 0⟩
def CAN_CFG.TX_MODE : Fld := ⟨0x20A00004, 0x1000, 8, 0, 1, 0, 1, 18, 1, .rw, false, fun _ _ _ => 0⟩
def CAN_CFG.RX_EV : Fld := ⟨0x20A00004, 0x1000, 8, 0, 1, 0, 1, 20, 1, .rw, false, fun _ _ _ => 0⟩
def CAN_CFG.TX_EV : Fld := ⟨0x20A00004, 0x1000, 8, 0, 1, 0, 1, 21, 1, .rw, false, fun _ _ _ => 0⟩
def CAN_NBT.BRP : Fld := ⟨0x20A00008, 0x1000, 8, 0, 1, 0, 1, 0, 8, .rw, false, fun _ _ _ => 4⟩
def CAN_NBT.TSEG1 : Fld := ⟨0x20A00008, 0x1000, 8, 0, 1, 0, 1, 8, 8, .rw, false, fun _ _ _ => 0x45⟩
def CAN_NBT.TSEG2 : Fld := ⟨0x20A00008, 0x1000, 8, 0, 1, 0, 1, 16, 7, .rw, false, fun _ _ _ => 0xA⟩
def CAN_NBT.SJW : Fld := ⟨0x20A00008, 0x1000, 8, 0, 1, 0, 1, 24, 7, .rw, false, fun _ _ _ => 0xA⟩
def CAN_DBT.BRP : Fld := ⟨0x20A0000C, 0x1000, 8, 0, 1, 0, 1, 0, 5, .rw, false, fun _ _ _ => 1⟩
def CAN_DBT.TSEG1 : Fld := ⟨0x20A0000C, 0x1000, 8, 0, 1, 0, 1, 8, 5, .rw, false, fun _ _ _ => 0x1D⟩
def CAN_DBT.TSEG2 : Fld := ⟨0x20A0000C, 0x1000, 8, 0, 1, 0, 1, 16, 4, .rw, false, fun _ _ _ => 0xA⟩
def CAN_DBT.SJW : Fld := ⟨0x20A0000C, 0x1000, 8, 0, 1, 0, 1, 24, 4, .rw, false, fun _ _ _ => 0xA⟩
def CAN_TDC.TDC_EN : Fld := ⟨0x20A00010, 0x1000, 8, 0, 1, 0, 1, 0, 1, .rw, false, fun _ _ _ => 1⟩
def CAN_TDC.TDCO : Fld := ⟨0x20A00010, 0x1000, 8, 0, 1, 0, 1, 8, 7, .rw, false, fun _ _ _ => 0⟩
def CAN_TDC.TDCV : Fld := ⟨0x20A00010, 0x1000, 8, 0, 1, 0, 1, 24, 7, .ro, false, fun _ _ _ => 0⟩
def CAN_STAT.STATE : Fld := ⟨0x20A00014, 0x1000, 8, 0, 1, 0, 1, 0, 2, .ro, false, fun _ _ _ => 3⟩
def CAN_STAT.TEC : Fld := ⟨0x20A00014, 0x1000, 8, 0, 1, 0, 1, 8, 8, .ro, false, fun _ _ _ => 0⟩
def CAN_STAT.REC : Fld := ⟨0x20A00014, 0x1000, 8, 0, 1, 0, 1, 16, 7, .ro, false, fun _ _ _ => 0⟩
def CAN_STAT.RP : Fld := ⟨0x20A00014, 0x1000, 8, 0, 1, 0, 1, 23, 1, .ro, false, fun _ _ _ => 0⟩
def CAN_STAT.ACT : Fld := ⟨0x20A00014, 0x1000, 8, 0, 1, 0, 1, 24, 2, .ro, false, fun _ _ _ => 0⟩
def CAN_FLAGS.F : Fld := ⟨0x20A00018, 0x1000, 8, 0, 1, 0, 1, 0, 15, .w1c, false, fun _ _ _ => 0⟩
def CAN_EVMASK.F : Fld := ⟨0x20A0001C, 0x1000, 8, 0, 1, 0, 1, 0, 15, .rw, false, fun _ _ _ => 0⟩
def CAN_CNT0.RX_FRAMES : Fld := ⟨0x20A00020, 0x1000, 8, 0, 1, 0, 1, 0, 16, .rc, false, fun _ _ _ => 0⟩
def CAN_CNT0.TX_FRAMES : Fld := ⟨0x20A00020, 0x1000, 8, 0, 1, 0, 1, 16, 16, .rc, false, fun _ _ _ => 0⟩
def CAN_CNT1.RX_LOST : Fld := ⟨0x20A00024, 0x1000, 8, 0, 1, 0, 1, 0, 16, .rc, false, fun _ _ _ => 0⟩
def CAN_CNT1.OVW : Fld := ⟨0x20A00024, 0x1000, 8, 0, 1, 0, 1, 16, 16, .rc, false, fun _ _ _ => 0⟩
def CAN_CNT2.LOCK_OVF : Fld := ⟨0x20A00028, 0x1000, 8, 0, 1, 0, 1, 0, 16, .rc, false, fun _ _ _ => 0⟩
def CAN_CNT2.ABANDON : Fld := ⟨0x20A00028, 0x1000, 8, 0, 1, 0, 1, 16, 16, .rc, false, fun _ _ _ => 0⟩
def CAN_CNT3.BUS_OFFS : Fld := ⟨0x20A0002C, 0x1000, 8, 0, 1, 0, 1, 0, 16, .rc, false, fun _ _ _ => 0⟩
def CAN_CNT3.IGN : Fld := ⟨0x20A0002C, 0x1000, 8, 0, 1, 0, 1, 16, 16, .rc, false, fun _ _ _ => 0⟩
def CAN_RXNEW.NEW : Fld := ⟨0x20A00030, 0x1000, 8, 4, 2, 0, 1, 0, 32, .ro, false, fun _ _ _ => 0⟩
def CAN_HPNEW.NEW : Fld := ⟨0x20A00038, 0x1000, 8, 0, 1, 0, 1, 0, 8, .ro, false, fun _ _ _ => 0⟩
def CAN_QSTAT.HEAD : Fld := ⟨0x20A0003C, 0x1000, 8, 0, 1, 0, 1, 0, 6, .ro, false, fun _ _ _ => 0⟩
def CAN_QSTAT.COUNT : Fld := ⟨0x20A0003C, 0x1000, 8, 0, 1, 0, 1, 8, 7, .ro, false, fun _ _ _ => 0⟩
def CAN_QSTAT.SEQ : Fld := ⟨0x20A0003C, 0x1000, 8, 0, 1, 0, 1, 24, 8, .ro, false, fun _ _ _ => 0⟩
def CAN_TX_REQ.W : Fld := ⟨0x20A00040, 0x1000, 8, 0, 1, 0, 1, 0, 32, .w1s, true, fun _ _ _ => 0⟩
def CAN_TX_CANCEL.W : Fld := ⟨0x20A00044, 0x1000, 8, 0, 1, 0, 1, 0, 32, .w1s, true, fun _ _ _ => 0⟩
def CAN_TX_DONE.W : Fld := ⟨0x20A00048, 0x1000, 8, 0, 1, 0, 1, 0, 32, .w1c, true, fun _ _ _ => 0⟩
def CAN_TXEV_A.BUF : Fld := ⟨0x20A0004C, 0x1000, 8, 0, 1, 0, 1, 0, 5, .ro, false, fun _ _ _ => 0⟩
def CAN_TXEV_A.RESULT : Fld := ⟨0x20A0004C, 0x1000, 8, 0, 1, 0, 1, 8, 3, .ro, false, fun _ _ _ => 0⟩
def CAN_TXEV_A.LATE : Fld := ⟨0x20A0004C, 0x1000, 8, 0, 1, 0, 1, 11, 1, .ro, false, fun _ _ _ => 0⟩
def CAN_TXEV_A.COUNT : Fld := ⟨0x20A0004C, 0x1000, 8, 0, 1, 0, 1, 16, 5, .ro, false, fun _ _ _ => 0⟩
def CAN_TXEV_A.VALID : Fld := ⟨0x20A0004C, 0x1000, 8, 0, 1, 0, 1, 31, 1, .ro, false, fun _ _ _ => 0⟩
def CAN_TXEV_B.MTC : Fld := ⟨0x20A00050, 0x1000, 8, 0, 1, 0, 1, 0, 32, .ro, false, fun _ _ _ => 0⟩
def CAN_TXEV_C.MTC : Fld := ⟨0x20A00054, 0x1000, 8, 0, 1, 0, 1, 0, 32, .rc, false, fun _ _ _ => 0⟩
def HPF_ID.ID : Fld := ⟨0x20A00100, 0x1000, 8, 0x10, 8, 0, 1, 0, 29, .rw, false, fun _ _ _ => 0⟩
def HPF_ID.IDE : Fld := ⟨0x20A00100, 0x1000, 8, 0x10, 8, 0, 1, 29, 1, .rw, false, fun _ _ _ => 0⟩
def HPF_ID.IDE_ANY : Fld := ⟨0x20A00100, 0x1000, 8, 0x10, 8, 0, 1, 30, 1, .rw, false, fun _ _ _ => 0⟩
def HPF_ID.EN : Fld := ⟨0x20A00100, 0x1000, 8, 0x10, 8, 0, 1, 31, 1, .rw, false, fun _ _ _ => 0⟩
def HPF_MASK.MASK : Fld := ⟨0x20A00104, 0x1000, 8, 0x10, 8, 0, 1, 0, 29, .rw, false, fun _ _ _ => 0⟩
def HPF_CTL.COPY : Fld := ⟨0x20A00108, 0x1000, 8, 0x10, 8, 0, 1, 0, 1, .rw, false, fun _ _ _ => 0⟩
def HPF_CTL.EV : Fld := ⟨0x20A00108, 0x1000, 8, 0x10, 8, 0, 1, 1, 1, .rw, false, fun _ _ _ => 0⟩
def HPF_CTL.HITS : Fld := ⟨0x20A00108, 0x1000, 8, 0x10, 8, 0, 1, 16, 16, .rc, false, fun _ _ _ => 0⟩
def AF_ID.ID : Fld := ⟨0x20A00200, 0x1000, 8, 0x10, 48, 0, 1, 0, 29, .rw, false, fun _ _ _ => 0⟩
def AF_ID.IDE : Fld := ⟨0x20A00200, 0x1000, 8, 0x10, 48, 0, 1, 29, 1, .rw, false, fun _ _ _ => 0⟩
def AF_ID.IDE_ANY : Fld := ⟨0x20A00200, 0x1000, 8, 0x10, 48, 0, 1, 30, 1, .rw, false, fun _ _ _ => 0⟩
def AF_MASK.MASK : Fld := ⟨0x20A00204, 0x1000, 8, 0x10, 48, 0, 1, 0, 29, .rw, false, fun _ _ _ => 0⟩
def AF_ACT.ACT : Fld := ⟨0x20A00208, 0x1000, 8, 0x10, 48, 0, 1, 0, 2, .rw, false, fun _ _ _ => 0⟩
def AF_ACT.BUF : Fld := ⟨0x20A00208, 0x1000, 8, 0x10, 48, 0, 1, 8, 6, .rw, false, fun _ _ _ => 0⟩
def AF_ACT.HITS : Fld := ⟨0x20A00208, 0x1000, 8, 0x10, 48, 0, 1, 16, 16, .rc, false, fun _ _ _ => 0⟩
def RXW_SEL.BUF : Fld := ⟨0x20A00600, 0x1000, 8, 0x100, 2, 0, 1, 0, 7, .rw, true, fun _ _ _ => 0x7F⟩
def RXW_SEL.LOCKED : Fld := ⟨0x20A00600, 0x1000, 8, 0x100, 2, 0, 1, 8, 1, .ro, true, fun _ _ _ => 0⟩
def RXW_REL.REL : Fld := ⟨0x20A00604, 0x1000, 8, 0x100, 2, 0, 1, 0, 1, .wo, true, fun _ _ _ => 0⟩
def RXW_REL.CONSUME : Fld := ⟨0x20A00604, 0x1000, 8, 0x100, 2, 0, 1, 1, 1, .wo, true, fun _ _ _ => 0⟩
def RXW_W.W : Fld := ⟨0x20A00640, 0x1000, 8, 0x100, 2, 4, 20, 0, 32, .ro, false, fun _ _ k => if k = 0 then 0x80000000 else 0⟩
def TXW_SEL.BUF : Fld := ⟨0x20A00800, 0x1000, 8, 0, 1, 0, 1, 0, 5, .rw, true, fun _ _ _ => 0⟩
def TXW_W.W : Fld := ⟨0x20A00840, 0x1000, 8, 4, 20, 0, 1, 0, 32, .rw, true, fun _ _ _ => 0⟩

/-! Table 14.9 CAN group block, at 0x20A0_8000. -/

def CAN_HP_SUM0.NEW : Fld := ⟨0x20A08000, 0, 1, 0, 1, 0, 1, 0, 32, .ro, false, fun _ _ _ => 0⟩
def CAN_HP_SUM1.NEW : Fld := ⟨0x20A08004, 0, 1, 0, 1, 0, 1, 0, 32, .ro, false, fun _ _ _ => 0⟩

/-! Table 15.7 Ethernet port block, ETHn at 0x20B0_0000 + n × 0x400. -/

def ETH_CFG.EN : Fld := ⟨0x20B00000, 0x400, 10, 0, 1, 0, 1, 0, 1, .rw, false, fun _ _ _ => 0⟩
def ETH_CFG.ROLE : Fld := ⟨0x20B00000, 0x400, 10, 0, 1, 0, 1, 1, 1, .rw, false, fun _ _ _ => 0⟩
def ETH_CFG.PVID : Fld := ⟨0x20B00000, 0x400, 10, 0, 1, 0, 1, 4, 12, .rw, false, fun _ _ _ => 1⟩
def ETH_CFG.PTP_EN : Fld := ⟨0x20B00000, 0x400, 10, 0, 1, 0, 1, 16, 1, .rw, false, fun _ _ _ => 1⟩
def ETH_STAT.LINK : Fld := ⟨0x20B00004, 0x400, 10, 0, 1, 0, 1, 0, 1, .ro, false, fun _ _ _ => 0⟩
def ETH_STAT.SPEED : Fld := ⟨0x20B00004, 0x400, 10, 0, 1, 0, 1, 1, 1, .ro, false, fun i _ _ => if i < 6 then 1 else 0⟩
def ETH_STAT.SQI : Fld := ⟨0x20B00004, 0x400, 10, 0, 1, 0, 1, 4, 3, .ro, false, fun _ _ _ => 0⟩
def ETH_STAT.PDELAY : Fld := ⟨0x20B00004, 0x400, 10, 0, 1, 0, 1, 16, 16, .ro, false, fun _ _ _ => 0⟩
def ETH_FLAGS.F : Fld := ⟨0x20B00008, 0x400, 10, 0, 1, 0, 1, 0, 6, .w1c, false, fun _ _ _ => 0⟩
def ETH_EVMASK.F : Fld := ⟨0x20B0000C, 0x400, 10, 0, 1, 0, 1, 0, 6, .rw, false, fun _ _ _ => 0⟩
def ETH_CNT0.RX : Fld := ⟨0x20B00010, 0x400, 10, 0, 1, 0, 1, 0, 16, .rc, false, fun _ _ _ => 0⟩
def ETH_CNT0.TX : Fld := ⟨0x20B00010, 0x400, 10, 0, 1, 0, 1, 16, 16, .rc, false, fun _ _ _ => 0⟩
def ETH_CNT1.FCS : Fld := ⟨0x20B00014, 0x400, 10, 0, 1, 0, 1, 0, 16, .rc, false, fun _ _ _ => 0⟩
def ETH_CNT1.OVERSIZE : Fld := ⟨0x20B00014, 0x400, 10, 0, 1, 0, 1, 16, 16, .rc, false, fun _ _ _ => 0⟩
def ETH_CNT2.EGR_DROP : Fld := ⟨0x20B00018, 0x400, 10, 0, 1, 0, 1, 0, 16, .rc, false, fun _ _ _ => 0⟩
def ETH_CNT2.VLAN_DROP : Fld := ⟨0x20B00018, 0x400, 10, 0, 1, 0, 1, 16, 16, .rc, false, fun _ _ _ => 0⟩
def ETH_CNT3.LINK_LOSS : Fld := ⟨0x20B0001C, 0x400, 10, 0, 1, 0, 1, 0, 16, .rc, false, fun _ _ _ => 0⟩
def ETH_CNT3.PTP_FOREIGN : Fld := ⟨0x20B0001C, 0x400, 10, 0, 1, 0, 1, 16, 16, .rc, false, fun _ _ _ => 0⟩
def ETH_CNT4.HOST_DROP : Fld := ⟨0x20B00020, 0x400, 10, 0, 1, 0, 1, 0, 16, .rc, false, fun _ _ _ => 0⟩

/-! Table 15.8 Switch, at 0x20B0_4000. -/

def SW_CFG.MAC_AGE : Fld := ⟨0x20B04000, 0, 1, 0, 1, 0, 1, 0, 16, .rw, false, fun _ _ _ => 0x12C⟩
def SW_CFG.JFX_VID : Fld := ⟨0x20B04000, 0, 1, 0, 1, 0, 1, 16, 12, .rw, false, fun _ _ _ => 0⟩
def SW_STAT.BUF : Fld := ⟨0x20B04004, 0, 1, 0, 1, 0, 1, 0, 12, .ro, false, fun _ _ _ => 0⟩
def SW_STAT.MACS : Fld := ⟨0x20B04004, 0, 1, 0, 1, 0, 1, 16, 13, .ro, false, fun _ _ _ => 0⟩
def SW_JFX.AUTH_FAIL : Fld := ⟨0x20B04008, 0, 1, 0, 1, 0, 1, 0, 16, .rc, false, fun _ _ _ => 0⟩
def SW_JFX.REFUSED_FULL : Fld := ⟨0x20B04008, 0, 1, 0, 1, 0, 1, 16, 16, .rc, false, fun _ _ _ => 0⟩
def SW_JFX1.TILE_DROP : Fld := ⟨0x20B0400C, 0, 1, 0, 1, 0, 1, 0, 16, .rc, false, fun _ _ _ => 0⟩
def SW_JFX1.ACTIVE : Fld := ⟨0x20B0400C, 0, 1, 0, 1, 0, 1, 16, 7, .ro, false, fun _ _ _ => 0⟩
def VLAN_A.VID : Fld := ⟨0x20B04100, 0, 1, 8, 32, 0, 1, 0, 12, .rw, false, fun _ _ _ => 0⟩
def VLAN_A.EN : Fld := ⟨0x20B04100, 0, 1, 8, 32, 0, 1, 12, 1, .rw, false, fun _ _ _ => 0⟩
def VLAN_A.HOSTQ : Fld := ⟨0x20B04100, 0, 1, 8, 32, 0, 1, 14, 2, .rw, false, fun _ _ _ => 0⟩
def VLAN_A.MEMBER : Fld := ⟨0x20B04100, 0, 1, 8, 32, 0, 1, 16, 11, .rw, false, fun _ _ _ => 0⟩
def VLAN_B.UNTAG : Fld := ⟨0x20B04104, 0, 1, 8, 32, 0, 1, 0, 11, .rw, false, fun _ _ _ => 0⟩

/-! Table 15.9 Stream STRk, at 0x20B0_4400 + k × 0x40. -/

def STR_CFG.EN : Fld := ⟨0x20B04400, 0x40, 16, 0, 1, 0, 1, 0, 1, .rw, false, fun _ _ _ => 0⟩
def STR_CFG.PORT : Fld := ⟨0x20B04400, 0x40, 16, 0, 1, 0, 1, 1, 4, .rw, false, fun _ _ _ => 0⟩
def STR_CFG.DOM : Fld := ⟨0x20B04400, 0x40, 16, 0, 1, 0, 1, 5, 1, .rw, false, fun _ _ _ => 1⟩
def STR_CFG.EV : Fld := ⟨0x20B04400, 0x40, 16, 0, 1, 0, 1, 6, 1, .rw, false, fun _ _ _ => 0⟩
def STR_CFG.VID : Fld := ⟨0x20B04400, 0x40, 16, 0, 1, 0, 1, 16, 12, .rw, false, fun _ _ _ => 0⟩
def STR_UDP.UDP : Fld := ⟨0x20B04404, 0x40, 16, 0, 1, 0, 1, 0, 16, .rw, false, fun _ _ _ => 0⟩
def STR_UDP.BLK_TMO : Fld := ⟨0x20B04404, 0x40, 16, 0, 1, 0, 1, 16, 8, .rw, false, fun _ _ _ => 0x14⟩
def STR_RING_LO.ADDR : Fld := ⟨0x20B04408, 0x40, 16, 0, 1, 0, 1, 12, 20, .rw, false, fun _ _ _ => 0⟩
def STR_RING_HI.ADDR : Fld := ⟨0x20B0440C, 0x40, 16, 0, 1, 0, 1, 0, 8, .rw, false, fun _ _ _ => 0⟩
def STR_RING_CFG.NSLOT : Fld := ⟨0x20B04410, 0x40, 16, 0, 1, 0, 1, 0, 5, .rw, false, fun _ _ _ => 8⟩
def STR_HOLD.HOLD : Fld := ⟨0x20B04414, 0x40, 16, 0, 1, 0, 1, 0, 16, .rw, false, fun _ _ _ => 0⟩
def STR_STAT.BSEQ : Fld := ⟨0x20B04418, 0x40, 16, 0, 1, 0, 1, 0, 16, .ro, false, fun _ _ _ => 0⟩
def STR_STAT.SLOT : Fld := ⟨0x20B04418, 0x40, 16, 0, 1, 0, 1, 16, 4, .ro, false, fun _ _ _ => 0⟩
def STR_STAT.OPEN : Fld := ⟨0x20B04418, 0x40, 16, 0, 1, 0, 1, 20, 1, .ro, false, fun _ _ _ => 0⟩
def STR_FLAGS.F : Fld := ⟨0x20B0441C, 0x40, 16, 0, 1, 0, 1, 0, 5, .w1c, false, fun _ _ _ => 0⟩
def STR_CNT0.BLOCKS : Fld := ⟨0x20B04420, 0x40, 16, 0, 1, 0, 1, 0, 16, .rc, false, fun _ _ _ => 0⟩
def STR_CNT0.GAPS : Fld := ⟨0x20B04420, 0x40, 16, 0, 1, 0, 1, 16, 16, .rc, false, fun _ _ _ => 0⟩
def STR_CNT1.BAD : Fld := ⟨0x20B04424, 0x40, 16, 0, 1, 0, 1, 0, 16, .rc, false, fun _ _ _ => 0⟩
def STR_CNT1.PTS_LOST : Fld := ⟨0x20B04424, 0x40, 16, 0, 1, 0, 1, 16, 16, .rc, false, fun _ _ _ => 0⟩

/-! Table 15.10 Host queue HQq, at 0x20B0_4800 + q × 0x40. -/

def HQ_RX_LO.ADDR : Fld := ⟨0x20B04800, 0x40, 2, 0, 1, 0, 1, 12, 20, .rw, false, fun _ _ _ => 0⟩
def HQ_RX_HI.ADDR : Fld := ⟨0x20B04804, 0x40, 2, 0, 1, 0, 1, 0, 8, .rw, false, fun _ _ _ => 0⟩
def HQ_CFG.LOG2N : Fld := ⟨0x20B04808, 0x40, 2, 0, 1, 0, 1, 0, 4, .rw, false, fun _ _ _ => 6⟩
def HQ_CFG.OWNER : Fld := ⟨0x20B04808, 0x40, 2, 0, 1, 0, 1, 8, 5, .rw, false, fun _ _ _ => 0x1F⟩
def HQ_CFG.EV : Fld := ⟨0x20B04808, 0x40, 2, 0, 1, 0, 1, 16, 1, .rw, false, fun _ _ _ => 0⟩
def HQ_RX_WR.IDX : Fld := ⟨0x20B0480C, 0x40, 2, 0, 1, 0, 1, 0, 16, .ro, false, fun _ _ _ => 0⟩
def HQ_RX_RD.IDX : Fld := ⟨0x20B04810, 0x40, 2, 0, 1, 0, 1, 0, 16, .rw, true, fun _ _ _ => 0⟩
def HQ_TX_LO.ADDR : Fld := ⟨0x20B04814, 0x40, 2, 0, 1, 0, 1, 12, 20, .rw, false, fun _ _ _ => 0⟩
def HQ_TX_HI.ADDR : Fld := ⟨0x20B04818, 0x40, 2, 0, 1, 0, 1, 0, 8, .rw, false, fun _ _ _ => 0⟩
def HQ_TX_WR.IDX : Fld := ⟨0x20B0481C, 0x40, 2, 0, 1, 0, 1, 0, 16, .rw, true, fun _ _ _ => 0⟩
def HQ_TX_RD.IDX : Fld := ⟨0x20B04820, 0x40, 2, 0, 1, 0, 1, 0, 16, .ro, false, fun _ _ _ => 0⟩
def HQ_CNT.RX_DROP : Fld := ⟨0x20B04824, 0x40, 2, 0, 1, 0, 1, 0, 16, .rc, false, fun _ _ _ => 0⟩
def HQ_CNT.TX_SKIP : Fld := ⟨0x20B04824, 0x40, 2, 0, 1, 0, 1, 16, 16, .rc, false, fun _ _ _ => 0⟩

/-! Table 16.6 Fabric port FPp, p = 0 to 4, at 0x2004_0000 + p × 0x100. -/

def FP_CFG.MODE : Fld := ⟨0x20040000, 0x100, 5, 0, 1, 0, 1, 0, 1, .rw, false, fun _ _ _ => 0⟩
def FP_CFG.PREEMPT_EN : Fld := ⟨0x20040000, 0x100, 5, 0, 1, 0, 1, 1, 1, .rw, false, fun i _ _ => if i = 3 then 0 else 1⟩
def FP_STAT.OWNER : Fld := ⟨0x20040004, 0x100, 5, 0, 1, 0, 1, 0, 7, .ro, false, fun _ _ _ => 0⟩
def FP_STAT.PARKED : Fld := ⟨0x20040004, 0x100, 5, 0, 1, 0, 1, 8, 1, .ro, false, fun _ _ _ => 1⟩
def FP_STAT.BUSY : Fld := ⟨0x20040004, 0x100, 5, 0, 1, 0, 1, 9, 1, .ro, false, fun _ _ _ => 0⟩
def FP_STAT.WAITING : Fld := ⟨0x20040004, 0x100, 5, 0, 1, 0, 1, 16, 7, .ro, false, fun _ _ _ => 0⟩
def FP_CNT.REVOKES : Fld := ⟨0x20040008, 0x100, 5, 0, 1, 0, 1, 0, 16, .rc, false, fun _ _ _ => 0⟩
def FP_BEATS.W : Fld := ⟨0x2004000C, 0x100, 5, 0, 1, 0, 1, 0, 32, .rc, false, fun _ _ _ => 0⟩

/-! Table 16.7 Arbiter global, at 0x2004_0800. -/

def ARB_CFG.CREDIT_WIN : Fld := ⟨0x20040800, 0, 1, 0, 1, 0, 1, 0, 16, .rw, false, fun _ _ _ => 0x400⟩

/-! Table 16.8 Requester REQr, r = 0 to 87, at 0x2004_1000 + r × 0x20. -/

def REQ_CFG.TC : Fld := ⟨0x20041000, 0x20, 88, 0, 1, 0, 1, 0, 1, .ro, false, fun i _ _ => reqResetTc i⟩
def REQ_CFG.CLASS : Fld := ⟨0x20041000, 0x20, 88, 0, 1, 0, 1, 1, 3, .rw, false, fun i _ _ => reqResetClass i⟩
def REQ_CFG.PRIO : Fld := ⟨0x20041000, 0x20, 88, 0, 1, 0, 1, 8, 8, .rw, false, fun i _ _ => reqResetPrio i⟩
def REQ_CREDIT.REFILL : Fld := ⟨0x20041004, 0x20, 88, 0, 1, 0, 1, 0, 16, .rw, false, fun _ _ _ => 0x40⟩
def REQ_CREDIT.CREDIT : Fld := ⟨0x20041004, 0x20, 88, 0, 1, 0, 1, 16, 16, .ro, false, fun _ _ _ => 0⟩
def REQ_GRANTS.W : Fld := ⟨0x20041008, 0x20, 88, 0, 1, 0, 1, 0, 32, .rc, false, fun _ _ _ => 0⟩
def REQ_WAITS.W : Fld := ⟨0x2004100C, 0x20, 88, 0, 1, 0, 1, 0, 32, .rc, false, fun _ _ _ => 0⟩
def REQ_WMAX.WAIT : Fld := ⟨0x20041010, 0x20, 88, 0, 1, 0, 1, 0, 24, .rc, false, fun _ _ _ => 0⟩
def REQ_WMAX.PORT : Fld := ⟨0x20041010, 0x20, 88, 0, 1, 0, 1, 24, 3, .rc, false, fun _ _ _ => 0⟩
def REQ_REVOKED.W : Fld := ⟨0x20041014, 0x20, 88, 0, 1, 0, 1, 0, 16, .rc, false, fun _ _ _ => 0⟩

/-! Table 16.9 Decanter channel DCn, at 0x2005_0000 + n × 0x100. -/

def DC_CFG.EN : Fld := ⟨0x20050000, 0x100, 32, 0, 1, 0, 1, 0, 1, .rw, false, fun _ _ _ => 0⟩
def DC_CFG.HI : Fld := ⟨0x20050000, 0x100, 32, 0, 1, 0, 1, 1, 1, .rw, false, fun _ _ _ => 0⟩
def DC_CFG.PRIV : Fld := ⟨0x20050000, 0x100, 32, 0, 1, 0, 1, 2, 1, .rw, false, fun _ _ _ => 0⟩
def DC_CFG.BURST : Fld := ⟨0x20050000, 0x100, 32, 0, 1, 0, 1, 8, 5, .rw, false, fun _ _ _ => 0x10⟩
def DC_CFG.RATE : Fld := ⟨0x20050000, 0x100, 32, 0, 1, 0, 1, 16, 7, .rw, false, fun _ _ _ => 0⟩
def DC_CFG.RETRY_MAX : Fld := ⟨0x20050000, 0x100, 32, 0, 1, 0, 1, 24, 3, .rw, false, fun _ _ _ => 3⟩
def DC_CFG.OWNER : Fld := ⟨0x20050000, 0x100, 32, 0, 1, 0, 1, 27, 5, .rw, false, fun _ _ _ => 0x1F⟩
def DC_HOP.HOP_LIMIT : Fld := ⟨0x20050004, 0x100, 32, 0, 1, 0, 1, 0, 17, .rw, false, fun _ _ _ => 0x10000⟩
def DC_HEAD_LO.ADDR : Fld := ⟨0x20050008, 0x100, 32, 0, 1, 0, 1, 5, 27, .rw, false, fun _ _ _ => 0⟩
def DC_HEAD_HI.ADDR : Fld := ⟨0x2005000C, 0x100, 32, 0, 1, 0, 1, 0, 8, .rw, false, fun _ _ _ => 0⟩
def DC_CTL.START : Fld := ⟨0x20050010, 0x100, 32, 0, 1, 0, 1, 0, 1, .wo, false, fun _ _ _ => 0⟩
def DC_CTL.STOP : Fld := ⟨0x20050010, 0x100, 32, 0, 1, 0, 1, 1, 1, .wo, false, fun _ _ _ => 0⟩
def DC_CTL.CLEAR : Fld := ⟨0x20050010, 0x100, 32, 0, 1, 0, 1, 2, 1, .wo, false, fun _ _ _ => 0⟩
def DC_DOORBELL.W : Fld := ⟨0x20050014, 0x100, 32, 0, 1, 0, 1, 0, 32, .wo, true, fun _ _ _ => 0⟩
def DC_STAT.STATE : Fld := ⟨0x20050018, 0x100, 32, 0, 1, 0, 1, 0, 3, .ro, false, fun _ _ _ => 0⟩
def DC_STAT.CAUSE : Fld := ⟨0x20050018, 0x100, 32, 0, 1, 0, 1, 4, 3, .ro, false, fun _ _ _ => 0⟩
def DC_STAT.CUR_VALID : Fld := ⟨0x20050018, 0x100, 32, 0, 1, 0, 1, 7, 1, .ro, false, fun _ _ _ => 0⟩
def DC_STAT.BUF : Fld := ⟨0x20050018, 0x100, 32, 0, 1, 0, 1, 8, 1, .ro, false, fun _ _ _ => 0⟩
def DC_STAT.HOPS : Fld := ⟨0x20050018, 0x100, 32, 0, 1, 0, 1, 15, 17, .ro, false, fun _ _ _ => 0⟩
def DC_CUR_LO.ADDR : Fld := ⟨0x2005001C, 0x100, 32, 0, 1, 0, 1, 5, 27, .ro, false, fun _ _ _ => 0⟩
def DC_CUR_HI.ADDR : Fld := ⟨0x20050020, 0x100, 32, 0, 1, 0, 1, 0, 8, .ro, false, fun _ _ _ => 0⟩
def DC_DBCNT.W : Fld := ⟨0x20050024, 0x100, 32, 0, 1, 0, 1, 0, 32, .ro, false, fun _ _ _ => 0⟩
def DC_REMAIN.LEN : Fld := ⟨0x20050028, 0x100, 32, 0, 1, 0, 1, 0, 24, .ro, false, fun _ _ _ => 0⟩
def DC_CNT0.DESC_OK : Fld := ⟨0x2005002C, 0x100, 32, 0, 1, 0, 1, 0, 16, .rc, false, fun _ _ _ => 0⟩
def DC_CNT0.DESC_BAD : Fld := ⟨0x2005002C, 0x100, 32, 0, 1, 0, 1, 16, 16, .rc, false, fun _ _ _ => 0⟩
def DC_CNT1.RETRIES : Fld := ⟨0x20050030, 0x100, 32, 0, 1, 0, 1, 0, 16, .rc, false, fun _ _ _ => 0⟩
def DC_CNT1.PREEMPTS : Fld := ⟨0x20050030, 0x100, 32, 0, 1, 0, 1, 16, 16, .rc, false, fun _ _ _ => 0⟩
def DC_CNT2.REFETCH : Fld := ⟨0x20050034, 0x100, 32, 0, 1, 0, 1, 0, 16, .rc, false, fun _ _ _ => 0⟩
def DC_CNT2.IGN : Fld := ⟨0x20050034, 0x100, 32, 0, 1, 0, 1, 16, 16, .rc, false, fun _ _ _ => 0⟩
def DC_FLAGS.F : Fld := ⟨0x20050038, 0x100, 32, 0, 1, 0, 1, 0, 9, .w1c, false, fun _ _ _ => 0⟩
def DC_EVMASK.F : Fld := ⟨0x2005003C, 0x100, 32, 0, 1, 0, 1, 0, 9, .rw, false, fun _ _ _ => 0⟩
def DC_ERR_ADDR_LO.W : Fld := ⟨0x20050040, 0x100, 32, 0, 1, 0, 1, 0, 32, .ro, false, fun _ _ _ => 0⟩
def DC_ERR_ADDR_HI.ADDR : Fld := ⟨0x20050044, 0x100, 32, 0, 1, 0, 1, 0, 8, .ro, false, fun _ _ _ => 0⟩

/-! Table 16.10 Decanter global, at 0x2005_2000. -/

def DC_RUN.W : Fld := ⟨0x20052000, 0, 1, 0, 1, 0, 1, 0, 32, .ro, false, fun _ _ _ => 0⟩
def DC_HALT.W : Fld := ⟨0x20052004, 0, 1, 0, 1, 0, 1, 0, 32, .ro, false, fun _ _ _ => 0⟩
def DC_MOVER.M0_CH : Fld := ⟨0x20052008, 0, 1, 0, 1, 0, 1, 0, 5, .ro, false, fun _ _ _ => 0⟩
def DC_MOVER.M0_BUSY : Fld := ⟨0x20052008, 0, 1, 0, 1, 0, 1, 7, 1, .ro, false, fun _ _ _ => 0⟩
def DC_MOVER.M1_CH : Fld := ⟨0x20052008, 0, 1, 0, 1, 0, 1, 8, 5, .ro, false, fun _ _ _ => 0⟩
def DC_MOVER.M1_BUSY : Fld := ⟨0x20052008, 0, 1, 0, 1, 0, 1, 15, 1, .ro, false, fun _ _ _ => 0⟩

/-! Table 17.10 Error controller, at 0x2001_0000. -/

def ERR_CFG.ARM : Fld := ⟨0x20010000, 0, 1, 0, 1, 0, 1, 0, 1, .rw, false, fun _ _ _ => 0⟩
def ERR_CFG.T_DEG : Fld := ⟨0x20010000, 0, 1, 0, 1, 0, 1, 8, 8, .rw, false, fun _ _ _ => 0x64⟩
def ERR_CFG.T_SER : Fld := ⟨0x20010000, 0, 1, 0, 1, 0, 1, 16, 8, .rw, false, fun _ _ _ => 0xA⟩
def ERR_STAT.DEPTH : Fld := ⟨0x20010004, 0, 1, 0, 1, 0, 1, 0, 3, .ro, false, fun _ _ _ => 0⟩
def ERR_STAT.QLEN : Fld := ⟨0x20010004, 0, 1, 0, 1, 0, 1, 4, 3, .ro, false, fun _ _ _ => 0⟩
def ERR_TOP_A.SRC : Fld := ⟨0x20010008, 0, 1, 0, 1, 0, 1, 0, 8, .ro, false, fun _ _ _ => 0⟩
def ERR_TOP_A.SEV : Fld := ⟨0x20010008, 0, 1, 0, 1, 0, 1, 8, 2, .ro, false, fun _ _ _ => 0⟩
def ERR_TOP_A.LEVEL : Fld := ⟨0x20010008, 0, 1, 0, 1, 0, 1, 12, 3, .ro, false, fun _ _ _ => 0⟩
def ERR_TOP_A.DETAIL : Fld := ⟨0x20010008, 0, 1, 0, 1, 0, 1, 16, 16, .ro, false, fun _ _ _ => 0⟩
def ERR_TOP_B.NODE : Fld := ⟨0x2001000C, 0, 1, 0, 1, 0, 1, 0, 32, .ro, false, fun _ _ _ => 0⟩
def ERR_TOP_C.SEQ : Fld := ⟨0x20010010, 0, 1, 0, 1, 0, 1, 0, 32, .ro, false, fun _ _ _ => 0⟩
def ERR_DONE.SEQ : Fld := ⟨0x20010014, 0, 1, 0, 1, 0, 1, 0, 32, .wo, false, fun _ _ _ => 0⟩
def ERR_RAISE.SEV : Fld := ⟨0x20010018, 0, 1, 0, 1, 0, 1, 0, 2, .wo, false, fun _ _ _ => 0⟩
def ERR_RAISE.DETAIL : Fld := ⟨0x20010018, 0, 1, 0, 1, 0, 1, 16, 16, .wo, false, fun _ _ _ => 0⟩
def ERR_LAST.CAUSE : Fld := ⟨0x2001001C, 0, 1, 0, 1, 0, 1, 0, 8, .ro, false, fun _ _ _ => 0⟩
def ERR_LAST.DETAIL : Fld := ⟨0x2001001C, 0, 1, 0, 1, 0, 1, 16, 16, .ro, false, fun _ _ _ => 0⟩
def ERR_CNT0.NOTES : Fld := ⟨0x20010020, 0, 1, 0, 1, 0, 1, 0, 16, .rc, false, fun _ _ _ => 0⟩
def ERR_CNT0.DEGRADED : Fld := ⟨0x20010020, 0, 1, 0, 1, 0, 1, 16, 16, .rc, false, fun _ _ _ => 0⟩
def ERR_CNT1.SERIOUS : Fld := ⟨0x20010024, 0, 1, 0, 1, 0, 1, 0, 16, .rc, false, fun _ _ _ => 0⟩
def ERR_CNT1.PREEMPTS : Fld := ⟨0x20010024, 0, 1, 0, 1, 0, 1, 16, 16, .rc, false, fun _ _ _ => 0⟩
def ERR_CNT2.QUEUED : Fld := ⟨0x20010028, 0, 1, 0, 1, 0, 1, 0, 16, .rc, false, fun _ _ _ => 0⟩
def ERR_CNT2.DONE_IGN : Fld := ⟨0x20010028, 0, 1, 0, 1, 0, 1, 16, 16, .rc, false, fun _ _ _ => 0⟩
def ERR_SRC_CFG.SEV : Fld := ⟨0x20010100, 0, 1, 4, 64, 0, 1, 0, 2, .rw, false, fun _ j _ => errResetSev j⟩
def ERR_SRC_CFG.FLOOR : Fld := ⟨0x20010100, 0, 1, 4, 64, 0, 1, 4, 2, .ro, false, fun _ j _ => errResetFloor j⟩

/-! Table 17.11 Cellar Book window, at 0x2002_0000. -/

def CB_WR.OFS : Fld := ⟨0x20020000, 0, 1, 0, 1, 0, 1, 2, 22, .ro, false, fun _ _ _ => 0⟩
def CB_WR.GEN : Fld := ⟨0x20020000, 0, 1, 0, 1, 0, 1, 24, 8, .ro, false, fun _ _ _ => 0⟩
def CB_WR_SEQ.W : Fld := ⟨0x20020004, 0, 1, 0, 1, 0, 1, 0, 32, .ro, false, fun _ _ _ => 0⟩
def CB_TAIL.OFS : Fld := ⟨0x20020008, 0, 1, 0, 1, 0, 1, 2, 22, .ro, false, fun _ _ _ => 0⟩
def CB_TAIL.GEN : Fld := ⟨0x20020008, 0, 1, 0, 1, 0, 1, 24, 8, .ro, false, fun _ _ _ => 0⟩
def CB_TAIL_SEQ.W : Fld := ⟨0x2002000C, 0, 1, 0, 1, 0, 1, 0, 32, .ro, false, fun _ _ _ => 0⟩
def CB_CURSOR.OFS : Fld := ⟨0x20020010, 0, 1, 0, 1, 0, 1, 2, 22, .rw, true, fun _ _ _ => 0⟩
def CB_CURSOR.GEN : Fld := ⟨0x20020010, 0, 1, 0, 1, 0, 1, 24, 8, .rw, true, fun _ _ _ => 0⟩
def CB_CUR_STAT.INTACT : Fld := ⟨0x20020014, 0, 1, 0, 1, 0, 1, 0, 1, .ro, false, fun _ _ _ => 0⟩
def CB_FLUSH_SEQ.W : Fld := ⟨0x20020018, 0, 1, 0, 1, 0, 1, 0, 32, .ro, false, fun _ _ _ => 0⟩
def CB_CNT.LOSS : Fld := ⟨0x2002001C, 0, 1, 0, 1, 0, 1, 0, 16, .rc, false, fun _ _ _ => 0⟩
def CB_CNT.RECORDS : Fld := ⟨0x2002001C, 0, 1, 0, 1, 0, 1, 16, 16, .rc, false, fun _ _ _ => 0⟩
def CB_WIN.W : Fld := ⟨0x20020400, 0, 1, 4, 256, 0, 1, 0, 32, .ro, false, fun _ _ _ => 0⟩

/-! Table 17.12 Identity, in the update control block at 0x20C0_0000. -/

def TAG_STAT.GEN : Fld := ⟨0x20C00800, 0, 1, 0, 1, 0, 1, 0, 16, .ro, false, fun _ _ _ => 0⟩
def TAG_STAT.USED : Fld := ⟨0x20C00800, 0, 1, 0, 1, 0, 1, 16, 14, .ro, false, fun _ _ _ => 0⟩
def TAG_STAT.BAD : Fld := ⟨0x20C00800, 0, 1, 0, 1, 0, 1, 31, 1, .ro, false, fun _ _ _ => 0⟩
def TAG_WIN.W : Fld := ⟨0x20C02000, 0, 1, 4, 2048, 0, 1, 0, 32, .ro, false, fun _ _ _ => 0⟩
def FACTORY.W : Fld := ⟨0x20C04000, 0, 1, 4, 64, 0, 1, 0, 32, .ro, false, fun _ _ _ => 0⟩

/-! Table 18.8 Update control, at 0x20C0_0000. -/

def UPD_STAT.STATE : Fld := ⟨0x20C00000, 0, 1, 0, 1, 0, 1, 0, 3, .ro, false, fun _ _ _ => 0⟩
def UPD_STAT.CLASS : Fld := ⟨0x20C00000, 0, 1, 0, 1, 0, 1, 4, 1, .ro, false, fun _ _ _ => 0⟩
def UPD_STAT.ERR : Fld := ⟨0x20C00000, 0, 1, 0, 1, 0, 1, 8, 4, .ro, false, fun _ _ _ => 0⟩
def UPD_STAT.SLOT : Fld := ⟨0x20C00000, 0, 1, 0, 1, 0, 1, 12, 1, .ro, false, fun _ _ _ => 0⟩
def UPD_STAT.TRIES : Fld := ⟨0x20C00000, 0, 1, 0, 1, 0, 1, 16, 4, .ro, false, fun _ _ _ => 0⟩
def UPD_CFG.CONFIRM_STARTS : Fld := ⟨0x20C00004, 0, 1, 0, 1, 0, 1, 0, 4, .rw, false, fun _ _ _ => 3⟩
def SET_ACTIVE.W : Fld := ⟨0x20C00008, 0, 1, 0, 1, 0, 1, 0, 32, .ro, false, fun _ _ _ => 0⟩
def SET_STAGED.W : Fld := ⟨0x20C0000C, 0, 1, 0, 1, 0, 1, 0, 32, .ro, false, fun _ _ _ => 0⟩
def UPD_BLOCKS.RECEIVED : Fld := ⟨0x20C00010, 0, 1, 0, 1, 0, 1, 0, 18, .ro, false, fun _ _ _ => 0⟩
def UPD_CNT.ACTIVATIONS : Fld := ⟨0x20C00014, 0, 1, 0, 1, 0, 1, 0, 16, .rc, false, fun _ _ _ => 0⟩
def UPD_CNT.ROLLBACKS : Fld := ⟨0x20C00014, 0, 1, 0, 1, 0, 1, 16, 16, .rc, false, fun _ _ _ => 0⟩
def KEY_STAT.USER : Fld := ⟨0x20C00018, 0, 1, 0, 1, 0, 1, 0, 1, .ro, false, fun _ _ _ => 0⟩
def KEY_STAT.LOCKED : Fld := ⟨0x20C00018, 0, 1, 0, 1, 0, 1, 1, 1, .ro, false, fun _ _ _ => 0⟩
def KEY_STAT.FP : Fld := ⟨0x20C00018, 0, 1, 0, 1, 0, 1, 8, 24, .ro, false, fun _ _ _ => 0⟩
def SVC_STAT.SESSION : Fld := ⟨0x20C0001C, 0, 1, 0, 1, 0, 1, 0, 1, .ro, false, fun _ _ _ => 0⟩
def SVC_STAT.LEVEL : Fld := ⟨0x20C0001C, 0, 1, 0, 1, 0, 1, 1, 1, .ro, false, fun _ _ _ => 0⟩
def SVC_STAT.PORT : Fld := ⟨0x20C0001C, 0, 1, 0, 1, 0, 1, 2, 1, .ro, false, fun _ _ _ => 0⟩
def SVC_STAT.STRAP : Fld := ⟨0x20C0001C, 0, 1, 0, 1, 0, 1, 8, 1, .ro, false, fun _ _ _ => 0⟩
def SVC_CTL.WRITE_EN : Fld := ⟨0x20C00020, 0, 1, 0, 1, 0, 1, 0, 1, .rw, false, fun _ _ _ => 1⟩
def UPD_TOTAL.TOTAL : Fld := ⟨0x20C00024, 0, 1, 0, 1, 0, 1, 0, 18, .ro, false, fun _ _ _ => 0⟩

/-! Table 19.13 Supply and thermal registers (system control, 0x2000_0000). -/

def SUP_LOGIC.V : Fld := ⟨0x20000100, 0, 1, 0, 1, 0, 1, 0, 10, .ro, false, fun _ _ _ => 0⟩
def SUP_STUD.V : Fld := ⟨0x20000104, 0, 1, 4, 4, 0, 1, 0, 10, .ro, false, fun _ _ _ => 0⟩
def SUP_STUD.I : Fld := ⟨0x20000104, 0, 1, 4, 4, 0, 1, 16, 10, .ro, false, fun _ _ _ => 0⟩
def SUP_STUD.REV : Fld := ⟨0x20000104, 0, 1, 4, 4, 0, 1, 31, 1, .ro, false, fun _ _ _ => 0⟩
def SUP_CFG.STUD_LIM : Fld := ⟨0x20000114, 0, 1, 0, 1, 0, 1, 0, 6, .rw, false, fun _ _ _ => 0x3C⟩
def SUP_CFG.SS_EN : Fld := ⟨0x20000114, 0, 1, 0, 1, 0, 1, 8, 4, .rw, false, fun _ _ _ => 0xF⟩
def SUP_CFG.PLATE_WARN : Fld := ⟨0x20000114, 0, 1, 0, 1, 0, 1, 16, 8, .rw, false, fun _ _ _ => 0x78⟩
def SUP_STAT.SS_ACT : Fld := ⟨0x20000118, 0, 1, 0, 1, 0, 1, 0, 4, .ro, false, fun _ _ _ => 0⟩
def SUP_STAT.ESTOP_FLT : Fld := ⟨0x20000118, 0, 1, 0, 1, 0, 1, 8, 1, .ro, false, fun _ _ _ => 0⟩
def SUP_FLAGS.F : Fld := ⟨0x2000011C, 0, 1, 0, 1, 0, 1, 0, 20, .w1c, false, fun _ _ _ => 0⟩
def SUP_EVMASK.F : Fld := ⟨0x20000120, 0, 1, 0, 1, 0, 1, 0, 20, .rw, false, fun _ _ _ => 0⟩
def THERM_STAT.PLATE_T : Fld := ⟨0x20000124, 0, 1, 0, 1, 0, 1, 0, 8, .ro, false, fun _ _ _ => 0⟩
def THERM_STAT.DIE_T : Fld := ⟨0x20000124, 0, 1, 0, 1, 0, 1, 8, 8, .ro, false, fun _ _ _ => 0⟩
def THERM_STAT.PLATE_MAX : Fld := ⟨0x20000124, 0, 1, 0, 1, 0, 1, 16, 8, .rc, false, fun _ _ _ => 0⟩
def SUP_CNT.HOLDUP : Fld := ⟨0x20000128, 0, 1, 0, 1, 0, 1, 0, 16, .rc, false, fun _ _ _ => 0⟩
def SUP_CNT.SS_TRIPS : Fld := ⟨0x20000128, 0, 1, 0, 1, 0, 1, 16, 16, .rc, false, fun _ _ _ => 0⟩

/-! Bit positions inside the flag registers (relative to the field F of the register). -/

def LP_FLAGS.ESAT : Nat := 0
def LP_FLAGS.USAT : Nat := 1
def LP_FLAGS.WINDUP : Nat := 2
def LP_FLAGS.RATE : Nat := 3
def LP_FLAGS.OVF : Nat := 4
def LP_FLAGS.STALE : Nat := 5
def LP_FLAGS.LATE : Nat := 6
def LP_FLAGS.SKIP : Nat := 7
def LP_FLAGS.OFFBAND : Nat := 8
def LP_FLAGS.REPSAT : Nat := 9
def LP_FLAGS.ANGLE_HOLD : Nat := 10
def LP_FLAGS.BUMP : Nat := 11
def LP_FLAGS.SRC_ERR : Nat := 12
def AIN_STAT.RANGE_LO : Nat := 0
def AIN_STAT.RANGE_HI : Nat := 1
def AIN_STAT.OPEN : Nat := 2
def AIN_STAT.SHORT : Nat := 3
def AIN_STAT.OVERLOAD : Nat := 4
def AIN_STAT.SYNC_LOST : Nat := 5
def LS_STAT.OPEN : Nat := 0
def LS_STAT.SHORT : Nat := 1
def LS_STAT.CLIP_RUN : Nat := 2
def LS_STAT.SILENT : Nat := 3
def CAM_FLAGS.CRC : Nat := 0
def CAM_FLAGS.HDR : Nat := 1
def CAM_FLAGS.SHORT : Nat := 2
def CAM_FLAGS.LONG : Nat := 3
def CAM_FLAGS.LATE : Nat := 4
def CAM_FLAGS.EARLY : Nat := 5
def CAM_FLAGS.MISSING : Nat := 6
def CAM_FLAGS.OVERRUN : Nat := 7
def CAM_FLAGS.NOBUF : Nat := 8
def CAM_FLAGS.GEN_MIS : Nat := 9
def CAM_FLAGS.SEND_LATE : Nat := 10
def CAM_FLAGS.LINK_LOSS : Nat := 11
def CAM_FLAGS.CFG_ERR : Nat := 12
def CAM_FLAGS.SET_IGN : Nat := 13
def CAM_FLAGS.MERGE_INC : Nat := 14
def CAM_FLAGS.NACK : Nat := 15
def CV_FLAGS.LATE : Nat := 0
def CV_FLAGS.FUTURE : Nat := 1
def CV_FLAGS.EP_DROP : Nat := 2
def CV_FLAGS.CONTRA : Nat := 3
def CV_FLAGS.MASK : Nat := 4
def CV_FLAGS.NO_SENSOR : Nat := 5
def CV_FLAGS.SWAP_REFUSED : Nat := 6
def CV_FLAGS.TT_IGN : Nat := 7
def CV_FLAGS.MOTION_ERR : Nat := 8
def CV_FLAGS.RELEASE_TMO : Nat := 9
def MF_FLAGS.STALE : Nat := 0
def MF_FLAGS.CONTRA : Nat := 1
def MF_FLAGS.FALLBACK : Nat := 2
def MF_FLAGS.CLAMP : Nat := 3
def MF_FLAGS.RATE : Nat := 4
def MF_FLAGS.OWNER_IGN : Nat := 5
def MF_FLAGS.TRIM_SAT : Nat := 6
def MF_FLAGS.TRIM_HOLD : Nat := 7
def MF_FLAGS.TAP_OFF : Nat := 8
def RL_FLAGS.OVF : Nat := 0
def RL_FLAGS.SPD_ERR : Nat := 1
def RL_FLAGS.NOGRID : Nat := 2
def RL_FLAGS.REVERSE : Nat := 3
def RL_FLAGS.ATT_OLD : Nat := 4
def RL_FLAGS.STRIP_DROP : Nat := 5
def RL_FLAGS.SRC_ERR : Nat := 6
def RL_FLAGS.LATE : Nat := 7
def VB_FLAGS.BANK_SHORT : Nat := 0
def VB_FLAGS.BANK_HOT : Nat := 1
def VB_FLAGS.RAIL_FAIL : Nat := 2
def VB_FLAGS.BANK_LIM : Nat := 3
def VB_FLAGS.FEED_LOW : Nat := 4
def VB_FLAGS.DOWNGRADE : Nat := 5
def VD_FLAGS.OPEN : Nat := 0
def VD_FLAGS.SHORT : Nat := 1
def VD_FLAGS.LEAK : Nat := 2
def VD_FLAGS.REG_FAIL : Nat := 3
def VD_FLAGS.OVERTEMP : Nat := 4
def VD_FLAGS.BOOST_SHORT : Nat := 5
def VD_FLAGS.DUTY : Nat := 6
def VD_FLAGS.BANK_LIM : Nat := 7
def VD_FLAGS.DEFERRED : Nat := 8
def VD_FLAGS.SKIPPED : Nat := 9
def VD_FLAGS.REJECTED : Nat := 10
def VD_FLAGS.DOWNGRADE : Nat := 11
def VD_FLAGS.CLAMP_OVER : Nat := 12
def VD_FLAGS.FEED_LOW : Nat := 13
def LC_FLAGS.SHORT : Nat := 0
def LC_FLAGS.OVERLOAD : Nat := 1
def LC_FLAGS.THERMAL : Nat := 2
def LC_FLAGS.OPEN_ON : Nat := 3
def LC_FLAGS.OPEN_OFF : Nat := 4
def LC_FLAGS.UV : Nat := 5
def LC_FLAGS.CLAMP_LOCK : Nat := 6
def LC_FLAGS.CLAMP_OVER : Nat := 7
def LC_FLAGS.GRP_HOT : Nat := 8
def LG_FLAGS.GRP_HOT : Nat := 0
def LG_FLAGS.UV : Nat := 1
def TU_FLAGS.LOCK : Nat := 0
def TU_FLAGS.HOLDOVER : Nat := 1
def TU_FLAGS.FREE : Nat := 2
def TU_FLAGS.STEP : Nat := 3
def TU_FLAGS.SLEW : Nat := 4
def TU_FLAGS.TP_SKIP : Nat := 5
def GC_FLAGS.LOST : Nat := 0
def GC_FLAGS.CFG_ERR : Nat := 1
def GF_FLAGS.ANT_OPEN : Nat := 0
def GF_FLAGS.ANT_SHORT : Nat := 1
def GF_FLAGS.JAM : Nat := 2
def TL_FLAGS.TILE_FULL : Nat := 0
def TL_FLAGS.UNPLACED : Nat := 1
def TL_FLAGS.REV_AHEAD : Nat := 2
def TL_FLAGS.FLEET_REJ : Nat := 3
def TL_FLAGS.HG_MISS : Nat := 4
def TL_FLAGS.FLUSH_LATE : Nat := 5
def TL_FLAGS.NOFIX : Nat := 6
def TL_FLAGS.MISS : Nat := 7
def CAN_FLAGS.BUS_OFF : Nat := 0
def CAN_FLAGS.PASSIVE : Nat := 1
def CAN_FLAGS.WARN : Nat := 2
def CAN_FLAGS.QFULL : Nat := 3
def CAN_FLAGS.LOCK_OVF : Nat := 4
def CAN_FLAGS.CANCEL_LATE : Nat := 5
def CAN_FLAGS.TXEV_OVF : Nat := 6
def CAN_FLAGS.CFG_ERR : Nat := 7
def CAN_FLAGS.OWNER_IGN : Nat := 8
def CAN_FLAGS.TX_IGN : Nat := 9
def CAN_FLAGS.STUFF : Nat := 10
def CAN_FLAGS.FORM : Nat := 11
def CAN_FLAGS.ACK : Nat := 12
def CAN_FLAGS.BIT : Nat := 13
def CAN_FLAGS.CRC : Nat := 14
def ETH_FLAGS.LINK_LOSS : Nat := 0
def ETH_FLAGS.FCS : Nat := 1
def ETH_FLAGS.OVERSIZE : Nat := 2
def ETH_FLAGS.EGR_DROP : Nat := 3
def ETH_FLAGS.PTP_FOREIGN : Nat := 4
def ETH_FLAGS.VLAN_DROP : Nat := 5
def STR_FLAGS.GAP : Nat := 0
def STR_FLAGS.DUP : Nat := 1
def STR_FLAGS.PTS_OVF : Nat := 2
def STR_FLAGS.BAD_TIME : Nat := 3
def STR_FLAGS.NOSLOT : Nat := 4
def DC_FLAGS.DONE : Nat := 0
def DC_FLAGS.DESC : Nat := 1
def DC_FLAGS.BAD : Nat := 2
def DC_FLAGS.MISMATCH : Nat := 3
def DC_FLAGS.RUNAWAY : Nat := 4
def DC_FLAGS.WB_FAIL : Nat := 5
def DC_FLAGS.FETCH_FAIL : Nat := 6
def DC_FLAGS.OWNER_IGN : Nat := 7
def DC_FLAGS.STOPPED : Nat := 8
def SUP_FLAGS.STUD_OVER : Nat := 0
def SUP_FLAGS.STUD_LOW : Nat := 4
def SUP_FLAGS.STUD_REV : Nat := 8
def SUP_FLAGS.SS_FAULT : Nat := 12
def SUP_FLAGS.ESTOP_FAULT : Nat := 16
def SUP_FLAGS.PLATE_WARN : Nat := 17
def SUP_FLAGS.PLATE_HOT : Nat := 18
def SUP_FLAGS.PGND_OPEN : Nat := 19

/-! Table 20.1: the blocks of the peripheral window and the fields of each (R377). -/

def flds_fc : List Fld :=
  [DWIN.EN, DWIN.WP, DWIN.BASE, SLOTMAP.W, ENT_PC.PC, ENT_ARG.W, ENT_CTL.EN, ENT_CTL.PRIV, CORE_CTL.RUN, CORE_CTL.SPARE, CORE_CTL.SWAP_EN, CORE_CTL.RST, CORE_CTL.SPARE_EN, CORE_CTL.SPARE_CORE, CORE_CTL.AUTO_MIG, CORE_STAT.STATE, CORE_STAT.PHYS, CORE_STAT.ALIAS, CORE_STAT.CTX, BANK_CTL.VALID_A] ++
  [BANK_CTL.VALID_B, BANK_CTL.VALIDATE, BANK_CTL.INVALIDATE, BANK_CTL.ERR, BANK_CTL.ERR_ITEM, FLAG_SUM.F, LK_LIMIT.LIM, LK_REL_CNT.CNT, OVR_CFG.LIMIT, OVR_CNT.OVERRUN, OVR_CNT.KILL, START_CNT.LATE, START_CNT.SKIP, SWAP_CNT.DELAY, SWAP_CNT.TBL_IGN, EVSRC.SRC, LP_CFG.EN, LP_CFG.RATE, LP_CFG.PHASE, LP_CFG.SP_SRC] ++
  [LP_CFG.FF_SRC, LP_CFG.MF, LP_CFG.REP_EN, LP_CFG.LEARN, LP_CFG.STALE_POL, LP_CFG.REP_MAP, LP_IN.ADDR, LP_OUT.ADDR, LP_STAMP.ADDR, LP_SP.SP, LP_FF.FF, LP_CTL.COEF_SWAP, LP_CTL.INT_LOAD, LP_CTL.OUT_DLY, LP_CTL.STALE_MAX, LP_CTL.OUT_TPL, LP_STAT.STATE, LP_STAT.BAND, LP_STAT.TBL, LP_STAT.OFFBAND] ++
  [LP_STAT.COEF_GEN, LP_STAT.STALE_RUN, SH_KP.K, SH_KP.SH, SH_KI.K, SH_KI.SH, SH_KD.K, SH_KD.SH, SH_DF.DF, SH_ULIM.UMIN, SH_ULIM.UMAX, SH_ILIM.IMIN, SH_ILIM.IMAX, SH_RLIM.RLIM, SH_GAINS.FFK, SH_GAINS.REPK, AC_KP.K, AC_KP.SH, AC_KI.K, AC_KI.SH] ++
  [AC_KD.K, AC_KD.SH, AC_DF.DF, AC_ULIM.UMIN, AC_ULIM.UMAX, AC_ILIM.IMIN, AC_ILIM.IMAX, AC_RLIM.RLIM, AC_GAINS.FFK, AC_GAINS.REPK, LP_FLAGS.F, LP_EVMASK.F, LP_U.U, LP_U.V, LP_INT.I, LP_UINIT.U0, LP_X.X, LP_X.E, LP_MTC.MTC, LP_CNT.SAMPLES] ++
  [LP_CNT.OB, BAND_SRC.ADDR, BAND_THR0.T1, BAND_THR0.T2, BAND_THR1.T3, BAND_THR1.HYS, BAND_CFG.DWELL, BAND_CFG.FIXED, BAND_STAT.BAND, BAND_STAT.CAND, BAND_STAT.COUNT, BAND_STAT.CHANGES, TR_CFG.EN, TR_CFG.TSRC, TR_CFG.TLOOP, TR_CFG.TNODE, TR_CFG.PRE, TR_LEVEL.LEVEL, TR_LEVEL.FMASK, TR_CTL.ARM] ++
  [TR_CTL.SOFT, TR_CTL.STOP, TR_STAT.STATE, TR_STAT.WRAP, TR_STAT.CFG_ERR, TR_STAT.TRIG_PTR, TR_STAT.WR_PTR, TR_TRIG_MTC.MTC, TR_RDPTR.PTR, TR_RDDATA.W, TR_LOST.MARK_LOST, TR_NODES.NODES, RT_CFG.LEN, RT_CFG.INTERP, RT_CFG.OB_MODE, RT_CFG.SWITCH, RT_ANG.ADDR, RT_ADV.ADV, RT_ADV.MIN_REVS, RT_LRN.LG] ++
  [RT_LRN.LEAK, RT_OB.OB_GAIN, RT_OB.OB_LIM, RT_SHTAG.TAG, RT_TAG.TAG, RT_CNT.OB, RT_CNT.SAT]
def blk_fc : Block := ⟨0x20100000, 0x1000, 16, 0, flds_fc⟩
def flds_sysc : List Fld :=
  [PWR_STATE.STATE, PWR_STATE.KEY, PWR_STATE.WAKE, PWR_STATE.ESTOP, PWR_STATE.FEED_LOW, RST_CAUSE.CAUSE, RST_CAUSE.HELD, RST_CAUSE.UNSEALED, RST_CAUSE.START_COUNT, RST_REQ.CMD, RST_REQ.PASS, WAKE_CFG.KEY_EN, WAKE_CFG.WAKE_EN, WAKE_CFG.WAKE_POL, WAKE_CFG.CAN_EN, WAKE_CFG.CAN_SEL, WAKE_CFG.USB_EN, WAKE_CFG.SNAP_EN, WAKE_CFG.SNAP_MIN, WAKE_SRC.SRC] ++
  [KEYOFF_LIMIT.LIM, OSV_CTL.SEAL, OSV_CTL.SEAL_REF, OSV_CTL.BAD_MODE, OSV_CTL.HOLDING, OSV_HOLD_TIME.HT, OSV_ABORT_TIME.AT, OSV_VD.W, OSV_LC.W, OSV_HELD_VD.HELD, OSV_HELD_LC0.HELD, OSV_HELD_LC1.HELD, OSV_STAT.TIMEOUT_CNT, OSV_STAT.SEALED_WR_CNT, SUP_LOGIC.V, SUP_STUD.V, SUP_STUD.I, SUP_STUD.REV, SUP_CFG.STUD_LIM, SUP_CFG.SS_EN] ++
  [SUP_CFG.PLATE_WARN, SUP_STAT.SS_ACT, SUP_STAT.ESTOP_FLT, SUP_FLAGS.F, SUP_EVMASK.F, THERM_STAT.PLATE_T, THERM_STAT.DIE_T, THERM_STAT.PLATE_MAX, SUP_CNT.HOLDUP, SUP_CNT.SS_TRIPS]
def blk_sysc : Block := ⟨0x20000000, 0x10000, 1, 0, flds_sysc⟩
def flds_err : List Fld :=
  [ERR_CFG.ARM, ERR_CFG.T_DEG, ERR_CFG.T_SER, ERR_STAT.DEPTH, ERR_STAT.QLEN, ERR_TOP_A.SRC, ERR_TOP_A.SEV, ERR_TOP_A.LEVEL, ERR_TOP_A.DETAIL, ERR_TOP_B.NODE, ERR_TOP_C.SEQ, ERR_DONE.SEQ, ERR_RAISE.SEV, ERR_RAISE.DETAIL, ERR_LAST.CAUSE, ERR_LAST.DETAIL, ERR_CNT0.NOTES, ERR_CNT0.DEGRADED, ERR_CNT1.SERIOUS, ERR_CNT1.PREEMPTS] ++
  [ERR_CNT2.QUEUED, ERR_CNT2.DONE_IGN, ERR_SRC_CFG.SEV, ERR_SRC_CFG.FLOOR]
def blk_err : Block := ⟨0x20010000, 0x10000, 1, 0, flds_err⟩
def flds_cb : List Fld :=
  [CB_WR.OFS, CB_WR.GEN, CB_WR_SEQ.W, CB_TAIL.OFS, CB_TAIL.GEN, CB_TAIL_SEQ.W, CB_CURSOR.OFS, CB_CURSOR.GEN, CB_CUR_STAT.INTACT, CB_FLUSH_SEQ.W, CB_CNT.LOSS, CB_CNT.RECORDS, CB_WIN.W]
def blk_cb : Block := ⟨0x20020000, 0x10000, 1, 0, flds_cb⟩
def flds_lkmb : List Fld :=
  [LK_STATE.HOLDER, LK_STATE.WAITERS, LK_STATE.ORPHAN, LK_FREE.LOCK, LK_STAT.DEADLOCK_CNT, LK_STAT.TIMEOUT_CNT, LK_STAT.FREE_IGN, MB_CFG.EN, MB_CFG.DEPTH, MB_CFG.MAXW, MB_CFG.RECV, MB_PERM.SEND, MB_STAT.COUNT, MB_STAT.DROP, MB_STAT.FULL_CNT, MB_POOL.USED, MB_POOL.CFG_ERR]
def blk_lkmb : Block := ⟨0x20030000, 0x10000, 1, 0, flds_lkmb⟩
def flds_fp : List Fld :=
  [FP_CFG.MODE, FP_CFG.PREEMPT_EN, FP_STAT.OWNER, FP_STAT.PARKED, FP_STAT.BUSY, FP_STAT.WAITING, FP_CNT.REVOKES, FP_BEATS.W]
def blk_fp : Block := ⟨0x20040000, 0x100, 5, 0, flds_fp⟩
def flds_arb : List Fld :=
  [ARB_CFG.CREDIT_WIN]
def blk_arb : Block := ⟨0x20040800, 0x800, 1, 0, flds_arb⟩
def flds_req : List Fld :=
  [REQ_CFG.TC, REQ_CFG.CLASS, REQ_CFG.PRIO, REQ_CREDIT.REFILL, REQ_CREDIT.CREDIT, REQ_GRANTS.W, REQ_WAITS.W, REQ_WMAX.WAIT, REQ_WMAX.PORT, REQ_REVOKED.W]
def blk_req : Block := ⟨0x20041000, 0x20, 88, 0, flds_req⟩
def flds_dc : List Fld :=
  [DC_CFG.EN, DC_CFG.HI, DC_CFG.PRIV, DC_CFG.BURST, DC_CFG.RATE, DC_CFG.RETRY_MAX, DC_CFG.OWNER, DC_HOP.HOP_LIMIT, DC_HEAD_LO.ADDR, DC_HEAD_HI.ADDR, DC_CTL.START, DC_CTL.STOP, DC_CTL.CLEAR, DC_DOORBELL.W, DC_STAT.STATE, DC_STAT.CAUSE, DC_STAT.CUR_VALID, DC_STAT.BUF, DC_STAT.HOPS, DC_CUR_LO.ADDR] ++
  [DC_CUR_HI.ADDR, DC_DBCNT.W, DC_REMAIN.LEN, DC_CNT0.DESC_OK, DC_CNT0.DESC_BAD, DC_CNT1.RETRIES, DC_CNT1.PREEMPTS, DC_CNT2.REFETCH, DC_CNT2.IGN, DC_FLAGS.F, DC_EVMASK.F, DC_ERR_ADDR_LO.W, DC_ERR_ADDR_HI.ADDR]
def blk_dc : Block := ⟨0x20050000, 0x100, 32, 0, flds_dc⟩
def flds_dcg : List Fld :=
  [DC_RUN.W, DC_HALT.W, DC_MOVER.M0_CH, DC_MOVER.M0_BUSY, DC_MOVER.M1_CH, DC_MOVER.M1_BUSY]
def blk_dcg : Block := ⟨0x20052000, 0x1000, 1, 0, flds_dcg⟩
def flds_cg : List Fld :=
  [LSTEP_CFG.PAIR, LSTEP_CFG.IGN_CNT, SWAP_SET.CORES, SWAP_STAT.RESULT, SWAP_STAT.CORE, SWAP_STAT.PEND, MIG_GO.CORE, MIG_GO.GO, MIG_STAT.BUSY, MIG_STAT.CORE, MIG_STAT.SPARE, MIG_STAT.RESULT, MIG_STAT.DTCM_BAD]
def blk_cg : Block := ⟨0x20110000, 0x10000, 1, 0, flds_cg⟩
def flds_ain : List Fld :=
  [AIN_CFG.MODE, AIN_CFG.RANGE, AIN_CFG.PULL, AIN_CFG.RATE, AIN_CFG.PHASE, AIN_CFG.FPOL, AIN_CFG.EV, AIN_CFG.ROLE, AIN_CFG.IDX_CH, AIN_FILT.ALPHA, AIN_FILT.FDLY, AIN_SCALE.GAIN, AIN_SCALE.SH, AIN_OFFS.OFFS, AIN_LIM.LO, AIN_LIM.HI, AIN_SUBST.SUBST, AIN_VAL.VAL, AIN_VAL.FLT, AIN_VAL.SEQ] ++
  [AIN_RAW.RAW, AIN_MTC_LO.MTC, AIN_MTC_HI.MTC, AIN_FREQ.FREQ, AIN_ANG.ANGLE, AIN_ANG.REVS, AIN_ACFG.PPR, AIN_ACFG.INTERP, AIN_ACFG.NAVG, AIN_ACFG.FSH, AIN_ACFG.TMO, AIN_STAT.F, AIN_STAT.SYNC, AIN_STAT.ROLE_DUP, AIN_STAT.CFG_ERR, AIN_CNT.FAULTS, AIN_CNT.SYNC_ERR]
def blk_ain : Block := ⟨0x20300000, 0x40, 40, 0, flds_ain⟩
def flds_imu : List Fld :=
  [IMU_CFG.EN, IMU_CFG.AFS, IMU_CFG.GFS, IMU_CFG.LPF, IMU_ROT.LO, IMU_ROT.HI, IMU_AXIS.VAL, IMU_AXIS.FLT, IMU_AXIS.SEQ, IMU_TEMP.T, IMU_MTC_LO.MTC, IMU_MTC_HI.MTC, IMU_STAT.AXIS_FLT, IMU_STAT.SELFTEST_FAIL]
def blk_imu : Block := ⟨0x20300C00, 0x400, 1, 0, flds_imu⟩
def flds_ls : List Fld :=
  [LS_CFG.EN, LS_CFG.GAIN, LS_CFG.HPF, LS_CFG.BIN, LS_CFG.EV, LS_CFG.BIN_EV, LS_THR.ON, LS_THR.OFF, LS_GRAIN.GMIN, LS_GRAIN.GMAX, LS_TIME.GDUR, LS_TIME.END_N, LS_TIME.DEAD_N, LS_TIME.SILENT_T, LS_CLIP.CLIP, LS_CLIP.OPEN_THR, LS_GRAIN_CNT.W, LS_MOG_CNT.W, LS_REJ_CNT.W, LS_PILE.W] ++
  [LS_BIN.GRAIN, LS_BIN.MOG, LS_BIN.REJ, LS_BIN.FLT, LS_BIN.TRUNC, LS_BIN.VALID, LS_BIN_MTC.MTC, LS_FIFO.LEVEL, LS_FIFO.OVF, LS_LAST.PEAK, LS_LAST.N, LS_LAST.CLASS, LS_STAT.F, LS_STAT.ACTIVE, LS_SEQ.BSEQ, LS_SEQ.RESTARTS, LS_CTL.RESTART]
def blk_ls : Block := ⟨0x20304000, 0x80, 16, 0, flds_ls⟩
def flds_cam : List Fld :=
  [CAM_CFG.EN, CAM_CFG.PIPE, CAM_CFG.DT, CAM_CFG.NEXP, CAM_CFG.VCBASE, CAM_CFG.EMB_EN, CAM_CFG.LAT, CAM_CFG.GEN_REG_EN, CAM_CFG.FRAME_EV, CAM_SIZE.WIDTH, CAM_SIZE.HEIGHT, CAM_PERIOD.PERIOD, CAM_TOL.LATE_TOL, CAM_TOL.MISS_LIMIT, CAM_TOL.ADMIT_N, CAM_OFS.SENSOR_OFS, CAM_LINK.GEAR, CAM_LINK.I2C, CAM_LINK.STATE, CAM_LINK.LINK_UP] ++
  [CAM_LINK.LINK_ERR, CAM_FLAGS.F, CAM_EVMASK.F, CAM_CNT0.CRC, CAM_CNT0.ECC_CORR, CAM_CNT1.SHORT, CAM_CNT1.EXTRA, CAM_CNT2.LATE, CAM_CNT2.MISSING, CAM_CNT3.GEN_MISMATCH, CAM_CNT3.NOBUF, CAM_CNT4.EARLY, CAM_CNT4.SET_IGN, CAM_FRAME.FSEQ, CAM_FRAME.WBUF, CAM_FRAME.WACT, CAM_FRAME.GEN_LAST, CAM_FS_LO.MTC, CAM_FS_HI.MTC, FR_BASE_LO.ADDR] ++
  [FR_BASE_HI.ADDR, FR_CFG.NBUF, FR_CFG.STRIDE, FR_HOLD.HOLD, DESC_BASE_LO.ADDR, DESC_BASE_HI.ADDR, STAT_BASE_LO.ADDR, STAT_BASE_HI.ADDR, OUT_CFG.FMT, OUT_CFG.SCALE, OUT_CFG.TAP_LIN, OUT_CFG.TAP_MERGE, OUT_CFG.TAP_TONE, OUT_CFG.LIN_EXP, TAP_OFS.OFS, SET_CTL.NW, SET_CTL.GO, SET_CTL.GEN, SET_DEV.DEV, SET_DEV.ADDR16] ++
  [SET_DEV.DATA16, SET_GENREG.REG, SET_GENREG.EMB_BYTE, SET_DONE_MTC.MTC, SET_W.REG, SET_W.DATA]
def blk_cam : Block := ⟨0x20400000, 0x800, 10, 0, flds_cam⟩
def flds_pipe : List Fld :=
  [PIPE_CFG.CFA, PIPE_CFG.MONO, PIPE_CFG.DYN_EN, PIPE_CTL.TBL_SWITCH, PIPE_STAT.TBL_GEN, PIPE_STAT.LOAD, PIPE_STAT.PORTS, PIPE_CNT.OVERRUN, PIPE_CNT.SHADOW_IGN, PIPE_CNT1.DPC_SKIP, MERGE_R.R1, MERGE_R.R2, MERGE_KNEE.KNEE, BLACK01.BLACK0, BLACK01.BLACK1, BLACK23.BLACK2, BLACK23.BLACK3, DPC_LIST_LO.ADDR, DPC_LIST_HI.ADDR, DPC_CFG.DPC_N] ++
  [DPC_CFG.DYN_THR, CCM.LO, CCM.HI, WB_RG.GR, WB_RG.GG, WB_B.GB, AC_MERGE_R.R1, AC_MERGE_R.R2, AC_MERGE_KNEE.KNEE, AC_BLACK01.BLACK0, AC_BLACK01.BLACK1, AC_BLACK23.BLACK2, AC_BLACK23.BLACK3, AC_DPC_LIST_LO.ADDR, AC_DPC_LIST_HI.ADDR, AC_DPC_CFG.DPC_N, AC_DPC_CFG.DYN_THR, AC_CCM.LO, AC_CCM.HI, AC_WB_RG.GR] ++
  [AC_WB_RG.GG, AC_WB_B.GB, LIN_SH.L, LIN_AC.L, TONE_SH.T, TONE_AC.T]
def blk_pipe : Block := ⟨0x20410000, 0x4000, 4, 0, flds_pipe⟩
def flds_cv : List Fld :=
  [CV_CTL.EN, CV_CTL.REV_EN, CV_CTL.GRID_EN, CV_EPOCH.WAIT_LIMIT, CV_EPOCH.REV_HORIZON, CV_EPOCH.DROP_N, CV_CONF.DECAY, CV_CONF.C_FLOOR, CV_CONF.C_MIN, CV_CONF.H_MARGIN, CV_RES.RES_THR, CV_RES.RES_N, CV_RES.READMIT_N, CV_RES.H_UP, CV_RES.H_DN, CV_CON.CON_THR, CV_CON.CON_N, CV_CON.SHARE_MIN, CV_RESMASK_LO.W, CV_RESMASK_HI.W] ++
  [GRID_BASE_LO.ADDR, GRID_BASE_HI.ADDR, GRID_CFG.NBUF, GRID_PUB.EPOCH, GRID_STAT.SLOT, GRID_STAT.VALID, GRID_STAT.MASKED, GRID_PUB_MTC_LO.MTC, GRID_PUB_MTC_HI.MTC, MOTION_SPD.ADDR, MOTION_YAW.ADDR, MOTION_YAW.GFS, ROLE_MAP.W, CV_FLAGS.F, CV_EVMASK.F, CV_CNT0.LATE, CV_CNT0.REV, CV_CNT1.LATE_DROP, CV_CNT1.EP_DROP, CV_CNT2.FUTURE] ++
  [CV_CNT2.RELEASE_TMO, CV_LOAD.PROC_LAST, CV_LOAD.PROC_MAX, CV_SRAM.USED, HG_SH.W, HG_CTL.COMMIT, HG_CTL.PEND, HG_CTL.GEN, HG_CTL.IGN, HG_AC.W]
def blk_cv : Block := ⟨0x20500000, 0x1000, 1, 0, flds_cv⟩
def flds_sens : List Fld :=
  [SENS_CFG.EN, SENS_CFG.KIND, SENS_CFG.SRC, SENS_CFG.STREAM, SENS_CFG.MODEL, SENS_CFG.PROB_USE, SENS_CFG.MASK, SENS_CFG.JIT, SENS_PERIOD.PERIOD, SENS_HCFG.H0, SENS_HCFG.H_ADMIT, SENS_STAT.STATE, SENS_STAT.REASON, SENS_STAT.HEALTH, SENS_STAT.RESID, SENS_STAT.DROP_RUN, SENS_CNT0.LATE, SENS_CNT0.FUTURE, SENS_CNT1.DROPOUTS, SENS_CNT1.MASKS] ++
  [SENS_CNT2.LOST, SENS_CNT2.OBJECTS, SENS_LAST_LO.MTC, SENS_LAST_HI.MTC, SENS_GEN.TT_GEN, SENS_GEN.MODEL_GEN, SENS_GEN.FRAME_GEN, SENS_GEN.TBL_GEN]
def blk_sens : Block := ⟨0x20501000, 0x40, 16, 0, flds_sens⟩
def flds_ms : List Fld :=
  [MS_SH_LO.ADDR, MS_SH_HI.ADDR, MS_CTL.SWAP, MS_STAT.GEN, MS_STAT.PEND, MS_STAT.OLD_BUSY, MS_STAT.ERR, MS_STAT.SRAM, MS_FROM.EPOCH, MS_AC_LO.ADDR, MS_AC_HI.ADDR]
def blk_ms : Block := ⟨0x20501800, 0x20, 16, 0, flds_ms⟩
def flds_ttsh : List Fld :=
  [TT_SH.W, TT_CTL.COMMIT, TT_CTL.PEND, TT_CTL.GEN, TT_CTL.IGN]
def blk_ttsh : Block := ⟨0x20502000, 0x80, 16, 0, flds_ttsh⟩
def flds_ttac : List Fld :=
  [TT_AC.W]
def blk_ttac : Block := ⟨0x20503000, 0x80, 16, 0, flds_ttac⟩
def flds_mf : List Fld :=
  [MF_CFG.EN, MF_CFG.SP_MODE, MF_CFG.FF_TO_SP, MF_CFG.TAP, MF_CFG.OWNER, MF_CFG.STALE_POL, MF_CFG.CON_POL, MF_CFG.TRIM_EN, MF_CFG.OBJ, MF_CFG.AGE_MAX, MF_SP.SP, MF_FB.FB, MF_LIM.MIN, MF_LIM.MAX, MF_RLIM.SP_RLIM, MF_RLIM.FF_RLIM, MF_FFK.FFK, MF_FFK.NOM, MF_TRIM_K.KT, MF_TRIM_LIM.TMIN] ++
  [MF_TRIM_LIM.TMAX, MF_CTL.TRIM_CLR, MF_OUT.SP, MF_OUT.FF, MF_STAT.POL, MF_STAT.TRIM, MF_FLAGS.F, MF_EVMASK.F, MF_CNT.OWNER_IGN, MF_CNT.POL_FRAMES]
def blk_mf : Block := ⟨0x20600000, 0x200, 32, 0, flds_mf⟩
def flds_rl : List Fld :=
  [RL_CFG.EN, RL_CFG.CUT, RL_CFG.EDGE_EN, RL_CFG.C_USE, RL_CFG.EDGE_MIN, RL_CFG.NOMCELL, RL_SPD.ADDR, RL_STAT.GEN, RL_STAT.PKTS, RL_GRID.EPOCH, RL_AGE.AGE, RL_STRIP.NEXT, RL_TRAVEL.FRAC, RL_TRAVEL.DEBT, RL_FLAGS.F, RL_EVMASK.F, RL_CNT0.OVF, RL_CNT0.ATT_OLD, RL_CNT1.STRIP_DROP, RL_CNT1.SKIPPED] ++
  [RL_CNT1.LATE, STRIP_BASE_LO.ADDR, STRIP_BASE_HI.ADDR, STRIP_CFG.LOG2N, STRIP_CFG.EV, STRIP_WR.IDX, STRIP_RD.IDX]
def blk_rl : Block := ⟨0x20604000, 0x100, 1, 0, flds_rl⟩
def flds_stg : List Fld :=
  [STG_CFG.EN, STG_CFG.K, STG_SRC.ADDR, STG_FIX.FIXV, STG_FIX.DW, STG_STAT.ADV, STG_STAT.PKTS]
def blk_stg : Block := ⟨0x20604100, 0x20, 8, 1, flds_stg⟩
def flds_tap : List Fld :=
  [TAP_CFG.EN, TAP_CFG.MODE, TAP_CFG.STAGE, TAP_CFG.POS, TAP_WIN.LEAD, TAP_WIN.WIN, TAP_OUT.VAL, TAP_OUT.COVER, TAP_INFO.F]
def blk_tap : Block := ⟨0x20604200, 0x20, 16, 0, flds_tap⟩
def flds_at : List Fld :=
  [AT_CFG.EN, AT_CFG.KIND, AT_CFG.CLASS, AT_CFG.STAGE, AT_CFG.SRC, AT_CFG.LSMASK, AT_POS.POS, AT_POS.ALPHA, AT_RATE.RATE, AT_RATE.FLT, AT_CNT.EMPTY, AT_CNT.MISS]
def blk_at : Block := ⟨0x20604400, 0x20, 16, 0, flds_at⟩
def flds_obj : List Fld :=
  [OBJ_STAT.GEN, OBJ.LIMIT, OBJ.AT]
def blk_obj : Block := ⟨0x20604600, 0x100, 1, 0, flds_obj⟩
def flds_mi : List Fld :=
  [MI_CFG.EN, MI_CFG.ROLE, MI_CFG.FUT, MI_MTC_LO.MTC, MI_MTC_HI.MTC, MI_VAL.VAL, MI_VAL.FLT]
def blk_mi : Block := ⟨0x20604700, 0x10, 8, 0, flds_mi⟩
def flds_vb : List Fld :=
  [VB_CFG.EN, VB_CFG.BOOST_V, VB_CFG.OVERLAP_POLICY, VB_CFG.BOOST_WAIT, VB_STAT.RAIL_V, VB_STAT.HS_SRC, VB_STAT.BOOSTING, VB_STAT.BOOSTER, VB_STAT.WAITING, VB_STAT.RAIL_READY, VB_STAT1.HOLD_SUM, VB_STAT1.TEMP, VB_FLAGS.F, VB_EVMASK.F, VB_CNT0.DEFERRED, VB_CNT0.SKIPPED, VB_CNT1.REJECTED, VB_CNT1.DOWNGRADES, VB_LATE.LAST, VB_LATE.MAX] ++
  [VB_CTL.CLEAR, VB_CTL.RST]
def blk_vb : Block := ⟨0x20700000, 0x100, 8, 0, flds_vb⟩
def flds_vd : List Fld :=
  [VD_CFG.EN, VD_CFG.B_EN, VD_CFG.SOFF_B, VD_CFG.SOFF_P, VD_CFG.SOFF_H, VD_CFG.CHOP, VD_CFG.DUTY_POL, VD_CFG.DITH_EN, VD_BOOST.B_I, VD_BOOST.B_T, VD_PEAK.P_I, VD_PEAK.P_T, VD_HOLD.H_T, VD_DITH.DITH_F, VD_DITH.DITH_A, VD_DUTY.IRMS, VD_DUTY.WIN, VD_CMD.HOLD_I, VD_CMD.OP, VD_STAT.PHASE] ++
  [VD_STAT.DUTY_ACT, VD_STAT.SOFF_USED, VD_STAT.HOLD_EFF, VD_I.I, VD_I.RES, VD_FLAGS.F, VD_EVMASK.F, VD_CLAMP_E.E, VD_CNT0.STARTS, VD_CNT0.RESTARTS, VD_CNT1.DOWNGRADES, VD_CNT1.LIMITED, VD_LATE.LAST, VD_LATE.LATE_CNT, VD_DUTY_STAT.IRMS_EST, VD_MTC.MTC]
def blk_vd : Block := ⟨0x20701000, 0x80, 32, 0, flds_vd⟩
def flds_lc : List Fld :=
  [LC_CFG.EN, LC_CFG.HEAVY, LC_CFG.OFF_DIAG, LC_CFG.FINE, LC_CFG.THERM_N, LC_CFG.PWM_F, LC_LIM.ILIM, LC_LIM.INRUSH_I, LC_INRUSH.INRUSH_T, LC_INRUSH.LIM_T, LC_OL.OL_THR, LC_CE.CE_BUDGET, LC_CE.CE_WIN, LC_CMD.DUTY, LC_CMD.OP, LC_STAT.STATE, LC_STAT.INRUSH, LC_STAT.AT_LIMIT, LC_I.I, LC_I.VOUT] ++
  [LC_TEMP.TEMP, LC_TEMP.P, LC_CE_ACC.E, LC_FLAGS.F, LC_EVMASK.F, LC_CLAMP_E.E, LC_CNT0.SWITCH_ONS, LC_CNT0.REFUSED, LC_CNT1.UV_RESTARTS, LC_CNT1.THERM_RESTARTS, LC_MTC.MTC]
def blk_lc : Block := ⟨0x20710000, 0x40, 48, 0, flds_lc⟩
def flds_lg : List Fld :=
  [LG_CFG.UV_OFF, LG_CFG.UV_HYS, LG_CFG.UV_DLY, LG_CFG.STUD, LG_STAT.FEED_V, LG_STAT.DIE_T, LG_STAT.UV_ACT, LG_CUR.I, LG_FLAGS.F, LG_EVMASK.F, LG_CTL.CLEAR, LG_CTL.RST, LG_CNT.UV_EVENTS, LG_CNT.HOT]
def blk_lg : Block := ⟨0x20711000, 0x40, 12, 0, flds_lg⟩
def flds_tu : List Fld :=
  [TU_STAT.STATE, TU_STAT.CODE, TU_STAT.LOCK_RUN, TU_CFG.LOCK_THR, TU_CFG.LOCK_N, TU_CFG.LOSS_T, TU_HOLD.HOLDOVER_LIMIT, TU_HU_F.F, TU_HU_A.A, TU_U.U, TU_SINCE.T, TU_NOW_MTC_LO.W, TU_NOW_MTC_HI.W, TU_NOW_T_LO.W, TU_NOW_T_HI.W, TU_NOW_INFO.CODE, TU_NOW_INFO.U, CONV_MTC_LO.W, CONV_MTC_HI.W, CONV_T_LO.W] ++
  [CONV_T_HI.W, CONV_RATE.Y, CONV_SLEW.S, TU_LEAP.LEAP, TU_LEAP.VALID, TU_FLAGS.F, TU_EVMASK.F, TU_CNT.STEPS, TU_CNT.HOLDOVERS, TU_STEP.PHI]
def blk_tu : Block := ⟨0x20800000, 0x100, 1, 0, flds_tu⟩
def flds_tp : List Fld :=
  [TP_CFG.EN, TP_CFG.POL, TP_CFG.PER, TP_CFG.FREE_POL, TP_CFG.EV, TP_CFG.WIDTH, TP_DLY.CABLE_DLY, TP_STAT.ACTIVE, TP_STAT.CODE, TP_MTC_LO.MTC, TP_MTC_HI.MTC, TP_FRAC.FRAC, TP_CNT.SKIP, TP_CNT.EDGES]
def blk_tp : Block := ⟨0x20800100, 0x20, 2, 0, flds_tp⟩
def flds_gc : List Fld :=
  [GC_CFG.EN, GC_CFG.SIG, GC_CFG.PRN, GC_CFG.ANT, GC_CFG.DUMP_N, GC_CFG.DUMP_EV, GC_CFG.OWNER, GC_CODE_FRQ.FRQ, GC_CARR_FRQ.FRQ, GC_TAPS.SP, GC_CODE_ADJ.ADJ, GC_CARR_ADJ.ADJ, GC_CODE_PH.CHIP, GC_CODE_PH.FRAC, GC_CARR_CYC.W, GC_CARR_FR.W, GC_DUMP_MTC_LO.MTC, GC_DUMP_MTC_HI.MTC, GC_FLAGS.F, GC_CNT.DUMPS] ++
  [GC_CNT.LOST]
def blk_gc : Block := ⟨0x20810000, 0x40, 96, 0, flds_gc⟩
def flds_gf : List Fld :=
  [GF_CFG.BIAS0, GF_CFG.BIAS1, GF_CFG.JAM_THR, GF_STAT.OPEN0, GF_STAT.SHORT0, GF_STAT.OPEN1, GF_STAT.SHORT1, GF_AGC.S0, GF_AGC.S1, GF_AGC.S2, GF_AGC.S3, GF_FLAGS.F, GF_DUMP_BASE_LO.ADDR, GF_DUMP_BASE_HI.ADDR, GF_DUMP_CFG.LOG2N, GF_DUMP_WR.IDX, GF_DUMP_RD.IDX, GF_CLAIM.W, GF_SOL.SEQ, GF_SOL_RD.IDX] ++
  [GF_CNT.IGN, GF_CNT.SOL_DROP]
def blk_gf : Block := ⟨0x20812000, 0x1000, 1, 0, flds_gf⟩
def flds_tl : List Fld :=
  [TL_CTL.EN, TL_CTL.COV_SRC, TL_CTL.REV_EN, TL_CTL.FLEET_EN, TL_CTL.NOTIME_POL, TL_CTL.WIDTH_MODE, TL_CTL.FLUSH_S, TL_FIELD.STATE, TL_FIELD.EDGE, TL_FIELD.SESSION, TL_FIELD.LAYERS, TL_FIELD_ID.ID, TL_SRC.FLOW_AT, TL_SRC.MOIST_AT, TL_SRC.LOSS0_AT, TL_SRC.LOSS1_AT, TL_SRC.CAL, TL_PASS.PASS_GAP, TL_PASS.ROWS, TL_PASS.C_MIN] ++
  [TL_STRIP.LAST, TL_TILES.USED, TL_GAP.GAP, TL_FLAGS.F, TL_EVMASK.F, TL_CNT0.PLACED, TL_CNT0.UNPLACED, TL_CNT1.REV_APPLIED, TL_CNT1.REV_AHEAD, TL_CNT2.FLEET_MERGED, TL_CNT2.FLEET_REJ, TL_CNT3.TILE_FULL, TL_CNT3.HG_MISS, TL_FLUSH_MTC_LO.MTC, TL_FLUSH_MTC_HI.MTC, SC_CFG.EN, SC_CFG.MASTER, SC_CFG.NOFIX_POL, SC_CFG.ON_FRAC, SC_CFG.OFF_FRAC] ++
  [SC_CFG.NSEC, SC_REF.X, SC_REF.Y, SC_STATE0.ON, SC_STATE1.ON, SC_CNT.SWITCHES, SC_CNT.MISS]
def blk_tl : Block := ⟨0x20900000, 0x400, 1, 0, flds_tl⟩
def flds_sc : List Fld :=
  [SC_GEOM.SC_Y, SC_GEOM.SC_WIDTH, SC_LAT.LAT_ON, SC_LAT.LAT_OFF, SC_ADDR.EN, SC_ADDR.ADDR, SC_ON_WORD.W]
def blk_sc : Block := ⟨0x20900400, 0x10, 64, 0, flds_sc⟩
def flds_scs : List Fld :=
  [SC_STAT.U_ON, SC_STAT.U_OFF, SC_STAT.STATE, SC_STAT.EFF]
def blk_scs : Block := ⟨0x20900800, 4, 64, 0, flds_scs⟩
def flds_can : List Fld :=
  [CAN_CTL.INIT, CAN_CTL.MODE, CAN_CTL.FD_EN, CAN_CTL.BRS_EN, CAN_CTL.BO_AUTO, CAN_CTL.RECOVER, CAN_CTL.RST, CAN_CFG.OWNER, CAN_CFG.DEFAULT, CAN_CFG.QN, CAN_CFG.QFULL_POL, CAN_CFG.LOCK_POL, CAN_CFG.TX_MODE, CAN_CFG.RX_EV, CAN_CFG.TX_EV, CAN_NBT.BRP, CAN_NBT.TSEG1, CAN_NBT.TSEG2, CAN_NBT.SJW, CAN_DBT.BRP] ++
  [CAN_DBT.TSEG1, CAN_DBT.TSEG2, CAN_DBT.SJW, CAN_TDC.TDC_EN, CAN_TDC.TDCO, CAN_TDC.TDCV, CAN_STAT.STATE, CAN_STAT.TEC, CAN_STAT.REC, CAN_STAT.RP, CAN_STAT.ACT, CAN_FLAGS.F, CAN_EVMASK.F, CAN_CNT0.RX_FRAMES, CAN_CNT0.TX_FRAMES, CAN_CNT1.RX_LOST, CAN_CNT1.OVW, CAN_CNT2.LOCK_OVF, CAN_CNT2.ABANDON, CAN_CNT3.BUS_OFFS] ++
  [CAN_CNT3.IGN, CAN_RXNEW.NEW, CAN_HPNEW.NEW, CAN_QSTAT.HEAD, CAN_QSTAT.COUNT, CAN_QSTAT.SEQ, CAN_TX_REQ.W, CAN_TX_CANCEL.W, CAN_TX_DONE.W, CAN_TXEV_A.BUF, CAN_TXEV_A.RESULT, CAN_TXEV_A.LATE, CAN_TXEV_A.COUNT, CAN_TXEV_A.VALID, CAN_TXEV_B.MTC, CAN_TXEV_C.MTC, HPF_ID.ID, HPF_ID.IDE, HPF_ID.IDE_ANY, HPF_ID.EN] ++
  [HPF_MASK.MASK, HPF_CTL.COPY, HPF_CTL.EV, HPF_CTL.HITS, AF_ID.ID, AF_ID.IDE, AF_ID.IDE_ANY, AF_MASK.MASK, AF_ACT.ACT, AF_ACT.BUF, AF_ACT.HITS, RXW_SEL.BUF, RXW_SEL.LOCKED, RXW_REL.REL, RXW_REL.CONSUME, RXW_W.W, TXW_SEL.BUF, TXW_W.W]
def blk_can : Block := ⟨0x20A00000, 0x1000, 8, 0, flds_can⟩
def flds_cang : List Fld :=
  [CAN_HP_SUM0.NEW, CAN_HP_SUM1.NEW]
def blk_cang : Block := ⟨0x20A08000, 0x1000, 1, 0, flds_cang⟩
def flds_eth : List Fld :=
  [ETH_CFG.EN, ETH_CFG.ROLE, ETH_CFG.PVID, ETH_CFG.PTP_EN, ETH_STAT.LINK, ETH_STAT.SPEED, ETH_STAT.SQI, ETH_STAT.PDELAY, ETH_FLAGS.F, ETH_EVMASK.F, ETH_CNT0.RX, ETH_CNT0.TX, ETH_CNT1.FCS, ETH_CNT1.OVERSIZE, ETH_CNT2.EGR_DROP, ETH_CNT2.VLAN_DROP, ETH_CNT3.LINK_LOSS, ETH_CNT3.PTP_FOREIGN, ETH_CNT4.HOST_DROP]
def blk_eth : Block := ⟨0x20B00000, 0x400, 10, 0, flds_eth⟩
def flds_sw : List Fld :=
  [SW_CFG.MAC_AGE, SW_CFG.JFX_VID, SW_STAT.BUF, SW_STAT.MACS, SW_JFX.AUTH_FAIL, SW_JFX.REFUSED_FULL, SW_JFX1.TILE_DROP, SW_JFX1.ACTIVE, VLAN_A.VID, VLAN_A.EN, VLAN_A.HOSTQ, VLAN_A.MEMBER, VLAN_B.UNTAG]
def blk_sw : Block := ⟨0x20B04000, 0x400, 1, 0, flds_sw⟩
def flds_str : List Fld :=
  [STR_CFG.EN, STR_CFG.PORT, STR_CFG.DOM, STR_CFG.EV, STR_CFG.VID, STR_UDP.UDP, STR_UDP.BLK_TMO, STR_RING_LO.ADDR, STR_RING_HI.ADDR, STR_RING_CFG.NSLOT, STR_HOLD.HOLD, STR_STAT.BSEQ, STR_STAT.SLOT, STR_STAT.OPEN, STR_FLAGS.F, STR_CNT0.BLOCKS, STR_CNT0.GAPS, STR_CNT1.BAD, STR_CNT1.PTS_LOST]
def blk_str : Block := ⟨0x20B04400, 0x40, 16, 0, flds_str⟩
def flds_hq : List Fld :=
  [HQ_RX_LO.ADDR, HQ_RX_HI.ADDR, HQ_CFG.LOG2N, HQ_CFG.OWNER, HQ_CFG.EV, HQ_RX_WR.IDX, HQ_RX_RD.IDX, HQ_TX_LO.ADDR, HQ_TX_HI.ADDR, HQ_TX_WR.IDX, HQ_TX_RD.IDX, HQ_CNT.RX_DROP, HQ_CNT.TX_SKIP]
def blk_hq : Block := ⟨0x20B04800, 0x40, 2, 0, flds_hq⟩
def flds_upd : List Fld :=
  [TAG_STAT.GEN, TAG_STAT.USED, TAG_STAT.BAD, TAG_WIN.W, FACTORY.W, UPD_STAT.STATE, UPD_STAT.CLASS, UPD_STAT.ERR, UPD_STAT.SLOT, UPD_STAT.TRIES, UPD_CFG.CONFIRM_STARTS, SET_ACTIVE.W, SET_STAGED.W, UPD_BLOCKS.RECEIVED, UPD_CNT.ACTIVATIONS, UPD_CNT.ROLLBACKS, KEY_STAT.USER, KEY_STAT.LOCKED, KEY_STAT.FP, SVC_STAT.SESSION] ++
  [SVC_STAT.LEVEL, SVC_STAT.PORT, SVC_STAT.STRAP, SVC_CTL.WRITE_EN, UPD_TOTAL.TOTAL]
def blk_upd : Block := ⟨0x20C00000, 0x10000, 1, 0, flds_upd⟩
def blocks : List Block :=
  [blk_fc, blk_sysc, blk_err, blk_cb, blk_lkmb, blk_fp, blk_arb, blk_req, blk_dc, blk_dcg, blk_cg, blk_ain, blk_imu, blk_ls, blk_cam, blk_pipe, blk_cv, blk_sens, blk_ms, blk_ttsh, blk_ttac, blk_mf, blk_rl] ++
  [blk_stg, blk_tap, blk_at, blk_obj, blk_mi, blk_vb, blk_vd, blk_lc, blk_lg, blk_tu, blk_tp, blk_gc, blk_gf, blk_tl, blk_sc, blk_scs, blk_can, blk_cang, blk_eth, blk_sw, blk_str, blk_hq, blk_upd]

end Sys2Proof.Reg
end

