-- ==== Sys2Proof/Machine/UnitsAct.lean ====
section
/-! DEFINITION.  State of the actuation domain behind its registers: valve channels and banks (R190 to R201),
load channels and groups (R205 to R215). -/

namespace Sys2Proof.Machine

/-- The phases of a valve profile (Table 10.1); WAIT, HELD and LOCKED stand beside them. -/
inductive VPhase where
  | off | boost | peak | hold | swoff
  deriving DecidableEq, Repr

/-- The configuration a profile latches at its start (R197). -/
structure VProfile where
  bEn : Bool
  soffB : Nat
  soffP : Nat
  soffH : Nat
  rejectDuty : Bool
  bI : Nat
  bT : Nat
  pI : Nat
  pT : Nat
  hT : Nat
  chop : Nat
  dithEn : Bool
  dithF : Nat
  dithA : Nat
  irms : Nat
  win : Nat
  deriving DecidableEq, Repr

/-- The profile of a channel that has started none: the Reset columns of Table 10.6. -/
def VProfile.zero : VProfile := ⟨false, 2, 2, 2, false, 0, 0, 0, 0, 0, 1, false, 50, 0, 6000, 100⟩

/-- A START that waits for the boost (R198): its hold level in 0.2 mA, the instant of its first START, OVERLAP_POLICY and
BOOST_WAIT (µs) as they stood then (R197), and whether BOOST_WAIT has expired under DEFER. -/
structure VWait where
  level : Nat
  since : Nat
  policy : Nat
  limit : Nat
  deferred : Bool
  deriving DecidableEq, Repr

/-- A valve channel: phase, a START waiting for the boost, whether it is held and since which onset, the
conditions that lock it, its commanded hold level (0.2 mA), the level the regulator works to (0.2 mA), the latched
profile, the mean-square estimate q (mA²), the instant its phase began, the instant hold was entered (dither phase), the mode
of a switch-off under way (0 SLOW, 1 MEDIUM, 2 FAST), the target of the chop period in progress, and since when the mean has
stood outside ±10 % of its target. -/
structure Valve where
  phase : VPhase
  wait : Option VWait
  held : Bool
  onset : Nat
  lockShort : Bool
  lockTemp : Bool
  level : Nat
  target : Nat
  prof : VProfile
  q : Frac
  since : Nat
  holdAt : Nat
  decay : Nat
  aim : Frac
  astray : Option Nat
  deriving DecidableEq, Repr

def Valve.zero : Valve := ⟨.off, none, false, 0, false, false, 0, 0, VProfile.zero, ⟨0, 1⟩, 0, 0, 0, ⟨0, 1⟩, none⟩

/-- A valve bank: the conditions that lock its channels, RAIL_FAIL present, the feed fault present, the order in which
channels wait for the boost, BOOST_V of the last boost request (0.5 V, R197), since when a request waits for the rail, and
since when the charger is off (R191). -/
structure Bank where
  short : Bool
  hot : Bool
  railFail : Bool
  feedLow : Bool
  order : List Nat
  boostV : Nat
  waitAt : Option Nat
  bleed : Option Nat
  deriving DecidableEq, Repr

def Bank.zero : Bank := ⟨false, false, false, false, [], 120, none, none⟩

/-- The states of a load channel but HELD and LOCKED, which stand beside them (Table 11.3). -/
inductive LState where
  | off | on | pwm | uvWait | thermWait
  deriving DecidableEq, Repr

/-- The commanded state of a load channel (R206). -/
inductive LCmd where
  | off | on | pwm (duty : Nat)
  deriving DecidableEq, Repr

/-- A load channel: state, last command, the duty in force and the one from the next period, held since an
onset, the conditions that lock it, the temperature rise θ (K), thermal returns since the last command, the
clamp account E (mJ), the instant it went off, the instants its inrush window and its PWM period began, and since when it has
carried ILIM with its output at 25 % of the feed or above. -/
structure Load where
  st : LState
  cmd : LCmd
  duty : Nat
  held : Bool
  onset : Nat
  lockShort : Bool
  lockTherm : Bool
  lockClamp : Bool
  lockHot : Bool
  theta : Frac
  returns : Nat
  acc : Frac
  offAt : Nat
  winAt : Nat
  perAt : Nat
  limAt : Option Nat
  deriving DecidableEq, Repr

def Load.zero : Load := ⟨.off, .off, 0, false, 0, false, false, false, false, ⟨0, 1⟩, 0, ⟨0, 1⟩, 0, 0, 0, none⟩

end Sys2Proof.Machine
end

