-- ==== Sys2Proof/Machine/UnitsCam.lean ====
section
/-! DEFINITION.  State of the camera ports behind their registers (R131 to R143). -/

namespace Sys2Proof.Machine

/-- The states of a port (Table 7.6). -/
inductive CamState where
  | off | linkWait | admitting | run | dropout
  deriving DecidableEq, Repr

/-- CAM_LINK.STATE encodings. -/
def CamState.code : CamState → Nat
  | .off => 0
  | .linkWait => 1
  | .admitting => 2
  | .run => 3
  | .dropout => 4

/-- The configuration of a frame, as it stood at its FS (R17): of its port and of its pipe. -/
structure CamCfg where
  pipe : Nat
  cfa : Nat
  mono : Bool
  dynEn : Bool
  dt : Nat
  nexp : Nat
  vcbase : Nat
  embEn : Bool
  embByte : Nat
  sensorOfs : Nat
  statBase : Nat
  descBase : Nat
  width : Nat
  height : Nat
  fmt : Nat
  scale : Nat
  tapLin : Bool
  tapMerge : Bool
  tapTone : Bool
  linExp : Nat
  slotAddr : Nat
  ofsLin : Nat
  ofsMerge : Nat
  ofsTone : Nat
  deriving DecidableEq, Repr

/-- An open frame: its configuration, slot (none when all are held), FS_MTC, Δ, MISS, flags, table generation,
lines of each exposure (newest first), line start instants (newest first), CRC lines, extra lines,
embedded bytes, and the virtual channels whose FS and FE have come. -/
structure CamFrame where
  cfg : CamCfg
  slot : Option Nat
  fs : Nat
  delta : Nat
  miss : Nat
  late : Bool
  early : Bool
  tblGen : Nat
  lines : List (List (List Nat))
  starts : List Nat
  crcLines : Nat
  extra : Nat
  long : Bool
  emb : Option (List Nat)
  fsSeen : Nat
  feSeen : Nat
  deriving DecidableEq, Repr

/-- A closed frame that waits for its statistics header and its descriptor: the descriptor's eight words (R134), the
header's four words (Table 7.5), where both go, and whether the statistics header is written. -/
structure CamClosed where
  statAddr : Nat
  descAddr : Nat
  desc : List Nat
  head : List Nat
  headDone : Bool
  deriving DecidableEq, Repr

/-- A setting being sent (R140): GEN, the set, the writes with the appended GEN write, how many are done, the frame f of R141, and whether it waits for
that frame's FE. -/
structure CamSend where
  gen : Nat
  base : List (Nat × Nat)
  writes : List (Nat × Nat)
  sent : Nat
  frame : Nat
  waitFe : Bool
  deriving DecidableEq, Repr

/-- A camera port behind its registers: state, the previous FS_MTC (none: the next frame is unchecked), consecutive
missing periods, consecutive good frames, the open frame, frames closed so far, closed frames not yet described,
the slot last written, the setting in progress, the last complete setting, the predictions newest first (GEN, first
frame), and EN written to 0 with a frame or a setting to finish. -/
structure Cam where
  st : CamState
  lastFs : Option Nat
  missRun : Nat
  good : Nat
  frame : Option CamFrame
  frames : Nat
  closed : List CamClosed
  lastSlot : Option Nat
  send : Option CamSend
  lastSet : Option (List (Nat × Nat))
  preds : List (Nat × Nat)
  closing : Bool
  deriving DecidableEq, Repr

def Cam.zero : Cam := ⟨.off, none, 0, 0, none, 0, [], none, none, none, [], false⟩

end Sys2Proof.Machine
end

