-- ==== Sys2Proof/Machine/UnitsPos.lean ====
section
/-! DEFINITION.  State of the position domain behind its registers: tracking channels, the positioning service, the time
unit and the pulses (R219 to R237). -/

namespace Sys2Proof.Machine

/-- The values a tracking channel works under (R223). -/
structure GcForce where
  en : Bool
  sig : Nat
  ant : Nat
  dumpN : Nat
  dumpEv : Bool
  codeFrq : Nat
  carrFrq : Int
  deriving DecidableEq, Repr

/-- A dump whose sums have closed and which is still to be written: instant, phases, values in force. -/
structure GcDue where
  mtc : Nat
  chip : Nat
  frac : Nat
  carr : Int
  codeFrq : Nat
  carrFrq : Int
  deriving DecidableEq, Repr

/-- A tracking channel behind its registers: values in force, code phase in 2^−32 chip, carrier phase in 2^−32 cycle
since EN, adjustments to apply, epochs since the last dump, a closed dump. -/
structure Gc where
  force : GcForce
  code : Nat
  carr : Int
  codeAdj : Int
  carrAdj : Int
  epochs : Nat
  due : Option GcDue
  deriving DecidableEq, Repr

def Gc.zero : Gc := ⟨⟨false, 0, 0, 1, false, 0, 0⟩, 0, 0, 0, 0, 0, none⟩

/-- A request as a service keeps it until its final reply. -/
structure SvcWait where
  src : Nat
  mb : Nat
  tag : Nat
  noreply : Bool
  deriving DecidableEq, Repr

/-- A CLAIM in progress (R224): the request, the channels still to change owner, the owner. -/
structure ClaimWait where
  req : SvcWait
  channels : List Nat
  owner : Nat
  deriving DecidableEq, Repr

/-- A snapshot in progress (R229): the request, LEN, DEST, buffer, first-sample MTC. -/
structure SnapWait where
  req : SvcWait
  len : Nat
  dest : Nat
  addr : Nat
  mtc : Nat
  deriving DecidableEq, Repr

/-- SOL_CFG as received (R225). -/
structure SolCfg where
  rate : Nat
  log2n : Nat
  ring : Nat
  x : Int
  y : Int
  z : Int
  deriving DecidableEq, Repr

/-- ANT_CFG as received. -/
structure AntCfg where
  ant : List Int
  hdgEn : Bool
  deriving DecidableEq, Repr

/-- An entry of the watch log (R230). -/
structure WatchEntry where
  mtc : Nat
  fix : Nat
  lat : Int
  lon : Int
  hu : Nat
  time : Nat
  unc : Nat
  deriving DecidableEq, Repr

/-- The positioning service: solutions configured, antennas, correction sources in priority order, SRC_TMO, CORR_MAX and
DR_MAX in s, the MTC of the last valid message of each source (index 1 to 3), the source in use, since when dead reckoning, expired,
words 4 to 13 of the last record under DR, claims, the snapshot, the watch log (newest first), antenna biases cut,
the next dump SEQ, a capture handed to the fleet service. -/
structure Pos where
  sol : Option SolCfg
  ant : AntCfg
  prio : List Nat
  srcTmo : Nat
  corrMax : Nat
  drMax : Nat
  heard : List (Option Nat)
  src : Nat
  drFrom : Option Nat
  drOver : Bool
  drWords : List Nat
  claims : List ClaimWait
  snap : Option SnapWait
  watch : List WatchEntry
  cut : List Bool
  dumpSeq : Nat
  jfxSnap : Option (List Nat)
  deriving DecidableEq, Repr

def Pos.zero : Pos :=
  { sol := none, ant := ⟨List.replicate 6 0, false⟩, prio := [0, 0, 0], srcTmo := 5, corrMax := 10, drMax := 30
    heard := List.replicate 4 none, src := 0, drFrom := none, drOver := false, drWords := List.replicate 10 0, claims := [], snap := none
    watch := [], cut := [false, false], dumpSeq := 0, jfxSnap := none }

/-- The states of the time unit (Table 12.5). -/
inductive TState where
  | unset | locked | holdover | free
  deriving DecidableEq, Repr

/-- TU_STAT.STATE encodings. -/
def TState.code : TState → Nat
  | .unset => 0
  | .locked => 1
  | .holdover => 2
  | .free => 3

/-- A pulse output behind its registers (R237): a pulse lasts, the MTC of its trailing edge, the GNSS time (ns) of the last edge,
and CABLE_DLY (0.1 ns), PER and WIDTH as they stood before the last write, which hold until the MTC `until_`. -/
structure TpOut where
  high : Bool
  fall : Nat
  last : Option Int
  dly : Int
  per : Nat
  width : Nat
  until_ : Nat
  deriving DecidableEq, Repr

def TpOut.zero : TpOut := ⟨false, 0, none, 0, 0, 100000, 0⟩

/-- The time unit behind its registers: state, conversion (MTC, T in ns, Y in 10^−12), slew left in ns at the MTC `slewAt`, the
last qualifying solution (MTC, U0), a step that waits for the next GNSS second, the pulse outputs, the MTC of the last step. -/
structure TimeUnit where
  st : TState
  convMtc : Nat
  convT : Int
  convY : Int
  slew : Int
  slewAt : Nat
  last : Nat
  u0 : Nat
  step : Option Int
  out : Vector TpOut 2
  stepAt : Nat
  deriving DecidableEq, Repr

def TimeUnit.zero : TimeUnit := ⟨.unset, 0, 0, 0, 0, 0, 0, 0, none, Vector.replicate 2 .zero, 0⟩

end Sys2Proof.Machine
end

