-- ==== Sys2Proof/Machine/UnitsComm.lean ====
section
/-! DEFINITION.  State of the communication domain behind its registers: CAN controllers, the ISOBUS service (R262 to
R281), and the tag area its names come from (R340). -/

namespace Sys2Proof.Machine

/-- A transmit buffer: its 20 words, the order of its request, a cancel in an attempt, a cancel after arbitration was
won. -/
structure TxBuf where
  words : List Nat
  order : Nat
  cancel : Bool
  late : Bool
  deriving DecidableEq, Repr

/-- An attempt: the buffer, its start of frame, and the instant its arbitration is won (none: it is not). -/
structure TxTry where
  buf : Fin 32
  start : Nat
  won : Option Nat
  deriving DecidableEq, Repr

/-- An entry of the transmit event FIFO (R273). -/
structure TxEv where
  buf : Nat
  result : Nat
  late : Bool
  stamp : Nat
  deriving DecidableEq, Repr

/-- A CAN controller behind its registers: the words of receive buffers 0 to 63 and high-priority buffers 64 to 71, the
buffer each window has locked, the transmit buffers, the attempt in progress, the transmit events (oldest first), INIT
and RST that wait for the frame's end, recovery commanded, the error counters; the registers as they stood before recent writes
to the filters (instant of the write, newest first); and the instant INIT or RST put the controller off the bus, a reception
in progress then still to end, with RST or not. -/
structure Can where
  rx : Vector (List Nat) 72
  win : Vector (Option (Fin 72)) 2
  tx : Vector TxBuf 32
  attempt : Option TxTry
  events : List TxEv
  initWait : Bool
  rstWait : Bool
  recover : Bool
  txErr : Nat
  rxErr : Nat
  hist : List (Nat × RegMap)
  left : Option (Nat × Bool)
  deriving DecidableEq, Repr

def Can.zero : Can :=
  { rx := Vector.replicate 72 (List.replicate 20 0), win := Vector.replicate 2 none
    tx := Vector.replicate 32 ⟨List.replicate 20 0, 0, false, false⟩, attempt := none, events := []
    initWait := false, rstWait := false, recover := false, txErr := 0, rxErr := 0, hist := [], left := none }

/-- A tag record (R340): TYPE, INDEX of an ISOBUS_NAME, value bytes. -/
structure Tag where
  type : Nat
  index : Nat
  value : List Nat
  deriving DecidableEq, Repr

/-- A tag write or delete that is still to be committed (R341): its request, the service that took it, the new records,
TYPE, whether it deletes, INDEX. -/
structure TagWait where
  req : SvcWait
  op : Nat
  recs : List Tag
  type : Nat
  index : Nat
  deriving DecidableEq, Repr

/-- The tag area: records in order, GEN, a failed CRC, commits to come. -/
structure TagArea where
  recs : List Tag
  gen : Nat
  bad : Bool
  waits : List TagWait
  deriving DecidableEq, Repr

/-! ### The ISOBUS service -/

/-- An internal control function: its tag record, its NAME, its address, its claim held, the instant of its last claim, the
request that waits for it. -/
structure IntCf where
  record : Nat
  name : Nat
  addr : Nat
  held : Bool
  claimed : Nat
  req : Option SvcWait
  deriving DecidableEq, Repr

/-- An external control function (R279): NAME, address, present, last frame, for a TC client its descriptor accepted and
its work state seen since it joined. -/
structure ExtCf where
  name : Nat
  addr : Nat
  present : Bool
  last : Nat
  descr : Bool
  work : Bool
  deriving DecidableEq, Repr

/-- A subscription to a PGN. -/
structure PgnSub where
  pgn : Nat
  source : Nat
  addr : Nat
  size : Nat
  deriving DecidableEq, Repr

/-- A frame the service has still to send: identifier, data; the request that its sending answers. -/
structure NetTx where
  id : Nat
  data : List Nat
  req : Option (SvcWait × Nat)
  deriving DecidableEq, Repr

/-- A transport session (R277): extended (ETP), the two addresses, the PGN, the message, packets moved, the offset of
the window, for a transmit session its priority and its request, the instant of its first frame. -/
structure TpSession where
  etp : Bool
  sa : Nat
  da : Nat
  pgn : Nat
  len : Nat
  data : List Nat
  next : Nat
  offset : Nat
  prio : Nat
  req : Option (SvcWait × Nat)
  start : Nat
  deriving DecidableEq, Repr

/-- A pool being stored in the VT: its CF, step (0: the pool is sent, 1: its end is to be answered, 2: its storing is), the
version label, the request. -/
structure VtPool where
  cf : Nat
  step : Nat
  label : List Nat
  req : SvcWait
  deriving DecidableEq, Repr

/-- The mapped sections of a TC client (R277): implement section and engine section. -/
structure TcMap where
  name : Nat
  pairs : List (Nat × Nat)
  sent : Option Nat
  deriving DecidableEq, Repr

/-- A network (R276); `fast` at 500 kbit/s. -/
structure Net where
  can : Fin 8
  j1939 : Bool
  fast : Bool
  notify : Nat
  leave : Nat
  cfs : List IntCf
  ext : List ExtCf
  untracked : Nat
  subs : List PgnSub
  txq : List NetTx
  busy : List (Fin 32 × Option (SvcWait × Nat))
  rxs : List TpSession
  txs : List TpSession
  vt : Option VtPool
  maps : List TcMap
  deriving DecidableEq, Repr

end Sys2Proof.Machine
end

