-- ==== Sys2Proof/Machine/Memory.lean ====
section
/-! DEFINITION.  Byte memories as sorted lists of cells.  An address that no cell lists reads as zero, and no
cell holds zero, so equal memories are equal lists.  Wider accesses are little-endian (Register conventions,
Mavalor). -/

namespace Sys2Proof.Machine

/-- A byte memory: addresses strictly rising, no cell equal to the value of an unlisted address. -/
abbrev Mem := List Host.Cell

/-- What an unlisted address reads as: the TCMs are cleared to zero at every start (R34); for shared SRAM and
DRAM after power-on the specification states no content (DESIGN CHOICE, log entry 2). -/
def Mem.blank : Byte := 0

/-- The byte at an address. -/
def Mem.byte (m : Mem) (a : Nat) : Byte :=
  match m with
  | [] => Mem.blank
  | (k, b) :: t => if k = a then b else if a < k then Mem.blank else Mem.byte t a

/-- The memory with byte `b` at address `a`. -/
def Mem.put (m : Mem) (a : Nat) (b : Byte) : Mem :=
  match m with
  | [] => if b = Mem.blank then [] else [(a, b)]
  | (k, x) :: t =>
    if a < k then (if b = Mem.blank then (k, x) :: t else (a, b) :: (k, x) :: t)
    else if a = k then (if b = Mem.blank then t else (a, b) :: t)
    else (k, x) :: Mem.put t a b

/-- Every address of the list lies above `lo`, rising, and no byte is blank. -/
def Mem.above (lo : Nat) (m : Mem) : Bool :=
  match m with
  | [] => true
  | (k, b) :: t => decide (lo < k) && decide (b ≠ Mem.blank) && Mem.above k t

/-- The canonical form of a memory. -/
def Mem.wf (m : Mem) : Bool :=
  match m with
  | [] => true
  | (k, b) :: t => decide (b ≠ Mem.blank) && Mem.above k t

/-- The little-endian number of `n` bytes from address `a`. -/
def Mem.readN (m : Mem) (a : Nat) : Nat → Nat
  | 0 => 0
  | n + 1 => (Mem.byte m a).toNat + 256 * Mem.readN m (a + 1) n

/-- The memory with the low `n` bytes of `v` stored little-endian from address `a`. -/
def Mem.writeN (m : Mem) (a : Nat) (n : Nat) (v : Nat) : Mem :=
  match n with
  | 0 => m
  | n + 1 => Mem.writeN (Mem.put m a (BitVec.ofNat 8 v)) (a + 1) n (v / 256)

/-- The memory with a list of 32-bit words stored from address `a`. -/
def Mem.writeWords (m : Mem) (a : Nat) : List Nat → Mem
  | [] => m
  | w :: t => Mem.writeWords (Mem.writeN m a 4 w) (a + 4) t

/-- The memory with a list of bytes stored from address `a`. -/
def Mem.writeBytes (m : Mem) (a : Nat) : List Nat → Mem
  | [] => m
  | b :: t => Mem.writeBytes (Mem.put m a (BitVec.ofNat 8 b)) (a + 1) t

/-- `n` words read from address `a`. -/
def Mem.readWords (m : Mem) (a : Nat) : Nat → List Nat
  | 0 => []
  | n + 1 => Mem.readN m a 4 :: Mem.readWords m (a + 4) n

/-- `n` bytes read from address `a`. -/
def Mem.readBytes (m : Mem) (a : Nat) : Nat → List Nat
  | 0 => []
  | n + 1 => (Mem.byte m a).toNat :: Mem.readBytes m (a + 1) n

end Sys2Proof.Machine
end

