-- ==== Sys2Proof/Machine/UnitsCore.lean ====
section
/-! DEFINITION.  State of the platform behind its registers: power, the function cores, locks, mailboxes, the
error controller, the fatal dump and the Cellar Book. -/

namespace Sys2Proof.Machine

/-- The power states of Table 2.1, and the recovery of R357 in which the ROM waits for an image. -/
inductive Power where
  | off | watch | starting | run | shutdown | recovery
  deriving DecidableEq, Repr

/-- How far a start has come: the instants t0 to t4 of Table 2.3 (R33). -/
inductive StartStep where
  | t0 | t1 | t2 | t3 | t4
  deriving DecidableEq, Repr

/-- The causes of RST_CAUSE.CAUSE (Table 2.8). -/
inductive StartCause where
  | powerOn | wake | supReq | activate | fatal | rollback
  deriving DecidableEq, Repr

/-- RST_CAUSE.CAUSE encodings. -/
def StartCause.code : StartCause → Nat
  | .powerOn => 0
  | .wake => 1
  | .supReq => 2
  | .activate => 3
  | .fatal => 4
  | .rollback => 5

/-- One register context of a function core (R45, R46): the registers, the program counter and the fields of
STATUS that belong to the activation. -/
structure Ctx where
  g : Vector Word 32
  f : Vector Word 16
  a : Vector (BitVec 40) 4
  pc : Word
  priv : Bool
  sat : Bool
  ovf : Bool
  fnv : Bool
  fdz : Bool
  fof : Bool
  fuf : Bool
  fnx : Bool
  otrap : Bool
  ftrap : Bool
  deriving DecidableEq, Repr

/-- A context as a core holds it at reset: every register zero, STATUS.PRIV = 1 (Table 3.18). -/
def Ctx.zero : Ctx :=
  ⟨Vector.replicate 32 0, Vector.replicate 16 0, Vector.replicate 4 0, 0, true, false, false, false, false,
   false, false, false, false, false⟩

/-- What a suspended activation waits for (R59, R62, R78). -/
inductive Wait where
  /-- WAITSLOT: destination register, target slot, slots counted so far. -/
  | slot (a : Fin 32) (target elapsed : Nat)
  /-- MRECVW: destination register, mailbox, DTCM address, receive limit. -/
  | recv (a : Fin 32) (mb addr limit : Nat)
  deriving DecidableEq, Repr

/-- One activation of a core (R46, R77): its entry, its context, what it waits for, when that wait began, and
whether that wait ended while another activation executed, so that it goes on only with the next slot of its entry (R78). -/
structure Act where
  entry : Nat
  ctx : Ctx
  wait : Option Wait
  since : Nat
  missed : Bool
  deriving DecidableEq, Repr

/-- A LOCK wait of the executing activation (R61): destination register and lock. -/
structure LockWait where
  a : Fin 32
  lock : Nat
  deriving DecidableEq, Repr

/-- A posted store on its way (R53): class, target address (the fabric address for DRAM), the core address,
width in bytes, data, and the privilege it was issued at. -/
structure Posted where
  cls : Class
  addr : Nat
  ea : Word
  width : Nat
  data : Nat
  sup : Bool
  deriving DecidableEq, Repr

/-- The life of a core identity behind CORE_STAT.STATE (Table 4.6).  IDLE and EXEC are one running life; SPARE is a halted
core whose CORE_CTL.SPARE is 1; PAIRED is the odd core of a lockstep pair. -/
inductive CoreLife where
  | halted | running | failed | migrated
  deriving DecidableEq, Repr

/-- A slot's start or resume that had to wait (R69, R79): the entry, whether it starts, whether it counts as late. -/
structure Owed where
  entry : Nat
  start : Bool
  late : Bool
  deriving DecidableEq, Repr

/-- A function core, by identity (R45, R72, R75 to R83): life, active bank, a swap pending since an instant, the bank
that a VALIDATE in progress checks, a reset that has not reached HALTED; slot and major frames; activations, the one that executes, the idle
context, whether a handler runs in it, whether the executing handler was entered from a suspended activation; a LOCK
wait; starts and resumes owed; further slots begun since an overrun, a SLOT_END to be raised, the core addresses of the posted stores whose bus errors are still to be taken, oldest first; the control registers of
Table 3.18 and the words their reads latch; core cycles; the corrected single-bit errors of its TCMs (R65); posted stores; TCMs. -/
structure Core where
  life : CoreLife
  bank : Fin 2
  swapPend : Bool
  swapAt : Nat
  validating : Option (Fin 2)
  resetting : Bool
  slot : Nat
  frame : Nat
  acts : List Act
  cur : Option Nat
  idle : Ctx
  inIdle : Bool
  guest : Bool
  lockWait : Option LockWait
  owed : List Owed
  overSlots : Option Nat
  slotEnd : Option Nat
  busErr : List Word
  ie : Bool
  exl : Bool
  evpend : Word
  evmask : Word
  vbase : Word
  xstatus : Word
  epc : Word
  ecause : Word
  eval : Word
  scratch0 : Word
  scratch1 : Word
  mtcHi : Word
  cycHi : Word
  cyc : Nat
  tcmCe : Nat
  posted : List Posted
  itcm : Mem
  dtcm : Mem
  deriving DecidableEq, Repr

/-- A core in its reset state (R34): HALTED, TCMs cleared, control registers at the Reset column of Table 3.18. -/
def Core.zero : Core :=
  { life := .halted, bank := 0, swapPend := false, swapAt := 0, validating := none, resetting := false, slot := 0, frame := 0, acts := [],
    cur := none, idle := Ctx.zero, inIdle := false, guest := false, lockWait := none, owed := [], overSlots := none, slotEnd := none, busErr := [],
    ie := false, exl := false, evpend := 0, evmask := 0, vbase := 0, xstatus := 0, epc := 0, ecause := 0,
    eval := 0, scratch0 := 0, scratch1 := 0, mtcHi := 0, cycHi := 0, cyc := 0, tcmCe := 0, posted := [], itcm := [],
    dtcm := [] }

/-- A node of the wait-for graph (R84): an activation of a core identity, or a service core (16 to 19). -/
structure Node where
  req : Nat
  act : Nat
  deriving DecidableEq, Repr

/-- One of the 256 locks (R84, R85); `back` is the instant at which it was last released because an orphan's identity ran
again (Table 4.9). -/
structure Lock where
  holder : Option Node
  waiters : List Node
  orphan : Bool
  back : Option Nat
  deriving DecidableEq, Repr

/-- A free lock. -/
def Lock.free : Lock := ⟨none, [], false, none⟩

/-- A queued message (R62): its sender and its words. -/
structure Msg where
  sender : Nat
  words : List Nat
  deriving DecidableEq, Repr

/-- A reply that a service core could not queue yet (R89): the service core, the mailbox, the words and the
number of frame boundaries at which it was tried again. -/
structure Reply where
  core : Nat
  mb : Nat
  words : List Nat
  tries : Nat
  deriving DecidableEq, Repr

/-- What a migration has copied for the spare (Table 4.3, t1 to t2): the registers of the block, ITCM and DTCM. -/
structure Copied where
  regs : RegMap
  itcm : Mem
  dtcm : Mem
  deriving DecidableEq, Repr

/-- A migration in progress (R82): the failed identity, the spare, and the copy once it has ended. -/
structure Migration where
  core : Fin 16
  spare : Fin 16
  copied : Option Copied
  deriving DecidableEq, Repr

/-- One error on the stack or in the queue of the error controller (R329): source, severity, DETAIL, NODE and the
SEQ of its ERROR record; of a level on the stack, the time that its deadline had run when ARM was last cleared, and the
MTC from which it runs now (R331, R332). -/
structure Err where
  src : Nat
  sev : Nat
  detail : Nat
  node : Nat
  seq : Nat
  ran : Nat
  since : Option Nat
  deriving DecidableEq, Repr

/-- The record types of Table 17.7. -/
inductive RecType where
  | pad | start | error | errDone | holdStart | holdEnd | estop | schedule | core | cbLost | tagWrite | dump
  | mbDrop | shutdown | lockOrphan | loopFault | coefSwap | band | offBandEnter | offBandExit | rtSwitch
  | ainFault | lsRestart | imuFault | camState | camSetFail | pipeTbl | modelSwap | ttCommit | epochDrop
  | fusionLate | sensState | contraEnter | contraExit | mfPolicy | rlConfig | objGen | stripDrop | valveRail
  | valveDuty | valveProt | loadProt | loadUv | loadClamp | timeState | timeStep | rtkSrc | canState | canBusOff
  | ethLink | jfxUnload | dmaHalt
  deriving DecidableEq, Repr

/-- The type codes of Table 17.7. -/
def RecType.code : RecType → Nat
  | .pad => 0x00 | .start => 0x01 | .error => 0x02 | .errDone => 0x03 | .holdStart => 0x04 | .holdEnd => 0x05
  | .estop => 0x06 | .schedule => 0x07 | .core => 0x08 | .cbLost => 0x09 | .tagWrite => 0x0A | .dump => 0x0B
  | .mbDrop => 0x0C | .shutdown => 0x0D | .lockOrphan => 0x0E
  | .loopFault => 0x10 | .coefSwap => 0x11 | .band => 0x12 | .offBandEnter => 0x13 | .offBandExit => 0x14
  | .rtSwitch => 0x15
  | .ainFault => 0x20 | .lsRestart => 0x21 | .imuFault => 0x22 | .camState => 0x23 | .camSetFail => 0x24
  | .pipeTbl => 0x25
  | .modelSwap => 0x30 | .ttCommit => 0x31 | .epochDrop => 0x32 | .fusionLate => 0x33 | .sensState => 0x34
  | .contraEnter => 0x35 | .contraExit => 0x36
  | .mfPolicy => 0x40 | .rlConfig => 0x41 | .objGen => 0x42 | .stripDrop => 0x43
  | .valveRail => 0x50 | .valveDuty => 0x51 | .valveProt => 0x52 | .loadProt => 0x53 | .loadUv => 0x54
  | .loadClamp => 0x55
  | .timeState => 0x60 | .timeStep => 0x61 | .rtkSrc => 0x62
  | .canState => 0x70 | .canBusOff => 0x71 | .ethLink => 0x72 | .jfxUnload => 0x73
  | .dmaHalt => 0x80

/-- A Cellar Book record (R336) with its place in the ring: lap GEN and byte offset (R335). -/
structure Rec where
  gen : Nat
  ofs : Nat
  len : Nat
  type : RecType
  code : Nat
  seq : Nat
  mtc : Nat
  node : Nat
  items : List Nat
  deriving DecidableEq, Repr

/-- The Cellar Book behind its window (R335 to R338): the records in the ring, newest first; the records in
the backing, newest first; where the ring is reserved to; the next SEQ; and the two numbers of the backing's
header.  `flushed` is the next SEQ to copy. -/
structure Book where
  ring : List Rec
  backing : List Rec
  ofs : Nat
  gen : Nat
  seq : Nat
  flushed : Nat
  powerUps : Nat
  firstSeq : Nat
  written : Bool
  deriving DecidableEq, Repr

/-- A fatal sequence in progress (R333): its cause and DETAIL, the SEQ of its record, its instant and
time-validity code, whether a further FATAL came, the errors held at that instant, whether it runs inside
SHUTDOWN (R388), and HELD and UNSEALED of its onset (Table 2.8). -/
structure Fatal where
  cause : Nat
  detail : Nat
  seq : Nat
  mtc : Nat
  code : Nat
  second : Bool
  stack : List Err
  queue : List Err
  inShutdown : Bool
  held : Bool
  unsealed : Bool
  deriving DecidableEq, Repr

/-- A dump slot's content (R334): the header fields, how many of the five sections are written, the words of the CORES and REGS sections, the DTCM of Table 17.4
and the Cellar Book ring, as they stood when the dump was written. -/
structure Dump where
  seq : Nat
  fatal : Fatal
  powerUps : Nat
  complete : Bool
  sections : Nat
  cores : List Nat
  regs : List Nat
  dtcm : Mem
  ring : List Rec
  deriving DecidableEq, Repr

/-- The error controller behind its registers (R329): the stack, top first, and the queue, head first; the
fatal sequence in progress; the four dump slots; the last DUMP_SEQ used; whether the last dump still waits for
its DUMP record. -/
structure Errs where
  stack : List Err
  queue : List Err
  fatal : Option Fatal
  dumps : Vector (Option Dump) 4
  dumpSeq : Nat
  dumpNew : Option (Fin 4)
  deriving DecidableEq, Repr

/-- The wake that began last (R32): its instant, the level of the WAKE line that counts (none: not enabled) and the controller
that wakes (none: not enabled), by which a further source of the same TCXO cycle is judged. -/
structure Woken where
  mtc : Nat
  line : Option Bool
  can : Option Nat
  deriving DecidableEq, Repr

/-- The platform behind its registers: power state and start in progress, its cause, KEYOFF_LIMIT running, a snapshot of
WATCH in progress; the level of the ESTOP loop, whether it opened in the test pulse in progress, whether it was found fed from elsewhere, a test pulse in progress, consecutive test pulses passed
(R369); whether the plate's PLATE_HOT condition stands (R370); whether the service firmware runs, and the service cores that have stopped (R388); migrations in
progress (R82), the replies to be retried (R89); the role J5 has taken (true: device role, a host is attached), whether that
attachment stood at the entry to WATCH, the last wake (R32), the MTC of the entry to WATCH and of its last snapshot (R230); the next frame and slot of the grid. -/
structure Platform where
  power : Power
  step : StartStep
  cause : StartCause
  keyOff : Bool
  keyOffAt : Nat
  snapshot : Bool
  loopClosed : Bool
  loopOpening : Bool
  estopFed : Bool
  estopTest : Bool
  estopPass : Nat
  plateHot : Bool
  serviceUp : Bool
  svcStopped : List Nat
  migrations : List Migration
  replies : List Reply
  usb : Option Bool
  usbStood : Bool
  woken : Option Woken
  watchFrom : Nat
  snapAt : Nat
  frameNext : Nat
  slotNext : Nat
  deriving DecidableEq, Repr

end Sys2Proof.Machine
end

