-- ==== Sys2Proof/Machine/UnitsFab.lean ====
section
/-! DEFINITION.  State of the Decanter behind its registers (R314 to R322). -/

namespace Sys2Proof.Machine

/-- A descriptor as the channel fetched it (Table 16.3), with the doorbell count latched at the fetch. -/
structure DcDesc where
  op : Nat
  stop : Bool
  ev : Bool
  src : Nat
  dst : Nat
  const : Nat
  len : Nat
  next : Nat
  db : Nat
  deriving DecidableEq, Repr

/-- A Decanter channel behind its registers: the descriptor in progress, bytes moved of it, STATUS and RESULT to be
written back, write-backs tried, STOP waiting for the write-back to end, and until when its rate makes it pause, in CLK_FAB
cycles. -/
structure Dc where
  desc : Option DcDesc
  moved : Nat
  status : Nat
  result : Nat
  tries : Nat
  stopping : Bool
  until_ : Nat
  deriving DecidableEq, Repr

def Dc.zero : Dc := ⟨none, 0, 0, 0, 0, false, 0⟩

/-- A channel with no descriptor in progress; a pause of its rate goes on. -/
def Dc.rest (d : Dc) : Dc := { Dc.zero with until_ := d.until_ }

/-- The Decanter: its channels, the channel on each mover, and the channels last taken in the two round robins (HI, then
normal); with them the start of the arbiter's last credit window, in CLK_FAB cycles (R309). -/
structure Decanter where
  ch : Vector Dc 32
  movers : Vector (Option (Fin 32)) 2
  lastHi : Nat
  lastLo : Nat
  window : Option Nat
  deriving DecidableEq, Repr

def Decanter.zero : Decanter := ⟨Vector.replicate 32 Dc.zero, Vector.replicate 2 none, 31, 31, none⟩

end Sys2Proof.Machine
end

