-- ==== Sys2Proof/Machine/UnitsFlow.lean ====
section
/-! DEFINITION.  State of the Racking Line and the machine functions behind their registers (R172 to R185). -/

namespace Sys2Proof.Machine

/-- One row of the ground profile (R178): row sum, counted columns, substituted cells, CONTRA. -/
structure RlRow where
  mass : Nat
  cols : Nat
  subst : Nat
  contra : Bool
  deriving DecidableEq, Repr

/-- The ground profile: the grid's epoch, ACQ, T_ref and header geometry generation, the travel at T_ref, the rows. -/
structure RlProfile where
  epoch : Nat
  acq : Nat
  tref : Nat
  hgGen : Nat
  cref : Int
  rows : List RlRow
  deriving DecidableEq, Repr

/-- What one attribution channel has given a packet: Σ share × value, Σ share, FLT, anything attributed. -/
structure RlShare where
  sum : Frac
  share : Frac
  flt : Bool
  some_ : Bool
  deriving DecidableEq, Repr

def RlShare.zero : RlShare := ⟨⟨0, 1⟩, ⟨0, 1⟩, false, false⟩

/-- A packet (R177, R179, R185): its strip record so far, its place, the boundaries since it left the line, where it
stood at the last 33 boundaries (stage and position, newest first), and its attribution channels. -/
structure Packet where
  strip : Nat
  cut : Nat
  row : RlRow
  age : Nat
  horizon : Bool
  nogrid : Bool
  epoch : Nat
  rlGen : Nat
  objGen : Nat
  hgGen : Nat
  stage : Nat
  pos : Nat
  exit : Option Nat
  gone : Nat
  hist : List (Nat × Nat)
  att : List RlShare
  deriving DecidableEq, Repr

/-- A past boundary: its MTC and the advance of each stage (index 0 to 7). -/
structure RlPast where
  mtc : Nat
  adv : List Nat
  deriving DecidableEq, Repr

/-- A tap's result (R181): VAL, COVER and TAP_INFO. -/
structure TapRes where
  val : Nat
  cover : Nat
  info : Nat
  deriving DecidableEq, Repr

/-- A machine function behind its registers: running, ffu, and the previous outputs. -/
structure Mf where
  on : Bool
  ffu : Int
  sp : Int
  ff : Int
  deriving DecidableEq, Repr

/-- A committed measurement input (R176): a value has been committed, and its MTC. -/
structure Mi where
  ok : Bool
  mtc : Nat
  deriving DecidableEq, Repr

/-- A value that an AIN channel or a measurement input has given since the last boundary (R176, R182): the channel or input,
its acquisition MTC, value and FLT. -/
structure RlNew where
  src : Nat
  mtc : Nat
  val : Int
  flt : Bool
  deriving DecidableEq, Repr

/-- The registers of the line that are read between two boundaries, as the last boundary left them (R180): C_USE, EDGE_EN,
EDGE_MIN, NOMCELL, RL_EVMASK, STRIP_BASE, LOG2N and EV. -/
structure RlCfg where
  cUse : Nat
  edgeEn : Bool
  edgeMin : Nat
  nomcell : Nat
  evmask : Nat
  base : Nat
  log2n : Nat
  ev : Bool
  deriving DecidableEq, Repr

/-- The Reset columns of Table 9.7. -/
def RlCfg.zero : RlCfg := ⟨64, false, 64, 0, 0, 0, 10, false⟩

/-- The Racking Line: running, the configuration in force, a register written since the last boundary, speeds last read, reverse debt in units,
whole strips passed since EN, the travel positions of the last 256 boundaries (newest first), the last 33 boundaries,
packets (oldest first), the profile, the last acquisition MTC and value of each attribution channel and its FLT, the
first record carries RESTART, objective words seen, measurement inputs, the values they and the AIN channels have given since
the last boundary (oldest first), functions, outputs that wait for B + 200 µs,
strip records that wait with them, and when the last record was written to the ring. -/
structure Racking where
  on : Bool
  cfg : RlCfg
  dirty : Bool
  v : Int
  x : List Int
  debt : Nat
  strips : Nat
  travel : List (Nat × Int)
  past : List RlPast
  packets : List Packet
  profile : Option RlProfile
  atLast : List (Nat × Int × Bool)
  restart : Bool
  objSeen : List Nat
  mi : Vector Mi 8
  newMi : List RlNew
  newAin : List RlNew
  mf : Vector Mf 32
  taps : List TapRes
  ready : List (List Nat)
  written : Nat
  deriving DecidableEq, Repr

def Racking.zero : Racking :=
  { on := false, cfg := .zero, dirty := false, v := 0, x := List.replicate 8 0, debt := 0, strips := 0, travel := [], past := []
    packets := [], profile := none, atLast := List.replicate 16 (0, 0, false), restart := true
    objSeen := List.replicate 8 0x7FFF, mi := Vector.replicate 8 ⟨false, 0⟩, newMi := [], newAin := []
    mf := Vector.replicate 32 ⟨false, 0, 0, 0⟩, taps := [], ready := [], written := 0 }

end Sys2Proof.Machine
end

