-- ==== Sys2Proof/Machine/UnitsFusion.lean ====
section
/-! DEFINITION.  State of Cuvee behind its registers (R147 to R167). -/

namespace Sys2Proof.Machine

/-- A cell of the ground grid (R152): 64 features, confidence, state code, contributor mask. -/
structure GridCell where
  feats : List Int
  conf : Nat
  st : Nat
  mask : Nat
  deriving DecidableEq, Repr

/-- A cell without information: UNSEEN, c = 0, every feature 0. -/
def GridCell.unseen : GridCell := ⟨List.replicate 64 0, 0, 3, 0⟩

/-- One contribution of an object to a grid cell: m, and a value for each grid channel it writes. -/
structure CvPart where
  cell : Nat
  m : Nat
  feats : List (Nat × Int)
  deriving DecidableEq, Repr

/-- A point of a lidar block (Table 15.2): position in 2 mm in the sensor frame, intensity, ns after the block's first point. -/
structure LidarPoint where
  x : Int
  y : Int
  z : Int
  intensity : Nat
  tofs : Nat
  deriving DecidableEq, Repr

/-- One cell of a lidar raster (R153): maximum height in m, count and mean intensity of its points. -/
structure RasterCell where
  cell : Nat
  height : Frac
  count : Nat
  mean : Nat
  deriving DecidableEq, Repr

/-- An object taken by Cuvee (R148): its sensor, the model slot and the state (STATE, REASON) of the sensor at its arrival,
epoch, acquisition and arrival, the image's size and scale, its valid lines, LINE_T, generations and flags (bit order of Table
8.5), the points of a lidar block, the frame slot it holds, whether its model has run, the model's output, and, once it is
handed to Trellis, what it contributes. -/
structure CvObj where
  sensor : Nat
  model : Nat
  st : Nat × Nat
  epoch : Nat
  acq : Nat
  arrival : Nat
  width : Nat
  height : Nat
  scale : Nat
  valid : Nat
  lineT : Nat
  frameGen : Nat
  tblGen : Nat
  flags : Nat
  points : List LidarPoint
  hold : Option (Nat × Nat)
  usable : Bool
  done : Bool
  out : List FeatCell
  parts : List CvPart
  deriving DecidableEq, Repr

/-- An epoch that is neither published nor dropped: number, objects, MTC of release (none: open), sensor states at the
release (STATE, REASON), sensors masked once the dropouts of the release are decided, a late object came, sensors that lost a
frame, the rasters on which the lidar models ran, by sensor. -/
structure CvEpoch where
  k : Nat
  objs : List CvObj
  released : Option Nat
  rel : List (Nat × Nat)
  masked : Nat
  lateIn : Bool
  lost : Nat
  rasters : List (Nat × List RasterCell)
  deriving DecidableEq, Repr

/-- A sensor slot behind SENS_STAT: consecutive good and bad evaluations, epochs with objects since the state was
entered, the latest acquisition MTC, the FSEQ or BSEQ of the object last seen. -/
structure CvSensor where
  good : Nat
  bad : Nat
  deliv : Nat
  last : Nat
  seen : Option Nat
  deriving DecidableEq, Repr

/-- The run counts of a pair of sensors (R165). -/
structure CvPair where
  a : Nat
  b : Nat
  up : Nat
  down : Nat
  contra : Bool
  deriving DecidableEq, Repr

/-- A model of a slot (Table 8.1) and its first epoch. -/
structure CvModel where
  start : Nat
  gen : Nat
  addr : Nat
  kind : Nat
  outW : Nat
  outH : Nat
  outCh : Nat
  confCh : Nat
  ch0 : Nat
  sram : Nat
  deriving DecidableEq, Repr

/-- A generation of a transform table or of the header geometry (R155): GEN, first epoch, words. -/
structure CvTable where
  gen : Nat
  start : Nat
  words : List Nat
  deriving DecidableEq, Repr

/-- What the header of the last published grid says: epoch, ACQ, T_ref, the header geometry generation and words. -/
structure CvPub where
  epoch : Nat
  acq : Nat
  tref : Nat
  hgGen : Nat
  hgWords : List Nat
  deriving DecidableEq, Repr

/-- Cuvee: epochs in order, the next epoch to release, the spans of epochs that were never released because fusion was off
(from, to; newest first), late objects whose model has still to run, revisions handed to
Trellis, the carried grid (cells that are not unseen, rising), the T_ref of the last published grid, the travel not yet
shifted (m), the motion pairs (MTC, speed, yaw rate; newest first), a motion read failed since the last publication,
the sensors, the pairs, the models of each slot (newest first), the tables of each sensor and the header geometry
(newest first), the last published grid's header. -/
structure Cuvee where
  epochs : List CvEpoch
  next : Nat
  skipped : List (Nat × Nat)
  late : List CvObj
  revs : List CvObj
  grid : List (Nat × GridCell)
  tref : Option Nat
  acc : Frac
  motion : List (Nat × Int × Int)
  motionErr : Bool
  sensors : Vector CvSensor 16
  pairs : List CvPair
  models : Vector (List CvModel) 16
  tt : Vector (List CvTable) 16
  hg : List CvTable
  pub : Option CvPub
  deriving DecidableEq, Repr

/-- Cuvee at reset: no epoch, the tables at their reset words under generation 0. -/
def Cuvee.zero : Cuvee :=
  { epochs := [], next := 0, skipped := [], late := [], revs := [], grid := [], tref := none, acc := ⟨0, 1⟩, motion := []
    motionErr := false, sensors := Vector.replicate 16 ⟨0, 0, 0, 0, none⟩, pairs := [], models := Vector.replicate 16 []
    tt := Vector.replicate 16 [⟨0, 0, (List.range 21).map fun j => if j = 9 ∨ j = 13 ∨ j = 17 then 0x3F800000 else 0⟩]
    hg := [⟨0, 0, [0, 0, 0, 0]⟩], pub := none }

end Sys2Proof.Machine
end

