-- ==== Sys2Proof/Machine/UnitsLoop.lean ====
section
/-! DEFINITION.  State of the loop units behind their registers (R92 to R108). -/

namespace Sys2Proof.Machine

/-- The words that the reads of a sample returned (R95, R99, R103): none where no read was made or the read ended in a bus
error, which `err` says of any of them. -/
structure LoopBack where
  input : Option Nat
  stamp : Option Nat
  theta : Option Nat
  err : Bool
  deriving DecidableEq, Repr

/-- A sample in progress (Table 5.1): its trigger instant; whether it takes a coefficient switch or an integrator load,
both requested before the trigger (R98, R100); whether it is the first since EN; the band, setpoint and feedforward latched
for it (R95, R101); the words of its reads, once they have returned; the output word, once it is computed. -/
structure LoopSample where
  t0 : Nat
  swap : Bool
  load : Bool
  first : Bool
  band : Nat
  sp : Int
  ff : Int
  back : Option LoopBack
  out : Option Nat
  deriving DecidableEq, Repr

/-- A control loop behind its registers: filtered derivative, previous input and output, the next sample is the first
since EN, the stamp word and θ of the previous sample, the last use of a table was off-band (none: no table used yet),
the sample in progress, an output write that will return a bus error, stopped by a core failure. -/
structure Loop where
  df : Int
  xp : Int
  up : Int
  first : Bool
  stamp : Option Nat
  theta : Option Nat
  off : Option Bool
  cur : Option LoopSample
  failing : Bool
  stopped : Bool
  deriving DecidableEq, Repr

def Loop.zero : Loop := ⟨0, 0, 0, true, none, none, none, none, false, false⟩

/-- A repetitive table: the entries that are not zero of the active and of the shadow copy, the length in force, the
trigger instants of the samples that last learned into it and that last counted a revolution for it. -/
structure RepTable where
  active : RegMap
  shadow : RegMap
  len : Nat
  learned : Option Nat
  turned : Option Nat
  deriving DecidableEq, Repr

def RepTable.zero : RepTable := ⟨[], [], 0, none, none⟩

/-- The loop unit of a physical core: its loops and tables, the words of the trace ring that are not zero, the trace
SEQ, words written since ARM, words written from the trigger record on, the trigger asserted and waiting for its record,
the last value of the trigger node, the last candidate of the band detector. -/
structure LoopUnit where
  loops : Vector Loop 8
  tabs : Vector RepTable 8
  ring : RegMap
  seq : Nat
  words : Nat
  after : Nat
  trig : Bool
  node : Option Int
  last : Nat
  deriving DecidableEq, Repr

def LoopUnit.zero : LoopUnit :=
  ⟨Vector.replicate 8 Loop.zero, Vector.replicate 8 RepTable.zero, [], 0, 0, 0, false, none, 0⟩

end Sys2Proof.Machine
end

