-- ==== Sys2Proof/Machine/UnitsNet.lean ====
section
/-! DEFINITION.  State of the switch, the streams and the fleet service behind their registers (R282 to R301). -/

namespace Sys2Proof.Machine

/-- A learned MAC entry (R283): VLAN, address, port, last seen. -/
structure MacEntry where
  vid : Nat
  mac : Nat
  port : Nat
  last : Nat
  deriving DecidableEq, Repr

/-- A lidar block in assembly or closed (R288): BLOCK, T0, fragments received, the LAST fragment, the points (words) in
arrival order, repeats, points over the limit, the MTC of its latest packet. -/
structure StrBlock where
  block : Nat
  t0 : Nat
  frags : List Nat
  last : Option Nat
  points : List (Nat × Nat × Nat)
  dup : Bool
  ovf : Bool
  mtc : Nat
  deriving DecidableEq, Repr

/-- A stream: the open block, and closed blocks to be written, oldest first. -/
structure Str where
  cur : Option StrBlock
  closed : List StrBlock
  deriving DecidableEq, Repr

/-- The switch: the learned entries; until when each port sends what it holds, in tenths of a tick; the last Sync sent in
each domain: domain, time, clockClass; when the peer delay of each port was last measured; ETH_CFG of a port as it stood before
a recent write (port, instant of the write, word), newest first; the last 32 frames sent (port, MTC, bytes without FCS), newest
first; the streams. -/
structure Switch where
  macs : List MacEntry
  until_ : Vector Nat 10
  sync : List (Nat × Int × Nat)
  pdelay : Vector (Option Nat) 10
  cfgWas : List (Nat × Nat × Nat)
  out : List (Nat × Nat × List Nat)
  strs : Vector Str 16
  deriving DecidableEq, Repr

def Switch.zero : Switch :=
  { macs := [], until_ := Vector.replicate 10 0, sync := [], pdelay := Vector.replicate 10 none, cfgWas := [], out := [], strs := Vector.replicate 16 ⟨none, []⟩ }

/-- A peer in the known table (R293): member ID, CLASS, field, whether ACTIVE, its SESSION, the newest SEQ, the 64-message
window behind it as a mask, and when it was heard last. -/
structure Peer where
  id : Nat
  cls : Nat
  field : Nat
  active : Bool
  session : Nat
  top : Nat
  window : Nat
  last : Nat
  deriving DecidableEq, Repr

/-- An admission in progress (R292): member ID, SESSION and CLASS and field of its HELLO, NA, the instant of the CHALLENGE. -/
structure Admit where
  id : Nat
  session : Nat
  cls : Nat
  field : Nat
  na : Nat
  at_ : Nat
  deriving DecidableEq, Repr

/-- An unload dialog (R297): its number, the other side once known, the last STATE from it. -/
structure Dialog where
  no : Nat
  peer : Option Nat
  last : Nat
  deriving DecidableEq, Repr

/-- A tile in reassembly (R296): sender, the instant of its first fragment, and the fragments so far. -/
structure TilePart where
  sender : Nat
  at_ : Nat
  frags : List TileFrag
  deriving DecidableEq, Repr

/-- A snapshot on its way to the server (R298): capture index, words of the capture, the window, its last SEQ, retries. -/
structure SnapTx where
  index : Nat
  words : List Nat
  window : Nat
  seq : Nat
  tries : Nat
  deriving DecidableEq, Repr

/-- A message the fleet service sent: TYPE, DEST, SEQ, ACKREQ, payload words as far as the specification gives them. -/
structure JfxOut where
  type : Nat
  dest : Nat
  seq : Nat
  ackreq : Bool
  payload : List Nat
  deriving DecidableEq, Repr

/-- The fleet service: running, CLASS, notify mailbox, HELLO_T and AGE_T in s, SESSION, the next SEQ; known peers,
admissions, failed admissions (ID, MTC), 60 s blocks (ID, until), blocked IDs; dialogs; tiles in reassembly, the last
TILE_SEQ offered; RELAY_EN, HOP_MAX, corrections seen (SOURCE, CRC-24Q, MTC); the server, captures so far, the snapshot
in transfer; the last AUTH_FAIL report of each sender; a WATCH_POS to be sent; messages that wait for their ACK; the
messages sent, newest first; the last HELLO and the last STATE; the known table as it stands in flash. -/
structure Fleet where
  on : Bool
  cls : Nat
  notify : Nat
  helloT : Nat
  ageT : Nat
  session : Nat
  seq : Nat
  peers : List Peer
  admits : List Admit
  fails : List (Nat × Nat)
  banned : List (Nat × Nat)
  blocked : List Nat
  dialogs : List Dialog
  parts : List TilePart
  tileSeq : Nat
  relay : Bool
  hopMax : Nat
  seen : List (Nat × Nat × Nat)
  server : Option Nat
  captures : Nat
  snap : Option SnapTx
  authAt : List (Nat × Nat)
  watchDue : Bool
  acks : List (Nat × SvcWait)
  sent : List JfxOut
  helloAt : Option Nat
  stateAt : Option Nat
  saved : List Peer
  deriving DecidableEq, Repr

def Fleet.zero : Fleet :=
  { on := false, cls := 0, notify := 0, helloT := 1, ageT := 3, session := 0, seq := 0, peers := [], admits := [], fails := []
    banned := [], blocked := [], dialogs := [], parts := [], tileSeq := 0, relay := false, hopMax := 1, seen := []
    server := none, captures := 0, snap := none, authAt := [], watchDue := false, acks := [], sent := [], helloAt := none, stateAt := none
    saved := [] }

end Sys2Proof.Machine
end

