-- ==== Sys2Proof/Machine/UnitsSense.lean ====
section
/-! DEFINITION.  State of the sensing domain behind its registers: analog and frequency inputs (R113 to R117),
loss plates (R119 to R122) and the IMU (R123). -/

namespace Sys2Proof.Machine

/-- One fault of Table 6.2: active, and the run of conversions that contradict that (R117). -/
structure FaultRun where
  active : Bool
  run : Nat
  deriving DecidableEq, Repr

/-- What a conversion has made for the write 1 µs before the slot (R113): RATE and PHASE, and the fields of the output: FLT, VAL
(none while HOLD keeps it), the acquisition MTC, the angle of a FREQ or QUAD channel.  A later write of the configuration does
not reach it (R17, R126). -/
structure AinOut where
  rate : Nat
  phase : Nat
  flt : Bool
  val : Option Int
  acq : Nat
  angle : Option Nat
  deriving DecidableEq, Repr

/-- An AIN channel: the filter state y (40 bits), whether the next conversion loads it, the acquisition MTC of the
value, the faults in AIN_STAT order, the shunt disconnected, the tooth count, the edges newest first (at most 16),
the edges since a timeout and since the index, the direction, the conversion that waits to be written. -/
structure Ain where
  y : Int
  load : Bool
  acq : Nat
  faults : Vector FaultRun 6
  shuntOff : Bool
  cnt : Nat
  edges : List Nat
  sinceTmo : Nat
  sinceIdx : Nat
  reverse : Bool
  out : Option AinOut
  deriving DecidableEq, Repr

def Ain.zero : Ain := ⟨0, true, 0, Vector.replicate 6 ⟨false, 0⟩, false, 0, [], 0, 0, false, none⟩

/-- The states of the impact classifier (R120). -/
inductive LsState where
  | idle | inside | dead
  deriving DecidableEq, Repr

/-- A loss-plate bin (R121): its span, its counts, its flags and its sequence number. -/
structure LsBin where
  start : Nat
  stop : Nat
  closed : Bool
  grain : Nat
  mog : Nat
  rej : Nat
  flt : Bool
  trunc : Bool
  seq : Nat
  deriving DecidableEq, Repr

/-- A loss-plate channel: the classifier, the state of the high-pass, the run of samples at CLIP, the instant of the last onset
(of the enable, before the first), the end of an open-test pulse, the response of an open test that waits for the classifier,
bins not delivered (oldest first), the FIFO (oldest first), a restart requested. -/
structure Ls where
  st : LsState
  start : Nat
  peak : Nat
  n : Nat
  q : Nat
  d : Nat
  hp : Int
  clipRun : Nat
  heard : Nat
  pulse : Nat
  test : Option Nat
  bins : List LsBin
  fifo : List LsBin
  restart : Bool
  deriving DecidableEq, Repr

def Ls.zero : Ls := ⟨.idle, 0, 0, 0, 0, 0, 0, 0, 0, 0, none, [], [], false⟩

/-- The IMU: the run of identical values of each axis, and the last value. -/
structure Imu where
  runs : Vector Nat 6
  last : Vector Int 6
  deriving DecidableEq, Repr

def Imu.zero : Imu := ⟨Vector.replicate 6 0, Vector.replicate 6 0⟩

end Sys2Proof.Machine
end

