-- ==== Sys2Proof/Machine/UnitsTrellis.lean ====
section
/-! DEFINITION.  State of Trellis behind its registers (R242 to R259). -/

namespace Sys2Proof.Machine

/-- The key of a cell: layer, and cell (i, j) with each coordinate moved up by 32,768. -/
def cellKey (layer : Nat) (i j : Int) : Nat := (layer * 65536 + (i + 32768).toNat) * 65536 + (j + 32768).toNat

/-- The tile of a cell key: layer, then (i >> 8, j >> 8) moved up by 128. -/
def tileOf (key : Nat) : Nat := key / 65536 / 256 * 256 + key % 65536 / 256

/-- A session of a field (R243): number, start MTC, first Cellar Book SEQ of its power-up, and its TIME_STATE and
TIME_STEP records (type code, MTC, items), newest first. -/
structure TlSession where
  no : Nat
  start : Nat
  firstSeq : Nat
  times : List (Nat × Nat × List Nat)
  deriving DecidableEq, Repr

/-- A field of the index: identifier, EDGE, LAYERS, origin, the flushed cells and the tiles in the backing, the sessions,
newest first. -/
structure TlField where
  id : Nat
  edge : Nat
  layers : Nat
  lat : Int
  lon : Int
  height : Int
  cells : RegMap
  tiles : List Nat
  sessions : List TlSession
  deriving DecidableEq, Repr

/-- A strip record as the service read it: its 32 words. -/
structure TlStrip where
  no : Nat
  cut : Nat
  words : List Nat
  placed : Bool
  deriving DecidableEq, Repr

/-- A flush in progress (R244): its field, its start, the tiles and what they held. -/
structure TlFlush where
  field : Nat
  start : Nat
  tiles : List Nat
  cells : RegMap
  deriving DecidableEq, Repr

/-- A COVER tile from a peer, complete (R256, R296): field, origin, EDGE, tile (i, j), and for each cell OWN and
APPLIED. -/
structure PeerTile where
  field : Nat
  lat : Int
  lon : Int
  edge : Nat
  i : Int
  j : Int
  cells : List (Nat × Nat)
  deriving DecidableEq, Repr

/-- A section behind its registers: a command write that waits for B + 300 µs, and the changes of its state (instant,
on), newest first. -/
structure Section where
  write : Bool
  changes : List (Nat × Bool)
  deriving DecidableEq, Repr

/-- Trellis: the index of fields; the field in the DRAM cache, its cells, its tiles in the DRAM cache, its allocated and its dirty
tiles; the close of a field in DRAIN; strips read, newest first; header geometry generations, newest first; flow less
mapped mass of the session in 0.1 g; a flush, and requests that wait for one (those it serves, and those that came
after its start), requests to close; peer tiles complete; own COVER tiles changed; the last offer, and the tiles to
load; the sections. -/
structure Trellis where
  fields : List TlField
  cur : Nat
  cells : RegMap
  cached : List Nat
  tiles : List Nat
  dirty : List Nat
  closed : Option Nat
  strips : List TlStrip
  hgs : List (Nat × List Nat)
  gap : Int
  flush : Option TlFlush
  served : List (SvcWait × Nat)
  waiting : List (SvcWait × Nat)
  closing : List SvcWait
  peer : List PeerTile
  cover : List Nat
  offered : Option Nat
  load : List Nat
  sections : Vector Section 64
  deriving DecidableEq, Repr

def Trellis.zero : Trellis :=
  { fields := [], cur := 0, cells := [], cached := [], tiles := [], dirty := [], closed := none, strips := []
    hgs := [(0, [0, 0, 0, 0])], gap := 0, flush := none, served := [], waiting := [], closing := [], peer := []
    cover := [], offered := none, load := [], sections := Vector.replicate 64 ⟨false, []⟩ }

end Sys2Proof.Machine
end

