-- ==== Sys2Proof/Machine/UnitsUpd.lean ====
section
/-! DEFINITION.  State of the update manager and the service port behind their registers (R344 to R359). -/

namespace Sys2Proof.Machine

/-- A part of a software set (Table 18.2) with its content, byte by byte. -/
structure SetPart where
  kind : Nat
  target : Nat
  gen : Nat
  data : List Nat
  deriving DecidableEq, Repr

/-- A software set: SET_ID, SETTINGS_FMT, parts. -/
structure SoftSet where
  id : Nat
  fmt : Nat
  parts : List SetPart
  deriving DecidableEq, Repr

/-- An activation in progress (R351, R352): whether it is FULL, its S or onset, and the switches of step 4 written. -/
structure Activation where
  full : Bool
  at_ : Nat
  switched : Bool
  deriving DecidableEq, Repr

/-- A service session (R358): WRITE, over Ethernet, the nonce given out, the MTC of its last frame. -/
structure Session where
  write : Bool
  eth : Bool
  nonce : Option Nat
  last : Nat
  deriving DecidableEq, Repr

/-- A part that the service firmware placed in DRAM: the part and its fabric address. -/
structure Placed where
  part : SetPart
  addr : Nat
  deriving DecidableEq, Repr

/-- The update manager: who owns the update (a requester number; 87 the service port), the request that waits for its
final reply, the blocks in staging by index, the set verified in staging, what the boot slots hold, the active slot,
TRIAL and TRIES of the boot record, the activation in progress, a set composed for the background copy, the two settings
partitions (by boot slot: format and bytes), the key slot (64 bytes; none: the release key) and its lock, activations
and rollbacks over the module's life, the parts placed at the last start, the session, and
the last replies sent over the service port (opcode, STATUS, TAG, results), newest first. -/
structure Update where
  owner : Option Nat
  wait : Option SvcWait
  staging : List (Nat × List Nat)
  staged : Option SoftSet
  slots : Vector (Option SoftSet) 2
  slot : Fin 2
  trial : Bool
  tries : Nat
  act : Option Activation
  copy : Option SoftSet
  settings : Vector (Nat × List Nat) 2
  key : Option (List Nat)
  locked : Bool
  placed : List Placed
  session : Option Session
  sent : List (Nat × Nat × Nat × List Nat)
  deriving DecidableEq, Repr

end Sys2Proof.Machine
end

