-- ==== Sys2Proof/Machine/State.lean ====
section
/-! DEFINITION. -/

namespace Sys2Proof.Machine

/-- No command of this block ends in a fault: every command of the table has an effect, or none. -/
inductive Fault where
  /-- No unit raises it. -/
  | none
  deriving DecidableEq, Repr

/-- No command of this block is refused by its meaning. -/
inductive Refusal where
  /-- A command without a meaning.  No arm of `exec` answers it. -/
  | notModelled (mnemonic : String)
  deriving DecidableEq, Repr

/-- The state of the module.  `regs` holds every register of the peripheral window that is neither at its Reset value nor
a view of another field; the other fields hold what stands behind the registers.  `free` counts the uses of free values
(the model's own), `ticket` numbers what waits in order of arrival. -/
structure State where
  /-- The registers (Registers.lean): the fields of all 1,500 or so registers that differ from their Reset values. -/
  regs : RegMap
  /-- The machine time counter, in ticks of 5 ns (R20, R21). -/
  mtc : Nat
  /-- The model's own counter of free values. -/
  free : Nat
  /-- Arrival numbers of waits. -/
  ticket : Nat
  /-- Power states, starts, inputs of the platform (chapter Power). -/
  plat : Platform
  /-- The error controller (chapter Error controller). -/
  errs : Errs
  /-- The Cellar Book. -/
  book : Book
  /-- The function cores FC0 to FC15, by identity. -/
  cores : Vector Core 16
  /-- The loop units of the identities. -/
  loops : Vector LoopUnit 16
  /-- The hardware locks. -/
  locks : Vector Lock 256
  /-- The messages queued in the mailboxes. -/
  mbox : Vector (List Msg) 64
  /-- Valve channels VD0 to VD31 and their banks. -/
  valves : Vector Valve 32
  banks : Vector Bank 8
  /-- Load channels LC0 to LC47. -/
  loads : Vector Load 48
  /-- Analog and frequency inputs, grain-loss plates, the plates' bins of the present frame, the IMU. -/
  ain : Vector Ain 40
  ls : Vector Ls 16
  newBins : List (Nat × LsBin)
  imu : Imu
  /-- Camera ports with their pipes. -/
  cams : Vector Cam 10
  /-- Cuvee. -/
  cuvee : Cuvee
  /-- The Racking Line and the machine functions. -/
  racking : Racking
  /-- GNSS channels, the positioning service, the time unit, changes of the time-validity code (newest first). -/
  gc : Vector Gc 96
  pos : Pos
  time : TimeUnit
  codes : List (Nat × Nat)
  /-- Trellis and the section engine. -/
  trellis : Trellis
  /-- CAN controllers, ISOBUS networks, the tag area. -/
  can : Vector Can 8
  nets : Vector (Option Net) 4
  tags : TagArea
  /-- The Ethernet switch and the fleet service. -/
  switch : Switch
  fleet : Fleet
  /-- The Decanter. -/
  dc : Decanter
  /-- The update manager and the service port. -/
  manager : Update
  /-- Shared SRAM and DRAM, by fabric address (Table 1.6). -/
  sram : Mem
  dram : Mem
  /-- The commands that wait, first in, first out. -/
  pending : List Instr
  deriving DecidableEq, Repr

/-- The module with no feed: what flash holds on a new module, everything else at zero (DESIGN CHOICE, log entry 1). -/
def State.unfed : State :=
  { regs := [], mtc := 0, free := 0, ticket := 0
    plat :=
      { power := .off, step := .t0, cause := .powerOn, keyOff := false, keyOffAt := 0, snapshot := false, loopClosed := false, loopOpening := false, estopFed := false
        estopTest := false, estopPass := 0, plateHot := false, serviceUp := false, svcStopped := [], migrations := []
        replies := [], usb := none, usbStood := false, woken := none, watchFrom := 0, snapAt := 0, frameNext := 0, slotNext := 0 }
    errs := { stack := [], queue := [], fatal := none, dumps := Vector.replicate 4 none, dumpSeq := 0, dumpNew := none }
    book := { ring := [], backing := [], ofs := 0, gen := 0, seq := 0, flushed := 0, powerUps := 0, firstSeq := 0, written := false }
    cores := Vector.replicate 16 Core.zero
    loops := Vector.replicate 16 LoopUnit.zero
    locks := Vector.replicate 256 Lock.free
    mbox := Vector.replicate 64 []
    valves := Vector.replicate 32 Valve.zero
    banks := Vector.replicate 8 Bank.zero
    loads := Vector.replicate 48 Load.zero
    ain := Vector.replicate 40 Ain.zero
    ls := Vector.replicate 16 Ls.zero
    newBins := []
    imu := Imu.zero
    cams := Vector.replicate 10 Cam.zero
    cuvee := Cuvee.zero
    racking := Racking.zero
    gc := Vector.replicate 96 Gc.zero
    pos := Pos.zero
    time := TimeUnit.zero
    codes := []
    trellis := Trellis.zero
    can := Vector.replicate 8 Can.zero
    nets := Vector.replicate 4 none
    tags := ⟨[], 0, false, []⟩
    switch := Switch.zero
    fleet := Fleet.zero
    dc := Decanter.zero
    manager :=
      { owner := none, wait := none, staging := [], staged := none, slots := Vector.replicate 2 none, slot := 0, trial := false, tries := 0
        act := none, copy := none, settings := Vector.replicate 2 (0, []), key := none, locked := false, placed := []
        session := none, sent := [] }
    sram := [], dram := [], pending := [] }

/-- The module right after its first power-on reset: t0 of the start from OFF (R33), every output off, every register at its
Reset value, the START record written (R31). -/
def State.reset : State :=
  { State.unfed with
    regs := [(34368128784, 1)]
    plat := { State.unfed.plat with power := .starting }
    book :=
      { State.unfed.book with
        ring := [⟨0, 0, 8, .start, 0, 0, 0, 0xFFFF06, [0, 1, Config.unstated 11 []]⟩]
        ofs := 32, seq := 1, powerUps := 1, written := true } }

end Sys2Proof.Machine
end

