-- ==== Sys2Proof/Machine/RegOps.lean ====
section
/-! DEFINITION.  Reading and writing register fields and counters, changing one unit of many, and the power states in which the
units run: what every other operation rests on. -/

namespace Sys2Proof.Machine

open Sys2Proof.Reg

/-! ### Register fields -/

/-- The value of a field's instance; unlisted, it is the reset value (R6). -/
def State.get (s : State) (f : Fld) (i : Nat := 0) (j : Nat := 0) (k : Nat := 0) : Nat :=
  (regFind s.regs (f.key i j k)).getD (f.reset i j k)

/-- The value of a field read as a two's-complement number of the field's width. -/
def State.getZ (s : State) (f : Fld) (i : Nat := 0) (j : Nat := 0) (k : Nat := 0) : Int :=
  sgn f.w (s.get f i j k)

/-- Is a one-bit field 1? -/
def State.on (s : State) (f : Fld) (i : Nat := 0) (j : Nat := 0) (k : Nat := 0) : Bool :=
  s.get f i j k == 1

/-- Set a field, by the low bits of `v`. -/
def State.put (s : State) (f : Fld) (v : Nat) (i : Nat := 0) (j : Nat := 0) (k : Nat := 0) : State :=
  { s with regs := regStore s.regs (f.key i j k) (v % 2 ^ f.w) (f.reset i j k) }

/-- Set a 64-bit value: the low word in the register, the high word behind it, for the read that latches it. -/
def State.put64 (s : State) (f : Fld) (v : Nat) (i : Nat := 0) (j : Nat := 0) (k : Nat := 0) : State :=
  (s.put f v i j k).put f.behind (v / 2 ^ 32) i j k

/-- The 64-bit value of a register and the word behind it. -/
def State.get64 (s : State) (f : Fld) (i : Nat := 0) (j : Nat := 0) (k : Nat := 0) : Nat :=
  s.get f i j k + 2 ^ 32 * s.get f.behind i j k

/-- Set a field to an integer, in two's complement. -/
def State.putZ (s : State) (f : Fld) (v : Int) (i : Nat := 0) (j : Nat := 0) (k : Nat := 0) : State :=
  s.put f (low f.w v) i j k

/-- Set a one-bit field. -/
def State.putB (s : State) (f : Fld) (b : Bool) (i : Nat := 0) (j : Nat := 0) (k : Nat := 0) : State :=
  s.put f (b2n b) i j k

/-- Count `n` in a counter field that saturates at its maximum value. -/
def State.count (s : State) (f : Fld) (n : Nat := 1) (i : Nat := 0) (j : Nat := 0) (k : Nat := 0) : State :=
  s.put f (satAdd f.w (s.get f i j k) n) i j k

/-- Advance a counter that is taken modulo its width (a sequence or generation number). -/
def State.bumpMod (s : State) (f : Fld) (i : Nat := 0) (j : Nat := 0) (k : Nat := 0) : State :=
  s.put f (s.get f i j k + 1) i j k

/-- Restore the reset values of the registers in the address range `lo ≤ a < hi` (R6). -/
def State.resetRange (s : State) (lo hi : Nat) : State :=
  { s with regs := regDrop (fun k => decide (lo * 64 ≤ k) && decide (k < hi * 64)) s.regs }

/-- Write the fields of one register from a word. -/
def State.putWord (s : State) (fs : List Fld) (v : Nat) (i : Nat := 0) (j : Nat := 0) (k : Nat := 0) : State :=
  fs.foldl (fun t f => t.put f (bits v f.lo f.w) i j k) s

/-- Exchange the registers of `lo ≤ a < hi` with those `delta` bytes above (a shadow set and an active set with the
same reset values). -/
def State.swapRange (s : State) (lo hi delta : Nat) : State :=
  let low := fun (e : Nat × Nat) => decide (lo * 64 ≤ e.1) && decide (e.1 < hi * 64)
  let high := fun (e : Nat × Nat) => decide ((lo + delta) * 64 ≤ e.1) && decide (e.1 < (hi + delta) * 64)
  let rest := s.regs.filter fun e => !(low e || high e)
  let moved := (s.regs.filter low).map (fun e => (e.1 + delta * 64, e.2)) ++
    (s.regs.filter high).map (fun e => (e.1 - delta * 64, e.2))
  { s with regs := moved.foldl (fun m e => regSet m e.1 e.2) rest }

/-- Copy the registers of `lo ≤ a < hi` to those `delta` bytes above. -/
def State.copyRange (s : State) (lo hi delta : Nat) : State :=
  let low := fun (e : Nat × Nat) => decide (lo * 64 ≤ e.1) && decide (e.1 < hi * 64)
  let high := fun (e : Nat × Nat) => decide ((lo + delta) * 64 ≤ e.1) && decide (e.1 < (hi + delta) * 64)
  let moved := (s.regs.filter low).map fun e => (e.1 + delta * 64, e.2)
  { s with regs := moved.foldl (fun m e => regSet m e.1 e.2) (s.regs.filter fun e => !high e) }

/-- A 40-bit fabric address held in a LO field and its HI companion of bits [39:32]. -/
def State.addr40 (s : State) (lo hi : Fld) (i : Nat := 0) : Nat :=
  s.get hi i * 2 ^ 32 + s.get lo i * 2 ^ lo.lo

/-! ### Vectors of units -/

/-- Change one element of a vector. -/
def upd {α : Type} {n : Nat} (v : Vector α n) (i : Fin n) (f : α → α) : Vector α n :=
  v.set i.val (f v[i.val]) i.isLt

/-- Change the core of an identity. -/
def State.modCore (s : State) (c : Fin 16) (f : Core → Core) : State := { s with cores := upd s.cores c f }

/-- The core of an identity. -/
def State.core (s : State) (c : Fin 16) : Core := s.cores[c.val]

/-- Apply an operation to each index below `n`, lowest first. -/
def forUpTo (n : Nat) (f : Nat → State → State) (s : State) : State :=
  (List.range n).foldl (fun t i => f i t) s

/-! ### Who writes -/

/-- The identity that a requester number stands for in an owner check: a spare counts as the identity it serves (R83). -/
def State.served (s : State) (id : Nat) : Nat := if id < 16 then s.get CORE_STAT.ALIAS id else id

def State.asIdentity (s : State) (rq : Req) : Req := { rq with id := s.served rq.id }

/-! ### The grid -/

/-- Ticks of a major frame (R74). -/
def frameTicks : Nat := 2000000

/-! ### Which states the units run in -/

/-- Do the units run: in STARTING and RUN (Table 2.1)? -/
def State.units (s : State) : Bool :=
  match s.plat.power with
  | .starting | .run => true
  | .off | .watch | .shutdown | .recovery => false

/-- Do the programmable units run: not during a fatal sequence (R333)? -/
def State.live (s : State) : Bool := (s.plat.power == .run || s.plat.power == .starting) && s.errs.fatal.isNone

end Sys2Proof.Machine
end

