-- ==== Sys2Proof/Machine/CoreBase.lean ====
section
/-! DEFINITION.  What a function core is made of: contexts and STATUS (R45, R46, R64), exception entry (R66), the causes that
stand at an instruction boundary (R65, Table 3.19), and how an event line is taken (R69). -/

namespace Sys2Proof.Machine

open Sys2Proof.Reg

/-! ### Contexts -/

/-- The activation number that stands for the idle context in lock ownership and messages. -/
def idleAct : Nat := 32

/-- Does the core execute now: an activation, or a handler in the idle context (R69, R78)? -/
def Core.executing (c : Core) : Bool := c.inIdle || c.cur.isSome

/-- The activation of an entry. -/
def Core.act (c : Core) (e : Nat) : Option Act := c.acts.find? fun a => a.entry == e

/-- Replace the activation of an entry. -/
def Core.modAct (c : Core) (e : Nat) (f : Act → Act) : Core :=
  { c with acts := c.acts.map fun a => if a.entry == e then f a else a }

/-- The register context in which the core executes. -/
def Core.ctx (c : Core) : Ctx :=
  if c.inIdle then c.idle
  else
    match c.cur with
    | some e => ((c.act e).map Act.ctx).getD c.idle
    | none => c.idle

/-- Change the register context in which the core executes. -/
def Core.modCtx (c : Core) (f : Ctx → Ctx) : Core :=
  if c.inIdle then { c with idle := f c.idle }
  else
    match c.cur with
    | some e => c.modAct e fun a => { a with ctx := f a.ctx }
    | none => c

/-- The number under which the executing context owns locks. -/
def Core.actNo (c : Core) : Nat := if c.inIdle then idleAct else c.cur.getD idleAct

/-- Write a general register; a write to g0 is discarded (R45). -/
def Ctx.setG (x : Ctx) (r : Fin 32) (v : Word) : Ctx := if r = 0 then x else { x with g := x.g.set r.val v r.isLt }

/-- Read a general register; g0 reads as zero (R45). -/
def Ctx.getG (x : Ctx) (r : Fin 32) : Word := if r = 0 then 0 else x.g[r.val]

/-- Step the program counter over one instruction. -/
def Ctx.next (x : Ctx) : Ctx := { x with pc := x.pc + 4 }

/-! ### Identity and STATUS -/

/-- Does identity `c` run in a lockstep pair (R72)? -/
def State.lockstep (s : State) (c : Nat) : Bool := bit (s.get LSTEP_CFG.PAIR) (c / 2)

/-- The identity that a core counts as: the even core of a lockstep pair (R61, R72). -/
def State.identity (s : State) (c : Fin 16) : Fin 16 :=
  if s.lockstep c.val then ⟨c.val / 2 * 2, by omega⟩ else c

/-- The fabric requester of identity `c`: the number of the physical core that serves it (R83, R306). -/
def State.requester (s : State) (c : Fin 16) : Nat := s.get CORE_STAT.PHYS c.val

/-- The STATUS word (Table 3.18). -/
def statusWord (c : Core) (x : Ctx) (lstep : Bool) : Word :=
  BitVec.ofNat 32 (b2n x.priv + 2 * b2n c.ie + 4 * b2n c.exl + 2 ^ 8 * b2n x.sat + 2 ^ 9 * b2n x.ovf
    + 2 ^ 16 * b2n x.fnv + 2 ^ 17 * b2n x.fdz + 2 ^ 18 * b2n x.fof + 2 ^ 19 * b2n x.fuf + 2 ^ 20 * b2n x.fnx
    + 2 ^ 24 * b2n x.otrap + 2 ^ 25 * b2n x.ftrap + 2 ^ 28 * b2n lstep)

/-- The STATUS word of identity `c` now. -/
def State.status (s : State) (c : Fin 16) : Word := statusWord (s.core c) (s.core c).ctx (s.lockstep c.val)

/-- Restore PRIV, OTRAP and FTRAP of a context from an XSTATUS word (R67). -/
def Ctx.restore (x : Ctx) (xs : Word) : Ctx :=
  { x with priv := xs.getLsbD 0, otrap := xs.getLsbD 24, ftrap := xs.getLsbD 25 }

/-- An exception to be taken (Table 3.19): CODE, DETAIL, IMPRECISE, EPC and EVAL. -/
structure Exc where
  code : Nat
  detail : Nat
  imprecise : Bool
  epc : Word
  eval : Word
  deriving DecidableEq, Repr

/-- The ECAUSE word of an exception. -/
def Exc.cause (e : Exc) : Word := BitVec.ofNat 32 (e.code + 2 ^ 8 * e.detail + 2 ^ 16 * b2n e.imprecise)

/-- Exception entry (R66): save STATUS, EPC, ECAUSE and EVAL, raise the privilege, clear IE, set EXL, and go to
the vector.  `st` is STATUS as it stands. -/
def Core.enter (c : Core) (st : Word) (e : Exc) : Core :=
  let v := c.vbase + (if e.code = 0x10 then 0x80 else 0)
  { c.modCtx (fun x => { x with priv := true, pc := v }) with
    xstatus := st, epc := e.epc, ecause := e.cause, eval := e.eval, ie := false, exl := true, cyc := c.cyc + 4 }

/-- A handler ends with the activation it runs in: IE and EXL as an ERET would restore them (R79). -/
def Core.leaveHandler (c : Core) : Core :=
  if c.exl then { c with ie := c.xstatus.getLsbD 1, exl := c.xstatus.getLsbD 2 } else c

/-- Has execution run past the last word of ITCM (R55)? -/
def Ctx.past (x : Ctx) : Bool := decide (0x10000 ≤ x.pc.toNat)

/-- FETCH for running past 0x0000_FFFC: the last word is the transferring instruction (R55). -/
def pastExc : Exc := ⟨0x03, 0, false, 0xFFFC, 0x10000⟩

/-- The cause of priority 1 or 2 that stands at the boundary before the next instruction: the bus error of a posted store, or
FETCH for having run past the last word (Table 3.19). -/
def Core.standing (k : Core) : Option Exc :=
  match k.busErr with
  | a :: _ => some ⟨0x05, 0, true, k.ctx.pc, a⟩
  | [] => if k.ctx.past then some pastExc else none

/-- Enter the handler of a cause that stands at the boundary; a bus error among them is then taken. -/
def Core.enterStanding (k : Core) (st : Word) (x : Exc) : Core := { k.enter st x with busErr := k.busErr.tail }

/-! ### Waits for locks and messages that an event ends -/

/-- Change a lock. -/
def State.modLock (s : State) (n : Fin 256) (f : Lock → Lock) : State := { s with locks := upd s.locks n f }

/-- A lock status word (Table 3.15). -/
def lockStatus (status holder : Nat) : Word := BitVec.ofNat 32 (status + 2 ^ 16 * holder)

/-- Withdraw a node's request for a lock, with its edge (R69, R79). -/
def State.withdraw (s : State) (n : Fin 256) (d : Node) : State :=
  s.modLock n fun l => { l with waiters := l.waiters.filter fun w => w != d }

/-- A mailbox status word (R62). -/
def mbStatus (status words info : Nat) : Word := BitVec.ofNat 32 (status + 2 ^ 8 * words + 2 ^ 16 * info)

/-! ### Events (R69) -/

/-- The lowest event line that may be taken now. -/
def Core.line (k : Core) : Option Nat :=
  if k.ie && !k.exl then (List.range 32).find? fun l => k.evpend.getLsbD l && k.evmask.getLsbD l else none

/-- Of two waiting activations, the one whose wait began last; in the same cycle, the lower entry. -/
def later (a b : Act) : Act := if a.since < b.since || (a.since == b.since && decide (b.entry < a.entry)) then b else a

/-- The activation suspended most recently, with the register and word that end its wait for an event. -/
def State.lastWaiter (s : State) (c : Fin 16) : Option Act :=
  ((s.core c).acts.filter fun a => a.wait.isSome).foldl (fun b a => some (match b with | none => a | some x => later x a)) none

/-- The wait of an activation ends because an event is taken in it: INTERRUPTED, or 0 for WAITSLOT. -/
def Act.interrupted (a : Act) (info : Nat) : Act :=
  match a.wait with
  | some (.slot r _ _) => { a with wait := none, ctx := (a.ctx.setG r 0).next }
  | some (.recv r _ _ _) => { a with wait := none, ctx := (a.ctx.setG r (mbStatus 0x07 0 info)).next }
  | none => a

/-- The EVENT exception of a line at a program counter. -/
def eventExc (l : Nat) (pc : Word) : Exc := ⟨0x10, l, false, pc, 0⟩

/-- Enter the handler of an event line in the context that executes; a cause of lower priority number that stands there is
taken first, and the event stays pending (Tables 3.19 and 3.21). -/
def State.eventHere (s : State) (c : Fin 16) (l : Nat) : State :=
  s.modCore c fun k =>
    match k.standing with
    | some x => k.enterStanding (s.status c) x
    | none => k.enter (s.status c) (eventExc l k.ctx.pc)

/-- Take the lowest enabled pending event line, in exactly one context (R69). -/
def State.takeEvent (s : State) (c : Fin 16) : State :=
  let k := s.core c
  if k.life != .running || k.resetting then s
  else
    match k.line with
    | none => s
    | some l =>
      if k.executing then
        match k.lockWait with
        | some lw =>
          let s := s.withdraw (Fin.ofNat 256 lw.lock) ⟨c.val, k.actNo⟩
          (s.modCore c fun x => { (x.modCtx fun y => (y.setG lw.a (lockStatus 0x07 0xFF)).next) with lockWait := none }).eventHere c l
        | none => s.eventHere c l
      else
        match s.lastWaiter c with
        | some a =>
          (s.modCore c fun x =>
            { (x.modAct a.entry fun y => y.interrupted (Config.unstated 12 [7, s.mtc, k.cyc] % 256)) with cur := some a.entry, guest := true }).eventHere c l
        | none => (s.modCore c fun x => { x with inIdle := true, idle := { x.idle with pc := 0 } }).eventHere c l

/-! ### Event lines that become pending -/

/-- The pending mask that a unit event of code `ev` adds on core `c`: bit k for each line whose EVSRC names it
(Table 4.6). -/
def State.eventMask (s : State) (ev : Nat) (c : Nat) : Nat → Nat
  | 0 => 0
  | k + 1 => (if s.get EVSRC.SRC c k = ev then 2 ^ k else 0) + s.eventMask ev c k

/-- The core with further event lines pending (EVPEND is edge-latched, Table 3.18). -/
def Core.pend (c : Core) (m : Nat) : Core := { c with evpend := c.evpend ||| BitVec.ofNat 32 m }

/-- The odd core of a lockstep pair: its block reads PAIRED and ignores every write. -/
def State.paired (s : State) (c : Nat) : Bool := c % 2 == 1 && s.lockstep c

/-- An identity that executes no instruction, being idle, suspended or in a wait for a lock, takes an event at once (R69); one
that executes takes it at its next instruction boundary. -/
def State.eventNow (s : State) (c : Fin 16) : State :=
  if s.live && !s.paired c.val && (!(s.core c).executing || (s.core c).lockWait.isSome) then s.takeEvent c else s

def State.eventsNow (s : State) : State := (List.finRange 16).foldl (fun (t : State) (c : Fin 16) => t.eventNow c) s

end Sys2Proof.Machine
end

