-- ==== Sys2Proof/Machine/Ops.lean ====
section
/-! DEFINITION.  The named operations every unit uses: sticky flags with their events, event lines and Cellar Book
records. -/

namespace Sys2Proof.Machine

open Sys2Proof.Reg

/-! ### Events -/

/-- Raise the unit event of code `ev` on every core whose EVSRC names it; a core that executes no instruction takes an enabled
line at once (R69).  Codes 0x00 and 0x80 to 0xFF are none (Table 4.6). -/
def State.raise (s : State) (ev : Nat) : State :=
  if ev = 0 ∨ 0x80 ≤ ev then s
  else { s with cores := s.cores.mapFinIdx fun c x _ => x.pend (s.eventMask ev c 32) }.eventsNow

/-- Set bit `b` of a sticky flag register; if it was clear and its bit of the event mask is set, raise `ev`. -/
def State.flag (s : State) (fl mask : Fld) (b ev : Nat) (i : Nat := 0) (j : Nat := 0) : State :=
  if bit (s.get fl i j) b then s
  else
    let t := s.put fl (s.get fl i j + 2 ^ b) i j
    if bit (s.get mask i j) b then t.raise ev else t

/-- Set a sticky flag that has no event. -/
def State.sticky (s : State) (fl : Fld) (b : Nat) (i : Nat := 0) : State := s.put fl (s.get fl i ||| 2 ^ b) i

/-! ### Cellar Book records (R335, R336) -/

/-- The size of the Cellar Book ring in bytes (R335). -/
def bookSize : Nat := 16777216

/-- Does the reserved span of `n` bytes at `ofs` on lap `g` overwrite record `r`?  It does when `r` lies on an
earlier lap and the span reaches it. -/
def Rec.overwritten (r : Rec) (g ofs n : Nat) : Bool :=
  r.gen != g && decide (r.ofs < ofs + n)

/-- Reserve and write one entry at the writer's place; the records it reaches leave the ring. -/
def Book.append (b : Book) (t : RecType) (len code mtc node : Nat) (items : List Nat) : Book :=
  let r : Rec := ⟨b.gen, b.ofs, len, t, code, b.seq, mtc, node, items⟩
  { b with
    ring := r :: b.ring.filter fun x => !x.overwritten b.gen b.ofs (4 * len)
    ofs := b.ofs + 4 * len
    seq := if t = .pad then b.seq else (b.seq + 1) % 2 ^ 32
    written := true }

/-- The PAD that fills the rest of the ring, and the step to the next lap (R335). -/
def Book.wrap (b : Book) (code mtc : Nat) : Book :=
  let p := if b.ofs < bookSize then b.append .pad ((bookSize - b.ofs) / 4) code mtc 0 [] else b
  { p with ofs := 0, gen := (p.gen + 1) % 256 }

/-- Write one record, with a PAD before it where it would straddle the end of the ring. -/
def Book.write (b : Book) (t : RecType) (code mtc node : Nat) (items : List Nat) : Book :=
  let len := 5 + items.length
  let b' := if bookSize < b.ofs + 4 * len then b.wrap code mtc else b
  b'.append t len code mtc node items

/-- NODE of Table 17.6; 0xFF where no unit or channel applies. -/
def node (domain unit channel : Nat) : Nat := domain + 256 * unit + 65536 * channel

/-- The domains of Table 1.2 in order. -/
def domSensing : Nat := 0
def domFusion : Nat := 1
def domMachine : Nat := 2
def domActuation : Nat := 3
def domPosition : Nat := 4
def domComm : Nat := 5
def domPlatform : Nat := 6
def none8 : Nat := 0xFF

/-- A 64-bit value or a fabric address as two record items, low word first (R387). -/
def two (v : Nat) : List Nat := [v % 2 ^ 32, v / 2 ^ 32]

/-- Can a record be written now?  Only while the Cellar Book ring is in use: not in OFF, not in WATCH, not in
recovery (R388). -/
def State.recording (s : State) : Bool :=
  match s.plat.power with
  | .starting | .run | .shutdown => true
  | .off | .watch | .recovery => false

/-- The time-validity code in force at an instant, from the last 64 changes (R233). -/
def State.codeAt (s : State) (mtc : Nat) : Nat := ((s.codes.find? fun p => decide (p.1 ≤ mtc)).map Prod.snd).getD 0

/-- A field whose newest session keeps one more TIME_STATE or TIME_STEP record. -/
def TlField.keep (f : TlField) (e : Nat × Nat × List Nat) : TlField :=
  match f.sessions with
  | x :: r => { f with sessions := { x with times := e :: x.times } :: r }
  | [] => f

/-- The header of the open field keeps the TIME_STATE and TIME_STEP records of its session (R243). -/
def State.keepTime (s : State) (mtc : Nat) (t : RecType) (items : List Nat) : State :=
  if (t = .timeState ∨ t = .timeStep) ∧ s.get TL_FIELD.STATE ≠ 0 then
    let id := s.get TL_FIELD_ID.ID
    let fs := s.trellis.fields.map fun f => if f.id = id then f.keep (t.code, mtc, items) else f
    { s with trellis := { s.trellis with fields := fs } }
  else s

/-- Write a record at instant `mtc` with the time-validity code in force (R336, R233), counting it in
CB_CNT.RECORDS. -/
def State.recordAt (s : State) (mtc : Nat) (t : RecType) (nd : Nat) (items : List Nat) : State :=
  let s := s.keepTime mtc t items
  if s.recording then
    { s.count CB_CNT.RECORDS with book := s.book.write t (s.codeAt mtc) mtc nd (items.map (· % 2 ^ 32)) }
  else s

/-- Write a record at the present instant. -/
def State.record (s : State) (t : RecType) (nd : Nat) (items : List Nat) : State :=
  s.recordAt s.mtc t nd items

/-! ### Which states the units run in -/

/-- The outcome of a command to a unit: its effect while the units run, nothing in the other power states. -/
def State.act (s t : State) : Host.Outcome State Fault Refusal := .next (if s.units then t else s)

/-! ### Free values -/

/-- Advance the counter that makes each use of a free value a fresh one. -/
def State.fresh (s : State) : State := { s with free := s.free + 1 }

end Sys2Proof.Machine
end

