-- ==== Sys2Proof/Machine/FabMem.lean ====
section
/-! DEFINITION.  The memories behind fabric addresses (Table 16.1): main memory, shared SRAM and the TCMs, as engines
and services read and write them.  The peripheral window is the bus layer's. -/

namespace Sys2Proof.Machine

open Sys2Proof.Reg

/-- Main memory: fabric addresses 0x80_0000_0000 to 0x83_FFFF_FFFF. -/
def inDram (a : Nat) : Bool := decide (0x8000000000 ≤ a) && decide (a < 0x8400000000)

/-- Shared SRAM. -/
def inSram (a : Nat) : Bool := decide (0x10000000 ≤ a) && decide (a < 0x10400000)

/-- The peripheral window. -/
def inPeriph (a : Nat) : Bool := decide (0x20000000 ≤ a) && decide (a < 0x30000000)

/-- The TCM range of port FP4. -/
def inTcm (a : Nat) : Bool := decide (0x100000000 ≤ a) && decide (a < 0x100000000 + 16 * 0x100000)

/-- The core whose TCMs a fabric address of FP4 reaches: the even core of a lockstep pair (R305). -/
def State.tcmCore (s : State) (a : Nat) : Fin 16 :=
  let n := (a - 0x100000000) / 0x100000 % 16
  Fin.ofNat 16 (if bit (s.get LSTEP_CFG.PAIR) (n / 2) then n / 2 * 2 else n)

/-- Is an offset of FP4 in ITCM, or in DTCM? -/
def itcmOfs (a : Nat) : Bool := decide (a % 0x100000 < 0x10000)
def dtcmOfs (a : Nat) : Bool := decide (0x20000 ≤ a % 0x100000) && decide (a % 0x100000 < 0x40000)

/-- Does a fabric address reach memory for a read, or for a write, by a requester that is (or is not) a service
core (R304, R305)? -/
def fabReaches (a : Nat) (write service : Bool) : Bool :=
  inDram a || inSram a || (inTcm a && (dtcmOfs a || (itcmOfs a && write && service)))

/-- The byte at a fabric address of memory; zero where none is reached. -/
def State.fabByte (s : State) (a : Nat) : Byte :=
  if inDram a then s.dram.byte a
  else if inSram a then s.sram.byte a
  else if inTcm a && dtcmOfs a then (s.core (s.tcmCore a)).dtcm.byte (a % 0x100000 - 0x20000)
  else 0

/-- `n` bytes from a fabric address. -/
def State.fabBytes (s : State) (a : Nat) : Nat → List Nat
  | 0 => []
  | n + 1 => (s.fabByte a).toNat :: s.fabBytes (a + 1) n

/-- A little-endian number of `n` bytes at a fabric address. -/
def State.fabN (s : State) (a : Nat) : Nat → Nat
  | 0 => 0
  | n + 1 => (s.fabByte a).toNat + 256 * s.fabN (a + 1) n

/-- `n` words from a fabric address. -/
def State.fabWords (s : State) (a : Nat) : Nat → List Nat
  | 0 => []
  | n + 1 => s.fabN a 4 :: s.fabWords (a + 4) n

/-! ### Banks and stores into ITCM (R76) -/

/-- The VALID bit of a bank. -/
def State.bankValid (s : State) (c bank : Nat) : Bool := if bank = 0 then s.on BANK_CTL.VALID_A c else s.on BANK_CTL.VALID_B c
def State.setBankValid (s : State) (c bank : Nat) (v : Bool) : State :=
  if bank = 0 then s.putB BANK_CTL.VALID_A v c else s.putB BANK_CTL.VALID_B v c

/-- The inactive bank. -/
def Core.other (c : Core) : Nat := 1 - c.bank.val

/-- A write to a frozen bank, or to the active bank's table, counts in TBL_IGN (R76). -/
def State.tableIgn (s : State) (c : Nat) : State := s.count SWAP_CNT.TBL_IGN 1 c

/-- Is the inactive bank of a core frozen by a pending swap? -/
def State.frozen (s : State) (c : Fin 16) : Bool := (s.core c).swapPend

/-- Write ITCM of a core, byte by byte: a store into a frozen half is ignored and counted; one into the inactive half
clears its VALID bit (R76).  `ofs` is the offset in ITCM. -/
def State.itcmStore (s : State) (c : Fin 16) (ofs width : Nat) (v : Nat) : State :=
  let half := ofs / 0x8000
  let inactive := half == (s.core c).other
  if inactive && s.frozen c then s.tableIgn c.val
  else
    let t := s.modCore c fun k => { k with itcm := k.itcm.writeN ofs width v }
    if inactive then t.setBankValid c.val half false else t

/-! ### Stores over the fabric -/

/-- Store one byte at a fabric address of memory. -/
def State.fabPut (s : State) (a : Nat) (b : Byte) : State :=
  if inDram a then { s with dram := s.dram.put a b }
  else if inSram a then { s with sram := s.sram.put a b }
  else if inTcm a && dtcmOfs a then
    s.modCore (s.tcmCore a) fun k => { k with dtcm := k.dtcm.put (a % 0x100000 - 0x20000) b }
  else if inTcm a && itcmOfs a then s.itcmStore (s.tcmCore a) (a % 0x100000) 1 b.toNat
  else s

/-- Store bytes from a fabric address on. -/
def State.fabWriteBytes (s : State) (a : Nat) : List Nat → State
  | [] => s
  | b :: t => (s.fabPut a (BitVec.ofNat 8 b)).fabWriteBytes (a + 1) t

/-- The bytes of a little-endian number. -/
def leBytes (n v : Nat) : List Nat := (List.range n).map fun k => bits v (8 * k) 8

/-- Store 32-bit words from a fabric address on; one into ITCM is one store (R76). -/
def State.fabWrite (s : State) (a : Nat) : List Nat → State
  | [] => s
  | w :: t =>
    (if inTcm a && itcmOfs a && a % 4 == 0 then s.itcmStore (s.tcmCore a) (a % 0x100000) 4 w
     else s.fabWriteBytes a (leBytes 4 w)).fabWrite (a + 4) t

end Sys2Proof.Machine
end

