-- ==== Sys2Proof/Machine/Pipe.lean ====
section
/-! DEFINITION.  The arithmetic of the image pipes (R135 to R138, R142): a frame's stored lines become its main output,
its taps and its statistics.  `sh` selects the table set: the shadow set for a frame that was open at an exchange,
else the active set (R139). -/

namespace Sys2Proof.Machine

open Sys2Proof.Reg

/-- The clamp between stages: 0 to 2^24 − 1 (R135). -/
def clamp24 (v : Int) : Nat := (clampZ 0 16777215 v).toNat

/-- A plane of values by row and column. -/
abbrev Plane := Array (Array Nat)

def Plane.at (p : Plane) (y x : Nat) : Nat := (p.getD y #[]).getD x 0

/-- The `k`-th plane of a list. -/
def nthPlane (ps : List Plane) (k : Nat) : Plane := (ps[k]?).getD #[]

/-- Build a plane of `h` rows and `w` columns. -/
def Plane.make (h w : Nat) (f : Nat → Nat → Nat) : Plane :=
  ((List.range h).map fun y => ((List.range w).map fun x => f y x).toArray).toArray

/-- A coordinate mirrored at the edges of 0 … n − 1. -/
def mirror (n : Nat) (i : Int) : Nat :=
  let a := if i < 0 then -i else i
  let b := if (n : Int) ≤ a then 2 * ((n : Int) - 1) - a else a
  (clampZ 0 ((n : Int) - 1) b).toNat

/-- The value at an offset from a position, mirrored at the edges. -/
def Plane.near (p : Plane) (h w y x : Nat) (dy dx : Int) : Nat := p.at (mirror h (y + dy)) (mirror w (x + dx))

/-- Stage 1, linearisation of a code of `b` bits by the table `L`. -/
def linearise (L : Nat → Nat) (b code : Nat) : Nat :=
  let c := code % 2 ^ b * 2 ^ (16 - b)
  let j := c / 256
  clamp24 (L j + rnd (((L (j + 1) : Int) - L j) * (c % 256)) 8)

/-- Stage 2, the merge of up to three exposures (R136). -/
def mergeExp (knee r1 r2 nexp : Nat) (v0 v1 v2 : Nat) : Nat :=
  if v0 < knee ∨ nexp = 1 then v0
  else if v1 < knee ∨ nexp = 2 then clamp24 (rnd (v1 * r1) 8)
  else clamp24 (rnd (rnd (v2 * r2) 8 * r1) 8)

/-- The position 0 to 3 of a pixel in the colour pattern. -/
def cfaPos (y x : Nat) : Nat := 2 * (y % 2) + x % 2

/-- Is a pattern position green?  RGGB and BGGR: 1 and 2; GRBG and GBRG: 0 and 3. -/
def cfaGreen (cfa pos : Nat) : Bool := if cfa = 0 ∨ cfa = 3 then pos == 1 || pos == 2 else pos == 0 || pos == 3

/-- The four nearest neighbours of the same colour, and the four next. -/
def nearest4 (mono green : Bool) : List (Int × Int) :=
  if mono then [(-1, 0), (1, 0), (0, -1), (0, 1)]
  else if green then [(-1, -1), (-1, 1), (1, -1), (1, 1)]
  else [(-2, 0), (2, 0), (0, -2), (0, 2)]

def next4 (mono green : Bool) : List (Int × Int) :=
  if mono then [(-1, -1), (-1, 1), (1, -1), (1, 1)]
  else if green then [(-2, 0), (2, 0), (0, -2), (0, 2)]
  else [(-2, -2), (-2, 2), (2, -2), (2, 2)]

/-- The median of four values: free between the two in the middle. -/
def median (l : List Nat) : Nat :=
  match l.mergeSort (· ≤ ·) with
  | [_, b, c, _] => clampN b c (Config.median4 b c)
  | _ => 0

/-- The defect list as the pipe reads it: entries out of order are skipped.  The kept entries and the skips. -/
def defects (ws : List Nat) : List (Nat × Nat) × Nat :=
  ws.foldl (fun acc w =>
    let p := (bits w 16 13, bits w 0 13)
    match acc.1.getLast? with
    | none => ([p], acc.2)
    | some q => if q.1 < p.1 ∨ (q.1 = p.1 ∧ q.2 < p.2) then (acc.1 ++ [p], acc.2) else (acc.1, acc.2 + 1)) ([], 0)

/-- The tone code u of R137. -/
def toneCode (v : Nat) : Nat :=
  let k := if v = 0 then 0 else Nat.log2 v - 11
  if k = 0 then v else 2048 * k + v / 2 ^ k

/-- Stage 8, one tone curve. -/
def tone (T : Nat → Nat) (v : Nat) : Nat :=
  let u := toneCode v
  let j := u / 128
  (clampZ 0 65535 (T j + rnd (((T (j + 1) : Int) - T j) * (u % 128)) 7)).toNat

/-- Y of stage 9. -/
def luma (r g b : Nat) : Nat := (r + 2 * g + b + 2) / 4

/-- A field of the table set in use. -/
def State.tbl (s : State) (sh : Bool) (shadow active : Fld) (p : Nat) (j : Nat := 0) (k : Nat := 0) : Nat :=
  if sh then s.get shadow p j k else s.get active p j k

/-- BLACKc of the set in use. -/
def State.black (s : State) (sh : Bool) (p c : Nat) : Nat :=
  match c with
  | 0 => s.tbl sh BLACK01.BLACK0 AC_BLACK01.BLACK0 p
  | 1 => s.tbl sh BLACK01.BLACK1 AC_BLACK01.BLACK1 p
  | 2 => s.tbl sh BLACK23.BLACK2 AC_BLACK23.BLACK2 p
  | _ => s.tbl sh BLACK23.BLACK3 AC_BLACK23.BLACK3 p

/-- Element `i` (row-major, 0 to 8) of the colour matrix, signed Q4.12. -/
def State.ccm (s : State) (sh : Bool) (p i : Nat) : Int :=
  sgn 16 (if i % 2 = 0 then s.tbl sh CCM.LO AC_CCM.LO p (i / 2) else s.tbl sh CCM.HI AC_CCM.HI p (i / 2))

/-- The white-balance gain of a channel. -/
def State.wbGain (s : State) (sh : Bool) (p ch : Nat) : Nat :=
  match ch with
  | 0 => s.tbl sh WB_RG.GR AC_WB_RG.GR p
  | 1 => s.tbl sh WB_RG.GG AC_WB_RG.GG p
  | _ => s.tbl sh WB_B.GB AC_WB_B.GB p

/-- The words of the defect list of the set in use. -/
def State.dpcWords (s : State) (sh : Bool) (p : Nat) : List Nat :=
  s.fabWords (s.tbl sh DPC_LIST_HI.ADDR AC_DPC_LIST_HI.ADDR p * 2 ^ 32 + 4 * s.tbl sh DPC_LIST_LO.ADDR AC_DPC_LIST_LO.ADDR p)
    (s.tbl sh DPC_CFG.DPC_N AC_DPC_CFG.DPC_N p)

/-- The planes of one frame after the stages that others read: each exposure after stage 1, the merge, the three
channels after stage 7 and after stage 8, with the entries of the defect list that were skipped. -/
structure Image where
  lin : List Plane
  merged : Plane
  wb : List Plane
  tone : List Plane
  skipped : Nat

/-- Stages 1 to 8 over the first `n` lines of a frame (R135). -/
def State.image (s : State) (f : CamFrame) (sh : Bool) (n : Nat) : Image :=
  let p := f.cfg.pipe
  let w := f.cfg.width
  let bitsOf := 8 + 2 * (f.cfg.dt - 0x2A)
  let cfa := f.cfg.cfa
  let mono := f.cfg.mono
  let L := fun j => s.tbl sh LIN_SH.L LIN_AC.L p j
  let lin := f.lines.map fun ls =>
    let rows := (ls.reverse.map List.toArray).toArray
    Plane.make n w fun y x => linearise L bitsOf (Plane.at rows y x)
  let e := nthPlane lin
  let merged := Plane.make n w fun y x =>
    mergeExp (s.tbl sh MERGE_KNEE.KNEE AC_MERGE_KNEE.KNEE p) (s.tbl sh MERGE_R.R1 AC_MERGE_R.R1 p)
      (s.tbl sh MERGE_R.R2 AC_MERGE_R.R2 p) f.cfg.nexp ((e 0).at y x) ((e 1).at y x) ((e 2).at y x)
  let black := Plane.make n w fun y x => merged.at y x - s.black sh p (cfaPos y x) * 256
  let dl := defects (s.dpcWords sh p)
  let thr := s.tbl sh DPC_CFG.DYN_THR AC_DPC_CFG.DYN_THR p * 256
  let fixed := Plane.make n w fun y x =>
    let v := black.at y x
    let green := cfaGreen cfa (cfaPos y x)
    let near := (nearest4 mono green).map fun d => black.near n w y x d.1 d.2
    let far := (next4 mono green).map fun d => black.near n w y x d.1 d.2
    let odd := (near ++ far).all fun u => decide (thr < v - u) || decide (thr < u - v)
    if dl.1.contains (y, x) || (f.cfg.dynEn && odd) then median near else v
  let offs : List Int := [-2, -1, 0, 1, 2]
  let rgb := (List.range 3).map fun ch => Plane.make n w fun y x =>
    if mono then fixed.at y x
    else clamp24 (Config.demosaic cfa (cfaPos y x) ch
      (offs.flatMap fun dy => offs.map fun dx => fixed.near n w y x dy dx))
  let c := nthPlane rgb
  let ccm := (List.range 3).map fun ch => Plane.make n w fun y x =>
    clamp24 (rnd (s.ccm sh p (3 * ch) * (c 0).at y x + s.ccm sh p (3 * ch + 1) * (c 1).at y x
      + s.ccm sh p (3 * ch + 2) * (c 2).at y x) 12)
  let wb := (List.range 3).map fun ch => Plane.make n w fun y x =>
    clamp24 (rnd (s.wbGain sh p ch * (nthPlane ccm ch).at y x) 12)
  let tn := (List.range 3).map fun ch => Plane.make n w fun y x =>
    tone (fun j => s.tbl sh TONE_SH.T TONE_AC.T p ch j) ((nthPlane wb ch).at y x)
  ⟨lin, merged, wb, tn, dl.2⟩

/-- The box average of stage 9; its rounding is not stated. -/
def boxAvg (p : Plane) (sc y x : Nat) : Nat :=
  Config.quot 1 (((List.range sc).flatMap fun dy => (List.range sc).map fun dx => p.at (sc * y + dy) (sc * x + dx)).sum)
    (sc * sc)

/-- The bytes of the main output (Table 7.4, stage 9): whole boxes, row by row, R before G before B, little-endian. -/
def packOut (im : Image) (fmt sc n w : Nat) : List Nat :=
  let ch := fun k y x => boxAvg (nthPlane im.tone k) sc y x
  (List.range (n / sc)).flatMap fun y => (List.range (w / sc)).flatMap fun x =>
    match fmt with
    | 0 => [ch 0 y x / 256, ch 1 y x / 256, ch 2 y x / 256]
    | 1 => leBytes 2 (ch 0 y x) ++ leBytes 2 (ch 1 y x) ++ leBytes 2 (ch 2 y x)
    | 2 => [luma (ch 0 y x) (ch 1 y x) (ch 2 y x) / 256]
    | _ => leBytes 2 (luma (ch 0 y x) (ch 1 y x) (ch 2 y x))

/-- The bytes of a LIN or MERGE tap: one word per pixel. -/
def packPlane (p : Plane) (n w : Nat) : List Nat :=
  (List.range n).flatMap fun y => (List.range w).flatMap fun x => leBytes 4 (p.at y x)

/-- The bytes of the TONE tap: RGB16 at full resolution. -/
def packTone (im : Image) (n w : Nat) : List Nat :=
  (List.range n).flatMap fun y => (List.range w).flatMap fun x =>
    im.tone.flatMap fun (p : Plane) => leBytes 2 (p.at y x)

/-- The histogram of Y[15:8] over the valid lines (Table 7.5). -/
def histogram (im : Image) (n w : Nat) : List Nat :=
  let c := fun k y x => (nthPlane im.tone k).at y x
  let ys := (List.range n).flatMap fun y => (List.range w).map fun x => luma (c 0 y x) (c 1 y x) (c 2 y x) / 256
  (List.range 256).map fun k => ys.countP (· == k)

/-- The 16 × 12 zones (Table 7.5): means of the stage 7 output over valid lines, and the percentage of valid lines. -/
def zones (im : Image) (n w h : Nat) : List Nat :=
  (List.range 12).flatMap fun zy => (List.range 16).flatMap fun zx =>
    let x0 := zx * w / 16
    let x1 := (zx + 1) * w / 16
    let y0 := zy * h / 12
    let y1 := (zy + 1) * h / 12
    let yv := min n y1
    let pct := if y1 ≤ y0 then 0 else Config.quot 2 (100 * (yv - y0)) (y1 - y0)
    (List.range 3).map fun ch =>
      let p := nthPlane im.wb ch
      let vs := (List.range (yv - y0)).flatMap fun dy => (List.range (x1 - x0)).map fun dx => p.at (y0 + dy) (x0 + dx)
      let mean := if vs.isEmpty then 0 else Config.quot 3 vs.sum vs.length
      mean + (if ch = 1 then 2 ^ 24 * pct else 0)

end Sys2Proof.Machine
end

