-- ==== Sys2Proof/Machine/Projection.lean ====
section
/-! DEFINITION.  The geometry of Cuvee: the models and tables of an epoch, the motion of the machine, the projection of feature
cells and points onto the common ground grid (R147, R151, R153, R154).  Lengths are exact fractions of a metre. -/

namespace Sys2Proof.Machine

open Sys2Proof.Reg

/-- Ticks of one epoch (R147). -/
def epochTicks : Nat := 10000000

/-- E_k. -/
def epochStart (k : Nat) : Nat := k * epochTicks

/-- The first epoch that begins at least 10 ns after instant `t` (R155, R167). -/
def epochAfter (t : Nat) : Nat := (t + 2 + epochTicks - 1) / epochTicks

def State.modCv (s : State) (f : Cuvee → Cuvee) : State := { s with cuvee := f s.cuvee }

def State.modSens (s : State) (n : Fin 16) (f : CvSensor → CvSensor) : State :=
  s.modCv fun c => { c with sensors := upd c.sensors n f }

/-! ### Models and tables by epoch -/

/-- The model of slot `m` for objects of epoch `k`. -/
def State.modelAt (s : State) (m k : Nat) : Option CvModel :=
  (s.cuvee.models[m % 16]'(by omega)).find? fun v => decide (v.start ≤ k)

/-- The version of a table for epoch `k`; none: its generation has been discarded. -/
def tableAt (vs : List CvTable) (k : Nat) : Option CvTable := vs.find? fun v => decide (v.start ≤ k)

/-! ### Motion (R154) -/

/-- Travel in m and yaw in rad between two instants, by the trapezoidal rule over the motion pairs: GROUND_SPEED has
32,768 = 16 m/s, the yaw rate 32,768 = 125, 250, 500 or 1,000 °/s. -/
def trapezoid (ps : List (Nat × Int)) (t0 t1 : Nat) : Frac :=
  match ps with
  | (ta, va) :: (tb, vb) :: rest =>
    let lo := max t0 tb
    let hi := min t1 ta
    let here :=
      if hi ≤ lo ∨ ta ≤ tb then Frac.int 0
      else
        -- the mean of the linear interpolation over lo … hi, times its length
        let d := ta - tb
        Frac.of ((vb * d * 2 + (va - vb) * ((lo - tb : Nat) + (hi - tb : Nat))) * (hi - lo : Nat)) (2 * d)
    here.add (trapezoid ((tb, vb) :: rest) t0 t1)
  | _ => Frac.int 0

/-- The forward travel in m from t0 to t1. -/
def State.travel (s : State) (t0 t1 : Nat) : Frac :=
  (trapezoid (s.cuvee.motion.map fun p => (p.1, p.2.1)) t0 t1).mul (Frac.of 16 (32768 * 200000000))

/-- The yaw in degrees from t0 to t1. -/
def State.yawed (s : State) (t0 t1 : Nat) : Frac :=
  (trapezoid (s.cuvee.motion.map fun p => (p.1, p.2.2)) t0 t1).mul
    (Frac.of (125 * 2 ^ s.get MOTION_YAW.GFS) (32768 * 200000000))

/-- The rotation of a point of the plane by −ψ, ψ in degrees; of an angle that is not 0 the sine and cosine are free. -/
def unturn (psi : Frac) (p : Frac × Frac) : Frac × Frac :=
  if psi.num = 0 then p
  else
    let r := Config.sinCos psi.num psi.den
    let sn := Frac.of r.1 (2 ^ 62)
    let cs := Frac.of r.2 (2 ^ 62)
    ((cs.mul p.1).add (sn.mul p.2), (cs.mul p.2).sub (sn.mul p.1))

/-- The point p acquired at t, at T_ref: rot(−ψ) × (p − (s, 0)) (R154). -/
def State.moved (s : State) (t tref : Nat) (p : Frac × Frac) : Frac × Frac :=
  unturn (s.yawed t tref) (p.1.sub (s.travel t tref), p.2)

/-! ### The grid (R151) -/

/-- The whole part of a fraction, downwards, as an index below `n`. -/
def indexBelow (x : Frac) (n : Nat) : Option Nat :=
  if 0 ≤ x.floor ∧ x.floor < n then some x.floor.toNat else none

/-- The cell that contains a point of the machine frame: row (x − CB_X) ÷ 5 cm, column (CB_Y + 10 m − y) ÷ 5 cm. -/
def cellAt (cbx cby : Frac) (p : Frac × Frac) : Option Nat :=
  match indexBelow ((p.1.sub cbx).mul (Frac.int 20)) 200, indexBelow (((cby.add (Frac.int 10)).sub p.2).mul (Frac.int 20)) 400 with
  | some r, some c => some (400 * r + c)
  | _, _ => none

/-- The centre of a cell. -/
def cellCentre (cbx cby : Frac) (i : Nat) : Frac × Frac :=
  (cbx.add (Frac.of (2 * (i / 400 : Nat) + 1) 40), cby.add (Frac.of (399 - 2 * ((i % 400 : Nat) : Int)) 40))

/-- CB_X and CB_Y of the words of a header geometry. -/
def cutterBar (hg : List Nat) : Option (Frac × Frac) :=
  match f32Val ((hg[0]?).getD 0), f32Val ((hg[1]?).getD 0) with
  | some x, some y => some (x, y)
  | _, _ => none

/-! ### Projection (R153) -/

/-- A point or a direction of space. -/
structure V3 where
  x : Frac
  y : Frac
  z : Frac

/-- A transform table as numbers (Table 8.3); none with a word that is an infinity or a NaN. -/
def ttValues (ws : List Nat) : Option (List Frac) := ws.mapM f32Val

def ttNum (l : List Frac) (j : Nat) : Frac := (l[j]?).getD (Frac.int 0)

/-- The rotation ROT of a table. -/
def ttRotate (l : List Frac) (p : V3) : V3 :=
  let row := fun r => ((ttNum l (9 + 3 * r)).mul p.x |>.add ((ttNum l (10 + 3 * r)).mul p.y)).add ((ttNum l (11 + 3 * r)).mul p.z)
  ⟨row 0, row 1, row 2⟩

/-- One step of the fixed-point iteration of the Brown model: (x_d − tangential) ÷ radial, both at the last estimate (the
model's usual form, PRESUMED, log entry 11). -/
def brownStep (l : List Frac) (d p : Frac × Frac) : Option (Frac × Frac) :=
  let k := fun j => ttNum l j
  let xx := p.1.mul p.1
  let yy := p.2.mul p.2
  let xy := p.1.mul p.2
  let r2 := xx.add yy
  let radial := (Frac.int 1).add (r2.mul ((k 4).add (r2.mul ((k 5).add (r2.mul (k 6))))))
  let two_ := Frac.int 2
  let dx := (two_.mul ((k 7).mul xy)).add ((k 8).mul (r2.add (two_.mul xx)))
  let dy := ((k 7).mul (r2.add (two_.mul yy))).add (two_.mul ((k 8).mul xy))
  if radial.num = 0 then none else some ((d.1.sub dx).div radial, (d.2.sub dy).div radial)

/-- The undistorted ray of a pixel after 5 iterations: x right, y down, at unit distance along the optical axis. -/
def pixelRay (l : List Frac) (u v : Frac) : Option (Frac × Frac) :=
  if (ttNum l 0).num = 0 ∨ (ttNum l 1).num = 0 then none
  else
    let d := ((u.sub (ttNum l 2)).div (ttNum l 0), (v.sub (ttNum l 3)).div (ttNum l 1))
    (List.range 5).foldl (fun (p : Option (Frac × Frac)) (_ : Nat) => p.bind (brownStep l d)) (some d)

/-- Where the ray meets the plane z = h; none where it does not descend, or the plane lies behind it. -/
def meets (o d : V3) (h : Frac) : Option (Frac × Frac) :=
  if !d.z.lt (Frac.int 0) then none
  else
    let a := (h.sub o.z).div d.z
    if a.lt (Frac.int 0) then none else some (o.x.add (a.mul d.x), o.y.add (a.mul d.y))

/-- The height in m of the ground surface at a point: TERRAIN of the last published grid at a cell whose confidence is at
least C_MIN, else 0 (R153). -/
def State.surface (s : State) (p : Frac × Frac) : Frac :=
  let role := bits (s.get ROLE_MAP.W 0 0) 16 8
  match s.cuvee.pub.bind fun g => cutterBar g.hgWords with
  | some (cbx, cby) =>
    match (cellAt cbx cby p).bind fun i => s.cuvee.grid.find? fun e => e.1 == i with
    | some e => if bit role 7 && decide (s.get CV_CONF.C_MIN ≤ e.2.conf) then Frac.of ((e.2.feats[role % 64]?).getD 0) 50 else Frac.int 0
    | none => Frac.int 0
  | none => Frac.int 0

/-- The words of the tables under which an object is projected. -/
def State.ttWords (s : State) (o : CvObj) : List Nat :=
  ((tableAt (s.cuvee.tt[o.sensor % 16]'(by omega)) o.epoch).map CvTable.words).getD []
def State.hgWords (s : State) (k : Nat) : List Nat := ((tableAt s.cuvee.hg k).map CvTable.words).getD []

/-- The pixel at the centre of a feature-map cell along one axis: (u_f + 0.5) × W ÷ OUT_W × S − 0.5. -/
def pixelOf (uf size out scale : Nat) : Frac := (Frac.of ((2 * uf + 1) * size * scale : Nat) (2 * out)).sub (Frac.of 1 2)

/-- The cell in which a camera's feature-map cell lies (R153): the pixel, the ray, its two intersections with the ground, the
move to T_ref from the instant ACQ + v × LINE_T (in whole ticks, downwards, log entry 11), the cell. -/
def State.cameraCell (s : State) (o : CvObj) (v : CvModel) (f : FeatCell) : Option Nat :=
  let tref := epochStart (o.epoch + 1)
  let pu := pixelOf f.u o.width v.outW o.scale
  let pv := pixelOf f.v o.height v.outH o.scale
  let t := ((o.acq : Int) + (pv.mul (Frac.int o.lineT)).floor).toNat
  let lost := Config.groundCell (s.ttWords o) (s.hgWords o.epoch) [f.u, f.v, t]
  match ttValues (s.ttWords o), cutterBar (s.hgWords o.epoch) with
  | some l, some cb =>
    match pixelRay l pu pv with
    | some q =>
      let d := ttRotate l ⟨q.1, q.2, Frac.int 1⟩
      let org : V3 := ⟨ttNum l 18, ttNum l 19, ttNum l 20⟩
      ((meets org d (Frac.int 0)).bind fun p => meets org d (s.surface p)).bind fun p => cellAt cb.1 cb.2 (s.moved t tref p)
    | none => lost
  | _, _ => lost

/-- The grid cells of an output cell of a lidar or grid model: one, or 2 × 2 (R149). -/
def CvModel.cells (v : CvModel) (u w : Nat) : List Nat :=
  if v.outW = 200 then
    if u < 200 ∧ w < 100 then [800 * w + 2 * u, 800 * w + 2 * u + 1, 800 * w + 400 + 2 * u, 800 * w + 401 + 2 * u] else []
  else if u < 400 ∧ w < 200 then [400 * w + u] else []

/-- Where a feature cell of an object lies in the grid; a row that covers lines at or beyond VALID_LINES contributes nothing
(R148). -/
def State.cvPlace (s : State) (o : CvObj) (v : CvModel) (f : FeatCell) : List Nat :=
  if v.kind = 1 then
    if v.outW ≤ f.u ∨ v.outH ≤ f.v ∨ o.valid * v.outH < (f.v + 1) * o.height then [] else (s.cameraCell o v f).toList
  else v.cells f.u f.v

/-- The confidence m and the channel values of one output cell of a model. -/
def CvModel.part (v : CvModel) (out : List Int) : Nat × List (Nat × Int) :=
  let m := if v.confCh = 0xFF then 255 else ((clampZ 0 255 ((out[v.confCh]?).getD 0))).toNat
  let chans := (List.range v.outCh).filter fun i => i != v.confCh
  (m, chans.zipIdx.map fun p => (v.ch0 + p.2, clampZ (-128) 127 ((out[p.1]?).getD 0)))

/-- What an object contributes to the grid by the output of its model. -/
def State.objParts (s : State) (o : CvObj) : List CvPart :=
  match s.modelAt o.model o.epoch with
  | some v => if o.usable then o.out.flatMap fun f => (s.cvPlace o v f).map fun c => ⟨c, (v.part f.out).1, (v.part f.out).2⟩ else []
  | none => []

/-! ### Lidar rasters (R153) -/

/-- A point of a block in the machine frame at T_ref: its cell and its height; the point's own instant is ACQ plus its offset,
rounded to a tick. -/
def State.pointCell (s : State) (o : CvObj) (p : LidarPoint) : Option (Nat × Frac) :=
  let t := o.acq + (p.tofs + 2) / 5
  match ttValues (s.ttWords o), cutterBar (s.hgWords o.epoch) with
  | some l, some cb =>
    let q := ttRotate l ⟨Frac.of p.x 500, Frac.of p.y 500, Frac.of p.z 500⟩
    (cellAt cb.1 cb.2 (s.moved t (epochStart (o.epoch + 1)) (q.x.add (ttNum l 18), q.y.add (ttNum l 19)))).map fun c => (c, q.z.add (ttNum l 20))
  | _, _ => (Config.groundCell (s.ttWords o) (s.hgWords o.epoch) [p.x, p.y, p.z, t]).map fun c => (c % 80000, Frac.int 0)

/-- The raster of a lidar's objects: maximum height, point count and mean intensity of each cell that has a point. -/
def State.raster (s : State) (objs : List CvObj) : List RasterCell :=
  let ps := objs.flatMap fun o => o.points.filterMap fun p => (s.pointCell o p).map fun c => (c.1, c.2, p.intensity)
  ((ps.map Prod.fst).eraseDups).map fun c =>
    let here := (ps.filter fun p => p.1 == c).map Prod.snd
    let hs := here.map Prod.fst
    { cell := c, height := hs.foldl (fun a b => if a.lt b then b else a) ((hs.head?).getD (Frac.int 0)), count := here.length
      mean := Config.quot 30 (here.map Prod.snd).sum here.length }

end Sys2Proof.Machine
end

