-- ==== Sys2Proof/Machine/Release.lean ====
section
/-! DEFINITION.  Cuvee's sensors and the release of epochs (R155 to R158, R160, R161, R163). -/

namespace Sys2Proof.Machine

open Sys2Proof.Reg

/-- Set a sticky flag of CV_FLAGS, with event 0x21. -/
def State.cvFlag (s : State) (b : Nat) : State := s.flag CV_FLAGS.F CV_EVMASK.F b 0x21

/-! ### Sensor states (R163, Table 8.6) -/

def sensOff : Nat := 0
def sensActive : Nat := 1
def sensProbation : Nat := 2
def sensMasked : Nat := 3
def whySoftware : Nat := 1
def whyDropout : Nat := 2
def whyResidual : Nat := 3
def whyContra : Nat := 4

/-- Change the state of a sensor: record, event 0x22, the MASKED bits, and the counts of a mask. -/
def State.sensGo (s : State) (n : Fin 16) (st why : Nat) : State :=
  if s.get SENS_STAT.STATE n.val = st ∧ s.get SENS_STAT.REASON n.val = why then s
  else
    let s := (s.put SENS_STAT.STATE st n.val).put SENS_STAT.REASON why n.val
    let m := s.get GRID_STAT.MASKED
    let s := s.put GRID_STAT.MASKED (if st = sensMasked then m ||| 2 ^ n.val else m - (m &&& 2 ^ n.val))
    let s := s.modSens n fun d => { d with good := 0, bad := 0, deliv := 0 }
    let s := if st = sensMasked then (s.count SENS_CNT1.MASKS 1 n.val).cvFlag CV_FLAGS.MASK else s
    let s := if st = sensMasked ∧ why = whyDropout then s.count SENS_CNT1.DROPOUTS 1 n.val else s
    (s.record .sensState (node domFusion none8 n.val) [st + 16 * why]).raise 0x22

/-- Is a sensor masked for a reason? -/
def State.maskedFor (s : State) (n why : Nat) : Bool :=
  s.get SENS_STAT.STATE n == sensMasked && s.get SENS_STAT.REASON n == why

/-- PERIOD_S of a sensor (R156). -/
def State.sensPeriod (s : State) (n : Nat) : Nat :=
  let p := s.get SENS_PERIOD.PERIOD n
  if p ≠ 0 then p
  else if s.get SENS_CFG.KIND n = 1 then s.get CAM_PERIOD.PERIOD (s.get SENS_CFG.SRC n)
  else 1000000

/-- JIT in ticks. -/
def State.sensJit (s : State) (n : Nat) : Nat := s.get SENS_CFG.JIT n * 20000

/-- Is a camera sensor's port in OFF, LINK_WAIT or DROPOUT? -/
def State.sensPortDown (s : State) (n : Nat) : Bool :=
  s.get SENS_CFG.KIND n == 1 &&
    (let st := s.get CAM_LINK.STATE (s.get SENS_CFG.SRC n)
     st == 0 || st == 1 || st == 4)

/-! ### Late objects (R160, R161) -/

/-- REV_HORIZON in ticks. -/
def State.revHorizon (s : State) : Nat := min 600 (s.get CV_EPOCH.REV_HORIZON) * 20000000

/-- Are the conditions of R161 met for an object? -/
def State.revisable (s : State) (o : CvObj) : Bool :=
  s.on CV_CTL.REV_EN && s.get CV_EPOCH.REV_HORIZON != 0
    && decide (o.arrival ≤ epochStart (o.epoch + 1) + s.revHorizon)
    && (s.modelAt o.model o.epoch).isSome
    && (tableAt (s.cuvee.tt[o.sensor % 16]'(by omega)) o.epoch).isSome && (tableAt s.cuvee.hg o.epoch).isSome

/-- Release the frame slot that Cuvee holds for an object. -/
def State.unhold (s : State) (o : CvObj) : State :=
  match o.hold with
  | some (p, b) =>
    let h := s.get FR_HOLD.HOLD p
    s.put FR_HOLD.HOLD (h - (h &&& 2 ^ b)) p
  | none => s

/-- Hold the frame slot of an object whose image Cuvee reads (R148). -/
def State.holdSlot (s : State) (o : CvObj) : State :=
  match o.hold with
  | some (p, b) => s.put FR_HOLD.HOLD (s.get FR_HOLD.HOLD p ||| 2 ^ b) p
  | none => s

/-- Hand an object to Trellis as a revision, at once when its model has run, else after it, its image held; or drop it.
`held`: its slot is held already. -/
def State.revise (s : State) (o : CvObj) (held : Bool) : State :=
  if s.revisable o then
    let s := s.count CV_CNT0.REV
    if o.done then s.modCv fun c => { c with revs := c.revs ++ [{ o with parts := s.objParts o }] }
    else (s.holdSlot o).modCv fun c => { c with late := c.late ++ [o] }
  else
    let s := s.count CV_CNT1.LATE_DROP
    if held && !o.done then s.unhold o else s

/-! ### Release (R156, R158, R163) -/

/-- Is a sensor complete for epoch `k`? -/
def State.sensComplete (s : State) (k : Nat) (n : Fin 16) : Bool :=
  !s.on SENS_CFG.EN n.val || s.maskedFor n.val whySoftware || s.maskedFor n.val whyDropout || s.sensPortDown n.val
    || decide (epochStart (k + 1) + s.sensJit n.val ≤ (s.cuvee.sensors[n.val]).last + s.sensPeriod n.val)

/-- The dropout decisions at the release of epoch `k`, sensor by sensor. -/
def State.sensDropouts (s : State) (k : Nat) (objs : List CvObj) : State :=
  (List.finRange 16).foldl (fun t n =>
    if !t.on SENS_CFG.EN n.val || t.maskedFor n.val whySoftware then t
    else
      let silent := !(objs.any fun o => o.sensor == n.val) &&
        decide ((t.cuvee.sensors[n.val]).last + t.sensPeriod n.val + t.sensJit n.val < epochStart (k + 1))
      let run := if silent then min 15 (t.get SENS_STAT.DROP_RUN n.val + 1) else 0
      let t := t.put SENS_STAT.DROP_RUN run n.val
      if t.sensPortDown n.val || (silent && decide (max 1 (t.get CV_EPOCH.DROP_N) ≤ run)) then
        t.sensGo n sensMasked whyDropout
      else t) s

/-- The epoch of number `k`, made when absent. -/
def Cuvee.withEpoch (c : Cuvee) (k : Nat) : Cuvee :=
  if c.epochs.any fun e => e.k == k then c
  else
    let e : CvEpoch := { k := k, objs := [], released := none, rel := [], masked := 0, lateIn := false, lost := 0, rasters := [] }
    { c with epochs := (c.epochs.filter fun x => decide (x.k < k)) ++ [e] ++ (c.epochs.filter fun x => decide (k < x.k)) }

/-- Change the epoch of number `k`. -/
def Cuvee.modEpoch (c : Cuvee) (k : Nat) (f : CvEpoch → CvEpoch) : Cuvee :=
  { c with epochs := c.epochs.map fun e => if e.k = k then f e else e }

/-- Drop the epoch that waits when another is released behind it (R158). -/
def State.cvDropWaiting (s : State) : State :=
  match s.cuvee.epochs.filter fun e => e.released.isSome with
  | _ :: w :: _ :: _ =>
    let s := s.modCv fun c => { c with epochs := c.epochs.filter fun e => e.k != w.k }
    let s := ((s.count CV_CNT1.EP_DROP).cvFlag CV_FLAGS.EP_DROP).record .epochDrop (node domFusion none8 none8) [w.k]
    w.objs.foldl (fun t o => t.revise o true) s
  | _ => s

/-- Release the next epoch; `tmo` says that the limit passed.  The states with which the sensors come to the epoch are those before
the dropouts that its release decides (R163). -/
def State.cvRelease (s : State) (tmo : Bool) : State :=
  let k := s.cuvee.next
  let rel := (List.range 16).map fun n => (s.get SENS_STAT.STATE n, s.get SENS_STAT.REASON n)
  let s := s.modCv fun c => { (c.withEpoch k).modEpoch k fun e => { e with released := some s.mtc, rel := rel } with next := k + 1 }
  let s := if tmo then (s.count CV_CNT2.RELEASE_TMO).cvFlag CV_FLAGS.RELEASE_TMO else s
  let objs := (s.cuvee.epochs.filter fun e => e.k == k).flatMap CvEpoch.objs
  let s := s.sensDropouts k objs
  (s.modCv fun c => c.modEpoch k fun e => { e with masked := s.get GRID_STAT.MASKED }).cvDropWaiting

/-- Release every epoch that has ended and is complete, in order. -/
def State.cvTryRelease (s : State) : Nat → State
  | 0 => s
  | n + 1 =>
    if s.on CV_CTL.EN && decide (epochStart (s.cuvee.next + 1) ≤ s.mtc)
        && (List.finRange 16).all fun i => s.sensComplete s.cuvee.next i then
      (s.cvRelease false).cvTryRelease n
    else s

/-- As many releases as the time allows. -/
def State.cvReleaseAll (s : State) : State := s.cvTryRelease (s.mtc / epochTicks + 1 - s.cuvee.next)

end Sys2Proof.Machine
end

