-- ==== Sys2Proof/Machine/Camera.lean ====
section
/-! DEFINITION.  Camera ports: frames, settings, table sets and port states (R127 to R145). -/

namespace Sys2Proof.Machine

open Sys2Proof.Reg

def State.modCam (s : State) (n : Fin 10) (f : Cam → Cam) : State := { s with cams := upd s.cams n f }

/-- Set a sticky flag of CAM_FLAGS, with event 0x18. -/
def State.camFlag (s : State) (n : Fin 10) (b : Nat) : State := s.flag CAM_FLAGS.F CAM_EVMASK.F b 0x18 n.val

/-- Set a sticky flag under a condition. -/
def State.camFlagIf (s : State) (n : Fin 10) (c : Bool) (b : Nat) : State := if c then s.camFlag n b else s

/-- Change the state of a port, with its record and event 0x1A (R143); an epoch may thereby be complete (R156). -/
def State.camGo (s : State) (n : Fin 10) (st : CamState) : State :=
  let old := (s.cams[n.val]).st
  if old = st then s
  else
    (((((s.modCam n fun c => { c with st := st }).put CAM_LINK.STATE st.code n.val).record .camState
      (node domSensing none8 n.val) [old.code + 16 * st.code])).raise 0x1A).cvReleaseAll

/-! ### Rates (R129) -/

/-- NEXP, 0 treated as 1. -/
def State.camNexp (s : State) (n : Nat) : Nat := max 1 (s.get CAM_CFG.NEXP n)

/-- The declared pixel rate of a port, in Mpixel/s, as dividend and divisor. -/
def State.camRate (s : State) (n : Nat) : Frac :=
  Frac.of ((s.get CAM_SIZE.WIDTH n * s.get CAM_SIZE.HEIGHT n * s.camNexp n * 200 : Nat)) (max 1 (s.get CAM_PERIOD.PERIOD n))

/-- The sum of the rates of the enabled ports that satisfy `p`. -/
def State.camSum (s : State) (p : Nat → Bool) : Frac :=
  (List.range 10).foldl (fun a n => if s.on CAM_CFG.EN n && p n then a.add (s.camRate n) else a) (Frac.int 0)

/-- The rate limits of R129 for the pipe of port `n` and for the module. -/
def State.camRatesOk (s : State) (n : Nat) : Bool :=
  decide (s.get CAM_CFG.PIPE n < 4) && decide (0 < s.get CAM_PERIOD.PERIOD n)
    && (s.camRate n).le (Frac.int 250)
    && (s.camSum fun k => s.get CAM_CFG.PIPE k == s.get CAM_CFG.PIPE n).le (Frac.int 400)
    && (s.camSum fun _ => true).le (Frac.int 1200)

/-- PIPE_STAT.LOAD and PORTS of every pipe. -/
def State.camLoads (s : State) : State :=
  forUpTo 4 (fun p t =>
    let l := s.camSum fun k => s.get CAM_CFG.PIPE k == p
    let ports := ((List.range 10).map fun k => if s.on CAM_CFG.EN k && s.get CAM_CFG.PIPE k == p then 2 ^ k else 0).sum
    (t.put PIPE_STAT.LOAD (Config.quot 4 l.num.toNat l.den) p).put PIPE_STAT.PORTS ports p) s

/-! ### Settings (R140, R141) -/

/-- Add the prediction of a setting whose set has ended. -/
def State.camPredict (s : State) (n : Fin 10) (d : CamSend) : State :=
  let c := s.cams[n.val]
  let opened := c.frames + (if c.frame.isSome then 1 else 0)
  let late := decide (d.frame < opened)
  let first := d.frame + (if late then 2 else 1) + s.get CAM_CFG.LAT n.val
  (s.modCam n fun c => { c with preds := (d.gen, first) :: c.preds }).camFlagIf n late CAM_FLAGS.SEND_LATE

/-- A port whose EN is 0 enters OFF once no frame is open and no set is being sent. -/
def State.camMayClose (s : State) (n : Fin 10) : State :=
  let c := s.cams[n.val]
  if c.closing && c.frame.isNone && c.send.isNone then
    (s.modCam n fun c => { c with closing := false, lastFs := none, missRun := 0, good := 0 }).camGo n .off
  else s

/-- Assign the next GEN to a set of writes and begin to send it: after the FE of the open frame, or at once. -/
def State.camSend (s : State) (n : Fin 10) (base : List (Nat × Nat)) : State :=
  let gen := (s.get SET_CTL.GEN n.val + 1) % 256
  let c := s.cams[n.val]
  let extra := if s.on CAM_CFG.GEN_REG_EN n.val then [(s.get SET_GENREG.REG n.val, gen)] else []
  let d : CamSend := ⟨gen, base, base ++ extra, 0, c.frames + (if c.frame.isSome then 1 else 0), c.frame.isSome⟩
  ((s.put SET_CTL.GEN gen n.val).putB SET_CTL.GO true n.val).modCam n fun c => { c with send := some d }

/-! ### Frames -/

/-- A port in LINK_WAIT whose link is up and that sends no setting enters ADMIT (R143). -/
def State.camAdmit (s : State) (n : Fin 10) : State :=
  let c := s.cams[n.val]
  if c.st == .linkWait && s.on CAM_LINK.LINK_UP n.val && c.send.isNone then
    (s.modCam n fun c => { c with lastFs := none, missRun := 0, good := 0 }).camGo n .admitting
  else s

/-- The link of a port in LINK_WAIT is up: the last complete setting is replayed under a new GEN, and after it the port enters
ADMIT (R143). -/
def State.camReplay (s : State) (n : Fin 10) : State :=
  let c := s.cams[n.val]
  if c.st = .linkWait ∧ s.on CAM_LINK.LINK_UP n.val then
    match c.lastSet, c.send with
    | some ws, none => s.camSend n ws
    | _, _ => s.camAdmit n
  else s

/-- No frame of pipe `p` is open under a table set of another generation: the exchange is complete (R139). -/
def State.pipeSettle (s : State) (p : Nat) : State :=
  let old := s.cams.any fun c =>
    match c.frame with
    | some f => f.cfg.pipe == p && f.tblGen != s.get PIPE_STAT.TBL_GEN p
    | none => false
  if s.on PIPE_CTL.TBL_SWITCH p && !old then (s.putB PIPE_CTL.TBL_SWITCH false p).raise 0x1B else s

/-- The generation of a frame and its source (R141), and whether the embedded byte differs from the prediction. -/
def State.camGen (s : State) (n : Fin 10) (f : CamFrame) (number : Nat) : Nat × Nat × Bool :=
  let pred := (s.cams[n.val]).preds.find? fun p => decide (p.2 ≤ number)
  let g := (pred.map Prod.fst).getD 0
  match f.cfg.embEn, f.emb with
  | true, some bs =>
    match bs[f.cfg.embByte]? with
    | some e => (e % 256, 2, e % 256 != g)
    | none => (g, if pred.isSome then 1 else 0, false)
  | _, _ => (g, if pred.isSome then 1 else 0, false)

/-- LINE_T: the mean interval between the starts of valid lines (R131). -/
def State.camLineT (s : State) (starts : List Nat) : Nat :=
  match starts.head?, starts.getLast? with
  | some a, some b => if starts.length < 2 then Config.lineTime s.free else Config.quot 5 (a - b) (starts.length - 1)
  | _, _ => Config.lineTime s.free

/-- Close the open frame of a port (R132 to R134, R142): `overrun`, `link`, `hdr` and `cut` (FE missing) say how.  A frame that
the loss of the link closes is flagged LINK alone (Table 7.2). -/
def State.camClose (s : State) (n : Fin 10) (overrun link hdr cut : Bool) : State :=
  match (s.cams[n.val]).frame with
  | none => s
  | some f =>
    let counts := f.lines.map List.length
    let valid := counts.foldl min f.cfg.height
    let inc := !link && counts.any fun k => k != valid && decide (valid < f.cfg.height)
    let short := !link && (decide (valid < f.cfg.height) || cut || overrun || hdr)
    let number := (s.cams[n.val]).frames + 1
    let fseq := number % 65536
    let sh := f.tblGen != s.get PIPE_STAT.TBL_GEN f.cfg.pipe
    let g := s.camGen n f number
    let probation := (s.cams[n.val]).st == .admitting
    let lineT := s.camLineT (f.starts.drop (f.starts.length - valid))
    let acq := (f.fs + 2 ^ 64 - f.cfg.sensorOfs) % 2 ^ 64
    let im := s.image f sh valid
    let w := f.cfg.width
    -- the image, the taps and the statistics reach memory
    let s := s.fresh.count PIPE_CNT1.DPC_SKIP im.skipped f.cfg.pipe
    let s := if f.slot.isNone then s else s.fabWriteBytes f.cfg.slotAddr (packOut im f.cfg.fmt f.cfg.scale valid w)
    let s := if f.slot.isSome && f.cfg.tapLin then
        s.fabWriteBytes (f.cfg.slotAddr + f.cfg.ofsLin) (packPlane (nthPlane im.lin f.cfg.linExp) valid w) else s
    let s := if f.slot.isSome && f.cfg.tapMerge then
        s.fabWriteBytes (f.cfg.slotAddr + f.cfg.ofsMerge) (packPlane im.merged valid w) else s
    let s := if f.slot.isSome && f.cfg.tapTone then
        s.fabWriteBytes (f.cfg.slotAddr + f.cfg.ofsTone) (packTone im valid w) else s
    let stat := f.cfg.statBase + 4096 * (fseq % 16)
    let s := (s.fabWrite (stat + 0x10) [0, 0, 0, 0]).fabWrite (stat + 0x20) (histogram im valid w ++ zones im valid w f.cfg.height)
    -- flags and counters
    let s := s.camFlagIf n (0 < f.crcLines) CAM_FLAGS.CRC
    let s := (s.camFlagIf n hdr CAM_FLAGS.HDR).camFlagIf n short CAM_FLAGS.SHORT
    let s := if short then s.count CAM_CNT1.SHORT 1 n.val else s
    let s := (s.camFlagIf n f.long CAM_FLAGS.LONG).camFlagIf n inc CAM_FLAGS.MERGE_INC
    let s := s.camFlagIf n overrun CAM_FLAGS.OVERRUN
    let s := if overrun then s.count PIPE_CNT.OVERRUN 1 f.cfg.pipe else s
    let s := s.camFlagIf n g.2.2 CAM_FLAGS.GEN_MIS
    let s := if g.2.2 then s.count CAM_CNT3.GEN_MISMATCH 1 n.val else s
    -- the descriptor and the statistics header, to be written
    let w0 := fseq + 2 ^ 16 * b2n (0 < f.crcLines) + 2 ^ 17 * b2n short + 2 ^ 18 * b2n f.long + 2 ^ 19 * b2n f.late
      + 2 ^ 20 * b2n f.early + 2 ^ 21 * b2n overrun + 2 ^ 22 * b2n f.slot.isNone + 2 ^ 23 * b2n link
      + 2 ^ 24 * b2n g.2.2 + 2 ^ 25 * b2n probation + 2 ^ 26 * b2n inc + 2 ^ 27 * b2n hdr
    let desc := [w0, acq % 2 ^ 32, acq / 2 ^ 32 % 2 ^ 32, valid + 2 ^ 16 * min f.extra 4095 + 2 ^ 28 * f.miss,
      g.1 + 2 ^ 8 * g.2.1 + 2 ^ 12 * f.slot.getD 0 + 2 ^ 16 * f.tblGen, f.fs % 2 ^ 32, f.delta,
      lineT % 65536 + 2 ^ 16 * min f.crcLines 65535]
    let head := [fseq + 2 ^ 16 * g.1 + 2 ^ 24 * g.2.1, valid + 2 ^ 16 * f.tblGen, acq % 2 ^ 32, acq / 2 ^ 32 % 2 ^ 32]
    let da := f.cfg.descBase + 32 * (fseq % 64)
    let good := !(short || f.long || hdr || overrun || inc)
    let s := s.modCam n fun c =>
      { c with
        frame := none, frames := number, closed := c.closed ++ [⟨stat, da, desc, head, false⟩]
        good := if good then c.good + 1 else 0
        send := c.send.map fun d => { d with waitFe := d.waitFe && d.frame != number } }
    let s := ((s.put CAM_FRAME.FSEQ fseq n.val).put CAM_FRAME.GEN_LAST g.1 n.val).putB CAM_FRAME.WACT false n.val
    let s := if s.on CAM_CFG.FRAME_EV n.val then s.raise 0x19 else s
    let s := if probation && decide (max 1 (s.get CAM_TOL.ADMIT_N n.val) ≤ (s.cams[n.val]).good) then s.camGo n .run else s
    (s.pipeSettle f.cfg.pipe).camMayClose n

/-- The slot for a new frame: the next after the one last written, skipping held slots (R133). -/
def State.camSlot (s : State) (n : Fin 10) : Option Nat :=
  let nbuf := clampN 2 16 (s.get FR_CFG.NBUF n.val)
  let from_ := match (s.cams[n.val]).lastSlot with
    | some k => k + 1
    | none => 0
  ((List.range nbuf).map fun d => (from_ + d) % nbuf).find? fun k => !bit (s.get FR_HOLD.HOLD n.val) k

/-- The configuration a frame takes at its FS. -/
def State.camFrameCfg (s : State) (n : Fin 10) (slot : Option Nat) : CamCfg :=
  let i := n.val
  let p := s.get CAM_CFG.PIPE i % 4
  { pipe := p, cfa := s.get PIPE_CFG.CFA p, mono := s.on PIPE_CFG.MONO p, dynEn := s.on PIPE_CFG.DYN_EN p
    embByte := s.get SET_GENREG.EMB_BYTE i, sensorOfs := s.get CAM_OFS.SENSOR_OFS i
    statBase := s.addr40 STAT_BASE_LO.ADDR STAT_BASE_HI.ADDR i, descBase := s.addr40 DESC_BASE_LO.ADDR DESC_BASE_HI.ADDR i
    dt := s.get CAM_CFG.DT i, nexp := s.camNexp i, vcbase := s.get CAM_CFG.VCBASE i
    embEn := s.on CAM_CFG.EMB_EN i, width := s.get CAM_SIZE.WIDTH i, height := s.get CAM_SIZE.HEIGHT i
    fmt := s.get OUT_CFG.FMT i, scale := 2 ^ min 2 (s.get OUT_CFG.SCALE i), tapLin := s.on OUT_CFG.TAP_LIN i
    tapMerge := s.on OUT_CFG.TAP_MERGE i, tapTone := s.on OUT_CFG.TAP_TONE i, linExp := s.get OUT_CFG.LIN_EXP i
    slotAddr := s.addr40 FR_BASE_LO.ADDR FR_BASE_HI.ADDR i + slot.getD 0 * s.get FR_CFG.STRIDE i * 4096
    ofsLin := 4096 * s.get TAP_OFS.OFS i 0, ofsMerge := 4096 * s.get TAP_OFS.OFS i 1
    ofsTone := 4096 * s.get TAP_OFS.OFS i 2 }

/-- Open a frame at its FS (R131 to R133). -/
def State.camOpen (s : State) (n : Fin 10) : State :=
  let c := s.cams[n.val]
  let period := s.get CAM_PERIOD.PERIOD n.val
  let tol := 200 * s.get CAM_TOL.LATE_TOL n.val
  let delta := match c.lastFs with
    | some t => s.mtc - t
    | none => 0
  let checked := c.lastFs.isSome
  let late := checked && decide (period + tol < delta)
  let early := checked && decide (delta + tol < period)
  let miss := if checked ∧ 0 < period then min 15 ((2 * delta + period) / (2 * period) - 1) else 0
  let s := s.camFlagIf n late CAM_FLAGS.LATE
  let s := if late then s.count CAM_CNT2.LATE 1 n.val else s
  let s := s.camFlagIf n early CAM_FLAGS.EARLY
  let s := if early then s.count CAM_CNT4.EARLY 1 n.val else s
  let slot := s.camSlot n
  let s := if slot.isNone then (s.camFlag n CAM_FLAGS.NOBUF).count CAM_CNT3.NOBUF 1 n.val else s
  let cfg := s.camFrameCfg n slot
  let f : CamFrame :=
    { cfg := cfg, slot := slot, fs := s.mtc, delta := delta % 2 ^ 32, miss := miss, late := late, early := early
      tblGen := s.get PIPE_STAT.TBL_GEN cfg.pipe, lines := List.replicate cfg.nexp [], starts := [], crcLines := 0
      extra := 0, long := false, emb := none, fsSeen := 1, feSeen := 0 }
  let s := s.modCam n fun c =>
    { c with frame := some f, lastFs := some s.mtc, missRun := 0, lastSlot := if slot.isSome then slot else c.lastSlot }
  let s := ((s.put CAM_FRAME.WBUF (slot.getD 0) n.val).putB CAM_FRAME.WACT true n.val)
  s.put64 CAM_FS_LO.MTC s.mtc n.val

/-- The exposure of a virtual channel of a port, if it is one. -/
def camExposure (vcbase nexp vc : Nat) : Option Nat := if vcbase ≤ vc ∧ vc < vcbase + nexp then some (vc - vcbase) else none

/-- Is a port receiving? -/
def Cam.receiving (c : Cam) : Bool := c.st == .admitting || c.st == .run || c.st == .dropout

/-- The header of a packet (Table 7.1, Table 7.2): a correction is counted; a packet whose header cannot be corrected is
dropped and counted, and the frame closes before it. -/
def State.camHeader (s : State) (n : Fin 10) (eccCorr eccBad : Bool) : State :=
  let s := if eccCorr then s.count CAM_CNT0.ECC_CORR 1 n.val else s
  if eccBad then (s.count CAM_LINK.LINK_ERR 1 n.val).camClose n false false true false else s

/-- An FS packet (R131, R132). -/
def execCamFs (n : Fin 10) (p : CamShort) (s : State) : Host.Outcome State Fault Refusal :=
  s.act (
    let c := s.cams[n.val]
    let s := if c.receiving then s.camHeader n p.eccCorr p.eccBad else s
    if c.receiving && !p.eccBad then
      match camExposure (s.get CAM_CFG.VCBASE n.val) (s.camNexp n.val) p.vc with
      | none => s
      | some k =>
        let again := match c.frame with
          | some f => bit f.fsSeen k
          | none => false
        let s := if again then s.camClose n false false false true else s
        if k = 0 then
          if (s.cams[n.val]).closing ∨ !(s.cams[n.val]).receiving then s
          else
            let s := if (s.cams[n.val]).st = .dropout then
                (s.modCam n fun c => { c with lastFs := none, good := 0 }).camGo n .admitting else s
            s.camOpen n
        else s.modCam n fun c => { c with frame := c.frame.map fun f => { f with fsSeen := f.fsSeen ||| 2 ^ k } }
    else s)

/-- Is a data type one of Table 7.1? -/
def camDtKnown (dt : Nat) : Bool := dt == 0x12 || (decide (0x2A ≤ dt) && decide (dt ≤ 0x2E))

/-- A long packet (R128, R130, R132, Table 7.2). -/
def execCamLine (n : Fin 10) (p : CamPacket) (s : State) : Host.Outcome State Fault Refusal :=
  s.act (
    let open_ := (s.cams[n.val]).receiving || (s.cams[n.val]).frame.isSome
    let s := if open_ then s.camHeader n p.eccCorr p.eccBad else s
    if p.eccBad ∨ !open_ then s
    else
      match (s.cams[n.val]).frame with
      | none =>
        if (camExposure (s.get CAM_CFG.VCBASE n.val) (s.camNexp n.val) p.vc).isSome && !camDtKnown p.dt then
          s.count CAM_LINK.LINK_ERR 1 n.val
        else s
      | some f =>
        match camExposure f.cfg.vcbase f.cfg.nexp p.vc with
        | none => s
        | some k =>
          if p.overrun then s.camClose n true false false false
          else if !camDtKnown p.dt ∨ (p.dt ≠ 0x12 ∧ p.dt ≠ f.cfg.dt) then s.count CAM_LINK.LINK_ERR 1 n.val
          else
            let s := if p.crcErr then s.count CAM_CNT0.CRC 1 n.val else s
            let setF := fun (g : CamFrame → CamFrame) => s.modCam n fun c => { c with frame := c.frame.map g }
            if p.dt = 0x12 then
              if k = 0 then setF fun f => { f with emb := if f.emb.isNone then some p.codes else f.emb } else s
            else if p.codes.length < f.cfg.width then s.camClose n false false false true
            else if f.cfg.height ≤ ((f.lines[k]?).getD []).length then
              (setF fun f => { f with extra := f.extra + 1, long := true }).count CAM_CNT1.EXTRA 1 n.val
            else
              setF fun f =>
                { f with
                  lines := f.lines.modify k fun ls => p.codes.take f.cfg.width :: ls
                  starts := if k = 0 then p.lineStart.getD s.mtc :: f.starts else f.starts
                  crcLines := f.crcLines + b2n p.crcErr
                  long := f.long || decide (f.cfg.width < p.codes.length) })

/-- An FE packet closes the frame once every exposure's FE has come (R132). -/
def execCamFe (n : Fin 10) (p : CamShort) (s : State) : Host.Outcome State Fault Refusal :=
  s.act (
    let s := if (s.cams[n.val]).receiving || (s.cams[n.val]).frame.isSome then s.camHeader n p.eccCorr p.eccBad else s
    match if p.eccBad then none else (s.cams[n.val]).frame with
    | none => s
    | some f =>
      match camExposure f.cfg.vcbase f.cfg.nexp p.vc with
      | none => s
      | some k =>
        let seen := f.feSeen ||| 2 ^ k
        let s := s.modCam n fun c => { c with frame := c.frame.map fun f => { f with feSeen := seen } }
        if seen = 2 ^ f.cfg.nexp - 1 then s.camClose n false false false false else s)

/-- No FS within the tolerance of its expected instant (R132). -/
def execCamMissingPeriod (n : Fin 10) (s : State) : Host.Outcome State Fault Refusal :=
  s.act (
    let c := s.cams[n.val]
    if c.receiving && c.frame.isNone then
      let s := ((s.camFlag n CAM_FLAGS.MISSING).count CAM_CNT2.MISSING 1 n.val).modCam n fun c =>
        { c with missRun := c.missRun + 1 }
      if max 1 (s.get CAM_TOL.MISS_LIMIT n.val) ≤ c.missRun + 1 then s.camGo n .dropout else s
    else s)

/-- The descriptor of the oldest closed frame, once its statistics are whole (R134); word 0 last. -/
def execCamDescriptorWrite (n : Fin 10) (s : State) : Host.Outcome State Fault Refusal :=
  s.act (
    match (s.cams[n.val]).closed with
    | d :: rest =>
      if d.headDone then
        ((s.modCam n fun c => { c with closed := rest }).fabWrite (d.descAddr + 4) (d.desc.drop 1)).fabWrite d.descAddr
          (d.desc.take 1)
      else s
    | [] => s)

/-- The statistics header of the oldest frame that lacks it (R142); word 0 last. -/
def execCamStatsWrite (n : Fin 10) (s : State) : Host.Outcome State Fault Refusal :=
  s.act (
    match (s.cams[n.val]).closed.find? fun d => !d.headDone with
    | some d =>
      let k := ((s.cams[n.val]).closed.takeWhile fun d => d.headDone).length
      ((s.modCam n fun c => { c with closed := c.closed.modify k fun d => { d with headDone := true } }).fabWrite
        (d.statAddr + 4) (d.head.drop 1)).fabWrite d.statAddr (d.head.take 1)
    | none => s)

/-- The link comes up (R143). -/
def execCamLinkUp (n : Fin 10) (s : State) : Host.Outcome State Fault Refusal :=
  s.act ((s.putB CAM_LINK.LINK_UP true n.val).camReplay n)

/-- The link is lost (R143, Table 7.2, Table 7.11). -/
def execCamLinkLoss (n : Fin 10) (s : State) : Host.Outcome State Fault Refusal :=
  s.act (
    let s := ((s.putB CAM_LINK.LINK_UP false n.val).camFlag n CAM_FLAGS.LINK_LOSS).count CAM_LINK.LINK_ERR 1 n.val
    let s := s.camClose n false true false false
    let s : State := match (s.cams[n.val]).send with
      | some d =>
        let s := ((s.camFlag n CAM_FLAGS.NACK).record .camSetFail (node domSensing none8 n.val) [d.gen + 2 ^ 8 * 0x1F])
        (s.putB SET_CTL.GO false n.val).modCam n fun c => { c with send := none }
      | none => s
    let s := s.camMayClose n
    if (s.cams[n.val]).st = .off then s
    else (s.modCam n fun c => { c with lastFs := none, missRun := 0, good := 0 }).camGo n .linkWait)

/-- 2 × PERIOD after EN was written to 0 the open frame closes (R143). -/
def execCamDisableTimeout (n : Fin 10) (s : State) : Host.Outcome State Fault Refusal :=
  s.act (if (s.cams[n.val]).closing then (s.camClose n false false false true).camMayClose n else s)

/-- The fields of CAM_CFG, CAM_SIZE and CAM_PERIOD. -/
def camCfgFields (reg : Fin 3) : List Fld :=
  match reg with
  | 0 => [CAM_CFG.EN, CAM_CFG.PIPE, CAM_CFG.DT, CAM_CFG.NEXP, CAM_CFG.VCBASE, CAM_CFG.EMB_EN, CAM_CFG.LAT,
      CAM_CFG.GEN_REG_EN, CAM_CFG.FRAME_EV]
  | 1 => [CAM_SIZE.WIDTH, CAM_SIZE.HEIGHT]
  | 2 => [CAM_PERIOD.PERIOD]

/-- A write of CAM_CFG, CAM_SIZE or CAM_PERIOD (R129, R143): refused whole when the rate limits would not hold. -/
def State.camCfgWrite (s : State) (n : Fin 10) (reg : Fin 3) (value : Nat) : State :=
  let was := s.on CAM_CFG.EN n.val
  let t := s.putWord (camCfgFields reg) value n.val
  if t.on CAM_CFG.EN n.val && !t.camRatesOk n.val then s.camFlag n CAM_FLAGS.CFG_ERR
  else
    let t := t.camLoads
    let now := t.on CAM_CFG.EN n.val
    if now && !was then
      let t := t.modCam n fun c => { c with closing := false }
      if (t.cams[n.val]).st = .off then (t.camGo n .linkWait).camReplay n else t
    else if was && !now then (t.modCam n fun c => { c with closing := true }).camMayClose n
    else t

def execCamCfgWrite (n : Fin 10) (reg : Fin 3) (value : Nat) (rq : Req) (s : State) : Host.Outcome State Fault Refusal :=
  s.act (if rq.sup then (s.camCfgWrite n reg value).cvReleaseAll else s)

/-- An ignored write to the setting registers while GO reads 1 (R140). -/
def State.camSetIgnored (s : State) (n : Fin 10) : State := (s.camFlag n CAM_FLAGS.SET_IGN).count CAM_CNT4.SET_IGN 1 n.val

/-- A write of SET_CTL with GO = 1 (R140); program privilege suffices (R127). -/
def State.camSetGo (s : State) (n : Fin 10) (nw : Nat) : State :=
  if s.on SET_CTL.GO n.val then s.camSetIgnored n
  else
    let s := s.put SET_CTL.NW nw n.val
    let k := clampN 1 16 (s.get SET_CTL.NW n.val)
    s.camSend n ((List.range k).map fun j => (s.get SET_W.REG n.val j, s.get SET_W.DATA n.val j))

def execSetGo (n : Fin 10) (nw : Nat) (s : State) : Host.Outcome State Fault Refusal := s.act (s.camSetGo n nw)

/-- One I²C write of the set ends (R140, R141). -/
def execSetWriteDone (n : Fin 10) (ack : Bool) (s : State) : Host.Outcome State Fault Refusal :=
  s.act (
    match (s.cams[n.val]).send with
    | none => s
    | some d =>
      if d.waitFe then s
      else if ack then
        if d.writes.length ≤ d.sent + 1 then
          let s := s.camPredict n d
          let s := s.modCam n fun c => { c with send := none, lastSet := some d.base }
          (((s.put SET_DONE_MTC.MTC s.mtc n.val).putB SET_CTL.GO false n.val).camMayClose n).camAdmit n
        else s.modCam n fun c => { c with send := some { d with sent := d.sent + 1 } }
      else
        let s := (s.camPredict n d).camFlag n CAM_FLAGS.NACK
        let s := s.record .camSetFail (node domSensing none8 n.val) [d.gen + 2 ^ 8 * d.sent]
        (((s.modCam n fun c => { c with send := none }).putB SET_CTL.GO false n.val).camMayClose n).camAdmit n)

/-- An exchange of a pipe's table sets (R139). -/
def State.tblSwitch (s : State) (p : Fin 4) : State :=
  if s.on PIPE_CTL.TBL_SWITCH p.val then s.count PIPE_CNT.SHADOW_IGN 1 p.val
  else
    let base := 0x20410000 + 0x4000 * p.val
    let old := s.get PIPE_STAT.TBL_GEN p.val
    let s := s.swapRange (base + 0x40) (base + 0x80) 0x80
    let s := s.swapRange (base + 0x1000) (base + 0x1404) 0x800
    let s := s.swapRange (base + 0x2000) (base + 0x2C04) 0x1000
    let s := (s.bumpMod PIPE_STAT.TBL_GEN p.val).putB PIPE_CTL.TBL_SWITCH true p.val
    let s := s.record .pipeTbl (node domSensing p.val none8) [old + 2 ^ 8 * s.get PIPE_STAT.TBL_GEN p.val]
    s.pipeSettle p.val

def execTblSwitch (p : Fin 4) (rq : Req) (s : State) : Host.Outcome State Fault Refusal :=
  s.act (if rq.sup then s.tblSwitch p else s)

end Sys2Proof.Machine
end

