-- ==== Sys2Proof/Machine/CoreOps.lean ====
section
/-! DEFINITION.  The mechanics of the function cores that many units touch: the schedule's starting and resuming (R77 to
R79), the end of an activation (R58), locks (R61, R84) and mailboxes (R62, R86, R87, R89). -/

namespace Sys2Proof.Machine

open Sys2Proof.Reg

/-! ### The schedule -/

/-- The byte of a slot in a bank's slot map (R75). -/
def State.slotByte (s : State) (c bank slot : Nat) : Nat := bits (s.get SLOTMAP.W c bank (slot / 4)) (8 * (slot % 4)) 8

/-- The entry that owns a slot of the active bank, if the slot is not idle (R75). -/
def State.slotOwner (s : State) (c : Fin 16) (slot : Nat) : Option Nat :=
  let b := s.slotByte c.val (s.core c).bank.val slot
  if bit b 6 then none else some (b % 32)

/-- A new activation of entry `e` (R46). -/
def State.newAct (s : State) (c : Fin 16) (e : Nat) : Act :=
  let bk := (s.core c).bank.val
  { entry := e
    ctx := { (Ctx.zero.setG 1 (BitVec.ofNat 32 (s.get ENT_ARG.W c.val bk e))) with
      pc := BitVec.ofNat 32 (4 * s.get ENT_PC.PC c.val bk e)
      priv := s.on ENT_CTL.PRIV c.val bk e }
    wait := none
    since := 0
    missed := false }

/-- Begin an activation, when there is a context for it (R77). -/
def State.startAct (s : State) (c : Fin 16) (e : Nat) : State :=
  if ((s.core c).act e).isSome || decide (8 ≤ (s.core c).acts.length) then s.count START_CNT.SKIP 1 c.val
  else s.modCore c fun k => { k with acts := k.acts ++ [s.newAct c e] }

/-- Does what a slot owes still begin or go on: a start for which there is a context, or an activation that waits for nothing? -/
def State.owes (s : State) (c : Fin 16) (p : Owed) : Bool :=
  match (s.core c).act p.entry with
  | some a => !p.start && a.wait.isNone
  | none => p.start && decide ((s.core c).acts.length < 8)

/-- Start or resume what earlier slots owe, counting each that starts or resumes as late where its slot was overrun (R79).  A
start whose slot is itself over by then is made all the same (DESIGN CHOICE, log entry 59). -/
def State.payOwed (s : State) (c : Fin 16) : State :=
  let owed := (s.core c).owed
  let s0 := s.modCore c fun k => { k with owed := [] }
  owed.foldl (fun t p =>
    let due := t.owes c p
    let t := if p.start then t.startAct c p.entry else t
    if p.late && due then t.count START_CNT.LATE 1 c.val else t) s0

/-- Let the activation that owns the slot in progress execute, if the core is free and it does not wait, not even for the next
slot of its entry (R78). -/
def State.settle (s : State) (c : Fin 16) : State :=
  if (s.core c).executing || (s.core c).life != .running || (s.core c).resetting then s
  else
    let t := s.payOwed c
    match t.slotOwner c (t.core c).slot with
    | none => t
    | some e =>
      match (t.core c).act e with
      | some a => if a.wait.isNone && !a.missed then t.modCore c fun k => { k with cur := some e } else t
      | none => t

/-- At an instruction boundary, take the cause that stands there (Table 3.19), or a SLOT_END that the schedule has raised, once
EXL is 0 and no LOCK is waited for (R65, R79). -/
def State.boundary (s : State) (c : Fin 16) : State :=
  let k := s.core c
  if k.exl || k.lockWait.isSome || !k.executing then s
  else
    match k.standing, k.slotEnd with
    | some x, _ => s.modCore c fun y => y.enterStanding (s.status c) x
    | none, some n =>
      if k.cur.isNone then s
      else s.modCore c fun x => { x.enter (s.status c) ⟨0x09, 0, false, x.ctx.pc, BitVec.ofNat 32 n⟩ with slotEnd := none }
    | none, none => s

/-! ### Locks -/

/-- The HOLDER field of Table 3.15: the number of a requester, 0xFF for none. -/
def holderNo (h : Option Node) : Nat :=
  match h with
  | some d => d.req
  | none => 0xFF

/-- Complete the LOCK that core `c` waits in, with a status word in its destination. -/
def State.endLockWait (s : State) (c : Fin 16) (w : Word) : State :=
  match (s.core c).lockWait with
  | none => s
  | some lw =>
    (s.modCore c fun k => { (k.modCtx fun x => (x.setG lw.a w).next) with lockWait := none }).boundary c |>.takeEvent c

/-- Pass a released lock to its next waiter, or leave it free (R61, R84). -/
def State.passLock (s : State) (n : Fin 256) : State :=
  match s.locks[n.val].waiters with
  | [] => s.modLock n fun l => { Lock.free with back := l.back }
  | w :: ws =>
    let t := s.modLock n fun l => { l with holder := some w, waiters := ws, orphan := false }
    if h : w.req < 16 then t.endLockWait ⟨w.req, h⟩ (lockStatus 0x00 0xFF) else t

/-- Release every lock a node holds but the orphaned ones, which R85 releases; the count of releases goes to LK_REL_CNT of its
core (R58). -/
def State.releaseAll (s : State) (d : Node) : State :=
  (List.finRange 256).foldl (fun t n =>
    if t.locks[n.val].holder = some d ∧ !t.locks[n.val].orphan then (t.count LK_REL_CNT.CNT 1 d.req).passLock n else t) s

/-! ### The end of an activation (R58) -/

/-- The sticky flags of a context in FLAG_SUM's order (SAT, OVF, then FNV to FNX at bits 8 to 12 of the field). -/
def Ctx.sticky (x : Ctx) : Nat :=
  b2n x.sat + 2 * b2n x.ovf + 2 ^ 8 * b2n x.fnv + 2 ^ 9 * b2n x.fdz + 2 ^ 10 * b2n x.fof + 2 ^ 11 * b2n x.fuf
    + 2 ^ 12 * b2n x.fnx

/-- End the activation of entry `e`: OR its sticky flags into FLAG_SUM, release its locks and drop its context. -/
def State.endAct (s : State) (c : Fin 16) (e : Nat) : State :=
  match (s.core c).act e with
  | none => s
  | some a =>
    let t := s.put FLAG_SUM.F (s.get FLAG_SUM.F c.val ||| a.ctx.sticky) c.val
    let t := match (t.core c).lockWait with
      | some lw => if (t.core c).cur = some e then
          ((t.modCore c fun k => { k with lockWait := none }).withdraw (Fin.ofNat 256 lw.lock) ⟨c.val, e⟩) else t
      | none => t
    let t := t.releaseAll ⟨c.val, e⟩
    t.modCore c fun k =>
      { k with
        acts := k.acts.filter fun b => b.entry != e
        cur := if k.cur = some e then none else k.cur
        overSlots := if k.cur = some e then none else k.overSlots
        slotEnd := if k.cur = some e then none else k.slotEnd }

/-- End every activation of a core (R60, R81). -/
def State.endAllActs (s : State) (c : Fin 16) : State :=
  (s.core c).acts.foldl (fun t a => t.endAct c a.entry) s

/-! ### Mailboxes -/

/-- DEPTH of a mailbox, 0 treated as 1 (Table 4.8). -/
def State.mbDepth (s : State) (m : Nat) : Nat := max 1 (s.get MB_CFG.DEPTH 0 m)

/-- MAXW of a mailbox, 0 treated as 1 (Table 4.8). -/
def State.mbMaxw (s : State) (m : Nat) : Nat := max 1 (s.get MB_CFG.MAXW 0 m)

/-- Change the queue of a mailbox. -/
def State.modMbox (s : State) (m : Fin 64) (f : List Msg → List Msg) : State := { s with mbox := upd s.mbox m f }

/-- The words a receiver with limit `limit` takes from a message, and the status: TRUNCATED when it is longer. -/
def Msg.status (g : Msg) (limit : Nat) : Word :=
  mbStatus (if limit < g.words.length then 0x06 else 0x00) (min limit g.words.length) g.sender

/-- Put a message into DTCM of a core, up to the receive limit.  `addr` is a core address in DTCM. -/
def State.toDtcm (s : State) (c : Fin 16) (addr limit : Nat) (g : Msg) : State :=
  s.modCore c fun k => { k with dtcm := k.dtcm.writeWords (addr - 0x20000) (g.words.take limit) }

/-- End the wait of the activation of entry `e`, with a word in a register; it resumes as R78 states: at once, or, where
another activation executes, with the next slot of its entry. -/
def State.endWait (s : State) (c : Fin 16) (e : Nat) (a : Fin 32) (w : Word) : State :=
  (s.modCore c fun k => k.modAct e fun x =>
    { x with wait := none, missed := k.executing, ctx := (x.ctx.setG a w).next }).settle c

/-- The activation that has waited longest in MRECVW on mailbox `m`: core, entry and wait (R62). -/
def State.firstReceiver (s : State) (m : Nat) : Option (Fin 16 × Act) :=
  let all := (List.finRange 16).flatMap fun c => ((s.core c).acts.map fun a => (c, a)).filter fun p =>
    match p.2.wait with
    | some (.recv _ mb _ _) => mb == m
    | _ => false
  all.foldl (fun best p =>
    match best with
    | none => some p
    | some b => if p.2.since < b.2.since then some p else some b) none

/-- Give the oldest message of a mailbox to the core that began waiting for it first (R62); the words it takes cost a cycle
each (Table 3.16). -/
def State.serveReceiver (s : State) (m : Fin 64) : State :=
  match s.firstReceiver m.val, s.mbox[m.val] with
  | some (c, a), g :: rest =>
    match a.wait with
    | some (.recv r _ addr limit) =>
      (((s.modMbox m fun _ => rest).toDtcm c addr limit g).modCore c fun k =>
        { k with cyc := k.cyc + min limit g.words.length }).endWait c a.entry r (g.status limit)
    | _ => s
  | _, _ => s

/-- Queue a message in a mailbox, serve a waiting receiver, and raise its event 0x40 + m. -/
def State.pushMsg (s : State) (m : Fin 64) (sender : Nat) (words : List Nat) : State :=
  ((s.modMbox m fun q => q ++ [⟨sender, words⟩]).serveReceiver m).raise (0x40 + m.val)

/-- Can requester `r` send `n` words into mailbox `m` now (R62, R86)? -/
def State.canSend (s : State) (m : Fin 64) (r n : Nat) : Bool :=
  s.on MB_CFG.EN 0 m.val && decide (n ≤ s.mbMaxw m.val) && bit (s.get MB_PERM.SEND 0 m.val) r
    && decide (s.mbox[m.val].length < s.mbDepth m.val)

/-- Is a mailbox full? -/
def State.mbFull (s : State) (m : Fin 64) : Bool := decide (s.mbDepth m.val ≤ s.mbox[m.val].length)

/-- A platform event into MB0 (R87, Table 4.4): the module itself is the sender, INFO 0xFF.  A full MB0 takes
no event and counts it in FULL_CNT. -/
def State.platEvent (s : State) (code param : Nat) : State :=
  if s.mbFull 0 then s.count MB_STAT.FULL_CNT 1 0 0
  else s.pushMsg 0 0xFF [code, param, s.mtc % 2 ^ 32, s.mtc / 2 ^ 32]

/-- The words of a reply (Table 4.5). -/
def replyWords (op tag status : Nat) (final : Bool) (results : List Nat) : List Nat :=
  [op + 2 ^ 16 * status + 2 ^ 24 * b2n final, tag] ++ results

/-- Let service core `k` send words into mailbox `m`; a mailbox that is full or refuses it is tried again at
the frame boundaries (R89). -/
def State.svcSend (s : State) (k m : Nat) (words : List Nat) : State :=
  let mm := Fin.ofNat 64 m
  if s.canSend mm k words.length then s.pushMsg mm k words
  else
    let t := if s.on MB_CFG.EN 0 m && s.mbFull mm then s.count MB_STAT.FULL_CNT 1 0 m else s
    { t with plat := { t.plat with replies := t.plat.replies ++ [⟨k, m, words, 0⟩] } }

/-- STATUS values of Table 4.5's reply. -/
def stOk : Nat := 0x00
def stAccepted : Nat := 0x01
def stBusy : Nat := 0x02
def stBadOp : Nat := 0x03
def stBadParam : Nat := 0x04
def stNotPermitted : Nat := 0x05

/-- A request back from what a service kept of it. -/
def SvcWait.req (w : SvcWait) : SvcReq := ⟨w.src, w.mb, w.tag, w.noreply⟩

/-- What a service keeps of a request. -/
def keepReq (q : SvcReq) : SvcWait := ⟨q.src, q.mb, q.tag, q.noreply⟩

/-- Does a message spell a request: the words of Table 4.5 with its parameters from word 2 on?  Words beyond them are not the
opcode's. -/
def Msg.spells (g : Msg) (op : Nat) (q : SvcReq) (params : List Nat) : Bool :=
  let ws := (op + 2 ^ 16 * q.mb + 2 ^ 31 * b2n q.noreply) :: q.tag :: params.map (· % 2 ^ 32)
  g.sender == q.src && g.words.take ws.length == ws

/-- A service core takes up a request: the message that carries it leaves its request mailbox (R88). -/
def State.request (s : State) (m : Fin 64) (op : Nat) (q : SvcReq) (params : List Nat := []) : State :=
  match s.mbox[m.val] with
  | g :: rest => if g.spells op q params then s.modMbox m fun _ => rest else s
  | [] => s

/-- The requester number of the service port (Table 16.2). -/
def portId : Nat := 87

/-- Reply to a service request, unless it asked for none (NOREPLY); a request that came over the service port is answered
there (R358), and the last 16 replies are kept. -/
def State.reply (s : State) (q : SvcReq) (k op status : Nat) (final : Bool) (results : List Nat) : State :=
  if q.src = portId then
    { s with manager := { s.manager with sent := ((op, status, q.tag, results) :: s.manager.sent).take 16 } }
  else if q.noreply then s else s.svcSend k q.mb (replyWords op q.tag status final (results.map (· % 2 ^ 32)))

/-- The final reply of a service request. -/
def State.done (s : State) (q : SvcReq) (k op status : Nat) (results : List Nat) : State :=
  s.reply q k op status true results

end Sys2Proof.Machine
end

