-- ==== Sys2Proof/Machine/Can.lean ====
section
/-! DEFINITION.  The CAN FD controllers (R262 to R275). -/

namespace Sys2Proof.Machine

open Sys2Proof.Reg

def State.modCan (s : State) (n : Fin 8) (f : Can → Can) : State := { s with can := upd s.can n f }

/-- Set a sticky flag of CAN_FLAGS, with event 0x0D. -/
def State.canFlag (s : State) (n : Nat) (b : Nat) : State := s.flag CAN_FLAGS.F CAN_EVMASK.F b 0x0D n

/-- May a requester write the owner's registers of controller `n` (R262)?  Value 0x10 names the ISOBUS service, whose core
is 17; 0x1F any function core. -/
def State.canOwner (s : State) (n id : Nat) : Bool :=
  let o := s.get CAN_CFG.OWNER n
  if o = 0x1F then decide (id < 16) else if o = 0x10 then id == 17 else id == o

/-- A write by a requester that is not the owner. -/
def State.canOwnerIgn (s : State) (n : Nat) : State := (s.count CAN_CNT3.IGN 1 n).canFlag n CAN_FLAGS.OWNER_IGN

/-- The states of CAN_STAT. -/
def canActive : Nat := 0
def canPassive : Nat := 1
def canBusOff : Nat := 2
def canInit : Nat := 3

/-- Show TEC, REC and RP. -/
def State.canCounters (s : State) (n : Fin 8) : State :=
  let c := s.can[n.val]
  ((s.put CAN_STAT.TEC (min 255 c.txErr) n.val).put CAN_STAT.REC (min 127 c.rxErr) n.val).putB CAN_STAT.RP (decide (127 < c.rxErr)) n.val

/-- Go to a state, with its record and flag (R274). -/
def State.canGo (s : State) (n : Fin 8) (st : Nat) : State :=
  let old := s.get CAN_STAT.STATE n.val
  if old = st then s
  else
    let s := s.put CAN_STAT.STATE st n.val
    let s := if st = canPassive then s.canFlag n.val CAN_FLAGS.PASSIVE else s
    s.record .canState (node domComm none8 n.val)
      [old + 4 * st + 2 ^ 8 * s.get CAN_STAT.TEC n.val + 2 ^ 16 * s.get CAN_STAT.REC n.val]

/-- The state that the error counters give under ISO 11898-1. -/
def Can.level (c : Can) : Nat := if 256 ≤ c.txErr then canBusOff else if 127 < c.txErr ∨ 127 < c.rxErr then canPassive else canActive

/-! ### Transmit buffers (R271 to R273) -/

/-- A word of a transmit buffer. -/
def TxBuf.w (b : TxBuf) (k : Nat) : Nat := (b.words[k]?).getD 0

/-- Is transmit buffer `k` pending? -/
def State.txPending (s : State) (n : Nat) (k : Nat) : Bool := bit (s.get CAN_TX_REQ.W n) k

/-- Clear bit `k` of a register field. -/
def State.clearBit (s : State) (f : Fld) (k : Nat) (i : Nat) : State :=
  let w := s.get f i
  s.put f (w - (w &&& 2 ^ k)) i

def resSent : Nat := 0
def resCancelled : Nat := 1
def resFailed : Nat := 2
def resBusOff : Nat := 3
def resDisabled : Nat := 4

/-- Transmit buffer `k` completes: its bits, one entry of the event FIFO, and event 0x0C (R273). -/
def State.txFinish (s : State) (n : Fin 8) (k : Fin 32) (result : Nat) (late : Bool) (stamp : Option Nat) : State :=
  let i := n.val
  let s := (s.clearBit CAN_TX_REQ.W k.val i).clearBit CAN_TX_CANCEL.W k.val i
  let s := s.put CAN_TX_DONE.W (s.get CAN_TX_DONE.W i ||| 2 ^ k.val) i
  let mtc := stamp.getD (Config.unstated 6 [i, k.val, s.free])
  let s := s.fresh.modCan n fun c =>
    { c with
      tx := upd c.tx k fun b => { b with cancel := false, late := false }
      events := if c.events.length < 16 then c.events ++ [⟨k.val, result, late, mtc⟩] else c.events }
  if s.on CAN_CFG.TX_EV i then s.raise 0x0C else s

/-- Completion, with TXEV_OVF when the FIFO is full. -/
def State.txComplete (s : State) (n : Fin 8) (k : Fin 32) (result : Nat) (late : Bool) (stamp : Option Nat) : State :=
  let full := decide (16 ≤ (s.can[n.val]).events.length)
  let s := s.txFinish n k result late stamp
  if full then s.canFlag n.val CAN_FLAGS.TXEV_OVF else s

/-- Every pending buffer completes with one result. -/
def State.txAll (s : State) (n : Fin 8) (result : Nat) : State :=
  (List.finRange 32).foldl (fun (t : State) (k : Fin 32) =>
    if t.txPending n.val k.val then t.txComplete n k result false none else t) s

/-- A write to a word of the transmit window. -/
def State.txwWrite (s : State) (n : Fin 8) (word : Fin 20) (v id : Nat) : State :=
  if !s.canOwner n.val id then s.canOwnerIgn n.val
  else
    let k := Fin.ofNat 32 (s.get TXW_SEL.BUF n.val)
    if s.txPending n.val k.val then (s.count CAN_CNT3.IGN 1 n.val).canFlag n.val CAN_FLAGS.TX_IGN
    else if word = 1 ∨ word = 2 then s
    else s.modCan n fun c => { c with tx := upd c.tx k fun b => { b with words := b.words.set word.val (v % 2 ^ 32) } }

def execTxwWrite (n : Fin 8) (word : Fin 20) (v : Nat) (rq : Req) (s : State) : Host.Outcome State Fault Refusal :=
  s.act (s.txwWrite n word v (s.served rq.id))

/-- A write to CAN_TX_REQ. -/
def State.txRequest (s : State) (n : Fin 8) (mask id : Nat) : State :=
  if !s.canOwner n.val id then s.canOwnerIgn n.val
  else
    let s := { s with ticket := s.ticket + 1 }
    (List.finRange 32).foldl (fun (t : State) (k : Fin 32) =>
      if !bit mask k.val || t.txPending n.val k.val then t
      else if bit (((t.can[n.val]).tx[k.val]).w 3) 11 && !t.on CAN_CTL.FD_EN n.val then
        (t.count CAN_CNT3.IGN 1 n.val).canFlag n.val CAN_FLAGS.TX_IGN
      else
        (t.put CAN_TX_REQ.W (t.get CAN_TX_REQ.W n.val + 2 ^ k.val) n.val).modCan n fun c =>
          { c with tx := upd c.tx k fun b => { b with order := s.ticket, cancel := false, late := false } }) s

def execCanTxReq (n : Fin 8) (mask : Nat) (rq : Req) (s : State) : Host.Outcome State Fault Refusal :=
  s.act (s.txRequest n mask (s.served rq.id))

/-- Cancel one buffer (Table 14.3). -/
def State.txCancelOne (s : State) (n : Fin 8) (k : Fin 32) : State :=
  if !s.txPending n.val k.val then s
  else
    match (s.can[n.val]).attempt with
    | some t =>
      if t.buf = k then
        let s := s.put CAN_TX_CANCEL.W (s.get CAN_TX_CANCEL.W n.val ||| 2 ^ k.val) n.val
        let won := match t.won with
          | some w => decide (w ≤ s.mtc)
          | none => false
        if won then
          (s.modCan n fun c => { c with tx := upd c.tx k fun b => { b with late := true } }).canFlag n.val CAN_FLAGS.CANCEL_LATE
        else s.modCan n fun c => { c with tx := upd c.tx k fun b => { b with cancel := true } }
      else s.txComplete n k resCancelled false none
    | none => s.txComplete n k resCancelled false none

/-- A write to CAN_TX_CANCEL. -/
def State.txCancel (s : State) (n : Fin 8) (mask id : Nat) : State :=
  if !s.canOwner n.val id then s.canOwnerIgn n.val
  else (List.finRange 32).foldl (fun (t : State) (k : Fin 32) => if bit mask k.val then t.txCancelOne n k else t) s

def execCanTxCancel (n : Fin 8) (mask : Nat) (rq : Req) (s : State) : Host.Outcome State Fault Refusal :=
  s.act (s.txCancel n mask (s.served rq.id))

/-- The arbitration field of a buffer as a number; the lower wins under ISO 11898-1. -/
def TxBuf.arbitration (b : TxBuf) : Nat :=
  let id := bits (b.w 0) 0 29
  let ext := bit (b.w 0) 29
  let rtr := b2n (bit (b.w 0) 30 && !bit (b.w 3) 11)
  ((id / 2 ^ 18 * 2 + (if ext then 1 else rtr)) * 2 + b2n ext) * 2 ^ 19 + (if ext then id % 2 ^ 18 * 2 + rtr else 0)

/-- The buffer that the next attempt takes (R271). -/
def State.txChoose (s : State) (n : Fin 8) : Option (Fin 32) :=
  let key := fun (k : Fin 32) =>
    let b := (s.can[n.val]).tx[k.val]
    if s.on CAN_CFG.TX_MODE n.val then (b.order, k.val) else (b.arbitration * 2 ^ 64 + b.order, k.val)
  ((List.finRange 32).filter fun k => s.txPending n.val k.val).foldl (fun (best : Option (Fin 32)) (k : Fin 32) =>
    match best with
    | none => some k
    | some b => if (key k).1 < (key b).1 then some k else some b) none

/-- On the bus, able to send? -/
def State.canSends (s : State) (n : Nat) : Bool :=
  decide (s.get CAN_STAT.STATE n < 2) && s.get CAN_CTL.MODE n == 0

/-- A start of frame that the controller takes; `won`: the instant at which its arbitration is won, if it is; `tdcv`: the
transmitter delay it measures in an FD frame (R265). -/
def execCanTxStartOfFrame (n : Fin 8) (won : Option Nat) (tdcv : Nat) (s : State) : Host.Outcome State Fault Refusal :=
  s.act (
    if !s.canSends n.val || (s.can[n.val]).attempt.isSome then s
    else
      match s.txChoose n with
      | none => s
      | some k =>
        let fd := bit (((s.can[n.val]).tx[k.val]).w 3) 11 && s.on CAN_TDC.TDC_EN n.val
        let s := if fd then s.put CAN_TDC.TDCV tdcv n.val else s
        (s.modCan n fun c => { c with attempt := some ⟨k, s.mtc, won⟩ }).put CAN_STAT.ACT 2 n.val)

/-- The registers of controller `n`. -/
def canBase (n : Fin 8) : Nat := 0x20A00000 + 0x1000 * n.val
def canOwn (n : Fin 8) (k : Nat) : Bool := decide (canBase n * 64 ≤ k) && decide (k < (canBase n + 0x1000) * 64)

/-- Restore the registers of controller `n` and clear its message RAM (R275). -/
def State.canReset (s : State) (n : Fin 8) : State :=
  (s.resetRange (canBase n) (canBase n + 0x1000)).modCan n fun _ => Can.zero

/-- No frame lasts longer than 10 ms at the bit rates of Table 14.1. -/
def canFrameTicks : Nat := 2000000

/-- Keep the registers of controller `n` as they stand before a write to its filters, for the frame in progress (R281). -/
def State.canKeep (s : State) (n : Fin 8) : State :=
  s.modCan n fun c =>
    { c with hist := (s.mtc, s.regs.filter fun e => canOwn n e.1) :: c.hist.filter fun h => decide (s.mtc ≤ h.1 + canFrameTicks) }

/-- The state with the registers of controller `n` as they stood at an instant. -/
def State.canAsOf (s : State) (n : Fin 8) (t : Nat) : State :=
  match ((s.can[n.val]).hist.filter fun h => decide (t < h.1)).getLast? with
  | some h => { s with regs := h.2.foldl (fun m e => regSet m e.1 e.2) (regDrop (canOwn n) s.regs) }
  | none => s

/-- INIT or RST takes effect: pending buffers complete as DISABLED (R275).  A frame being received then is still received,
when it becomes valid. -/
def State.canLeave (s : State) (n : Fin 8) (rst : Bool) : State :=
  let active := decide (s.get CAN_STAT.STATE n.val < 2)
  let kept := (s.canKeep n).can[n.val].hist
  let s := s.modCan n fun c => { c with attempt := none, initWait := false, rstWait := false, recover := false }
  let s := (s.txAll n resDisabled).canGo n canInit
  let s := (s.putB CAN_CTL.INIT true n.val).put CAN_STAT.ACT 0 n.val
  let s := if rst then s.canReset n else s
  if active then s.modCan n fun c => { c with left := some (s.mtc, rst), hist := if rst then kept else c.hist } else s

/-- What waited for the end of the frame. -/
def State.canFrameEnd (s : State) (n : Fin 8) : State :=
  let c := s.can[n.val]
  if c.rstWait then s.canLeave n true else if c.initWait then s.canLeave n false else s

/-- An attempt ends: the frame is sent, or arbitration or the frame is lost. -/
def State.txEnd (s : State) (n : Fin 8) (ok : Bool) : State :=
  match (s.can[n.val]).attempt with
  | none => s
  | some t =>
    let s := (s.modCan n fun c => { c with attempt := none }).put CAN_STAT.ACT 0 n.val
    let b := (s.can[n.val]).tx[t.buf.val]
    let s :=
      if !s.txPending n.val t.buf.val then s
      else if ok then
        let s := s.modCan n fun c =>
          { c with
            txErr := c.txErr - 1
            tx := upd c.tx t.buf fun b => { b with words := (b.words.set 1 (t.start % 2 ^ 32)).set 2 (t.start / 2 ^ 32) } }
        let c := s.can[n.val]
        let s := s.canCounters n
        let s := if s.get CAN_STAT.STATE n.val = canPassive then s.canGo n c.level else s
        (s.count CAN_CNT0.TX_FRAMES 1 n.val).txComplete n t.buf resSent b.late (some t.start)
      else if b.late then s.txComplete n t.buf resFailed true (some t.start)
      else if b.cancel then s.txComplete n t.buf resCancelled false (some t.start)
      else if bit (b.w 3) 15 then s.txComplete n t.buf resFailed false (some t.start)
      else s
    s.canFrameEnd n

/-! ### Receiving (R266 to R270) -/

/-- Data bytes of a DLC. -/
def dlcLen (fdf : Bool) (dlc : Nat) : Nat :=
  if dlc ≤ 8 then dlc
  else if !fdf then 8
  else match dlc % 16 with
    | 9 => 12
    | 10 => 16
    | 11 => 20
    | 12 => 24
    | 13 => 32
    | 14 => 48
    | _ => 64

/-- LEN of a received frame. -/
def canLen (f : CanFrame) : Nat := if f.rtr then 0 else dlcLen f.fdf f.dlc

/-- A little-endian word of four data bytes. -/
def dataWord (d : List Nat) (k : Nat) : Nat :=
  (List.range 4).foldl (fun a i => a + (d[4 * k + i]?).getD 0 % 256 * 256 ^ i) 0

/-- The words of a frame element (Table 14.2); words beyond LASTW are undefined. -/
def canWords (f : CanFrame) (hit seq : Nat) (free : Nat) : List Nat :=
  let id := if f.ide then f.id % 2 ^ 29 else f.id % 2 ^ 11 * 2 ^ 18
  let len := canLen f
  let w3 := f.dlc % 16 + 2 ^ 4 * len + 2 ^ 11 * b2n f.fdf + 2 ^ 12 * b2n f.brs + 2 ^ 13 * b2n f.esi + 2 ^ 16 * hit + 2 ^ 24 * (seq % 256)
  let used := (len + 3) / 4
  [id + 2 ^ 29 * b2n f.ide + 2 ^ 30 * b2n f.rtr, f.start % 2 ^ 32, f.start / 2 ^ 32, w3] ++
    (List.range 16).map fun k => if k < used then dataWord (f.data.take len) k else Config.unstated 5 [free, k] % 2 ^ 32

/-- The frame's identifier in the place the filters compare it at. -/
def idWord (f : CanFrame) : Nat := if f.ide then f.id % 2 ^ 29 else f.id % 2 ^ 11 * 2 ^ 18

/-- match() of R266. -/
def filterHit (f : CanFrame) (id ide any mask : Nat) : Bool :=
  (any == 1 || (ide == 1) == f.ide) && ((idWord f ^^^ id) &&& mask) == 0

/-- Has buffer `b` (0 to 71) an unread frame? -/
def State.canNew (s : State) (n b : Nat) : Bool :=
  if b < 64 then bit (s.get CAN_RXNEW.NEW n (b / 32)) (b % 32) else bit (s.get CAN_HPNEW.NEW n) (b - 64)

/-- Set or clear NEW of buffer `b`. -/
def State.canSetNew (s : State) (n b : Nat) (v : Bool) : State :=
  if b < 64 then
    let w := s.get CAN_RXNEW.NEW n (b / 32)
    let m := 2 ^ (b % 32)
    s.put CAN_RXNEW.NEW (if v then w ||| m else w - (w &&& m)) n (b / 32)
  else
    let w := s.get CAN_HPNEW.NEW n
    let m := 2 ^ (b - 64)
    s.put CAN_HPNEW.NEW (if v then w ||| m else w - (w &&& m)) n

/-- Has a window locked buffer `b`? -/
def State.canLocked (s : State) (n : Fin 8) (b : Fin 72) : Bool :=
  (s.can[n.val]).win[0] == some b || (s.can[n.val]).win[1] == some b

/-- QN, clamped. -/
def State.canQn (s : State) (n : Nat) : Nat := min 64 (s.get CAN_CFG.QN n)

/-- Put a frame's words into buffer `b`. -/
def State.canPut (s : State) (n : Fin 8) (b : Fin 72) (ws : List Nat) : State :=
  (s.modCan n fun c => { c with rx := upd c.rx b fun _ => ws }).canSetNew n.val b.val true

/-- A frame discarded because of a lock. -/
def State.canLockOvf (s : State) (n : Nat) : State := (s.count CAN_CNT2.LOCK_OVF 1 n).canFlag n CAN_FLAGS.LOCK_OVF

/-- Event 0x0B of a frame stored in a queue or dedicated buffer. -/
def State.canRxEv (s : State) (n : Nat) : State := if s.on CAN_CFG.RX_EV n then s.raise 0x0B else s

/-- Store a frame in the queue (R269). -/
def State.canQueue (s : State) (n : Fin 8) (ws : List Nat) : State :=
  let i := n.val
  let qn := s.canQn i
  let head := s.get CAN_QSTAT.HEAD i
  let cnt := s.get CAN_QSTAT.COUNT i
  if qn = 0 then (s.canFlag i CAN_FLAGS.QFULL).count CAN_CNT1.RX_LOST 1 i
  else if cnt < qn then
    ((s.canPut n (Fin.ofNat 72 ((head + cnt) % qn)) ws).put CAN_QSTAT.COUNT (cnt + 1) i).canRxEv i
  else
    let s := s.canFlag i CAN_FLAGS.QFULL
    if !s.on CAN_CFG.QFULL_POL i then s.count CAN_CNT1.RX_LOST 1 i
    else if s.canLocked n (Fin.ofNat 72 head) then s.canLockOvf i
    else
      (((s.canPut n (Fin.ofNat 72 head) ws).put CAN_QSTAT.HEAD ((head + 1) % qn) i).count CAN_CNT1.RX_LOST 1 i).canRxEv i

/-- Store a frame in a dedicated or high-priority buffer (R269). -/
def State.canStore (s : State) (n : Fin 8) (b : Fin 72) (ws : List Nat) : State :=
  let i := n.val
  if s.canLocked n b then
    if s.on CAN_CFG.LOCK_POL i && s.canQn i != 0 then s.canQueue n ws else s.canLockOvf i
  else
    let overwrites := s.canNew i b.val
    let ws := if overwrites then ws.set 3 ((ws[3]?).getD 0 + 2 ^ 14) else ws
    let s := if overwrites then s.count CAN_CNT1.OVW 1 i else s
    let s := s.canPut n b ws
    if b.val < 64 then s.canRxEv i else s

/-- The high-priority filter that takes a frame, and whether the acceptance filters see it too. -/
def State.canHp (s : State) (n : Nat) (f : CanFrame) : Option (Fin 8) :=
  (List.finRange 8).find? fun k =>
    s.on HPF_ID.EN n k.val
      && filterHit f (s.get HPF_ID.ID n k.val) (s.get HPF_ID.IDE n k.val) (s.get HPF_ID.IDE_ANY n k.val) (s.get HPF_MASK.MASK n k.val)

/-- The acceptance filter that acts on a frame. -/
def State.canAf (s : State) (n : Nat) (f : CanFrame) : Option (Fin 48) :=
  (List.finRange 48).find? fun k =>
    s.get AF_ACT.ACT n k.val != 0
      && filterHit f (s.get AF_ID.ID n k.val) (s.get AF_ID.IDE n k.val) (s.get AF_ID.IDE_ANY n k.val) (s.get AF_MASK.MASK n k.val)

/-- The event code of high-priority filter `k` (R280). -/
def hpEvent (k : Nat) : Nat := if k < 4 then 0x14 + k else 0x1C + (k - 4)

/-- Match and store a frame (R266), by the filters in force at its start of frame (R281). -/
def State.canReceive (s : State) (n : Fin 8) (f : CanFrame) : State :=
  let i := n.val
  let o := s.canAsOf n f.start
  let s := (s.bumpMod CAN_QSTAT.SEQ i).fresh
  let ws := fun (hit : Nat) => canWords f hit (s.get CAN_QSTAT.SEQ i) s.free
  let hp := o.canHp i f
  let s := match hp with
    | some k =>
      let s := (s.count HPF_CTL.HITS 1 i k.val).canStore n (Fin.ofNat 72 (64 + k.val)) (ws (0x40 + k.val))
      if o.on HPF_CTL.EV i k.val then s.raise (hpEvent k.val) else s
    | none => s
  let goOn := match hp with
    | some k => o.on HPF_CTL.COPY i k.val
    | none => true
  if !goOn then s
  else
    match o.canAf i f with
    | some k =>
      let s := s.count AF_ACT.HITS 1 i k.val
      let b := o.get AF_ACT.BUF i k.val
      match o.get AF_ACT.ACT i k.val with
      | 1 => s.canQueue n (ws k.val)
      | 2 => if b < s.canQn i then s.canQueue n (ws k.val) else s.canStore n (Fin.ofNat 72 b) (ws k.val)
      | _ => s
    | none => if s.on CAN_CFG.DEFAULT i then s.canQueue n (ws 0xFF) else s

/-- A frame that becomes valid off the bus: received if it was in progress when INIT or RST was written (R275); RST then
clears what it left in the controller. -/
def State.canFrameLate (s : State) (n : Fin 8) (f : CanFrame) : State :=
  match (s.can[n.val]).left with
  | some x =>
    if s.get CAN_STAT.STATE n.val = canInit ∧ f.start < x.1 then
      let t := (if x.2 then s.canAsOf n f.start else s).modCan n fun c => { c with left := none }
      let t := (t.count CAN_CNT0.RX_FRAMES 1 n.val).canReceive n f
      if x.2 then t.canReset n else t
    else s
  | none => s

/-- A valid frame on the bus: counted, REC moves towards zero, matched and stored. -/
def State.canFrame (s : State) (n : Fin 8) (f : CanFrame) : State :=
  if 2 ≤ s.get CAN_STAT.STATE n.val then s.canFrameLate n f
  else
    let s := s.modCan n fun c => { c with rxErr := if 127 < c.rxErr then 127 else c.rxErr - 1 }
    let c := s.can[n.val]
    let s := s.canCounters n
    let s := if s.get CAN_STAT.STATE n.val = canPassive then s.canGo n c.level else s
    (s.count CAN_CNT0.RX_FRAMES 1 n.val).canReceive n f

/-! ### Receive windows (R268) -/

/-- The buffer that a window shows: the locked one, or the one that RXWw_SEL names. -/
def State.rxwShown (s : State) (n : Fin 8) (w : Fin 2) : Option (Fin 72) :=
  match (s.can[n.val]).win[w.val] with
  | some b => some b
  | none =>
    let b := s.get RXW_SEL.BUF n.val w.val
    if b < 72 then some (Fin.ofNat 72 b)
    else if b = 0x7E ∧ s.canQn n.val ≠ 0 then some (Fin.ofNat 72 (s.get CAN_QSTAT.HEAD n.val))
    else none

/-- A word of the shown buffer as it stands. -/
def State.rxwWord (s : State) (n : Fin 8) (w : Fin 2) (k : Nat) : Nat :=
  match s.rxwShown n w with
  | some b => (((s.can[n.val]).rx[b.val])[k]?).getD 0
  | none => 0

/-- Would a read of word 0 find a frame for this window? -/
def State.rxwFinds (s : State) (n : Fin 8) (w : Fin 2) : Bool :=
  match s.rxwShown n w with
  | some b =>
    let other := (s.can[n.val]).win[1 - w.val]'(by omega)
    (s.can[n.val]).win[w.val] == some b || (s.canNew n.val b.val && other != some b)
  | none => false

/-- What a read of word 0 returns: EMPTY where it finds no frame. -/
def State.rxwWord0 (s : State) (n : Fin 8) (w : Fin 2) : Nat :=
  if s.rxwFinds n w then s.rxwWord n w 0 % 2 ^ 31 else 0x80000000

/-- A read of word 0 locks the shown buffer. -/
def State.rxwLock (s : State) (n : Fin 8) (w : Fin 2) : State :=
  if s.rxwFinds n w then
    (s.modCan n fun c => { c with win := c.win.set w.val (s.rxwShown n w) w.isLt }).putB RXW_SEL.LOCKED true n.val w.val
  else s

def execRxwWord0Read (n : Fin 8) (w : Fin 2) (s : State) : Host.Outcome State Fault Refusal := s.act (s.rxwLock n w)

/-- End a window's lock. -/
def State.rxwRelease (s : State) (n : Fin 8) (w : Fin 2) : State :=
  (s.modCan n fun c => { c with win := c.win.set w.val none w.isLt }).putB RXW_SEL.LOCKED false n.val w.val

/-- Release the locked buffer and consume its frame. -/
def State.rxwConsume (s : State) (n : Fin 8) (w : Fin 2) : State :=
  match (s.can[n.val]).win[w.val] with
  | none => s
  | some b =>
    let i := n.val
    let s := (s.rxwRelease n w).canSetNew i b.val false
    let qn := s.canQn i
    if b.val < qn ∧ b.val = s.get CAN_QSTAT.HEAD i ∧ 0 < s.get CAN_QSTAT.COUNT i then
      (s.put CAN_QSTAT.HEAD ((b.val + 1) % qn) i).put CAN_QSTAT.COUNT (s.get CAN_QSTAT.COUNT i - 1) i
    else s

/-- LASTW of the locked buffer. -/
def State.rxwLast (s : State) (n : Fin 8) (w : Fin 2) : Nat := 3 + (bits (s.rxwWord n w 3) 4 7 + 3) / 4

def execRxwLastwRead (n : Fin 8) (w : Fin 2) (s : State) : Host.Outcome State Fault Refusal := s.act (s.rxwConsume n w)

/-- Release without consuming. -/
def State.rxwAbandon (s : State) (n : Fin 8) (w : Fin 2) : State :=
  if (s.can[n.val]).win[w.val].isSome then (s.rxwRelease n w).count CAN_CNT2.ABANDON 1 n.val else s

/-- A write to RXWw_SEL. -/
def State.rxwSelect (s : State) (n : Fin 8) (w : Fin 2) (v id : Nat) : State :=
  if !s.canOwner n.val id then s.canOwnerIgn n.val else (s.rxwAbandon n w).put RXW_SEL.BUF v n.val w.val

/-- A write to RXWw_REL: CONSUME, else REL. -/
def State.rxwRel (s : State) (n : Fin 8) (w : Fin 2) (v id : Nat) : State :=
  if !s.canOwner n.val id then s.canOwnerIgn n.val
  else if bit v 1 then s.rxwConsume n w
  else if bit v 0 then s.rxwAbandon n w
  else s

def execRxwSelWrite (n : Fin 8) (w : Fin 2) (v : Nat) (rq : Req) (s : State) : Host.Outcome State Fault Refusal :=
  s.act (s.rxwSelect n w v (s.served rq.id))

def execRxwRel (n : Fin 8) (w : Fin 2) (rq : Req) (s : State) : Host.Outcome State Fault Refusal := s.act (s.rxwRel n w 1 (s.served rq.id))

def execRxwConsume (n : Fin 8) (w : Fin 2) (rq : Req) (s : State) : Host.Outcome State Fault Refusal :=
  s.act (s.rxwRel n w 2 (s.served rq.id))

/-! ### The transmit event FIFO -/

/-- A read of CAN_TXEV_C removes the oldest entry. -/
def State.txEvPop (s : State) (n : Fin 8) : State := s.modCan n fun c => { c with events := c.events.drop 1 }

def execCanTxevPop (n : Fin 8) (s : State) : Host.Outcome State Fault Refusal := s.act (s.txEvPop n)

/-! ### Errors, bus-off, INIT (R264, R274, R275) -/

/-- The flag of an error. -/
def canErrFlag : CanError → Nat
  | .stuff => CAN_FLAGS.STUFF
  | .form => CAN_FLAGS.FORM
  | .ack => CAN_FLAGS.ACK
  | .bit => CAN_FLAGS.BIT
  | .crc => CAN_FLAGS.CRC

/-- Entry to BUS_OFF. -/
def State.canOff (s : State) (n : Fin 8) : State :=
  let req := s.get CAN_TX_REQ.W n.val
  let s := s.modCan n fun c => { c with attempt := none, recover := false }
  let s := ((s.canGo n canBusOff).canFlag n.val CAN_FLAGS.BUS_OFF).count CAN_CNT3.BUS_OFFS 1 n.val
  let s := s.record .canBusOff (node domComm none8 n.val) [s.get CAN_STAT.TEC n.val, req]
  ((s.txAll n resBusOff).put CAN_STAT.ACT 0 n.val).canFrameEnd n

/-- A bus error: its kind, met as transmitter or as receiver, and what ISO 11898-1 adds to the error counter. -/
def State.canError (s : State) (n : Fin 8) (kind : CanError) (tx : Bool) (inc : Nat) : State :=
  if 2 ≤ s.get CAN_STAT.STATE n.val then s
  else
    let s := s.canFlag n.val (canErrFlag kind)
    let s := s.modCan n fun c => if tx then { c with txErr := min 511 (c.txErr + inc) } else { c with rxErr := min 255 (c.rxErr + inc) }
    let c := s.can[n.val]
    let s := s.canCounters n
    let s := if 96 ≤ c.txErr ∨ 96 ≤ c.rxErr then s.canFlag n.val CAN_FLAGS.WARN else s
    if c.level = canBusOff then s.canOff n
    else
      let s := s.canGo n c.level
      if tx then s.txEnd n false else s

def execCanBusOffRecovered (n : Fin 8) (s : State) : Host.Outcome State Fault Refusal :=
  s.act (
    if s.get CAN_STAT.STATE n.val = canBusOff ∧ (s.on CAN_CTL.BO_AUTO n.val ∨ (s.can[n.val]).recover) then
      ((s.modCan n fun c => { c with txErr := 0, rxErr := 0, recover := false }).canCounters n).canGo n canActive
    else s)

/-- CAN_CTL.RECOVER. -/
def State.canRecover (s : State) (n : Fin 8) : State :=
  if s.get CAN_STAT.STATE n.val = canBusOff then s.modCan n fun c => { c with recover := true } else s

def execRecover (n : Fin 8) (rq : Req) (s : State) : Host.Outcome State Fault Refusal :=
  s.act (if rq.sup then s.canRecover n else s)

/-- Are the timings of controller `n` valid (R264)? -/
def State.canTiming (s : State) (n : Nat) : Bool :=
  let q := 1 + s.get CAN_NBT.TSEG1 n + s.get CAN_NBT.TSEG2 n
  let d := 1 + s.get CAN_DBT.TSEG1 n + s.get CAN_DBT.TSEG2 n
  let brs := s.on CAN_CTL.FD_EN n && s.on CAN_CTL.BRS_EN n
  !(decide (s.get CAN_NBT.BRP n * q < 80) || decide (q < 8) || decide (383 < q))
    && !(brs && (decide (s.get CAN_DBT.BRP n * d < 10) || decide (d < 5) || decide (47 < d)))
    && decide (s.get CAN_NBT.SJW n ≤ s.get CAN_NBT.TSEG2 n) && decide (s.get CAN_DBT.SJW n ≤ s.get CAN_DBT.TSEG2 n)

/-- The network that the ISOBUS service runs on controller `n` (R276). -/
def State.netOn (s : State) (n : Fin 8) : Option (Fin 4) :=
  (List.finRange 4).find? fun k => (s.nets[k.val]).any fun x => x.can == n

/-- A write of INIT; an open network holds it at 0 (R276). -/
def State.canInitWrite (s : State) (n : Fin 8) (init : Bool) : State :=
  if init then
    if s.on CAN_CTL.INIT n.val ∨ (s.netOn n).isSome then s
    else if (s.can[n.val]).attempt.isSome then s.modCan n fun c => { c with initWait := true }
    else s.canLeave n false
  else if !s.on CAN_CTL.INIT n.val then s.modCan n fun c => { c with initWait := false }
  else if s.canTiming n.val then
    ((s.putB CAN_CTL.INIT false n.val).put CAN_STAT.ACT 3 n.val).modCan n fun c => { c with left := none }
  else s.canFlag n.val CAN_FLAGS.CFG_ERR

def execCanInitWrite (n : Fin 8) (init : Bool) (rq : Req) (s : State) : Host.Outcome State Fault Refusal :=
  s.act (if rq.sup then s.canInitWrite n init else s)

/-- 11 recessive bits have passed: the controller joins the bus. -/
def execCanIntegrationDone (n : Fin 8) (s : State) : Host.Outcome State Fault Refusal :=
  s.act (
    if s.get CAN_STAT.ACT n.val = 3 then (s.put CAN_STAT.ACT 0 n.val).canGo n (s.can[n.val]).level else s)

/-- CAN_CTL.RST. -/
def State.canRstWrite (s : State) (n : Fin 8) : State :=
  if (s.can[n.val]).attempt.isSome then s.modCan n fun c => { c with rstWait := true } else s.canLeave n true

end Sys2Proof.Machine
end

