-- ==== Sys2Proof/Machine/Crc.lean ====
section
/-! DEFINITION.  The checksums the manual names: CRC-32C (Castagnoli), over bytes, lowest bit first. -/

namespace Sys2Proof.Machine

/-- Eight steps of the reflected CRC-32C register. -/
def crcBits : Nat → Nat → Nat
  | 0, r => r
  | n + 1, r => crcBits n (if r % 2 = 1 then r / 2 ^^^ 0x82F63B78 else r / 2)

/-- CRC-32C of a list of bytes. -/
def crc32c (bs : List Nat) : Nat :=
  (bs.foldl (fun r b => crcBits 8 (r ^^^ (b % 256))) 0xFFFFFFFF) ^^^ 0xFFFFFFFF

end Sys2Proof.Machine
end

