-- ==== Sys2Proof/Machine/Factory.lean ====
section
/-! DEFINITION.  The factory record (R1, R342). -/

namespace Sys2Proof.Machine

/-- PART in ASCII: "ZH-960-C" or "ZH-960-L" (Table 0.1), which tells the two ordering codes apart. -/
def partNumber : List Nat :=
  ['Z', 'H', '-', '9', '6', '0', '-', if Config.codeL then 'L' else 'C'].map Char.toNat

/-- A byte of the factory record below its CRC: PART zero-filled to 16 bytes; LOT, MODULE_SN and HWREV in ASCII; the MAC address
and 2 zero bytes; what the record holds behind HWREV is free. -/
def factoryByte (k : Nat) : Nat :=
  if k < 0x10 then (partNumber[k]?).getD 0
  else if k < 0x30 ∨ (0x38 ≤ k ∧ k < 0x3C) then Config.factoryByte k % 128
  else if k = 0x36 ∨ k = 0x37 then 0
  else Config.factoryByte k % 256

/-- Word `k` of the record, the first byte lowest; the last is the CRC-32C of the rest. -/
def factoryWord (k : Nat) : Nat :=
  if k = 63 then crc32c ((List.range 252).map factoryByte)
  else (List.range 4).foldl (fun a i => a + factoryByte (4 * k + i) * 256 ^ i) 0

end Sys2Proof.Machine
end

