-- ==== Sys2Proof/Machine/TimeUnit.lean ====
section
/-! DEFINITION.  The time unit and the time pulses (R218, R231 to R237, R240). -/

namespace Sys2Proof.Machine

open Sys2Proof.Reg

def State.modTime (s : State) (f : TimeUnit → TimeUnit) : State := { s with time := f s.time }

/-- Set a sticky flag of TU_FLAGS, with event 0x3A. -/
def State.tuFlag (s : State) (b : Nat) : State := s.flag TU_FLAGS.F TU_EVMASK.F b 0x3A

/-- The slew that has been taken `m − slewAt` ticks after `slewAt`: 200 ns in a second, 1 ns in 1,000,000 ticks (R235). -/
def TimeUnit.moved (t : TimeUnit) (m : Nat) : Int :=
  let k : Nat := (m - t.slewAt) / 1000000
  clampZ (-k) k t.slew

/-- The conversion as a slew has left it at MTC `m` (R235). -/
def TimeUnit.run (t : TimeUnit) (m : Nat) : TimeUnit :=
  let d := t.moved m
  { t with convT := t.convT + d, slew := t.slew - d, slewAt := t.slewAt + (m - t.slewAt) / 1000000 * 1000000 }

/-- The time unit now. -/
def State.tnow (s : State) : TimeUnit := s.time.run s.mtc

/-- The MTC at which a slew under way ends. -/
def TimeUnit.slewEnd (t : TimeUnit) : Nat := t.slewAt + 1000000 * t.slew.natAbs

/-- T(m) of R232, in ns. -/
def TimeUnit.at (t : TimeUnit) (m : Nat) : Int :=
  t.convT + (Frac.of (((m : Int) - t.convMtc) * 5 * (1000000000000 - t.convY)) 1000000000000).round

/-- The time-validity code of a state (Table 12.6). -/
def tuCode (st : TState) (slew : Int) : Nat :=
  match st with
  | .unset => 0
  | .locked => if slew = 0 then 1 else 2
  | .holdover => 3
  | .free => 4

/-- U of R234 in ns, with the remaining slew under RETURN; saturating. -/
def State.tuU (s : State) : Nat :=
  let t := s.tnow
  match t.st with
  | .unset => 0xFFFFFFFF
  | _ =>
    let d : Nat := s.mtc - t.last
    -- HU_F × t + HU_A × t², with t = d ÷ 200,000,000 s, in ps
    let ps := (Frac.of (s.get TU_HU_F.F * d : Nat) 200000000).add
      (Frac.of (s.get TU_HU_A.A * d * d : Nat) (200000000 * 200000000))
    let u := t.u0 + (Config.quotZ 14 ps.num (ps.den * 1000)).toNat
    min 0xFFFFFFFF (u + (if tuCode t.st t.slew = 2 then t.slew.natAbs else 0))

/-- TU_SINCE: whole seconds since the last qualifying solution, saturating. -/
def State.tuSince (s : State) : Nat := min 65535 ((s.mtc - s.time.last) / 200000000)

/-- The code history from here (R233): the code now, and behind a slew the code LOCKED from the MTC at which it ends. -/
def State.codesNow (s : State) : List (Nat × Nat) :=
  let t := s.tnow
  let c := tuCode t.st t.slew
  let past := s.codes.filter fun p => decide (p.1 ≤ s.mtc)
  let l := if c = (past.head?.map Prod.snd).getD 0 then past else (s.mtc, c) :: past
  (if c = 2 then (t.slewEnd, 1) :: l else l).take 64

/-- Bring the conversion to now, with the code, the state and the conversion registers. -/
def State.tuShow (s : State) : State :=
  let t := s.tnow
  let s := { s with codes := s.codesNow, time := t }
  (((s.put TU_STAT.CODE (tuCode t.st t.slew)).put TU_STAT.STATE t.st.code).putZ CONV_RATE.Y t.convY).putZ CONV_SLEW.S t.slew

/-- Enter a state: registers, flag, record and event (R231). -/
def State.tuGo (s : State) (st : TState) : State :=
  let old := s.time.st
  let s := (s.modTime fun t => { t with st := st }).tuShow
  if old = st then s
  else
    let s := match st with
      | .locked => s.tuFlag TU_FLAGS.LOCK
      | .holdover => (s.tuFlag TU_FLAGS.HOLDOVER).count TU_CNT.HOLDOVERS
      | .free => s.tuFlag TU_FLAGS.FREE
      | .unset => s
    (s.record .timeState (node domPosition none8 none8)
      [old.code + 2 ^ 2 * st.code, s.tuU, low 32 s.time.slew]).raise 0x3A

/-- LOCK_N, 0 treated as 1. -/
def State.lockN (s : State) : Nat := max 1 (s.get TU_CFG.LOCK_N)

/-- A one-per-second time solution of the service: GNSS time in ns of the present MTC, its uncertainty in ns, Y, and
the leap seconds when known (R231, R232, R234, R235). -/
def State.timeSolution (s : State) (time : Int) (u0 : Nat) (y : Int) (leap : Option Nat) : State :=
  let s := match leap with
    | some l => (s.put TU_LEAP.LEAP l).putB TU_LEAP.VALID true
    | none => s
  if clampN 20 1000 (s.get TU_CFG.LOCK_THR) < u0 then s.put TU_STAT.LOCK_RUN 0
  else
    let run := s.get TU_STAT.LOCK_RUN + 1
    let s := s.put TU_STAT.LOCK_RUN (min 15 run)
    let now := s.tnow
    let take := fun (t : TimeUnit) => { t with last := s.mtc, u0 := u0, convMtc := s.mtc, convY := y, slewAt := s.mtc }
    match s.time.st with
    | .locked =>
      (s.modTime fun t => { take t with convT := time - now.slew, slew := now.slew, slewAt := now.slewAt }).tuShow
    | .unset =>
      if s.lockN ≤ run then (s.modTime fun t => { take t with convT := time, slew := 0 }).tuGo .locked else s
    | _ =>
      if run < s.lockN ∨ s.time.step.isSome then s
      else
        let phi := time - now.at s.mtc
        if phi.natAbs < 2000 then
          let s := (s.modTime fun t => { take t with convT := time - phi, slew := phi })
          let s := if phi = 0 then s else s.tuFlag TU_FLAGS.SLEW
          s.tuGo .locked
        else s.modTime fun t => { t with step := some phi, last := s.mtc, u0 := u0 }

def execQualifyingTimeSolution (time : Int) (u0 : Nat) (y : Int) (leap : Option Nat) (s : State) :
    Host.Outcome State Fault Refusal := s.act (s.timeSolution time u0 y leap)

/-- LOSS_T and HOLDOVER_LIMIT in s, clamped (Table 12.7). -/
def State.lossT (s : State) : Nat := clampN 1 30 (s.get TU_CFG.LOSS_T)
def State.holdoverLimit (s : State) : Nat := min 3600 (s.get TU_HOLD.HOLDOVER_LIMIT)

/-- LOSS_T passes without a qualifying solution (Table 12.5). -/
def execLossTExpiry (s : State) : Host.Outcome State Fault Refusal :=
  s.act (
    match s.time.st with
    | .locked =>
      if s.time.last + 200000000 * s.lossT ≤ s.mtc then
        (s.put TU_STAT.LOCK_RUN 0).tuGo (if s.get TU_HOLD.HOLDOVER_LIMIT = 0 then .free else .holdover)
      else s
    | _ => s)

/-- The time since the last qualifying solution reaches HOLDOVER_LIMIT, unless a return is being taken (R240). -/
def execHoldoverLimitExpiry (s : State) : Host.Outcome State Fault Refusal :=
  s.act (
    match s.time.st, s.time.step with
    | .holdover, none => if s.time.last + 200000000 * s.holdoverLimit ≤ s.mtc then s.tuGo .free else s
    | _, _ => s)

/-- Has the next 1 s boundary of GNSS time after the measurement of a step of φ been reached? -/
def TimeUnit.stepDue (t : TimeUnit) (phi : Int) (m : Nat) : Bool :=
  decide (Int.fdiv (t.at t.last + phi) 1000000000 < Int.fdiv (t.at m + phi) 1000000000)

/-- The next GNSS second after a measured step: the conversion jumps (R235). -/
def execTimeStep (s : State) : Host.Outcome State Fault Refusal :=
  s.act (
    match s.time.step with
    | none => s
    | some phi =>
      let now := s.tnow
      if !now.stepDue phi s.mtc then s
      else
        let s := s.modTime fun _ =>
          { now with convMtc := s.mtc, convT := now.at s.mtc + phi, slew := 0, slewAt := s.mtc, step := none, stepAt := s.mtc }
        let s := ((s.putZ TU_STEP.PHI phi).count TU_CNT.STEPS).tuFlag TU_FLAGS.STEP
        (s.record .timeStep (node domPosition none8 none8) (two s.mtc ++ [low 32 phi])).tuGo .locked)

/-- CONV_SLEW reaches 0: the conversion stands at GNSS time, and RETURN becomes LOCKED (R235). -/
def execSlewEnd (s : State) : Host.Outcome State Fault Refusal := s.act (if s.time.slew = 0 then s else s.tuShow)

/-- A warm start: LOCKED becomes HOLDOVER at its onset, and all else runs on (R236). -/
def State.tuWarm (s : State) : State :=
  match s.time.st with
  | .locked => (s.put TU_STAT.LOCK_RUN 0).tuGo .holdover
  | _ => s

/-! ### Reads that latch (R232) -/

/-- T of an MTC as the registers show it: 0 in UNSET. -/
def State.tuNow (s : State) : Nat :=
  match s.time.st with
  | .unset => 0
  | _ => low 64 (s.tnow.at s.mtc)

/-- A read of TU_NOW_MTC_LO latches the MTC, T, the code and U. -/
def State.tuLatch (s : State) : State :=
  let u := match s.time.st with
    | .unset => 0xFFFFFF
    | _ => min 0xFFFFFF s.tuU
  let s' := (s.put TU_NOW_MTC_LO.W s.mtc).put TU_NOW_MTC_HI.W (s.mtc / 2 ^ 32)
  let s' := (s'.put TU_NOW_T_LO.W s.tuNow).put TU_NOW_T_HI.W (s.tuNow / 2 ^ 32)
  (s'.put TU_NOW_INFO.CODE (s.codeAt s.mtc)).put TU_NOW_INFO.U u

/-- A read of CONV_MTC_LO latches the conversion set. -/
def State.convLatch (s : State) : State :=
  let t := low 64 s.tnow.convT
  ((s.put CONV_MTC_LO.W s.time.convMtc).put CONV_MTC_HI.W (s.time.convMtc / 2 ^ 32)).put CONV_T_LO.W t |>.put
    CONV_T_HI.W (t / 2 ^ 32)

def execTuNowLatch (s : State) : Host.Outcome State Fault Refusal := s.act s.tuLatch
def execConvLatch (s : State) : Host.Outcome State Fault Refusal := s.act s.convLatch

/-! ### Time pulses (R237) -/

/-- Do the pulses of output `p` run in the present state? -/
def State.tpActive (s : State) (p : Nat) : Bool :=
  s.on TP_CFG.EN p &&
    (match s.time.st with
     | .unset => false
     | .free => s.on TP_CFG.FREE_POL p
     | _ => true)

/-- The period of a PER setting in ns. -/
def tpPeriod (per : Nat) : Int := if per = 0 then 1000000000 else if per = 1 then 100000000 else 10000000

/-- The instant of the edge of GNSS time `g` (ns) under a delay of `dly` tenths of a ns, in fiftieths of an MTC tick, which are
0.1 ns each: the resolution of R237, whose rounding is left open. -/
def TimeUnit.edge (t : TimeUnit) (dly g : Int) : Int :=
  50 * t.convMtc + Config.quotZ 16 ((10 * (g - t.convT) - dly) * 1000000000000) (1000000000000 - t.convY).toNat

/-- The first edge at or after tick `m`: its GNSS time and its instant. -/
def TimeUnit.nextEdge (t : TimeUnit) (dly per : Int) (m : Nat) : Option (Int × Int) :=
  let k := Int.fdiv (t.at m + Int.fdiv dly 10) per
  (([k - 1, k, k + 1, k + 2].map fun i => (i * per, t.edge dly (i * per))).find? fun e => decide (50 * (m : Int) ≤ e.2))

/-- CABLE_DLY, PER and WIDTH of output `p` for an edge at tick `m`: a write applies from 1 µs after it. -/
def State.tpForce (s : State) (p : Fin 2) (m : Nat) : Int × Nat × Nat :=
  let o := s.time.out[p.val]
  if m < o.until_ then (o.dly, o.per, o.width) else (s.getZ TP_DLY.CABLE_DLY p.val, s.get TP_CFG.PER p.val, s.get TP_CFG.WIDTH p.val)

/-- An edge of output `p` at a tick of `m ≤ x < n`, not yet emitted, under a delay and a PER. -/
def State.tpEdgeIn (s : State) (p : Fin 2) (dly : Int) (per m n : Nat) : Option (Int × Int) :=
  match s.tnow.nextEdge dly (tpPeriod per) m with
  | some e => if decide (e.2 < 50 * (n : Int)) && (s.time.out[p.val]).last != some e.1 then some e else none
  | none => none

def State.modTp (s : State) (p : Fin 2) (f : TpOut → TpOut) : State := s.modTime fun t => { t with out := upd t.out p f }

/-- The width of a pulse in ticks: WIDTH µs, 0 as 1, at most half the period. -/
def pulseTicks (per width : Nat) : Nat := min (200 * max 1 width) ((tpPeriod per).toNat / 10)

/-- The leading edge of output `p`, where one falls in this tick: at a multiple of the period, minus CABLE_DLY (R237).  The command
names the tenths of a nanosecond into the tick; it acts where the edge stands there. -/
def execTimePulseEdge (p : Fin 2) (frac : Fin 50) (s : State) : Host.Outcome State Fault Refusal :=
  s.act (
    let f := s.tpForce p s.mtc
    match s.tpActive p.val, s.tpEdgeIn p f.1 f.2.1 s.mtc (s.mtc + 1) with
    | true, some e =>
      if e.2 - 50 * s.mtc ≠ frac.val then s else
      let s := s.modTp p fun o => { o with high := true, fall := s.mtc + pulseTicks f.2.1 f.2.2, last := some e.1 }
      let s := ((s.put TP_STAT.CODE (s.codeAt s.mtc) p.val).put64 TP_MTC_LO.MTC s.mtc p.val).put TP_FRAC.FRAC frac.val p.val
      let s := s.count TP_CNT.EDGES 1 p.val
      if s.on TP_CFG.EV p.val then s.raise 0x3B else s
    | _, _ => s)

/-- The trailing edge returns the output to its inactive level. -/
def execTimePulseTrailingEdge (p : Fin 2) (s : State) : Host.Outcome State Fault Refusal :=
  s.act (if (s.time.out[p.val]).fall ≤ s.mtc then s.modTp p fun o => { o with high := false } else s)

/-- The level of output `p`: high while a pulse with a rising leading edge lasts. -/
def State.tpLevel (s : State) (p : Fin 2) : Bool := (s.time.out[p.val]).high != s.on TP_CFG.POL p.val

/-- What a change of TP_CFG or TP_DLY from `s` to `t` leaves: the values until now hold for 1 µs more; an edge that the change
places in that time, where the values until now have none, is skipped (R237, R240). -/
def State.tpChanged (s t : State) (p : Fin 2) : State :=
  let f := s.tpForce p s.mtc
  let u := t.modTp p fun o => { o with dly := f.1, per := f.2.1, width := f.2.2, until_ := s.mtc + 200 }
  let n := s.mtc + 200
  let new := t.tpEdgeIn p (t.getZ TP_DLY.CABLE_DLY p.val) (t.get TP_CFG.PER p.val) s.mtc n
  if t.tpActive p.val && new.isSome && (s.tpEdgeIn p f.1 f.2.1 s.mtc n).isNone then
    (u.tuFlag TU_FLAGS.TP_SKIP).count TP_CNT.SKIP 1 p.val
  else u

/-- A write of TP_CFG or TP_DLY. -/
def execTpConfigWrite (p : Fin 2) (dly : Bool) (word id : Nat) (sup : Bool) (s : State) : Host.Outcome State Fault Refusal :=
  s.act (
    if (Req.mk id sup).sup then
      s.tpChanged (if dly then s.put TP_DLY.CABLE_DLY word p.val
        else s.putWord [TP_CFG.EN, TP_CFG.POL, TP_CFG.PER, TP_CFG.FREE_POL, TP_CFG.EV, TP_CFG.WIDTH] word p.val) p
    else s)

end Sys2Proof.Machine
end

