-- ==== Sys2Proof/Machine/Ethernet.lean ====
section
/-! DEFINITION.  The Ethernet ports, the switch, 802.1AS, the stream engine and the host queues (R282 to R289). -/

namespace Sys2Proof.Machine

open Sys2Proof.Reg

def State.modSw (s : State) (f : Switch → Switch) : State := { s with switch := f s.switch }

def State.modStr (s : State) (k : Fin 16) (f : Str → Str) : State := s.modSw fun w => { w with strs := upd w.strs k f }

/-- Set a sticky flag of ETH_FLAGS of port `p`, with event 0x24. -/
def State.ethFlag (s : State) (p b : Nat) : State := s.flag ETH_FLAGS.F ETH_EVMASK.F b 0x24 p

/-! ### Frames as bytes -/

/-- A number of some bytes, the first the highest. -/
def beNat (d : List Nat) : Nat := d.foldl (fun a b => a * 256 + b % 256) 0

/-- Two or more bytes of a frame from an offset. -/
def byteField (d : List Nat) (at_ n : Nat) : Nat := beNat ((d.drop at_).take n)

/-- The VID of a frame's tag, if it has one. -/
def ethTag (d : List Nat) : Option Nat := if byteField d 12 2 = 0x8100 then some (byteField d 14 2 % 4096) else none

/-- Where the type field of a frame stands. -/
def ethTypeAt (d : List Nat) : Nat := if byteField d 12 2 = 0x8100 then 16 else 12

/-- The UDP destination port and payload of a frame: IPv4 without options and not fragmented, or IPv6 without extension
headers (Table 15.1). -/
def ethUdp (d : List Nat) : Option (Nat × List Nat) :=
  let a := ethTypeAt d + 2
  let body := fun (u : Nat) =>
    let len := byteField d (u + 4) 2
    some (byteField d (u + 2) 2, (d.drop (u + 8)).take (len - 8))
  match byteField d (a - 2) 2 with
  | 0x0800 =>
    if byteField d a 1 = 0x45 ∧ byteField d (a + 9) 1 = 17 ∧ byteField d (a + 6) 2 % 0x4000 = 0 then body (a + 20) else none
  | 0x86DD => if byteField d a 1 / 16 = 6 ∧ byteField d (a + 6) 1 = 17 then body (a + 40) else none
  | _ => none

/-- A Sync or an Announce of 802.1AS. -/
def ethPtp (d : List Nat) : Bool :=
  let a := ethTypeAt d
  byteField d a 2 == 0x88F7 && (byteField d (a + 2) 1 % 16 == 0 || byteField d (a + 2) 1 % 16 == 11)

/-- A multicast or broadcast address. -/
def macMulti (m : Nat) : Bool := bit m 40

/-- The module's MAC address, from the factory record (R284, R342). -/
def moduleMac : Nat := beNat ((List.range 6).map fun k => factoryByte (0x30 + k))

/-! ### VLANs and forwarding (R284) -/

/-- The enabled VLAN entry of a VID. -/
def State.vlanOf (s : State) (vid : Nat) : Option Nat := (List.range 32).find? fun v => s.on VLAN_A.EN 0 v && s.get VLAN_A.VID 0 v == vid

/-- Is a port a member of VLAN entry `v`? -/
def State.vlanMember (s : State) (v p : Nat) : Bool := bit (s.get VLAN_A.MEMBER 0 v) p

/-- Bytes that one egress port may hold. -/
def egressMax : Nat := 131072

/-- Tenths of a tick to send one byte: 1.6 ticks at 1,000 Mbit/s, 16 at 100 Mbit/s. -/
def byteTime (p : Nat) : Nat := if p < 6 then 16 else 160

/-- Bytes that egress port `p` still holds. -/
def State.egressHeld (s : State) (p : Fin 10) : Nat := (s.switch.until_[p.val] - 10 * s.mtc) / byteTime p.val

/-- Is a port up? -/
def State.portUp (s : State) (p : Nat) : Bool := s.on ETH_CFG.EN p && s.on ETH_STAT.LINK p

/-- Has egress port `p` room for `n` more bytes? -/
def State.egressFits (s : State) (p : Fin 10) (n : Nat) : Bool := decide (s.egressHeld p + n ≤ egressMax)

/-- SW_STAT.BUF: what the egress ports hold, in KiB. -/
def State.bufKib (s : State) : Nat := Config.quot 17 ((List.finRange 10).map s.egressHeld).sum 1024

/-- A frame of `n` bytes leaves through port `p`, or is discarded at the tail. -/
def State.egress (s : State) (p n : Nat) : State :=
  if h : p < 10 then
    if !s.portUp p then s
    else if !s.egressFits ⟨p, h⟩ n then (s.count ETH_CNT2.EGR_DROP 1 p).ethFlag p ETH_FLAGS.EGR_DROP
    else
      (s.count ETH_CNT0.TX 1 p).modSw fun w => { w with until_ := w.until_.set p (max w.until_[p] (10 * s.mtc) + n * byteTime p) h }
  else s

/-- A frame leaves through port `p`; the model keeps the last 32 sent. -/
def State.egressFrame (s : State) (p : Nat) (d : List Nat) : State :=
  let t := s.egress p d.length
  if h : p < 10 then
    if s.portUp p && s.egressFits ⟨p, h⟩ d.length then t.modSw fun w => { w with out := ((p, s.mtc, d) :: w.out).take 32 } else t
  else t

/-- A frame as a port of VLAN entry `v` sends it: untagged where UNTAG is set, else tagged with its VID. -/
def State.tagFrame (s : State) (v vid p : Nat) (d : List Nat) : List Nat :=
  let tagged := (ethTag d).isSome
  if bit (s.get VLAN_B.UNTAG 0 v) p then (if tagged then d.take 12 ++ d.drop 16 else d)
  else if tagged then d
  else d.take 12 ++ [0x81, 0x00, vid / 256 % 16, vid % 256] ++ d.drop 12

/-- Learn the source of a frame. -/
def State.macLearn (s : State) (vid mac p : Nat) : State :=
  if macMulti mac then s
  else
    let rest := s.switch.macs.filter fun e => !(e.vid == vid && e.mac == mac)
    let s := if rest.length < 4096 then s.modSw fun w => { w with macs := ⟨vid, mac, p, s.mtc⟩ :: rest } else s
    s.put SW_STAT.MACS s.switch.macs.length

/-- Step 8: by the MAC table, or flooded to the member ports but `p`. -/
def State.ethForward (s : State) (v vid dst p : Nat) (d : List Nat) : State :=
  match if macMulti dst then none else s.switch.macs.find? fun e => e.vid == vid && e.mac == dst with
  | some e => if s.vlanMember v e.port && e.port != p then s.egressFrame e.port (s.tagFrame v vid e.port d) else s
  | none => forUpTo 10 (fun q t => if q != p && t.vlanMember v q then t.egressFrame q (t.tagFrame v vid q d) else t) s

/-! ### Host queues (R289) -/

/-- Entries of a host queue's rings. -/
def State.hqSize (s : State) (q : Nat) : Nat := 2 ^ clampN 4 10 (s.get HQ_CFG.LOG2N q)

/-- A frame for host queue `q`. -/
def State.hqReceive (s : State) (q p stamp : Nat) (d : List Nat) : State :=
  let n := s.hqSize q
  let wr := s.get HQ_RX_WR.IDX q
  if (wr + 1) % n = s.get HQ_RX_RD.IDX q % n then s.count HQ_CNT.RX_DROP 1 q
  else
    let a := s.addr40 HQ_RX_LO.ADDR HQ_RX_HI.ADDR q + 2048 * (wr % n)
    let s := (s.fabWrite (a + 4) (two stamp)).fabWriteBytes (a + 16) d
    let s := (s.fabWrite a [d.length % 4096 + 2 ^ 12 * p + 2 ^ 31]).put HQ_RX_WR.IDX ((wr + 1) % n) q
    if s.on HQ_CFG.EV q then s.raise 0x26 else s

/-- The host queue of VLAN entry `v`: HQ0, HQ1, or none. -/
def State.hostQueue (s : State) (v : Nat) : Option Nat :=
  match s.get VLAN_A.HOSTQ 0 v with
  | 0 => none
  | 1 => some 0
  | _ => some 1

/-! ### Streams (R287, R288) -/

/-- The points of a block that a slot can hold. -/
def pointsMax : Nat := 21840

/-- A little-endian number of bytes of a payload. -/
def leField (d : List Nat) (at_ n : Nat) : Nat := ((d.drop at_).take n).foldr (fun b a => b % 256 + 256 * a) 0

/-- The open block of a stream closes, by a packet of a later block or without one. -/
def State.strClose (s : State) (k : Fin 16) (by_ : Option Nat) : State :=
  match (s.switch.strs[k.val]).cur with
  | none => s
  | some b =>
    let s := s.modStr k fun t => { t with cur := none, closed := t.closed ++ [{ b with mtc := by_.getD b.mtc }] }
    let s := s.putB STR_STAT.OPEN false k.val
    if s.on STR_CFG.EV k.val then s.raise 0x25 else s

/-- Take a packet into a block. -/
def StrBlock.add (b : StrBlock) (d : List Nat) (npts frag : Nat) (last : Bool) (mtc : Nat) : StrBlock × Nat :=
  if b.frags.contains frag then ({ b with dup := true, mtc := mtc }, 0)
  else
    let pts := (List.range npts).map fun i =>
      (leField d (0x20 + 12 * i) 4, leField d (0x24 + 12 * i) 4, leField d (0x28 + 12 * i) 4)
    let room := pointsMax - b.points.length
    ({ b with
        frags := frag :: b.frags, last := if last then some frag else b.last
        points := b.points ++ pts.take room, ovf := b.ovf || decide (room < npts), mtc := mtc }, npts - room)

/-- Is block number `a` later than `b`, modulo 2^32? -/
def laterBlock (a b : Nat) : Bool := decide (0 < (a + 2 ^ 32 - b) % 2 ^ 32) && decide ((a + 2 ^ 32 - b) % 2 ^ 32 < 2 ^ 31)

/-- A payload of stream `k` arrives at `stamp` (R287).  A packet of a block before the open one joins none (DESIGN CHOICE, log
entry 65). -/
def State.strPacket (s : State) (k : Fin 16) (d : List Nat) (stamp : Nat) : State :=
  let npts := leField d 0x0A 1
  if leField d 0 2 ≠ 0x7C31 ∨ leField d 2 1 ≠ 1 ∨ leField d 3 1 ≠ k.val ∨ npts = 0 ∨ 120 < npts ∨ d.length ≠ 32 + 12 * npts then
    s.count STR_CNT1.BAD 1 k.val
  else
    let block := leField d 4 4
    let frag := leField d 8 2
    let last := bit (leField d 0x0B 1) 0
    if (s.switch.strs[k.val]).cur.any fun b => laterBlock b.block block then s
    else
      -- a packet of a later block closes the open one
      let s := match (s.switch.strs[k.val]).cur with
        | some b => if b.block = block then s else s.strClose k (some stamp)
        | none => s
      let b := match (s.switch.strs[k.val]).cur with
        | some b => b
        | none => ⟨block, leField d 0x10 8, [], none, [], false, false, stamp⟩
      let r := b.add d npts frag last stamp
      let s := (s.modStr k fun t => { t with cur := some r.1 }).putB STR_STAT.OPEN true k.val
      let s := s.count STR_CNT1.PTS_LOST r.2 k.val
      if last then s.strClose k none else s

/-- BLK_TMO of a stream in ticks; 0 is treated as 1. -/
def State.blkTmo (s : State) (k : Nat) : Nat := max 1 (s.get STR_UDP.BLK_TMO k) * 20000

/-- BLK_TMO after its latest packet. -/
def execBlkTmoExpiry (k : Fin 16) (s : State) : Host.Outcome State Fault Refusal :=
  s.act (if (s.switch.strs[k.val]).cur.any fun b => decide (b.mtc + s.blkTmo k.val ≤ s.mtc) then s.strClose k none else s)

/-- Are fragments missing from a closed block? -/
def StrBlock.gap (b : StrBlock) : Bool :=
  match b.last with
  | none => true
  | some l => (List.range (l + 1)).any fun i => !b.frags.contains i

/-- The MTC of a time in ns of domain 1, or of domain 0 by the conversion in force (R286, R288). -/
def State.domMtc (s : State) (dom1 : Bool) (t : Nat) : Int :=
  if dom1 then (Frac.of (t : Nat) 5).round
  else
    let c := s.tnow
    c.convMtc + (Frac.of (((t : Int) - c.convT) * 1000000000000) (5 * (1000000000000 - c.convY).toNat)).round

/-- The slot for a block: the next after the one last written, skipping held slots (R288, R133). -/
def State.strSlot (s : State) (k : Nat) : Option Nat :=
  let n := clampN 2 16 (s.get STR_RING_CFG.NSLOT k)
  let last := s.get STR_STAT.SLOT k
  ((List.range n).map fun i => (last + 1 + i) % n).find? fun j => !bit (s.get STR_HOLD.HOLD k) j

/-- Write the oldest closed block of stream `k` to its slot: header word 0 last. -/
def execLidarBlockWrite (k : Fin 16) (s : State) : Host.Outcome State Fault Refusal :=
  s.act (
    match (s.switch.strs[k.val]).closed with
    | [] => s
    | b :: rest =>
      let i := k.val
      let s := s.modStr k fun t => { t with closed := rest }
      let low_ := (b.points.map fun p => p.2.2).foldl min (((b.points.head?).map fun p => p.2.2).getD 0)
      let dom1 := s.on STR_CFG.DOM i
      let acq := s.domMtc dom1 (b.t0 + low_)
      let unset := match s.time.st with
        | .unset => true
        | _ => false
      let bad := !dom1 && (unset || decide (acq < s.time.stepAt))
      let gap := b.gap
      let flags := b2n gap + 2 * b2n b.dup + 4 * b2n b.ovf + 8 * b2n bad
      let s := (List.range 4).foldl (fun (t : State) (f : Nat) => if bit flags f then t.sticky STR_FLAGS.F f i else t) s
      let s := (s.count STR_CNT0.BLOCKS 1 i).count STR_CNT0.GAPS (b2n gap) i
      let s := s.bumpMod STR_STAT.BSEQ i
      match s.strSlot i with
      | none => s.sticky STR_FLAGS.F STR_FLAGS.NOSLOT i
      | some j =>
        let a := s.addr40 STR_RING_LO.ADDR STR_RING_HI.ADDR i + 0x40000 * j
        let head := [0] ++ two (low 64 acq) ++ [b.points.length, b.block] ++ two b.mtc ++ List.replicate 8 0
        let pts := b.points.flatMap fun p => [p.1, p.2.1, p.2.2 - low_]
        let s := s.fabWrite (a + 4) (head ++ pts)
        (s.fabWrite a [s.get STR_STAT.BSEQ i + 2 ^ 16 * flags]).put STR_STAT.SLOT j i)

/-! ### A frame (R284) -/

/-- A frame that has entered the switch on port `p` (10: from a host queue), with PVID `pvid`. -/
def State.ethSwitch (s : State) (p pvid : Nat) (d : List Nat) (stamp : Nat) : State :=
  let vid := (ethTag d).getD pvid
  let dst := byteField d 0 6
  let drop := fun (t : State) => if p < 10 then (t.count ETH_CNT2.VLAN_DROP 1 p).ethFlag p ETH_FLAGS.VLAN_DROP else t
  match s.vlanOf vid with
  | none => drop s
  | some v =>
    if !s.vlanMember v p then drop s
    else
      let s := s.macLearn vid (byteField d 6 6) p
      let udp := ethUdp d
      let port := (udp.map Prod.fst).getD 0x10000
      match (List.finRange 16).find? fun k =>
          s.on STR_CFG.EN k.val && s.get STR_CFG.PORT k.val == p && s.get STR_CFG.VID k.val == vid && s.get STR_UDP.UDP k.val == port with
      | some k => s.strPacket k ((udp.map Prod.snd).getD []) stamp
      | none =>
        let jfx := s.get SW_CFG.JFX_VID
        if port = 47630 ∧ jfx ≠ 0 ∧ vid = jfx then s
        else if port = 47631 ∧ dst = moduleMac ∧ s.vlanMember v 10 then s
        else if dst = moduleMac then
          match s.hostQueue v with
          | some q => s.hqReceive q (if p < 10 then p else 0xF) stamp d
          | none => if p < 10 then s.count ETH_CNT4.HOST_DROP 1 p else s
        else
          let s := match s.hostQueue v with
            | some q => if macMulti dst then s.hqReceive q (if p < 10 then p else 0xF) stamp d else s
            | none => s
          s.ethForward v vid dst p d

/-- ETH_CFG of a port as it stood when a frame began, whose delimiter came at `stamp`: a write acts from the next frame on
(R17). -/
def State.ethCfgAt (s : State) (p stamp : Nat) : Nat :=
  match (s.switch.cfgWas.filter fun e => e.1 == p && decide (stamp < e.2.1)).getLast? with
  | some e => e.2.2
  | none => b2n (s.on ETH_CFG.EN p) + 2 ^ 4 * s.get ETH_CFG.PVID p

/-- Does a port take a frame with such an ETH_CFG?  It needs the link, which a write that clears EN cuts. -/
def State.ethTakes (s : State) (p cfg : Nat) : Bool := bit cfg 0 && (s.on ETH_STAT.LINK p || !s.on ETH_CFG.EN p)

/-- A frame received on port `p`: its bytes without FCS, whether the FCS is bad, the MTC of its delimiter (R285). -/
def execEthFrameReceived (p : Fin 10) (d : List Nat) (fcsBad : Bool) (stamp : Nat) (s : State) :
    Host.Outcome State Fault Refusal :=
  s.act (
    let cfg := s.ethCfgAt p.val stamp
    if fcsBad && bit cfg 0 then (s.count ETH_CNT1.FCS 1 p.val).ethFlag p.val ETH_FLAGS.FCS
    else if !s.ethTakes p.val cfg then s
    else if 1522 < d.length + 4 then (s.count ETH_CNT1.OVERSIZE 1 p.val).ethFlag p.val ETH_FLAGS.OVERSIZE
    else
      let s := s.count ETH_CNT0.RX 1 p.val
      if ethPtp d then (s.count ETH_CNT3.PTP_FOREIGN 1 p.val).ethFlag p.val ETH_FLAGS.PTP_FOREIGN
      else s.ethSwitch p.val (bits cfg 4 12) d stamp)

/-- A learned entry unseen for MAC_AGE seconds is removed. -/
def execMacEntryAgeOut (vid mac : Nat) (s : State) : Host.Outcome State Fault Refusal :=
  s.act (
    let aged := fun (e : MacEntry) => e.vid == vid && e.mac == mac && decide (e.last + max 1 (s.get SW_CFG.MAC_AGE) * 200000000 ≤ s.mtc)
    let s := s.modSw fun w => { w with macs := w.macs.filter fun e => !aged e }
    s.put SW_STAT.MACS s.switch.macs.length)

/-! ### Links (R285) -/

/-- A write of ETH_CFG: frames that have begun go on under the word before it; clearing EN cuts the link. -/
def State.ethCfgKeep (s : State) (p : Nat) : State :=
  let old := b2n (s.on ETH_CFG.EN p) + 2 ^ 4 * s.get ETH_CFG.PVID p
  s.modSw fun w => { w with cfgWas := ((p, s.mtc, old) :: w.cfgWas).take 64 }

/-- A link drops: the open blocks of the port's streams close. -/
def State.linkLoss (s : State) (p : Fin 10) : State :=
  if !s.on ETH_STAT.LINK p.val then s
  else
    let i := p.val
    let stat := 1 + 2 * s.get ETH_STAT.SPEED i + 16 * s.get ETH_STAT.SQI i + 2 ^ 16 * s.get ETH_STAT.PDELAY i
    let s := (s.record .ethLink (node domComm none8 i) [stat]).putB ETH_STAT.LINK false i
    let s := (s.count ETH_CNT3.LINK_LOSS 1 i).ethFlag i ETH_FLAGS.LINK_LOSS
    (List.finRange 16).foldl (fun (t : State) (k : Fin 16) =>
      if t.on STR_CFG.EN k.val && t.get STR_CFG.PORT k.val == i then t.strClose k none else t) s

def execEthLinkLoss (p : Fin 10) (s : State) : Host.Outcome State Fault Refusal := s.act (s.linkLoss p)

/-- Training ends: the link is up, at a signal quality. -/
def execEthLinkUp (p : Fin 10) (sqi : Fin 8) (s : State) : Host.Outcome State Fault Refusal :=
  s.act (if s.on ETH_CFG.EN p.val then (s.putB ETH_STAT.LINK true p.val).put ETH_STAT.SQI sqi.val p.val else s)

/-! ### 802.1AS (R286) -/

/-- clockClass of domain 0 in a state of the time unit; none: the domain is silent. -/
def clockClass : TState → Option Nat
  | .unset => none
  | .locked => some 6
  | .holdover => some 7
  | .free => some 248

/-- Bytes of a Sync frame on the wire. -/
def syncBytes : Nat := 64

/-- Have 125 ms passed since the last Sync, whose time in domain 1 was 5 × MTC? -/
def State.syncDue (s : State) : Bool :=
  match s.switch.sync with
  | e :: _ => decide (e.2.1 + 125000000 ≤ (5 * s.mtc : Nat))
  | [] => true

/-- Every 125 ms the module sends Sync in both domains on every port with PTP_EN. -/
def execPtpSyncTimer (s : State) : Host.Outcome State Fault Refusal :=
  s.act (
    if !s.syncDue then s else
    let one := fun (t : State) => forUpTo 10 (fun p u => if u.on ETH_CFG.PTP_EN p then u.egress p syncBytes else u) t
    let s' := (one s).modSw fun w => { w with sync := [(1, (5 * s.mtc : Nat), 0)] }
    match clockClass s.time.st with
    | none => s'
    | some c => (one s').modSw fun w => { w with sync := w.sync ++ [(0, s.tnow.at s.mtc, c)] })

/-- Has 1 s passed since the peer delay of a port was measured? -/
def State.pdelayDue (s : State) (p : Fin 10) : Bool :=
  match s.switch.pdelay[p.val] with
  | some t => decide (t + 200000000 ≤ s.mtc)
  | none => true

/-- Every 1 s the module measures the peer delay of a port, in ns. -/
def execPtpPdelayTimer (p : Fin 10) (ns : Nat) (s : State) : Host.Outcome State Fault Refusal :=
  s.act (
    if s.on ETH_CFG.PTP_EN p.val && s.portUp p.val && s.pdelayDue p then
      (s.put ETH_STAT.PDELAY ns p.val).modSw fun w => { w with pdelay := upd w.pdelay p fun _ => some s.mtc }
    else s)

/-! ### Sending from the host queues (R289) -/

/-- May a requester move the indices of host queue `q` (R282)? -/
def State.hqOwner (s : State) (q id : Nat) : Bool :=
  let o := s.get HQ_CFG.OWNER q
  if o = 0x1F then decide (id < 16) else id == o

/-- A write of HQ_TX_WR. -/
def State.hqTxWrite (s : State) (q : Fin 2) (v id : Nat) : State := if s.hqOwner q.val id then s.put HQ_TX_WR.IDX v q.val else s

def execHqTxWr (q : Fin 2) (v : Nat) (rq : Req) (s : State) : Host.Outcome State Fault Refusal := s.act (s.hqTxWrite q v (s.served rq.id))

/-- The oldest transmit entry is sent or skipped, stamped and cleared. -/
def execHqTxSent (q : Fin 2) (s : State) : Host.Outcome State Fault Refusal :=
  s.act (
    let n := s.hqSize q.val
    let rd := s.get HQ_TX_RD.IDX q.val % n
    if rd = s.get HQ_TX_WR.IDX q.val % n then s
    else
      let a := s.addr40 HQ_TX_LO.ADDR HQ_TX_HI.ADDR q.val + 2048 * rd
      let w0 := s.fabN a 4
      let len := bits w0 0 12
      let port := bits w0 12 4
      let s :=
        if len < 60 ∨ 1518 < len then (s.fabWrite a [w0 % 2 ^ 31]).count HQ_CNT.TX_SKIP 1 q.val
        else
          let d := s.fabBytes (a + 16) len
          let s := if port = 0xF then s.ethSwitch 10 1 d s.mtc else s.egressFrame port d
          s.fabWrite a ((w0 % 2 ^ 31) :: two s.mtc)
      s.put HQ_TX_RD.IDX ((rd + 1) % n) q.val)

end Sys2Proof.Machine
end

