-- ==== Sys2Proof/Machine/Position.lean ====
section
/-! DEFINITION.  The GNSS front end, the tracking channels and the positioning service (R218 to R230). -/

namespace Sys2Proof.Machine

open Sys2Proof.Reg

def State.modGc (s : State) (n : Fin 96) (f : Gc → Gc) : State := { s with gc := upd s.gc n f }
def State.modPos (s : State) (f : Pos → Pos) : State := { s with pos := f s.pos }

/-! ### Front end (R220) -/

/-- Is the bias of antenna `a` supplied? -/
def State.bias (s : State) (a : Nat) : Bool :=
  s.on (if a = 0 then GF_CFG.BIAS0 else GF_CFG.BIAS1) && !((s.pos.cut[a]?).getD false)

/-- The bias current of antenna `a` stays below 3 mA. -/
def execAntOpen (a : Fin 2) (s : State) : Host.Outcome State Fault Refusal :=
  s.act (if s.bias a.val then (s.putB (if a = 0 then GF_STAT.OPEN0 else GF_STAT.OPEN1) true).sticky GF_FLAGS.F GF_FLAGS.ANT_OPEN else s)

/-- The bias current exceeds 100 mA: the bias is cut until BIASa is written from 0 to 1. -/
def execAntShort (a : Fin 2) (s : State) : Host.Outcome State Fault Refusal :=
  s.act (
    if s.bias a.val then
      ((s.putB (if a = 0 then GF_STAT.SHORT0 else GF_STAT.SHORT1) true).sticky GF_FLAGS.F GF_FLAGS.ANT_SHORT).modPos fun p =>
        { p with cut := p.cut.set a.val true }
    else s)

/-- A stream's gain, `gain` dB, falls more than JAM_THR dB below `clear`, its gain at the last clear sky. -/
def execJam (stream : Fin 4) (gain : AgcGain) (s : State) : Host.Outcome State Fault Refusal :=
  s.act (
    let f := match stream with
      | 0 => GF_AGC.S0
      | 1 => GF_AGC.S1
      | 2 => GF_AGC.S2
      | 3 => GF_AGC.S3
    let s := s.put f gain.now
    if gain.now + s.get GF_CFG.JAM_THR < gain.clear then s.sticky GF_FLAGS.F GF_FLAGS.JAM else s)

/-- A write of GF_CFG: a bias written from 0 to 1 is supplied again. -/
def State.gfCfgWrite (s : State) (word : Nat) : State :=
  let rise := fun (a : Nat) => bit word a && !s.on (if a = 0 then GF_CFG.BIAS0 else GF_CFG.BIAS1)
  let s' := s.putWord [GF_CFG.BIAS0, GF_CFG.BIAS1, GF_CFG.JAM_THR] word
  let clear := fun (t : State) (a : Nat) (o sh : Fld) =>
    if rise a then ((t.putB o false).putB sh false).modPos fun p => { p with cut := p.cut.set a false } else t
  clear (clear s' 0 GF_STAT.OPEN0 GF_STAT.SHORT0) 1 GF_STAT.OPEN1 GF_STAT.SHORT1

/-! ### Tracking channels (R221 to R224) -/

/-- The owner of every register of channel `n` (R218). -/
def State.gcOwner (s : State) (n : Nat) : Nat := s.get GC_CFG.OWNER n

/-- A write to GC_CFG (0), GC_CODE_FRQ (1), GC_CARR_FRQ (2) or GC_TAPS (3), by requester `id`. -/
def State.gcWrite (s : State) (n : Fin 96) (reg : Fin 4) (word : Nat) (id : Nat) : State :=
  if id = s.gcOwner n.val then
    match reg with
    | 0 => s.putWord [GC_CFG.EN, GC_CFG.SIG, GC_CFG.PRN, GC_CFG.ANT, GC_CFG.DUMP_N, GC_CFG.DUMP_EV] word n.val
    | 1 => s.put GC_CODE_FRQ.FRQ word n.val
    | 2 => s.put GC_CARR_FRQ.FRQ word n.val
    | 3 => s.put GC_TAPS.SP word n.val
  else s.count GF_CNT.IGN

def execGcConfigWrite (n : Fin 96) (reg : Fin 4) (word : Nat) (rq : Req) (s : State) :
    Host.Outcome State Fault Refusal := s.act (s.gcWrite n reg word (s.served rq.id))

/-- A write to GC_CODE_ADJ, in 1/64 chip: added to what the next epoch applies. -/
def State.gcCodeAdj (s : State) (n : Fin 96) (word id : Nat) : State :=
  if id = s.gcOwner n.val then s.modGc n fun g => { g with codeAdj := g.codeAdj + sgn 16 word * 2 ^ 26 }
  else s.count GF_CNT.IGN

def execGcCodeAdj (n : Fin 96) (word : Nat) (rq : Req) (s : State) : Host.Outcome State Fault Refusal :=
  s.act (s.gcCodeAdj n word (s.served rq.id))

/-- A write to GC_CARR_ADJ, in 2^−16 cycle. -/
def State.gcCarrAdj (s : State) (n : Fin 96) (word id : Nat) : State :=
  if id = s.gcOwner n.val then s.modGc n fun g => { g with carrAdj := g.carrAdj + sgn 16 word * 2 ^ 16 }
  else s.count GF_CNT.IGN

def execGcCarrAdj (n : Fin 96) (word : Nat) (rq : Req) (s : State) : Host.Outcome State Fault Refusal :=
  s.act (s.gcCarrAdj n word (s.served rq.id))

/-- The values that the registers put in force; a signal that does not exist or an antenna without bias leaves the
channel idle (R221). -/
def State.gcForce (s : State) (n : Nat) : GcForce × Bool :=
  let sig := s.get GC_CFG.SIG n
  let bad := s.on GC_CFG.EN n && (decide (0xB ≤ sig) || !s.bias (s.get GC_CFG.ANT n))
  (⟨s.on GC_CFG.EN n && !bad, sig, s.get GC_CFG.ANT n, max 1 (s.get GC_CFG.DUMP_N n), s.on GC_CFG.DUMP_EV n,
    s.get GC_CODE_FRQ.FRQ n, s.getZ GC_CARR_FRQ.FRQ n⟩, bad)

/-- A prompt code epoch passes, `samples` sample instants after the last (R221, R223). -/
def execGnssPromptEpoch (n : Fin 96) (samples : Nat) (s : State) : Host.Outcome State Fault Refusal :=
  s.act (
    let g := s.gc[n.val]
    let len := Config.codeChips g.force.sig * 2 ^ 32
    let code := (g.code + g.force.codeFrq * samples) % len
    let carr := g.carr + g.force.carrFrq * samples
    let f := s.gcForce n.val
    let closes := g.force.en && decide (g.force.dumpN ≤ g.epochs + 1)
    let due : GcDue := ⟨s.mtc, code / 2 ^ 32 % 65536, code / 2 ^ 16 % 65536, carr, g.force.codeFrq, g.force.carrFrq⟩
    let starts := f.1.en && !g.force.en
    let s := if f.2 then s.sticky GC_FLAGS.F GC_FLAGS.CFG_ERR n.val else s
    s.modGc n fun g =>
      { g with
        force := f.1
        code := if starts then 0 else ((code : Int) + g.codeAdj).toNat % len
        carr := if starts then 0 else carr + g.carrAdj
        codeAdj := 0, carrAdj := 0
        epochs := if closes || starts then 0 else g.epochs + 1
        due := if closes then some due else g.due })

/-- The words of a dump record (Table 12.2). -/
def dumpWords (seq n : Nat) (d : GcDue) (sums : List Int) : List Nat :=
  [seq % 65536 + 2 ^ 16 * n] ++ two d.mtc ++ [d.frac + 2 ^ 16 * d.chip, low 32 (asr d.carr 32), low 32 d.carr,
    d.codeFrq, low 32 d.carrFrq] ++ (List.range 16).map (fun k => low 32 ((sums[k]?).getD 0)) ++ List.replicate 8 0

/-- Give channel `n` to core `owner`, with its registers at reset. -/
def State.gcGive (s : State) (n : Fin 96) (owner : Nat) : State :=
  let a := 0x20810000 + 0x40 * n.val
  let s := (s.resetRange a (a + 0x40)).put GC_CFG.OWNER owner n.val
  let w := s.get GF_CLAIM.W 0 (n.val / 32)
  let b := 2 ^ (n.val % 32)
  let s := s.put GF_CLAIM.W (if owner = 16 then w - (w &&& b) else w ||| b) 0 (n.val / 32)
  s.modGc n fun _ => Gc.zero

/-- The opcodes of the positioning service (Table 12.3); its core is 16 and its mailbox MB56. -/
def posCore : Nat := 16

/-- Claims that wait for channel `n` get it; a claim whose last channel it was is answered. -/
def State.claimStep (s : State) (n : Fin 96) : State :=
  match s.pos.claims.find? fun c => c.channels.contains n.val with
  | none => s
  | some c =>
    let s := s.gcGive n c.owner
    let left := c.channels.filter fun k => k != n.val
    if left.isEmpty then
      (s.modPos fun p => { p with claims := p.claims.erase c }).done c.req.req posCore 0x0001 stOk []
    else s.modPos fun p => { p with claims := p.claims.map fun x => if x = c then { c with channels := left } else x }

/-- A dump record of channel `n` with the I and Q sums of its eight taps (R222). -/
def execGnssDump (n : Fin 96) (sums : List Int) (s : State) : Host.Outcome State Fault Refusal :=
  s.act (
    match (s.gc[n.val]).due with
    | none => s
    | some d =>
      let s := s.modGc n fun g => { g with due := none }
      let s := (((s.put GC_CODE_PH.CHIP d.chip n.val).put GC_CODE_PH.FRAC d.frac n.val).putZ GC_CARR_CYC.W (asr d.carr 32) n.val).putZ
        GC_CARR_FR.W d.carr n.val
      let s := s.put64 GC_DUMP_MTC_LO.MTC d.mtc n.val
      if s.gcOwner n.val = 16 then (s.count GC_CNT.DUMPS 1 n.val).claimStep n
      else
        let size := 2 ^ clampN 6 14 (s.get GF_DUMP_CFG.LOG2N)
        let wr := s.get GF_DUMP_WR.IDX
        if (wr + 1) % size = s.get GF_DUMP_RD.IDX % size then
          (s.sticky GC_FLAGS.F GC_FLAGS.LOST n.val).count GC_CNT.LOST 1 n.val
        else
          let a := s.addr40 GF_DUMP_BASE_LO.ADDR GF_DUMP_BASE_HI.ADDR + 128 * wr
          let w := dumpWords s.pos.dumpSeq n.val d sums
          let s := ((s.fabWrite (a + 4) (w.drop 1)).fabWrite a (w.take 1)).put GF_DUMP_WR.IDX ((wr + 1) % size)
          let s := (s.modPos fun p => { p with dumpSeq := p.dumpSeq + 1 }).count GC_CNT.DUMPS 1 n.val
          if (s.gc[n.val]).force.dumpEv then s.raise 0x3C else s)

/-! ### Requests of the positioning service (R225, Table 12.3) -/

/-- Is the service running? -/
def State.svcUp (s : State) : Bool := s.plat.serviceUp

/-- Channels claimed, or being claimed. -/
def State.claimed (s : State) (n : Nat) : Bool := s.gcOwner n != 16 || s.pos.claims.any fun c => c.channels.contains n

def execClaim (q : SvcReq) (first count owner : Nat) (s : State) : Host.Outcome State Fault Refusal :=
  s.act (
    if !s.svcUp then s
    else
      let s := s.request 56 0x0001 q [first, count, owner]
      let chans := (List.range count).map fun k => first + k
      let total := ((List.range 96).filter s.claimed).length
      if count = 0 ∨ 48 < count ∨ 96 < first + count ∨ 16 ≤ owner ∨ 48 < total + count ∨ chans.any s.claimed then
        s.done q posCore 0x0001 stBadParam []
      else
        let idle := chans.filter fun k => !((s.gc[k % 96]'(by omega)).force.en)
        let s := idle.foldl (fun t k => t.gcGive (Fin.ofNat 96 k) owner) s
        let left := chans.filter fun k => !idle.contains k
        if left.isEmpty then s.done q posCore 0x0001 stOk []
        else
          (s.modPos fun p => { p with claims := p.claims ++ [⟨keepReq q, left, owner⟩] }).reply q posCore 0x0001 stAccepted
            false [])

def execRelease (q : SvcReq) (first count : Nat) (s : State) : Host.Outcome State Fault Refusal :=
  s.act (
    if !s.svcUp then s
    else
      let s := s.request 56 0x0002 q [first, count]
      let chans := ((List.range count).map fun k => first + k).filter fun k => decide (k < 96) && s.gcOwner k != 16
      (chans.foldl (fun t k => t.gcGive (Fin.ofNat 96 k) 16) s).done q posCore 0x0002 stOk [])

def execSolCfg (q : SvcReq) (rate log2n ring : Nat) (at_ : Xyz) (s : State) : Host.Outcome State Fault Refusal :=
  s.act (
    if !s.svcUp then s
    else
      ((s.request 56 0x0010 q ([rate + 2 ^ 8 * log2n] ++ two ring ++ [at_.x, at_.y, at_.z].map (low 32))).modPos fun p =>
        { p with sol := some ⟨rate % 4, clampN 4 12 log2n, ring, at_.x, at_.y, at_.z⟩ }).done q posCore 0x0010 stOk [])

def execAntCfg (q : SvcReq) (a b : Xyz) (hdgEn : Bool) (s : State) : Host.Outcome State Fault Refusal :=
  s.act (
    if !s.svcUp then s
    else
      let s := s.request 56 0x0011 q ([a.x, a.y, a.z, b.x, b.y, b.z].map (low 32) ++ [b2n hdgEn])
      let d := (a.x - b.x) * (a.x - b.x) + (a.y - b.y) * (a.y - b.y) + (a.z - b.z) * (a.z - b.z)
      if hdgEn && decide (d < 250000) then s.done q posCore 0x0011 stBadParam []
      else
        (s.modPos fun p => { p with ant := ⟨[a.x, a.y, a.z, b.x, b.y, b.z], hdgEn⟩ }).done q posCore 0x0011 stOk [])

/-! ### Corrections (R227) -/

/-- The source in use: the highest of PRIO whose last valid message is younger than SRC_TMO. -/
def State.rtkBest (s : State) : Nat :=
  (s.pos.prio.find? fun p =>
    p != 0 &&
      (match (s.pos.heard[p]?).getD none with
       | some t => decide (s.mtc - t < s.pos.srcTmo * 200000000)
       | none => false)).getD 0

/-- Choose the source again; a change is recorded. -/
def State.rtkSelect (s : State) : State :=
  let b := s.rtkBest
  let old := s.pos.src
  if b = old then s
  else (s.modPos fun p => { p with src := b }).record .rtkSrc (node domPosition none8 none8) [old + 2 ^ 2 * b]

/-- The RTCM 3 message numbers that the service uses. -/
def rtcmUsed : List Nat :=
  [1005, 1006, 1033, 1074, 1075, 1077, 1094, 1095, 1097, 1124, 1125, 1127, 1019, 1042, 1045, 1046]

/-- CRC-24Q of RTCM 3 over bytes. -/
def crc24q (bs : List Nat) : Nat :=
  bs.foldl (fun r b => (List.range 8).foldl (fun r _ => if 2 ^ 23 ≤ r then (r * 2 ^^^ 0x1864CFB) % 2 ^ 24 else r * 2)
    (r ^^^ (b % 256 * 2 ^ 16))) 0

/-- Does a byte string hold a valid message that the service uses?  `fuel` bounds the scan. -/
def rtcmScan : Nat → List Nat → Bool
  | 0, _ => false
  | n + 1, bs =>
    match bs with
    | 0xD3 :: hi :: lo :: rest =>
      let len := hi % 4 * 256 + lo
      let body := rest.take len
      let crc := (rest.drop len).take 3
      let num := (body.headD 0) * 16 + ((body[1]?).getD 0) / 16
      if rest.length < len + 3 then rtcmScan n (hi :: lo :: rest)
      else if crc24q (0xD3 :: hi :: lo :: body) = crc.foldl (fun a b => a * 256 + b) 0 then
        rtcmUsed.contains num || rtcmScan n (rest.drop (len + 3))
      else rtcmScan n (hi :: lo :: rest)
    | _ :: rest => rtcmScan n rest
    | [] => false

/-- Corrections from a source reach the service. -/
def State.rtcmFrom (s : State) (src : Nat) (bs : List Nat) : State :=
  if rtcmScan bs.length bs then (s.modPos fun p => { p with heard := p.heard.set src (some s.mtc) }).rtkSelect else s

/-- RTCM_IN: are its parameters in range? -/
def rtcmInOk (src len : Nat) : Bool := (src == 2 || src == 3) && decide (0 < len) && decide (len ≤ 4096)

/-- RTCM_IN with the bytes in a buffer. -/
def State.rtcmIn (s : State) (q : SvcReq) (src addr len : Nat) : State :=
  let s := s.request 56 0x0020 q ([src] ++ two addr ++ [len])
  if rtcmInOk src len then (s.rtcmFrom src (s.fabBytes addr len)).done q posCore 0x0020 stOk []
  else s.done q posCore 0x0020 stBadParam []

def execRtkCfg (q : SvcReq) (prio srcTmo corrMax drMax : Nat) (s : State) : Host.Outcome State Fault Refusal :=
  s.act (
    if !s.svcUp then s
    else
      ((s.request 56 0x0021 q [prio, srcTmo + 2 ^ 8 * corrMax + 2 ^ 16 * drMax]).modPos fun p =>
        { p with
          prio := [prio % 4, prio / 4 % 4, prio / 16 % 4], srcTmo := srcTmo % 256, corrMax := corrMax % 256
          drMax := drMax % 256 }).rtkSelect.done q posCore 0x0021 stOk [])

/-- The source in use ages past SRC_TMO. -/
def execRtkSourceTimeout (s : State) : Host.Outcome State Fault Refusal :=
  s.act s.rtkSelect

/-! ### Solutions (R226, R228) -/

/-- The words 4 to 13 of a solution record; no field open: FIELD_X and FIELD_Y are 0x8000_0000. -/
def State.solBody (s : State) (v : Solution) : List Nat :=
  let open_ := s.get TL_FIELD.STATE != 0
  two (low 64 v.lat) ++ two (low 64 v.lon) ++ [low 32 v.height, min v.hu 65535 + 2 ^ 16 * min v.vu 65535,
    low 16 v.vn + 2 ^ 16 * low 16 v.ve, v.heading % 65536 + 2 ^ 16 * (v.hdgU % 65536),
    if open_ then low 32 v.fieldX else 0x80000000, if open_ then low 32 v.fieldY else 0x80000000]

/-- MTC ticks between two validity instants of a RATE: 1, 5, 10 or 20 Hz; and the ticks within which a record is written (R226). -/
def solPeriod (rate : Nat) : Nat := if rate = 0 then 200000000 else if rate = 1 then 40000000 else if rate = 2 then 20000000 else 10000000
def solLimit (rate : Nat) : Nat := if rate = 3 then 3000000 else 5000000

/-- HDG_SRC of a solution (R226): the baseline with HDG_EN, else the course at 0.5 m/s and above, else none. -/
def State.headingSource (s : State) (v : Solution) : Nat :=
  if s.pos.ant.hdgEn && v.hdgSrc == 1 then 1 else if 250000 ≤ v.vn * v.vn + v.ve * v.ve then 2 else 0

/-- The FIX of a solution whose corrections have passed CORR_MAX: DGNSS or SPP, which of them is a free value; SPP without any. -/
def State.fixNow (s : State) (v : Solution) : Nat :=
  if (v.fix = 3 ∨ v.fix = 4) ∧ s.pos.corrMax * 10 ≤ v.corrAge then
    (if v.corrAge = 65535 then 1 else 1 + Config.unstated 29 [v.corrAge, s.free] % 2)
  else v.fix

/-- A solution record for validity instant `mtc` (Table 12.4), or its drop.  One that is not complete in time carries FIX = NONE. -/
def execSolutionRecord (mtc : Nat) (v : Solution) (s : State) : Host.Outcome State Fault Refusal :=
  s.act (
    match s.pos.sol with
    | none => s
    | some cfg =>
      if mtc % solPeriod cfg.rate ≠ 0 ∨ s.mtc < mtc then s
      else
      let dr := v.fix == 5
      let gnss := decide (1 ≤ v.fix) && decide (v.fix ≤ 4)
      let tooFar := dr && s.pos.drOver
      let fix := if tooFar ∨ mtc + solLimit cfg.rate < s.mtc then 0 else s.fixNow v
      let src := s.headingSource v
      let body := if tooFar then s.pos.drWords.set 5 (0xFFFF + 2 ^ 16 * ((s.pos.drWords[5]?).getD 0 / 65536)) else s.solBody v
      let s := (s.modPos fun p =>
        { p with drOver := p.drOver && !gnss, drWords := if dr && !tooFar then body else p.drWords
                 drFrom := if gnss then none else if dr then some (p.drFrom.getD mtc) else p.drFrom }).fresh
      let size := 2 ^ cfg.log2n
      let seq := s.get GF_SOL.SEQ + 1
      if seq % size = s.get GF_SOL_RD.IDX % size then s.count GF_CNT.SOL_DROP
      else
        let a := cfg.ring + 64 * (seq % size)
        let w3 := fix + 2 ^ 4 * s.codeAt mtc + 2 ^ 8 * src + 2 ^ 10 * min v.nsat 63 + 2 ^ 16 * min v.corrAge 65535
        let s := (s.fabWrite (a + 4) (two mtc ++ [w3] ++ body ++ [0, 0])).fabWrite a [seq % 2 ^ 32]
        (s.put GF_SOL.SEQ seq).raise 0x3D)

/-- DR_MAX seconds of dead reckoning pass (R228). -/
def execDrMaxExpiry (s : State) : Host.Outcome State Fault Refusal :=
  s.act (if s.pos.drFrom.any fun t => decide (t + 200000000 * s.pos.drMax ≤ s.mtc) then s.modPos fun p => { p with drOver := true } else s)

/-! ### Snapshots and the watch log (R229, R230) -/

def execSnap (q : SvcReq) (len dest addr : Nat) (s : State) : Host.Outcome State Fault Refusal :=
  s.act (
    if !s.svcUp then s
    else
      let s := s.request 56 0x0030 q ([len, dest] ++ two addr)
      if s.pos.snap.isSome then s.done q posCore 0x0030 stBusy []
      else if len < 2 ∨ 32 < len ∨ 1 < dest then s.done q posCore 0x0030 stBadParam []
      else
        (s.modPos fun p => { p with snap := some ⟨keepReq q, len, dest, addr, s.mtc⟩ }).reply q posCore 0x0030 stAccepted
          false [])

/-- The words of a capture: a 64-byte header, then one word for each sample instant. -/
def State.snapWords (s : State) (w : SnapWait) (samples : List Nat) : List Nat :=
  let bytes := 64 + 80000 * w.len
  let rest := Config.snapHeader [s.codeAt w.mtc, low 64 (s.tnow.at w.mtc), s.tuU, b2n (s.bias 0) + 2 * b2n (s.bias 1)]
  two w.mtc ++ [w.len, bytes] ++ ((rest ++ List.replicate 12 0).take 12) ++
    ((samples ++ List.replicate (20000 * w.len) 0).take (20000 * w.len))

/-- The capture ends: header and samples are complete, and the request gets its final reply. -/
def State.snapCaptured (s : State) (samples : List Nat) : State :=
  match s.pos.snap with
  | none => s
  | some w =>
    let ws := s.snapWords w samples
    let s := s.modPos fun p => { p with snap := none }
    let s := if w.dest = 0 then s.fabWrite w.addr ws else s.modPos fun p => { p with jfxSnap := some ws }
    s.done w.req.req posCore 0x0030 stOk (two w.mtc ++ [64 + 80000 * w.len])

def execWatchLog (q : SvcReq) (addr : Nat) (s : State) : Host.Outcome State Fault Refusal :=
  s.act (
    if !s.svcUp then s
    else
      let s := s.request 56 0x0031 q (two addr)
      let ws := s.pos.watch.reverse.flatMap fun e =>
        ((Config.watchEntry e.mtc e.fix e.lat e.lon e.hu e.time e.unc) ++ List.replicate 8 0).take 8
      (s.fabWrite addr ws).done q posCore 0x0031 stOk [s.pos.watch.length])

end Sys2Proof.Machine
end

