-- ==== Sys2Proof/Machine/Fusion.lean ====
section
/-! DEFINITION.  Cuvee up to the release of an epoch: sensors and their objects, release, late objects, transform
tables, header geometry and model swaps (R146 to R161, R163, R167, R168). -/

namespace Sys2Proof.Machine

open Sys2Proof.Reg

/-! ### Objects (R148, R157) -/

/-- Is an epoch one that fusion never released because it was off (R168)? -/
def Cuvee.neverReleased (c : Cuvee) (k : Nat) : Bool := c.skipped.any fun g => decide (g.1 ≤ k) && decide (k < g.2)

/-- Has an epoch been released, and not at this very instant, whose objects it still takes (R156, R160)? -/
def State.cvIsLate (s : State) (k : Nat) : Bool :=
  decide (k < s.cuvee.next) && !(s.cuvee.epochs.any fun e => e.k == k && e.released == some s.mtc)

/-- Take an object of sensor `n`: future objects are discarded, late ones revised, the others join their epoch.  An object of
an epoch that was never released is neither (DESIGN CHOICE, log entry 62): it is discarded. -/
def State.cvTake (s : State) (n : Fin 16) (o : CvObj) : State :=
  if s.mtc < o.acq then
    ((s.count SENS_CNT0.FUTURE 1 n.val).count CV_CNT2.FUTURE).cvFlag CV_FLAGS.FUTURE
  else
    let s := s.count SENS_CNT2.OBJECTS 1 n.val
    let s := s.put64 SENS_LAST_LO.MTC o.acq n.val
    let s := s.modSens n fun d => { d with last := o.acq }
    let s := if s.maskedFor n.val whyDropout then s.sensGo n sensProbation 0 else s
    let o := { o with st := (s.get SENS_STAT.STATE n.val, s.get SENS_STAT.REASON n.val) }
    if s.cuvee.neverReleased o.epoch then s
    else if s.cvIsLate o.epoch then
      let s := ((s.count CV_CNT0.LATE).count SENS_CNT0.LATE 1 n.val).cvFlag CV_FLAGS.LATE
      let s := s.modCv fun c => c.modEpoch o.epoch fun e => { e with lateIn := true }
      (s.record .fusionLate (node domFusion none8 n.val) ([o.epoch] ++ two s.mtc)).revise o false
    else
      let s := s.modCv fun c => (c.withEpoch o.epoch).modEpoch o.epoch fun e => { e with objs := e.objs ++ [o] }
      (s.holdSlot o).cvReleaseAll

/-- An object of sensor `n` as it arrives, all but what its kind adds. -/
def State.newObject (s : State) (n : Fin 16) (acq : Nat) : CvObj :=
  { sensor := n.val, model := s.get SENS_CFG.MODEL n.val, st := (0, 0), epoch := acq / epochTicks, acq := acq, arrival := s.mtc
    width := 0, height := 0, scale := 1, valid := 0, lineT := 0, frameGen := 0, tblGen := 0, flags := 0, points := [], hold := none
    usable := true, done := false, out := [], parts := [] }

/-- A frame whose slot was reused before the hold took effect: counted, and its sensor's LOST flag set in its epoch (R148). -/
def State.cvLost (s : State) (n : Fin 16) (acq : Nat) : State :=
  let k := acq / epochTicks
  (s.count SENS_CNT2.LOST 1 n.val).modCv fun c =>
    (if k < c.next then c else c.withEpoch k).modEpoch k fun e => { e with lost := e.lost ||| 2 ^ n.val }

/-- Does a sensor take objects: enabled, of the kind, and not masked by software? -/
def State.sensTakes (s : State) (n kind : Nat) : Bool :=
  s.on CV_CTL.EN && s.on SENS_CFG.EN n && s.get SENS_CFG.KIND n == kind && !s.maskedFor n whySoftware

/-- Cuvee looks for frame `fseq` in the descriptor ring of its port, and takes it where word 0 shows it as a new FSEQ (R134,
R148).  The frame is lost where the port is writing its slot again, or (`lost`) wrote it while Cuvee was reading. -/
def execCameraObjectArrival (n : Fin 16) (fseq : Nat) (lost : Bool) (s : State) : Host.Outcome State Fault Refusal :=
  s.act (
    if s.sensTakes n.val 1 then
      let p := s.get SENS_CFG.SRC n.val
      let d := s.fabWords (s.addr40 DESC_BASE_LO.ADDR DESC_BASE_HI.ADDR p + 32 * (fseq % 64)) 8
      let w := fun k => (d[k]?).getD 0
      let acq := w 1 + 2 ^ 32 * w 2
      let fl := w 0 / 2 ^ 16
      let dropped := bit fl 6
      let buf := bits (w 4) 12 4
      let reused := !dropped && (lost || (s.on CAM_FRAME.WACT p && s.get CAM_FRAME.WBUF p == buf))
      if w 0 % 2 ^ 16 ≠ fseq ∨ (s.cuvee.sensors[n.val]).seen = some fseq then s
      else
        let s := s.modSens n fun d => { d with seen := some fseq }
        if reused then s.cvLost n acq
        else
          let valid := bits (w 3) 0 12
          let flags := b2n (bit fl 0) + 2 * b2n (bit fl 1) + 4 * b2n (bit fl 2) + 8 * b2n (bit fl 3) + 16 * b2n (bit fl 4)
            + 32 * b2n (bit fl 8) + 64 * b2n (bit fl 9)
          s.cvTake n
            { s.newObject n acq with
              width := s.get CAM_SIZE.WIDTH p, height := s.get CAM_SIZE.HEIGHT p, scale := 2 ^ min 2 (s.get OUT_CFG.SCALE p), valid := valid
              lineT := bits (w 7) 0 16, frameGen := bits (w 4) 0 8, tblGen := bits (w 4) 16 8, flags := flags
              hold := if dropped then none else some (p, buf), usable := !dropped && decide (0 < valid) }
    else s)

/-- Point `i` of the block in a ring slot (Table 15.2). -/
def State.blockPoint (s : State) (a i : Nat) : LidarPoint :=
  let w := fun k => s.fabN (a + 0x40 + 12 * i + 4 * k) 4
  ⟨sgn 16 (w 0), sgn 16 (w 0 / 2 ^ 16), sgn 16 (w 1), bits (w 1) 16 8, w 2⟩

/-- A closed block of the ring slot of stream STREAM on Ethernet port SRC becomes a lidar object (R148, R288). -/
def execLidarBlockArrival (n : Fin 16) (slot : Nat) (s : State) : Host.Outcome State Fault Refusal :=
  s.act (
    let k := s.get SENS_CFG.STREAM n.val
    if s.sensTakes n.val 2 && decide (k < 16) && s.get STR_CFG.PORT k == s.get SENS_CFG.SRC n.val then
      let a := s.addr40 STR_RING_LO.ADDR STR_RING_HI.ADDR k + slot % 16 * 0x40000
      let pts := s.fabN (a + 0x10) 4
      if bit (s.fabN a 4) 19 then s
      else
        s.cvTake n
          { s.newObject n (s.fabN (a + 8) 8) with
            points := (List.range (min pts 21840)).map fun i => s.blockPoint a i, usable := decide (0 < pts) }
    else s)

/-- WAIT_LIMIT in ticks, at most 200 ms (Table 8.9). -/
def State.waitLimit (s : State) : Nat := 200000 * min 200 (s.get CV_EPOCH.WAIT_LIMIT)

/-- Once the MTC has reached E_(k+1) + WAIT_LIMIT the epoch is released at the limit (R156). -/
def execEpochReleaseTimeout (s : State) : Host.Outcome State Fault Refusal :=
  s.act (
    if s.on CV_CTL.EN && decide (epochStart (s.cuvee.next + 1) + s.waitLimit ≤ s.mtc) then (s.cvRelease true).cvReleaseAll else s)

/-! ### Feature extraction (R148, R149, R153) -/

/-- Is an object one of sensor `n` on which its model has still to run? -/
def CvObj.waits (o : CvObj) (n : Nat) : Bool := o.sensor == n && !o.done

/-- The first object of a list on which the model of sensor `n` has still to run takes its output. -/
def finishFirst (n : Nat) (out : List FeatCell) : List CvObj → List CvObj
  | [] => []
  | o :: t => if o.waits n then { o with done := true, out := out } :: t else o :: finishFirst n out t

/-- The model of lidar sensor `n` has run on the raster of its objects: the first usable one carries the output. -/
def finishRaster (n : Nat) (out : List FeatCell) (objs : List CvObj) : List CvObj :=
  let mark := objs.findIdx? fun o => o.waits n && o.usable
  objs.zipIdx.map fun p => if p.1.waits n then { p.1 with done := true, out := if mark = some p.2 then out else [] } else p.1

/-- The model of sensor `n` finishes on an epoch: a camera's on its oldest object, as objects arrive; a lidar's on the raster
of all its objects, once the epoch is released (Table 8.4). -/
def State.extractEpoch (s : State) (n : Nat) (out : List FeatCell) (e : CvEpoch) : State :=
  match e.objs.find? fun o => o.waits n with
  | none => s
  | some o =>
    if o.points.isEmpty then (s.unhold o).modCv fun c => c.modEpoch e.k fun e => { e with objs := finishFirst n out e.objs }
    else
      let r := s.raster (e.objs.filter fun o => o.sensor == n && o.usable)
      s.modCv fun c => c.modEpoch e.k fun e => { e with objs := finishRaster n out e.objs, rasters := e.rasters ++ [(n, r)] }

/-- A late object's model finishes: it is projected and goes to Trellis (R161). -/
def State.extractLate (s : State) (o : CvObj) (out : List FeatCell) : State :=
  let d := { o with done := true, out := out }
  (s.unhold o).modCv fun c => { c with late := c.late.erase o, revs := c.revs ++ [{ d with parts := s.objParts d }] }

/-- The oldest epoch on which the model of sensor `n` can run (R158). -/
def State.extractNext (s : State) (n : Nat) : Option CvEpoch :=
  s.cuvee.epochs.find? fun e => e.objs.any fun o => o.waits n && (o.points.isEmpty || e.released.isSome)

/-- A per-sensor model finishes on the oldest object of its sensor (R158). -/
def execFeatureExtractDone (n : Fin 16) (out : List FeatCell) (s : State) : Host.Outcome State Fault Refusal :=
  s.act (
    match s.extractNext n.val with
    | some e => s.extractEpoch n.val out e
    | none =>
      match s.cuvee.late.find? fun o => o.sensor == n.val with
      | some o => s.extractLate o out
      | none => s)

/-! ### Transform tables and header geometry (R155) -/

/-- The oldest epoch that has not been published: one released, or the next to release; with fusion off and none released, the
present one. -/
def State.oldestEpoch (s : State) : Nat :=
  match (s.cuvee.epochs.filter fun e => e.released.isSome).head? with
  | some e => e.k
  | none => if s.on CV_CTL.EN then s.cuvee.next else s.mtc / epochTicks

/-- Would a fifth generation discard one that epoch `k` still uses? -/
def discardsUsed (vs : List CvTable) (k : Nat) : Bool :=
  decide (4 ≤ vs.length) && !((vs.take 3).any fun v => decide (v.start ≤ k))

/-- The versions of a table with one more, at most 4. -/
def addVersion (vs : List CvTable) (v : CvTable) : List CvTable := (v :: vs).take 4

/-- TT_CTL.COMMIT of sensor `n`; the bit reads 1 until the commit takes effect. -/
def State.ttCommit (s : State) (n : Fin 16) : State :=
  if s.on TT_CTL.PEND n.val || discardsUsed (s.cuvee.tt[n.val]) s.oldestEpoch then
    (s.count TT_CTL.IGN 1 n.val).cvFlag CV_FLAGS.TT_IGN
  else
    let s := ((s.bumpMod TT_CTL.GEN n.val).putB TT_CTL.PEND true n.val).putB TT_CTL.COMMIT true n.val
    let v : CvTable := ⟨s.get TT_CTL.GEN n.val, epochAfter s.mtc, (List.range 21).map fun j => s.get TT_SH.W n.val j⟩
    (s.modCv fun c => { c with tt := upd c.tt n fun vs => addVersion vs v }).record .ttCommit
      (node domFusion none8 n.val) [v.gen]

/-- HG_CTL.COMMIT. -/
def State.hgCommit (s : State) : State :=
  if s.on HG_CTL.PEND || discardsUsed s.cuvee.hg s.oldestEpoch then (s.count HG_CTL.IGN).cvFlag CV_FLAGS.TT_IGN
  else
    let s := ((s.bumpMod HG_CTL.GEN).putB HG_CTL.PEND true).putB HG_CTL.COMMIT true
    let v : CvTable := ⟨s.get HG_CTL.GEN, epochAfter s.mtc, (List.range 4).map fun j => s.get HG_SH.W 0 j⟩
    (s.modCv fun c => { c with hg := addVersion c.hg v }).record .ttCommit (node domFusion none8 none8) [v.gen]

def execTtCommit (n : Fin 16) (rq : Req) (s : State) : Host.Outcome State Fault Refusal :=
  s.act (if rq.sup then s.ttCommit n else s)

def execHgCommit (rq : Req) (s : State) : Host.Outcome State Fault Refusal := s.act (if rq.sup then s.hgCommit else s)

/-! ### Model swap (R149, R150, R167) -/

/-- The fields of a container header that Cuvee uses. -/
def readModel (h : List Nat) (start addr : Nat) : CvModel :=
  let n := fun o k => (List.range k).foldl (fun a i => a + (h[o + i]?).getD 0 * 256 ^ i) 0
  { start := start, gen := n 0x2C 1, addr := addr, kind := n 0x08 1, outW := n 0x14 2, outH := n 0x16 2, outCh := n 0x18 1
    confCh := n 0x19 1, ch0 := n 0x1A 1, sram := n 0x1C 4 }

/-- A little-endian word of a byte list. -/
def wordAt (h : List Nat) (o : Nat) : Nat := (List.range 4).foldl (fun a i => a + (h[o + i]?).getD 0 * 256 ^ i) 0

/-- Does KIND match every enabled sensor that names slot `m`?  A sensor of KIND 0b11 is of none (Table 8.10). -/
def State.kindOk (s : State) (m kind : Nat) : Bool :=
  (kind == 1 || kind == 2 || kind == 3) && (kind != 3 || m == 15) &&
    (List.range 16).all fun n =>
      !s.on SENS_CFG.EN n || s.get SENS_CFG.MODEL n != m || (s.get SENS_CFG.KIND n == kind && kind != 3)

/-- Are OUT_CH, OUT_W and OUT_H allowed (R149, R150)? -/
def CvModel.channelsOk (v : CvModel) : Bool :=
  decide (1 ≤ v.outCh) && decide (v.outCh ≤ 65)
    && decide (v.ch0 + v.outCh ≤ 64 + (if v.confCh = 0xFF then 0 else 1))
    && (v.kind == 1 || (v.outW == 400 && v.outH == 200) || (v.outW == 200 && v.outH == 100))

/-- Feature SRAM of the active models, those in force at the present epoch, in bytes. -/
def State.modelSram (s : State) : Nat :=
  ((List.range 16).map fun m => ((s.modelAt m (s.mtc / epochTicks)).map CvModel.sram).getD 0).sum

/-- The ERR code of a container for slot `m` (R150), 0 when every check passes. -/
def State.containerErr (s : State) (m : Nat) (addr : Nat) : Nat :=
  let h := s.fabBytes addr 64
  let v := readModel h 0 addr
  if wordAt h 0 ≠ 0x4D56435A then 1
  else if crc32c (h.take 0x3C) ≠ wordAt h 0x3C then 2
  else if wordAt h 4 % 65536 ≠ 1 then 3
  else if !s.kindOk m v.kind then 4
  else if !v.channelsOk then 5
  else if 20 * 1024 * 1024 < s.modelSram + v.sram then 6
  else if crc32c (s.fabBytes (addr + 64) (wordAt h 0x24)) ≠ wordAt h 0x28 then 7
  else if s.on MS_STAT.OLD_BUSY m then 8
  else 0

/-- MS_CTL.SWAP of slot `m`; the bit reads 1 until an accepted swap takes effect. -/
def State.modelSwap (s : State) (m : Fin 16) : State :=
  let addr := s.addr40 MS_SH_LO.ADDR MS_SH_HI.ADDR m.val
  let err := s.containerErr m.val addr
  let old := s.get MS_STAT.GEN m.val
  let v := readModel (s.fabBytes addr 64) (epochAfter s.mtc) addr
  let s := s.put MS_STAT.ERR err m.val
  if err ≠ 0 then
    (s.cvFlag CV_FLAGS.SWAP_REFUSED).record .modelSwap (node domFusion none8 m.val)
      [err + 2 ^ 8 * old + 2 ^ 16 * v.gen, 0]
  else
    let had := !(s.cuvee.models[m.val]).isEmpty
    let s := s.modCv fun c => { c with models := upd c.models m fun vs => v :: vs }
    let s := ((s.putB MS_STAT.PEND true m.val).putB MS_STAT.OLD_BUSY had m.val).put MS_FROM.EPOCH v.start m.val
    let s := s.putB MS_CTL.SWAP true m.val
    s.record .modelSwap (node domFusion none8 m.val) [2 ^ 8 * old + 2 ^ 16 * v.gen, s.get MS_FROM.EPOCH m.val]

def execModelSwap (m : Fin 16) (rq : Req) (s : State) : Host.Outcome State Fault Refusal :=
  s.act (if rq.sup then s.modelSwap m else s)

/-- CV_SRAM.USED, in 64 KiB. -/
def State.cvUsed (s : State) : State := s.put CV_SRAM.USED (Config.quot 6 s.modelSram 65536)

/-- Has every epoch before `k` been published or dropped, and has the revision horizon of the last of them passed (R167)? -/
def State.epochsOver (s : State) (k : Nat) : Bool :=
  !(s.cuvee.epochs.any fun e => decide (e.k < k)) && (!s.on CV_CTL.EN || decide (k ≤ s.cuvee.next))
    && decide (epochStart k + s.revHorizon < s.mtc)

/-- The old model of a slot is no longer needed (R167). -/
def execModelOldRelease (m : Fin 16) (s : State) : Host.Outcome State Fault Refusal :=
  s.act (
    if s.on MS_STAT.OLD_BUSY m.val && !s.on MS_STAT.PEND m.val && s.epochsOver (s.get MS_FROM.EPOCH m.val) then
      ((s.putB MS_STAT.OLD_BUSY false m.val).modCv fun c => { c with models := upd c.models m fun vs => vs.take 1 }).cvUsed
    else s)

/-- What takes effect when an epoch begins: the pending commits and swaps (R155, R167). -/
def State.cvEpochBegin (s : State) : State :=
  let k := s.mtc / epochTicks
  let s := (List.finRange 16).foldl (fun (t : State) (n : Fin 16) =>
    match (t.cuvee.tt[n.val]).head? with
    | some v =>
      if t.on TT_CTL.PEND n.val && decide (v.start ≤ k) then
        ((v.words.zipIdx.foldl (fun t p => t.put TT_AC.W p.1 n.val p.2) t).putB TT_CTL.PEND false n.val).putB TT_CTL.COMMIT false n.val
      else t
    | none => t) s
  let s := match s.cuvee.hg.head? with
    | some v =>
      if s.on HG_CTL.PEND && decide (v.start ≤ k) then
        ((v.words.zipIdx.foldl (fun t p => t.put HG_AC.W p.1 0 p.2) s).putB HG_CTL.PEND false).putB HG_CTL.COMMIT false
      else s
    | none => s
  (List.finRange 16).foldl (fun (t : State) (m : Fin 16) =>
    match (t.cuvee.models[m.val]).head? with
    | some v =>
      if t.on MS_STAT.PEND m.val && decide (v.start ≤ k) then
        let t := ((t.put MS_STAT.GEN v.gen m.val).put MS_STAT.SRAM (Config.quot 6 v.sram 65536) m.val).putB MS_STAT.PEND
          false m.val
        let t := t.putB MS_CTL.SWAP false m.val
        ((t.put MS_AC_LO.ADDR (v.addr / 64) m.val).put MS_AC_HI.ADDR (v.addr / 2 ^ 32) m.val).cvUsed
      else t
    | none => t) s

/-! ### Enabling, masking, motion -/

/-- A write of CV_CTL (R168): EN written to 1 starts fusion at the next epoch, EN written to 0 discards the open epochs. -/
def State.cvCtlWrite (s : State) (word : Nat) : State :=
  let was := s.on CV_CTL.EN
  let s := s.putWord [CV_CTL.EN, CV_CTL.REV_EN, CV_CTL.GRID_EN] word
  let now := s.on CV_CTL.EN
  if now && !was then
    (s.putB GRID_STAT.VALID false).modCv fun c =>
      { c with
        next := epochAfter s.mtc, skipped := (c.next, epochAfter s.mtc) :: c.skipped
        grid := [], tref := none, acc := ⟨0, 1⟩, pub := none }
  else if was && !now then
    let open_ := s.cuvee.epochs.filter fun e => e.released.isNone
    let s := open_.foldl (fun t e => e.objs.foldl (fun t o => t.unhold o) t) s
    s.modCv fun c => { c with epochs := c.epochs.filter fun e => e.released.isSome }
  else s

def execCvEnable (word : Nat) (rq : Req) (s : State) : Host.Outcome State Fault Refusal :=
  s.act (if rq.sup then s.cvCtlWrite word else s)

/-- The state that a write of SENS_CFG gives its sensor (R163, Table 8.6). -/
def State.sensConfigured (s : State) (n : Fin 16) (word : Nat) : State :=
  let was := s.on SENS_CFG.EN n.val
  let src := s.get SENS_CFG.SRC n.val
  let s := s.putWord [SENS_CFG.EN, SENS_CFG.KIND, SENS_CFG.SRC, SENS_CFG.STREAM, SENS_CFG.MODEL, SENS_CFG.PROB_USE,
    SENS_CFG.MASK, SENS_CFG.JIT] word n.val
  let s := if was && src = s.get SENS_CFG.SRC n.val then s else s.modSens n fun d => { d with seen := none }
  if !s.on SENS_CFG.EN n.val then s.sensGo n sensOff 0
  else
    let s := if was then s else s.put SENS_STAT.HEALTH (s.get SENS_HCFG.H0 n.val) n.val
    if s.on SENS_CFG.MASK n.val then s.sensGo n sensMasked whySoftware
    else if !was || s.maskedFor n.val whySoftware then s.sensGo n sensProbation 0
    else s

/-- A write of SENS_CFG, which may complete an epoch (R156). -/
def State.sensCfgWrite (s : State) (n : Fin 16) (word : Nat) : State := (s.sensConfigured n word).cvReleaseAll

def execSensMaskWrite (n : Fin 16) (word : Nat) (rq : Req) (s : State) : Host.Outcome State Fault Refusal :=
  s.act (if rq.sup then s.sensCfgWrite n word else s)

/-- The motion pair read at a major-frame boundary (R154); none: the read ended in a bus error. -/
def State.cvMotion (s : State) (spd yaw : Option Int) : State :=
  let prev := (s.cuvee.motion.head?).getD (0, 0, 0)
  let s := if spd.isNone ∨ yaw.isNone then
      (s.cvFlag CV_FLAGS.MOTION_ERR).modCv fun c => { c with motionErr := true } else s
  let p := match spd, yaw with
    | some a, some b => (a, b)
    | _, _ => (prev.2.1, prev.2.2)
  s.modCv fun c => { c with motion := ((s.mtc, p.1, p.2) :: c.motion).take 256 }

end Sys2Proof.Machine
end

