-- ==== Sys2Proof/Machine/Grid.lean ====
section
/-! DEFINITION.  Fusion of an epoch, the evaluation of the sensors and the publication of the grid (R154, R158, R159,
R162 to R166). -/

namespace Sys2Proof.Machine

open Sys2Proof.Reg

/-- rdiv of R162 for a positive divisor. -/
def rdiv (a : Int) (b : Nat) : Int := Int.fdiv (2 * a + b) (2 * b)

/-- sat8. -/
def sat8 (v : Int) : Int := clampZ (-128) 127 v

/-! ### The carried grid (R154) -/

/-- The carried cell of an index; unlisted, unseen. -/
def gridAt (g : List (Nat × GridCell)) (i : Nat) : GridCell := ((g.find? fun p => p.1 == i).map Prod.snd).getD .unseen

/-- The carried grid moved by `n` rows towards the machine; cells that leave it vanish, the others enter unseen. -/
def shiftRows (g : List (Nat × GridCell)) (n : Int) : List (Nat × GridCell) :=
  g.filterMap fun p =>
    let r := (p.1 / 400 : Nat) - n
    if 0 ≤ r ∧ r < 200 then some (r.toNat * 400 + p.1 % 400, p.2) else none

/-- The carried grid turned by the yaw of the span: a cell takes what lies, before the turn by −ψ, in the cell that contains
its centre turned back (DEDUCED, log entry 13). -/
def turnGrid (g : List (Nat × GridCell)) (cb : Frac × Frac) (psi : Frac) : List (Nat × GridCell) :=
  if psi.num = 0 then g
  else
    (List.range 80000).filterMap fun i =>
      (cellAt cb.1 cb.2 (unturn psi.neg (cellCentre cb.1 cb.2 i))).bind fun j => (g.find? fun p => p.1 == j).map fun p => (i, p.2)

/-! ### Contributions (R153, R162) -/

/-- What one sensor brings to one cell: its weight and its channel values. -/
structure CvCell where
  cell : Nat
  w : Nat
  feats : List (Nat × Int)

/-- The feature cells of a sensor's objects that fall in one grid cell, as one contribution, weighted by m. -/
def combineCell (cell h : Nat) (ps : List (CvPart × Bool)) : CvCell :=
  let m := match ps with
    | [p] => p.1.m
    | _ => min 255 (Config.combineM (ps.map fun p => p.1.m))
  let w0 := m * h / 256
  let w := if ps.any fun p => p.2 then w0 / 2 else w0
  let chans := (ps.flatMap fun p => p.1.feats.map Prod.fst).eraseDups
  let f := fun ch =>
    let vs := ps.filterMap fun p => (p.1.feats.find? fun q => q.1 == ch).map fun q => (p.1.m, q.2)
    let tot := (vs.map Prod.fst).sum
    if tot = 0 then 0 else Config.quotZ 7 ((vs.map fun v => (v.1 : Int) * v.2).sum) tot
  ⟨cell, w, chans.map fun ch => (ch, sat8 (f ch))⟩

/-- The contributions of a sensor of health `h` from its objects. -/
def sensorCells (h : Nat) (objs : List CvObj) : List CvCell :=
  let ps := objs.flatMap fun o => o.parts.map fun p => (p, bit o.flags 0)
  ((ps.map fun p => p.1.cell).eraseDups).map fun c => combineCell c h (ps.filter fun p => p.1.cell == c)

/-- The contribution of a sensor to a cell. -/
def cellOf (l : List CvCell) (i : Nat) : Option CvCell := l.find? fun c => c.cell == i

def CvCell.feat (c : CvCell) (ch : Nat) : Option Int := (c.feats.find? fun q => q.1 == ch).map Prod.snd

/-- Fusion of one cell (R162): the carried cell, and the weighted contributions by sensor. -/
def fuseCell (decay : Nat) (prev : GridCell) (cs : List (Nat × CvCell)) : GridCell :=
  let wp := prev.conf * decay / 256
  let W := (cs.map fun c => c.2.w).sum
  if W = 0 then { prev with conf := wp, st := if prev.conf = 0 ∧ prev.st = 3 then 3 else 1, mask := 0 }
  else
    let f := fun ch (fprev : Int) =>
      let vs := cs.filterMap fun c => (c.2.feat ch).map fun v => (c.2.w, v)
      let wch := (vs.map Prod.fst).sum
      if wch = 0 then fprev else sat8 (rdiv ((vs.map fun v => (v.1 : Int) * v.2).sum + wp * fprev) (wch + wp))
    { feats := (List.range 64).map fun ch => f ch ((prev.feats[ch]?).getD 0)
      conf := min 255 (W + wp), st := 0
      mask := (cs.map fun c => if 0 < c.2.w then 2 ^ c.1 else 0).sum }

/-! ### Evaluation (R164 to R166) -/

/-- The channels of CV_RESMASK. -/
def State.resChannels (s : State) : List Nat :=
  (List.range 64).filter fun ch =>
    if ch < 32 then bit (s.get CV_RESMASK_LO.W) ch else bit (s.get CV_RESMASK_HI.W) (ch - 32)

/-- The mean of a list of magnitudes, rounded, saturated at 255. -/
def mean255 (l : List Nat) : Nat := if l.isEmpty then 0 else min 255 (rdiv (l.sum : Nat) l.length).toNat

/-- The fusion of contributions in one cell and channel without the carried prior. -/
def fuseOthers (cs : List CvCell) (ch : Nat) : Option Int :=
  let vs := cs.filterMap fun c => (c.feat ch).map fun v => (c.w, v)
  let tot := (vs.map Prod.fst).sum
  if tot = 0 then none else some (sat8 (rdiv ((vs.map fun v => (v.1 : Int) * v.2).sum) tot))

/-- The residual cells of a sensor, with the other contributions to each: the sensor and at least two others have
w ≥ C_MIN (R164). -/
def residualCells (cmin : Nat) (own : List CvCell) (others : List (List CvCell)) : List (CvCell × List CvCell) :=
  own.filterMap fun c =>
    let os := others.filterMap fun l => cellOf l c.cell
    if cmin ≤ c.w ∧ 2 ≤ os.countP (fun o => decide (cmin ≤ o.w)) then some (c, os) else none

/-- The residual over a sensor's residual cells: none with fewer than SHARE_MIN of them. -/
def residual (share : Nat) (chans : List Nat) (cells : List (CvCell × List CvCell)) : Option Nat :=
  if cells.length < share ∨ cells.isEmpty then none
  else
    some ((chans.map fun ch => mean255 (cells.filterMap fun p =>
      match p.1.feat ch, fuseOthers p.2 ch with
      | some a, some g => some (a - g).natAbs
      | _, _ => none)).foldl max 0)

/-- The shared cells of two sensors: cell, and both contributions. -/
def sharedCells (cmin : Nat) (a b : List CvCell) : List (CvCell × CvCell) :=
  a.filterMap fun c =>
    match cellOf b c.cell with
    | some d => if cmin ≤ c.w ∧ cmin ≤ d.w then some (c, d) else none
    | none => none

/-- The differences of a shared cell in the judged channels. -/
def cellDiffs (chans : List Nat) (p : CvCell × CvCell) (ch : Nat) : Option Nat :=
  if chans.contains ch then
    match p.1.feat ch, p.2.feat ch with
    | some a, some b => some (a - b).natAbs
    | _, _ => none
  else none

/-- The disagreement D of a pair's shared cells (R165). -/
def disagreement (chans : List Nat) (cells : List (CvCell × CvCell)) : Nat :=
  (chans.map fun ch => mean255 (cells.filterMap fun p => cellDiffs chans p ch)).foldl max 0

/-- Judge one sensor by its residual (R164). -/
def State.judgeResidual (s : State) (n : Fin 16) (r : Option Nat) : State :=
  match r with
  | none => s
  | some r =>
    let h := s.get SENS_STAT.HEALTH n.val
    let s := s.put SENS_STAT.RESID r n.val
    if r ≤ s.get CV_RES.RES_THR then
      (s.put SENS_STAT.HEALTH (min 255 (h + s.get CV_RES.H_UP)) n.val).modSens n fun d => { d with bad := 0, good := d.good + 1 }
    else
      let s := (s.put SENS_STAT.HEALTH (h - s.get CV_RES.H_DN) n.val).modSens n fun d => { d with bad := d.bad + 1, good := 0 }
      if s.get SENS_STAT.STATE n.val = sensActive ∧ max 1 (s.get CV_RES.RES_N) ≤ (s.cuvee.sensors[n.val]).bad then
        let s := s.sensGo n sensMasked whyResidual
        s.put SENS_STAT.HEALTH (s.get SENS_STAT.HEALTH n.val / 2) n.val
      else s

/-- The pair's run counts, made when absent. -/
def State.cvPair (s : State) (a b : Nat) : CvPair :=
  ((s.cuvee.pairs.find? fun p => p.a == a && p.b == b)).getD ⟨a, b, 0, 0, false⟩

def State.setPair (s : State) (p : CvPair) : State :=
  s.modCv fun c => { c with pairs := c.pairs.filter (fun q => !(q.a == p.a && q.b == p.b)) ++ [p] }

/-- The outcome of a pair in one epoch: cells to mark, and D with the count of shared cells when the header lists it. -/
structure PairOut where
  marks : List Nat
  entry : Option (Nat × Nat × Nat × Nat)

/-- Judge one pair of contributing sensors (R165).  A sensor masked or switched off since the release keeps that state (R163). -/
def State.judgePair (s : State) (k : Nat) (a b : Fin 16) (ca cb : List CvCell) : State × PairOut :=
  let chans := s.resChannels
  let cells := sharedCells (s.get CV_CONF.C_MIN) ca cb
  let thr := s.get CV_CON.CON_THR
  let need := max 1 (s.get CV_CON.CON_N)
  let p := s.cvPair a.val b.val
  let evaluated := decide (s.get CV_CON.SHARE_MIN ≤ cells.length) && !cells.isEmpty
  let D := disagreement chans cells
  let p' : CvPair :=
    if !evaluated then p
    else if thr < D then { p with up := p.up + 1, down := 0, contra := p.contra || decide (need ≤ p.up + 1) }
    else { p with up := 0, down := p.down + 1, contra := p.contra && decide (p.down + 1 < need) }
  let items := [a.val + 2 ^ 4 * b.val + 2 ^ 8 * D, k]
  let nd := node domFusion none8 none8
  if p'.contra then
    let marks := (cells.filter fun q => chans.any fun ch => decide (thr < (cellDiffs chans q ch).getD 0)).map fun q => q.1.cell
    let ha := s.get SENS_STAT.HEALTH a.val
    let hb := s.get SENS_STAT.HEALTH b.val
    if s.get CV_CONF.H_MARGIN ≤ max ha hb - min ha hb then
      let low := if ha < hb then a else b
      let st := s.get SENS_STAT.STATE low.val
      let s := (s.setPair { p' with contra := false, up := 0, down := 0 })
      let s := if p.contra then s.record .contraExit nd items else s
      (if st = sensActive ∨ st = sensProbation then s.sensGo low sensMasked whyContra else s, ⟨marks, none⟩)
    else
      let s := (s.setPair p').cvFlag CV_FLAGS.CONTRA
      let s := if p.contra then s else s.record .contraEnter nd items
      (s, ⟨marks, some (a.val, b.val, D, cells.length)⟩)
  else
    let s := s.setPair p'
    (if p.contra then s.record .contraExit nd items else s, ⟨[], none⟩)

/-- Re-admission (R166): `judged`: the sensor has residual cells, be they too few to judge it, or is in an evaluated pair;
`had`: it delivered. -/
def State.readmission (s : State) (n : Fin 16) (judged had : Bool) : State :=
  let st := s.get SENS_STAT.STATE n.val
  let why := s.get SENS_STAT.REASON n.val
  if st = sensProbation ∨ (st = sensMasked ∧ (why = whyResidual ∨ why = whyContra)) then
    let need := max 1 (s.get CV_RES.READMIT_N)
    let s := if had && !judged then s.modSens n fun d => { d with deliv := d.deliv + 1 } else s
    let d := s.cuvee.sensors[n.val]
    let known := !(s.cuvee.models[s.get SENS_CFG.MODEL n.val % 16]'(by omega)).isEmpty
    if known && ((decide (need ≤ d.good) && decide (s.get SENS_HCFG.H_ADMIT n.val ≤ s.get SENS_STAT.HEALTH n.val))
        || (!judged && decide (need ≤ d.deliv))) then
      s.sensGo n sensActive 0
    else s
  else s

/-! ### Publication (R158, R159) -/

/-- The state of a sensor for an epoch: the state at its release, but what evaluations of earlier epochs decided
since (R163).  An object taken before its sensor dropped out is used under the state it came with (R18, R170). -/
def State.sensFor (s : State) (e : CvEpoch) (n : Nat) : Nat × Nat :=
  let rel0 := (e.rel[n]?).getD (0, 0)
  let rel := if rel0 = (sensMasked, whyDropout) then ((e.objs.find? fun o => o.sensor == n).map CvObj.st).getD rel0 else rel0
  let now := (s.get SENS_STAT.STATE n, s.get SENS_STAT.REASON n)
  let out := fun (p : Nat × Nat) => p.1 == sensOff || (p.1 == sensMasked && (p.2 == whySoftware || p.2 == whyDropout))
  if out rel || out now then rel else now

/-- The header words 1 to 255 of a grid slot but the pairs (Table 8.5). -/
def State.gridSensorWords (s : State) (e : CvEpoch) (n : Nat) : List Nat :=
  let objs := e.objs.filter fun o => o.sensor == n
  let last := objs.getLast?
  let mgen := ((s.modelAt ((last.map CvObj.model).getD (s.get SENS_CFG.MODEL n)) e.k).map CvModel.gen).getD 0
  let tgen := ((tableAt (s.cuvee.tt[n % 16]'(by omega)) e.k).map CvTable.gen).getD 0
  let fl := (objs.map CvObj.flags).foldl (· ||| ·) 0 ||| (if bit e.lost n then 128 else 0)
  [mgen + 2 ^ 8 * tgen + 2 ^ 16 * s.get SENS_STAT.STATE n + 2 ^ 20 * s.get SENS_STAT.REASON n
      + 2 ^ 24 * s.get SENS_STAT.HEALTH n,
    (last.map CvObj.frameGen).getD 0 + 2 ^ 8 * (last.map CvObj.tblGen).getD 0 + 2 ^ 16 * min 15 objs.length
      + 2 ^ 20 * fl + 2 ^ 28 * (s.get SENS_STAT.RESID n / 16)]

/-- The 16 entries with the largest D, and whether there were more. -/
def topPairs (l : List (Nat × Nat × Nat × Nat)) : List (Nat × Nat × Nat × Nat) × Bool :=
  let sorted := l.mergeSort fun x y => decide (y.2.2.1 ≤ x.2.2.1)
  (sorted.take 16, decide (16 < l.length))

/-- Write the cell arrays of a slot (Table 8.5). -/
def State.writeGrid (s : State) (base : Nat) (g : List (Nat × GridCell)) : State :=
  let cells := (List.range 80000).map fun i => gridAt g i
  let s := s.fabWriteBytes (base + 0x1000) (cells.flatMap fun c => c.feats.map fun v => low 8 v)
  let s := s.fabWriteBytes (base + 0x4E3000) (cells.map GridCell.conf)
  let s := s.fabWriteBytes (base + 0x4F7000) (cells.map GridCell.st)
  s.fabWriteBytes (base + 0x50B000) (cells.flatMap fun c => leBytes 2 c.mask)

/-- The fusion, evaluation and publication of a released epoch whose models have all run. -/
def State.cvPublish (s : State) (e : CvEpoch) (rel : Nat) (gm : List GridOut) : State :=
  let tref := epochStart (e.k + 1)
  let e := { e with objs := e.objs.map fun o => { o with parts := s.objParts o } }
  -- the carried grid at this T_ref
  let acc := match s.cuvee.tref with
    | some t0 => s.cuvee.acc.add (s.travel t0 tref)
    | none => Frac.int 0
  let n := ((acc.mul (Frac.int 20)).add (Frac.of 1 2)).floor
  let carried := match s.cuvee.tref with
    | some t0 => turnGrid (shiftRows s.cuvee.grid n) ((cutterBar (s.hgWords e.k)).getD (Frac.int 0, Frac.int 0)) (s.yawed t0 tref)
    | none => []
  -- what each sensor brings
  let st := (List.range 16).map fun i => s.sensFor e i
  let stOf := fun (i : Nat) => (st[i]?).getD (0, 0)
  let probUse := fun (i : Nat) => s.on SENS_CFG.PROB_USE i
  let evaluated := fun (i : Nat) =>
    (stOf i).1 == sensActive || (stOf i).1 == sensProbation
      || ((stOf i).1 == sensMasked && ((stOf i).2 == whyResidual || (stOf i).2 == whyContra))
  let contributes := fun (i : Nat) => (stOf i).1 == sensActive || ((stOf i).1 == sensProbation && probUse i)
  let objsOf := fun (i : Nat) => e.objs.filter fun o => o.sensor == i
  let evalCells := (List.range 16).map fun i =>
    if evaluated i then sensorCells (s.get SENS_STAT.HEALTH i) (objsOf i) else []
  let gives := fun (o : CvObj) => contributes o.sensor && (!bit o.flags 6 || probUse o.sensor)
  let contCells := (List.range 16).map fun i =>
    if contributes i then sensorCells (s.get SENS_STAT.HEALTH i) ((objsOf i).filter gives) else []
  let ev := fun (i : Nat) => (evalCells[i]?).getD []
  let ct := fun (i : Nat) => (contCells[i]?).getD []
  -- fusion
  let idx := ((carried.map Prod.fst ++ contCells.flatMap fun l => l.map CvCell.cell).eraseDups).mergeSort (· ≤ ·)
  let grid := idx.map fun i =>
    (i, fuseCell (s.get CV_CONF.DECAY) (gridAt carried i)
      ((List.range 16).filterMap fun k => (cellOf (ct k) i).map fun c => (k, c)))
  -- evaluation: residuals, then contradictions
  let chans := s.resChannels
  let cmin := s.get CV_CONF.C_MIN
  let share := s.get CV_CON.SHARE_MIN
  let rcells := fun (i : Nat) => residualCells cmin (ev i) (((List.range 16).filter fun k => k != i).map ct)
  let res := (List.range 16).map fun i => residual share chans (rcells i)
  let s := (List.finRange 16).foldl (fun (t : State) (i : Fin 16) =>
    if evaluated i.val then t.judgeResidual i ((res[i.val]?).getD none) else t) s
  let pairs := (List.finRange 16).flatMap fun (a : Fin 16) =>
    ((List.finRange 16).filter fun (b : Fin 16) => decide (a < b) && contributes a.val && contributes b.val).map fun b => (a, b)
  let r := pairs.foldl (fun (t : State × List PairOut) (p : Fin 16 × Fin 16) =>
    let q := t.1.judgePair e.k p.1 p.2 (ct p.1.val) (ct p.2.val)
    (q.1, t.2 ++ [q.2])) (s, [])
  let s := r.1
  let marks := r.2.flatMap PairOut.marks
  let entries := topPairs (r.2.filterMap PairOut.entry)
  let inPair := fun (i : Nat) => pairs.any fun p =>
    (p.1.val == i || p.2.val == i) &&
      decide (share ≤ (sharedCells cmin (ct p.1.val) (ct p.2.val)).length)
  let s := (List.finRange 16).foldl (fun (t : State) (i : Fin 16) =>
    if evaluated i.val then
      t.readmission i (!(rcells i.val).isEmpty || inPair i.val) (!(objsOf i.val).isEmpty)
    else t) s
  let grid : List (Nat × GridCell) := grid.map fun p =>
    if marks.contains p.1 then (p.1, { p.2 with st := 2, conf := s.get CV_CONF.C_FLOOR }) else p
  -- the grid model
  let gmodel := s.modelAt 15 e.k
  let grid : List (Nat × GridCell) := match s.on CV_CTL.GRID_EN, gmodel with
    | true, some v => grid.map fun (p : Nat × GridCell) =>
        if 0 < p.2.conf then
          match gm.find? fun g => ((if v.outW = 200 then v.cells (g.cell % 200) (g.cell / 200) else [g.cell])).contains p.1 with
          | some g => (p.1, { p.2 with feats := (v.part g.out).2.foldl (fun l q => l.set q.1 q.2) p.2.feats })
          | none => p
        else p
    | _, _ => grid
  let grid := grid.filter fun p => p.2 != GridCell.unseen
  -- header and slot
  let nosens := (List.range 16).all fun i => (stOf i).1 == sensOff || (stOf i).1 == sensMasked
  let masked := e.masked ||| ((List.range 16).map fun i => if (stOf i).1 = sensMasked then 2 ^ i else 0).sum
  let active := ((List.range 16).map fun i => if contributes i then 2 ^ i else 0).sum
  let acqs := (e.objs.filter fun o => gives o && o.usable).map CvObj.acq
  let acq := acqs.foldl min ((acqs.head?).getD (epochStart e.k))
  let hg := tableAt s.cuvee.hg e.k
  let nbuf := clampN 2 8 (s.get GRID_CFG.NBUF)
  let slot := (s.get GRID_STAT.SLOT + 1) % nbuf
  let base := s.addr40 GRID_BASE_LO.ADDR GRID_BASE_HI.ADDR + slot * 0x600000
  let w1 := b2n (!entries.1.isEmpty) + 2 * b2n nosens + 4 * b2n e.lateIn + 8 * b2n (masked != 0) + 16 * b2n entries.2
    + 32 * b2n s.cuvee.motionErr + 2 ^ 8 * (hg.map CvTable.gen).getD 0
    + 2 ^ 16 * (if s.on CV_CTL.GRID_EN then (gmodel.map CvModel.gen).getD 0 else 0)
    + 2 ^ 24 * low 8 (clampZ (-128) 127 n)
  let ents := (List.range 16).map fun i =>
    match entries.1[i]? with
    | some (a, b, D, k) => a + 2 ^ 4 * b + 2 ^ 8 * D + 2 ^ 16 * min 65535 k
    | none => 0xFFFFFFFF
  let head := [w1] ++ two acq ++ two tref ++ two s.mtc ++ [active + 2 ^ 16 * masked, ((hg.map CvTable.words).getD [])[2]?.getD 0]
    ++ List.replicate 6 0 ++ ((List.range 16).flatMap fun i => s.gridSensorWords e i) ++ ents
  let s := s.writeGrid base grid
  let s := (s.fabWrite (base + 4) (head ++ List.replicate (255 - head.length) 0)).fabWrite base [e.k % 2 ^ 32]
  -- what the registers show
  let s := ((s.put GRID_PUB.EPOCH e.k).put GRID_STAT.SLOT slot).putB GRID_STAT.VALID true
  let s := s.put64 GRID_PUB_MTC_LO.MTC s.mtc
  let proc := min 65535 (Config.quot 8 (s.mtc - rel) 2000)
  let s := (s.put CV_LOAD.PROC_LAST proc).put CV_LOAD.PROC_MAX (max proc (s.get CV_LOAD.PROC_MAX))
  let s := forUpTo 16 (fun i t =>
    let w := t.gridSensorWords e i
    let w0 := (w[0]?).getD 0
    let w1 := (w[1]?).getD 0
    (((t.put SENS_GEN.TT_GEN (bits w0 8 8) i).put SENS_GEN.MODEL_GEN (bits w0 0 8) i).put SENS_GEN.FRAME_GEN
      (bits w1 0 8) i).put SENS_GEN.TBL_GEN (bits w1 8 8) i) s
  let s := if nosens then s.cvFlag CV_FLAGS.NO_SENSOR else s
  let s := s.modCv fun c =>
    { c with
      epochs := c.epochs.filter fun x => x.k != e.k
      grid := grid, tref := some tref, acc := acc.sub ((Frac.int n).divN 20), motionErr := false
      pub := some ⟨e.k, acq, tref, (hg.map CvTable.gen).getD 0, (hg.map CvTable.words).getD []⟩ }
  s.raise 0x20

/-- Fusion of the oldest released epoch completes and its grid is published, once every model of it has run. -/
def execGridPublish (gm : List GridOut) (s : State) : Host.Outcome State Fault Refusal :=
  s.act (
    match s.cuvee.epochs with
    | e :: _ =>
      match e.released with
      | some rel => if e.objs.all CvObj.done then s.cvPublish e rel gm else s
      | none => s
    | [] => s)

end Sys2Proof.Machine
end

