-- ==== Sys2Proof/Machine/Sensing.lean ====
section
/-! DEFINITION.  Machine sensing: analog and frequency inputs, loss plates and the IMU (R112 to R126). -/

namespace Sys2Proof.Machine

open Sys2Proof.Reg

/-! ### Analog and frequency inputs -/

def State.modAin (s : State) (n : Fin 40) (f : Ain → Ain) : State := { s with ain := upd s.ain n f }

/-- Does a RATE and PHASE select slot `slot` (R92)? -/
def rateSelects (rate phase slot : Nat) : Bool :=
  match rate with
  | 0 => true
  | 1 => slot % 10 == phase % 10
  | _ => slot == phase % 100

/-- The mode a channel acts in (R114): 6 and 7 act as OFF, QUAD on an odd channel acts as OFF, and the odd channel
beside a QUAD reads as OFF. -/
def State.ainMode (s : State) (n : Nat) : Nat :=
  let m := s.get AIN_CFG.MODE n
  if 6 ≤ m then 0
  else if n % 2 = 1 ∧ (m = 5 ∨ s.get AIN_CFG.MODE (n - 1) = 5) then 0
  else m

/-- CFG_ERR: QUAD set on an odd channel (R114). -/
def State.ainCfgErr (s : State) (n : Nat) : Bool := n % 2 == 1 && s.get AIN_CFG.MODE n == 5

/-- Does a channel carry role `r` and is it enabled? -/
def State.ainHasRole (s : State) (r n : Nat) : Bool :=
  decide (1 ≤ r) && decide (r ≤ 7) && s.get AIN_CFG.ROLE n == r && s.ainMode n != 0

/-- The channel that offers a role: the lowest enabled one that carries it (R118). -/
def State.roleChannel (s : State) (r : Nat) : Option Nat := (List.range 40).find? fun n => s.ainHasRole r n

/-- ROLE_DUP: a lower enabled channel carries the same role (R118). -/
def State.roleDup (s : State) (n : Nat) : Bool :=
  let r := s.get AIN_CFG.ROLE n
  s.ainHasRole r n && (List.range n).any fun k => s.ainHasRole r k

/-- Counts of one revolution: PPR in FREQ, 4 × PPR in QUAD (R116). -/
def State.ainRev (s : State) (n : Nat) : Nat :=
  let p := max 1 (s.get AIN_ACFG.PPR n)
  if s.ainMode n = 5 then 4 * p else p

/-- FREQ of R115 from the edges, newest first: the mean of the last `n` periods in mHz, rounded. -/
def freqOf (edges : List Nat) (n : Nat) : Nat :=
  match edges with
  | [] => 0
  | e :: rest =>
    match n, rest[n - 1]? with
    | 0, _ => 0
    | _, none => 0
    | _, some b => if e ≤ b then 0 else min ((2 * (n * 200000000000) + (e - b)) / (2 * (e - b))) (2 ^ 25 - 1)

/-- TMO in ticks (R115). -/
def State.ainTmo (s : State) (n : Nat) : Nat := 2000000 * max 1 (s.get AIN_ACFG.TMO n)

/-- The edge values of a FREQ or QUAD channel at a conversion instant: FREQ, and the acquisition MTC (R115). -/
def State.ainFreq (s : State) (n : Fin 40) : State × Nat :=
  let a := s.ain[n.val]
  match a.edges with
  | e :: _ =>
    if s.ainTmo n.val ≤ s.mtc - e ∨ a.sinceTmo = 0 then
      ((s.modAin n fun a => { a with sinceTmo := 0, acq := s.mtc }), 0)
    else
      let k := min (max 1 (s.get AIN_ACFG.NAVG n.val)) a.sinceTmo
      ((s.modAin n fun a => { a with acq := e }), freqOf a.edges k)
  | [] => ((s.modAin n fun a => { a with sinceTmo := 0, acq := s.mtc }), 0)

/-- The angle at a conversion instant (R116). -/
def State.ainAngle (s : State) (n : Fin 40) : Nat :=
  let a := s.ain[n.val]
  let frac :=
    if s.on AIN_ACFG.INTERP n.val && s.ainMode n.val == 4 then
      match a.edges with
      | e :: b :: _ => if b < e then min 65535 ((s.mtc - e) * 65536 / (e - b)) else 0
      | _ => 0
    else 0
  (a.cnt * 65536 + frac) / s.ainRev n.val % 65536

/-- The raw value of a conversion (Table 6.1), with FREQ already measured. -/
def State.ainRaw (s : State) (n : Fin 40) (x : AinIn) (freq : Nat) : Int :=
  let sh := min (s.get AIN_ACFG.FSH n.val) 24
  match s.ainMode n.val with
  | 1 => min x.code 65535
  | 2 => if (s.ain[n.val]).shuntOff then 0 else min x.code 65535
  | 3 => min x.code 65535
  | 4 => min (freq / 2 ^ sh) 65535
  | 5 => sat16 (if (s.ain[n.val]).reverse then -(freq / 2 ^ sh : Nat) else (freq / 2 ^ sh : Nat))
  | _ => 0

/-- Does a conversion meet the condition of fault `k` of Table 6.2? -/
def State.ainCond (s : State) (n : Fin 40) (x : AinIn) (raw : Int) (k : Nat) : Bool :=
  let m := s.ainMode n.val
  match k with
  | 0 => m != 0 && decide (raw < s.get AIN_LIM.LO n.val)
  | 1 => m != 0 && decide ((s.get AIN_LIM.HI n.val : Int) < raw)
  | 2 => (m == 2 && x.isOpen && !(s.ain[n.val]).shuntOff) || (m == 3 && x.isOpen)
  | 3 => m == 3 && x.isShort
  | 4 => m == 2 && x.isOver && !(s.ain[n.val]).shuntOff
  | _ => false

def ainNode (n : Fin 40) : Nat := node domSensing none8 n.val

/-- A fault of a channel begins or ends: the sticky bit, the count, the event and the AIN_FAULT record (R117). -/
def State.ainFault (s : State) (n : Fin 40) (k : Fin 6) (onset : Bool) : State :=
  let s := s.modAin n fun a => { a with faults := upd a.faults k fun _ => ⟨onset, 0⟩ }
  let s :=
    if onset then
      let f := s.get AIN_STAT.F n.val
      let s := (s.put AIN_STAT.F (f ||| 2 ^ k.val) n.val).count AIN_CNT.FAULTS 1 n.val
      if s.on AIN_CFG.EV n.val then s.raise 0x10 else s
    else s
  let s := s.record .ainFault (ainNode n) [k.val + 2 ^ 8 * b2n onset + 2 ^ 16 * s.get AIN_RAW.RAW n.val]
  if onset && k.val == 4 then s.modAin n fun a => { a with shuntOff := true } else s

/-- Judge the faults of Table 6.2 but SYNC_LOST at a conversion: FDLY consecutive contradictions change one. -/
def State.ainJudge (s : State) (n : Fin 40) (x : AinIn) (raw : Int) : State :=
  let fd := max 1 (s.get AIN_FILT.FDLY n.val)
  ([0, 1, 2, 3, 4] : List (Fin 6)).foldl (fun t k =>
    let f := (t.ain[n.val]).faults[k.val]
    if t.ainCond n x raw k.val == f.active then
      t.modAin n fun a => { a with faults := upd a.faults k fun g => { g with run := 0 } }
    else if fd ≤ f.run + 1 then t.ainFault n k (!f.active)
    else t.modAin n fun a => { a with faults := upd a.faults k fun g => { g with run := g.run + 1 } }) s

/-- Is a fault of a channel active (FLT, R117)? -/
def State.ainFlt (s : State) (n : Fin 40) : Bool := (s.ain[n.val]).faults.any FaultRun.active

/-- The value of a channel by R113, from its filter state. -/
def State.ainValue (s : State) (n : Fin 40) : Int :=
  sat16 (rnd ((rnd (s.ain[n.val]).y 16 - s.get AIN_OFFS.OFFS n.val) * s.getZ AIN_SCALE.GAIN n.val * 2 ^ s.get AIN_SCALE.SH n.val) 15)

/-- What a conversion leaves for the value write, under the configuration at the conversion (R113, R117). -/
def State.ainOut (s : State) (n : Fin 40) : AinOut :=
  let flt := s.ainFlt n
  let m := s.ainMode n.val
  { rate := s.get AIN_CFG.RATE n.val, phase := s.get AIN_CFG.PHASE n.val, flt := flt
    val :=
      match flt, s.get AIN_CFG.FPOL n.val with
      | true, 0 => none
      | true, 1 => some (s.getZ AIN_SUBST.SUBST n.val)
      | _, _ => some (s.ainValue n)
    acq := (s.ain[n.val]).acq
    angle := if m = 4 ∨ m = 5 then some (s.ainAngle n) else none }

/-- One conversion of one channel (R113, R115, R116). -/
def State.ainConvert (s : State) (n : Fin 40) (x : AinIn) : State :=
  let m := s.ainMode n.val
  if m = 0 then (s.putZ AIN_RAW.RAW 0 n.val).modAin n fun a => { a with load := true }
  else
    let r := if m = 4 ∨ m = 5 then s.ainFreq n else ((s.modAin n fun a => { a with acq := s.mtc }), 0)
    let s := r.1
    let raw := s.ainRaw n x r.2
    let s := s.putZ AIN_RAW.RAW raw n.val
    let s := if m = 4 ∨ m = 5 then s.put AIN_FREQ.FREQ r.2 n.val else s
    let alpha := s.getZ AIN_FILT.ALPHA n.val
    let s := s.modAin n fun a =>
      { a with
        y := if a.load then raw * 65536 else sgn 40 (low 40 (a.y + rnd (alpha * (raw * 65536 - a.y)) 15))
        load := false }
    let s := s.ainJudge n x raw
    s.modAin n fun a => { a with out := some (s.ainOut n) }

/-- The write of a conversion before slot `slot`: the angle (R124) and, where it is an output instant, the value (R113, R117). -/
def State.ainWrite (s : State) (n : Fin 40) (slot : Nat) (o : AinOut) : State :=
  let s := match o.angle with
    | some g => s.put AIN_ANG.ANGLE g n.val
    | none => s
  if !rateSelects o.rate o.phase slot then s
  else
    let s := s.putB AIN_VAL.FLT o.flt n.val
    match o.val with
    | none => s
    | some v =>
      let s := { s with racking := { s.racking with newAin := s.racking.newAin ++ [RlNew.mk n.val o.acq v o.flt] } }
      ((s.putZ AIN_VAL.VAL v n.val).bumpMod AIN_VAL.SEQ n.val).put64 AIN_MTC_LO.MTC o.acq n.val

/-- Has a channel an index: FREQ or QUAD with IDX_CH naming a channel (R116)? -/
def State.ainIndexed (s : State) (n : Nat) : Bool :=
  (s.ainMode n == 4 || s.ainMode n == 5) && s.get AIN_CFG.IDX_CH n != 0x3F

/-- What a change of a channel's configuration from that of `s` leaves: the filter loads at the next conversion after a mode
change or an enable (R113); without an index SYNC is 0 and SYNC_LOST ends (R116, Table 6.2). -/
def State.ainConfigured (s t : State) (n : Fin 40) : State :=
  let t := if t.ainMode n.val = s.ainMode n.val then t else t.modAin n fun a => { a with load := true }
  if t.ainIndexed n.val then t
  else
    let t := t.putB AIN_STAT.SYNC false n.val
    if (t.ain[n.val]).faults[5].active then t.ainFault n 5 false else t

/-- A write to AIN_CFG, which may change the mode of the other channel of a QUAD pair too (R114). -/
def State.ainCfgWrite (s t : State) (n : Fin 40) : State :=
  (List.finRange 40).foldl (fun u m => if m.val / 2 = n.val / 2 then s.ainConfigured u m else u) t

/-- All enabled channels convert, 2 µs before a slot (R113). -/
def execAinConversion (xs : List AinIn) (s : State) : Host.Outcome State Fault Refusal :=
  s.act ((List.finRange 40).foldl (fun t n => t.ainConvert n ((xs[n.val]?).getD ⟨0, false, false, false⟩)) s)

/-- 1 µs before slot `slot`: what the conversion made is written (R113, R124). -/
def execAinValueWrite (slot : Nat) (s : State) : Host.Outcome State Fault Refusal :=
  s.act (
    (List.finRange 40).foldl (fun t n =>
      match (t.ain[n.val]).out with
      | some o => (t.modAin n fun a => { a with out := none }).ainWrite n slot o
      | none => t) s)

/-- A counted edge of a FREQ or QUAD channel: `lineA` for a rising edge of line A (always so in FREQ), `reverse`
for the direction (R115, R116). -/
def execAinEdge (n : Fin 40) (lineA reverse : Bool) (s : State) : Host.Outcome State Fault Refusal :=
  s.act (
    let m := s.ainMode n.val
    if m = 4 ∨ m = 5 then
      let rev := s.ainRev n.val
      let back := m == 5 && reverse
      let a := s.ain[n.val]
      let wrap := if back then a.cnt == 0 else decide (rev ≤ a.cnt + 1)
      let s := s.modAin n fun a =>
        { a with
          cnt := if back then (a.cnt + rev - 1) % rev else (a.cnt + 1) % rev
          edges := if lineA then s.mtc :: a.edges.take 15 else a.edges
          sinceTmo := if lineA then (if (a.edges.head?).any fun e => decide (s.ainTmo n.val ≤ s.mtc - e) then 1 else a.sinceTmo + 1) else a.sinceTmo
          sinceIdx := a.sinceIdx + 1
          reverse := back }
      if wrap && s.get AIN_CFG.IDX_CH n.val == 0x3F then
        s.put AIN_ANG.REVS (if back then s.get AIN_ANG.REVS n.val + 65535 else s.get AIN_ANG.REVS n.val + 1) n.val
      else s
    else s)

/-- A wrong index sets SYNC_LOST: its onset where it is not active yet, else the sticky bit alone (R116, R117). -/
def State.ainSyncLost (s : State) (n : Fin 40) : State :=
  if (s.ain[n.val]).faults[5].active then s.sticky AIN_STAT.F 5 n.val else s.ainFault n 5 true

/-- A rising edge on channel `idx`: every FREQ or QUAD channel that names it as its index resets its count (R116). -/
def execAinIndexEdge (idx : Fin 40) (s : State) : Host.Outcome State Fault Refusal :=
  s.act (
    if s.ainMode idx.val = 4 then
      (List.finRange 40).foldl (fun t n =>
        let m := t.ainMode n.val
        if (m = 4 ∨ m = 5) ∧ t.get AIN_CFG.IDX_CH n.val = idx.val then
          let bad := t.on AIN_STAT.SYNC n.val && (t.ain[n.val]).sinceIdx != t.ainRev n.val
          let t := if bad then (t.count AIN_CNT.SYNC_ERR 1 n.val).ainSyncLost n
                   else if (t.ain[n.val]).faults[5].active then t.ainFault n 5 false else t
          let t := t.modAin n fun a => { a with cnt := 0, sinceIdx := 0 }
          (t.putB AIN_STAT.SYNC true n.val).bumpMod AIN_ANG.REVS n.val
        else t) s
    else s)

/-- 100 ms after an OVERLOAD disconnect the shunt reconnects (Table 6.2). -/
def execAinShuntReconnect (n : Fin 40) (s : State) : Host.Outcome State Fault Refusal :=
  s.act (s.modAin n fun a => { a with shuntOff := false })

/-! ### Loss plates -/

def State.modLs (s : State) (n : Fin 16) (f : Ls → Ls) : State := { s with ls := upd s.ls n f }

/-- Bin length in ticks: 100 µs, 1 ms or 10 ms (R121). -/
def State.lsBinLen (s : State) (n : Nat) : Nat :=
  match s.get LS_CFG.BIN n with
  | 0 => 20000
  | 1 => 200000
  | _ => 2000000

/-- Set a plate fault: its sticky bit, its present bit, and event 0x11 when it is new and EV is set (R122, R125). -/
def State.lsFault (s : State) (n : Fin 16) (k : Nat) : State :=
  let act := s.get LS_STAT.ACTIVE n.val
  let f := s.get LS_STAT.F n.val
  let s := s.put LS_STAT.ACTIVE (act ||| 2 ^ k) n.val
  if bit f k then s
  else
    let s := s.put LS_STAT.F (f ||| 2 ^ k) n.val
    if s.on LS_CFG.EV n.val then s.raise 0x11 else s

/-- A plate fault is no longer present. -/
def State.lsFaultEnd (s : State) (n : Fin 16) (k : Nat) : State :=
  let act := s.get LS_STAT.ACTIVE n.val
  s.put LS_STAT.ACTIVE (act - (act &&& 2 ^ k)) n.val

/-- The bin that contains instant `t`, counted with one more impact of a class (1 GRAIN, 2 MOG, 3 REJ). -/
def LsBin.tally (b : LsBin) (t cls : Nat) : LsBin :=
  if b.start ≤ t ∧ t < b.stop then
    { b with grain := b.grain + b2n (cls == 1), mog := b.mog + b2n (cls == 2), rej := b.rej + b2n (cls == 3) }
  else b

/-- The delay of the front end: 12 µs, which every stamp of a plate has subtracted (R119). -/
def lsLag : Nat := 2400

/-- A new current bin from `now` to the next multiple of the bin length. -/
def State.lsOpenBin (s : State) (n : Fin 16) (now : Nat) : State :=
  let len := s.lsBinLen n.val
  s.modLs n fun l =>
    { l with bins := l.bins ++ [⟨now, (now / len + 1) * len, false, 0, 0, 0, false, false, s.get LS_SEQ.BSEQ n.val⟩] }

/-- Classify the impact in progress as `cls`: its total, LS_LAST and the bin that contains its start (R120). -/
def State.lsClassify (s : State) (n : Fin 16) (cls : Nat) : State :=
  let l := s.ls[n.val]
  let s := match cls with
    | 1 => s.count LS_GRAIN_CNT.W 1 n.val
    | 2 => s.count LS_MOG_CNT.W 1 n.val
    | _ => s.count LS_REJ_CNT.W 1 n.val
  let s := ((s.put LS_LAST.PEAK l.peak n.val).put LS_LAST.N l.n n.val).put LS_LAST.CLASS cls n.val
  s.modLs n fun l => { l with st := .dead, d := 0, bins := l.bins.map fun b => b.tally l.start cls }

/-- The class of a finished impact (R120). -/
def State.lsClass (s : State) (n : Fin 16) (peak k : Nat) : Nat :=
  if s.get LS_CLIP.CLIP n.val ≤ peak ∨ 500 ≤ k then 3
  else if s.get LS_GRAIN.GMIN n.val ≤ peak ∧ peak ≤ s.get LS_GRAIN.GMAX n.val ∧ k ≤ s.get LS_TIME.GDUR n.val then 1
  else 2

/-- Deliver a bin: zero counts and FLT while OPEN, SHORT or CLIP_RUN is present; to the Racking Line and to the
16-entry FIFO, where it overwrites the oldest of a full one (R121, R122). -/
def State.lsDeliver (s : State) (n : Fin 16) (b : LsBin) : State :=
  let bad := s.get LS_STAT.ACTIVE n.val % 8 != 0
  let b := if bad then { b with grain := 0, mog := 0, rej := 0, flt := true } else b
  let s := if 16 ≤ (s.ls[n.val]).fifo.length then s.count LS_FIFO.OVF 1 n.val else s
  let s := s.modLs n fun l => { l with fifo := (if 16 ≤ l.fifo.length then l.fifo.drop 1 else l.fifo) ++ [b] }
  let s := { s with newBins := s.newBins ++ [(n.val, b)] }
  if s.on LS_CFG.BIN_EV n.val then s.raise 0x12 else s

/-- The restart of a channel at a sample (R122): the impact in progress is REJ, every bin closes and is delivered
with TRUNC, the states clear, BSEQ restarts and RESTARTS counts.  The bin ends at the stamp of that instant. -/
def State.lsRestart (s : State) (n : Fin 16) : State :=
  let s := if (s.ls[n.val]).st == .inside then s.lsClassify n 3 else s
  let seq := s.get LS_SEQ.BSEQ n.val
  let now := s.mtc - lsLag
  let s := (s.ls[n.val]).bins.foldl (fun t b =>
    t.lsDeliver n { b with closed := true, trunc := true, stop := if b.closed then b.stop else now }) s
  let s := s.modLs n fun l => { Ls.zero with fifo := l.fifo, heard := l.heard, pulse := l.pulse, test := l.test }
  let s := (s.put LS_SEQ.BSEQ 0 n.val).count LS_SEQ.RESTARTS 1 n.val
  (s.lsOpenBin n now).record .lsRestart (node domSensing none8 n.val) [seq, s.get LS_SEQ.RESTARTS n.val]

/-- The response of an open test is judged against OPEN_THR (R122). -/
def State.lsOpenJudge (s : State) (n : Fin 16) (resp : Nat) : State :=
  if resp < s.get LS_CLIP.OPEN_THR n.val then s.lsFault n 0 else s.lsFaultEnd n 0

/-- The test pulse is injected into an idle classifier: the samples of 20 µs are not classified, its response is judged (R122). -/
def State.lsTest (s : State) (n : Fin 16) (resp : Nat) : State :=
  (s.modLs n fun l => { l with pulse := s.mtc + 4000, test := none }).lsOpenJudge n resp

/-- An open test that waited runs once the classifier is idle (Table 6.9). -/
def State.lsTestDue (s : State) (n : Fin 16) : State :=
  match (s.ls[n.val]).test with
  | some resp => if (s.ls[n.val]).st == .idle then s.lsTest n resp else s
  | none => s

/-- The amplifier: ×1 to ×32 (LS_CFG.GAIN), and the high-pass (HPF): the state after it and the 16-bit code h (R119). -/
def State.lsInput (s : State) (n : Fin 16) (x : Int) : Int × Int :=
  let r := Config.highPass (s.get LS_CFG.HPF n.val) (s.ls[n.val]).hp (x * 2 ^ min 5 (s.get LS_CFG.GAIN n.val))
  (r.1, sat16 r.2)

/-- The classifier takes a sample of envelope `env` (R120). -/
def State.lsImpact (s : State) (n : Fin 16) (env : Nat) : State :=
  let l := s.ls[n.val]
  let on := decide (s.get LS_THR.ON n.val ≤ env)
  match l.st with
  | .idle =>
    if on then
      (s.modLs n fun l => { l with start := s.mtc - lsLag, peak := env, n := 1, q := 0, heard := s.mtc, st := .inside }).lsFaultEnd n 3
    else s
  | .inside =>
    let peak := max l.peak env
    let k := l.n + 1
    let q := if env < s.get LS_THR.OFF n.val then l.q + 1 else 0
    let s := s.modLs n fun l => { l with peak := peak, n := k, q := q }
    if s.get LS_TIME.END_N n.val ≤ q ∨ 500 ≤ k then s.lsClassify n (s.lsClass n peak k) else s
  | .dead =>
    let d := l.d + 1
    let s := if on then ((s.count LS_PILE.W 1 n.val).modLs n fun l => { l with heard := s.mtc }).lsFaultEnd n 3 else s
    (s.modLs n fun l => { l with d := d, st := if s.get LS_TIME.DEAD_N n.val ≤ d then .idle else .dead }).lsTestDue n

/-- One sample `x` of a loss plate; `dcOut`: the input DC level lies outside ±2 V (R119, R120, R122).  A sample of the
open-test pulse is not classified. -/
def execLsSample (n : Fin 16) (x : Int) (dcOut : Bool) (s : State) : Host.Outcome State Fault Refusal :=
  s.act (
    if s.on LS_CFG.EN n.val then
      let s := if (s.ls[n.val]).restart then s.lsRestart n else s
      let s := if (s.ls[n.val]).bins.isEmpty then s.lsOpenBin n ((s.mtc - lsLag) / s.lsBinLen n.val * s.lsBinLen n.val) else s
      let h := s.lsInput n x
      let env := h.2.natAbs
      let s := s.modLs n fun l => { l with hp := h.1 }
      let s := if dcOut then s.lsFault n 1 else s.lsFaultEnd n 1
      let clip := decide (s.get LS_CLIP.CLIP n.val ≤ env)
      let s := s.modLs n fun l => { l with clipRun := if clip then l.clipRun + 1 else 0 }
      let s := if 250 ≤ (s.ls[n.val]).clipRun then s.lsFault n 2 else if clip then s else s.lsFaultEnd n 2
      if s.mtc < (s.ls[n.val]).pulse then s else s.lsImpact n env
    else s)

/-- What a write of LS_CFG.EN leaves: an enabled channel begins anew; a disabled one drops the impact and the bin in progress
(DESIGN CHOICE, log entry 61), and bins already closed are delivered. -/
def State.lsEnabled (s t : State) (n : Fin 16) : State :=
  if s.on LS_CFG.EN n.val = t.on LS_CFG.EN n.val then t
  else
    t.modLs n fun l =>
      { Ls.zero with bins := l.bins.filter fun b => b.closed, fifo := l.fifo, heard := s.mtc, restart := l.restart && !s.on LS_CFG.EN n.val }

/-- A bin's time ends on the slot grid: the current bin closes and the next opens (R121). -/
def execLsBinClose (n : Fin 16) (s : State) : Host.Outcome State Fault Refusal :=
  s.act (
    if s.on LS_CFG.EN n.val then
      let s := s.modLs n fun l => { l with bins := l.bins.map fun b => { b with closed := true } }
      let last := ((s.ls[n.val]).bins.getLast?.map LsBin.stop).getD s.mtc
      (s.bumpMod LS_SEQ.BSEQ n.val).lsOpenBin n last
    else s)

/-- Can no impact start in a bin any more, and is none that started in it still unclassified (R121)?  A start is stamped 12 µs
back. -/
def State.lsSettled (s : State) (n : Fin 16) (b : LsBin) : Bool :=
  let l := s.ls[n.val]
  decide (b.stop ≤ s.mtc - lsLag) && !(l.st == .inside && decide (b.start ≤ l.start) && decide (l.start < b.stop))

/-- The oldest closed bin is delivered once every impact that started in it is classified (R121). -/
def execLsBinDeliver (n : Fin 16) (s : State) : Host.Outcome State Fault Refusal :=
  s.act (
    match (s.ls[n.val]).bins with
    | b :: rest =>
      if b.closed && s.lsSettled n b then
        (s.modLs n fun l => { l with bins := rest }).lsDeliver n b
      else s
    | [] => s)

/-- A read of LS_BIN removes the oldest entry and latches its end MTC; an empty FIFO changes nothing (R121). -/
def State.lsPop (s : State) (n : Fin 16) : State :=
  match (s.ls[n.val]).fifo with
  | [] => s
  | b :: rest => (s.modLs n fun l => { l with fifo := rest }).put LS_BIN_MTC.MTC b.stop n.val

def execLsBinRead (n : Fin 16) (s : State) : Host.Outcome State Fault Refusal := s.act (s.lsPop n)

/-- The word that LS_BIN shows: the oldest bin, its counts saturating in their fields (Table 6.7). -/
def State.lsBinWord (s : State) (n : Fin 16) : Nat :=
  match (s.ls[n.val]).fifo with
  | [] => 0
  | b :: _ =>
    min b.grain 4095 + 2 ^ 12 * min b.mog 1023 + 2 ^ 22 * min b.rej 63 + 2 ^ 29 * b2n b.flt + 2 ^ 30 * b2n b.trunc + 2 ^ 31

/-- The open test with response `resp` (R122); with an impact in progress or dead it waits for the idle classifier (Table 6.9). -/
def execLsOpenTest (n : Fin 16) (resp : Nat) (s : State) : Host.Outcome State Fault Refusal :=
  s.act (
    if s.on LS_CFG.EN n.val then (s.modLs n fun l => { l with test := some resp }).lsTestDue n else s)

/-- Has there been no onset for SILENT_T seconds (R122)? -/
def State.lsSilent (s : State) (n : Fin 16) : Bool :=
  let t := s.get LS_TIME.SILENT_T n.val
  s.on LS_CFG.EN n.val && t != 0 && decide ((s.ls[n.val]).heard + 200000000 * t ≤ s.mtc)

def execLsSilentTimeout (n : Fin 16) (s : State) : Host.Outcome State Fault Refusal :=
  s.act (if s.lsSilent n then s.lsFault n 3 else s)

/-- LS_CTL.RESTART: the channel restarts at its next sample (R122). -/
def execLsRestart (n : Fin 16) (rq : Req) (s : State) : Host.Outcome State Fault Refusal :=
  s.act (if rq.sup then s.modLs n fun l => { l with restart := true } else s)

/-! ### IMU -/

/-- Element (r, c) of the module-to-machine rotation, Q15 (Table 6.8): halfwords m11, m12, m13, m21 … m33. -/
def State.imuRot (s : State) (r c : Nat) : Int :=
  let k := 3 * r + c
  if k % 2 = 0 then s.getZ IMU_ROT.LO 0 (k / 2) else s.getZ IMU_ROT.HI 0 (k / 2)

/-- Row `r` of the rotation applied to three raw values. -/
def State.imuRow (s : State) (r : Nat) (x y z : Int) : Int :=
  sat16 (rnd (s.imuRot r 0 * x + s.imuRot r 1 * y + s.imuRot r 2 * z) 15)

/-- The group delay of the filter in ticks: 1.2, 2.4 or 4.8 ms (R123). -/
def State.imuDelay (s : State) : Nat :=
  match s.get IMU_CFG.LPF with
  | 0 => 240000
  | 1 => 480000
  | _ => 960000

/-- One output of the IMU (R123): six raw axes and the temperature. -/
def execImuOutput (raw : List Int) (temp : Int) (s : State) : Host.Outcome State Fault Refusal :=
  s.act (
    if s.on IMU_CFG.EN then
      let v := fun k => sat16 ((raw[k]?).getD 0)
      let out : List Int := [s.imuRow 0 (v 0) (v 1) (v 2), s.imuRow 1 (v 0) (v 1) (v 2), s.imuRow 2 (v 0) (v 1) (v 2),
        s.imuRow 0 (v 3) (v 4) (v 5), s.imuRow 1 (v 3) (v 4) (v 5), s.imuRow 2 (v 3) (v 4) (v 5)]
      let old := s.get IMU_STAT.AXIS_FLT
      let s := (List.finRange 6).foldl (fun (t : State) (k : Fin 6) =>
        let x := (out[k.val]?).getD 0
        let run := if x = t.imu.last[k.val] then t.imu.runs[k.val] + 1 else 1
        let flt := decide (100 ≤ run) || t.on IMU_STAT.SELFTEST_FAIL
        let t := { t with imu := ⟨upd t.imu.runs k fun _ => run, upd t.imu.last k fun _ => x⟩ }
        let t := (t.putZ IMU_AXIS.VAL x 0 k.val).putB IMU_AXIS.FLT flt 0 k.val
        let m := t.get IMU_STAT.AXIS_FLT
        let t := t.put IMU_STAT.AXIS_FLT (if flt then m ||| 2 ^ k.val else m - (m &&& 2 ^ k.val))
        if flt then t else t.bumpMod IMU_AXIS.SEQ 0 k.val) s
      let stamp := s.mtc - s.imuDelay
      let s := (s.putZ IMU_TEMP.T temp).put64 IMU_MTC_LO.MTC stamp
      if s.get IMU_STAT.AXIS_FLT = old then s
      else
        (s.record .imuFault (node domSensing none8 none8)
          [s.get IMU_STAT.AXIS_FLT + 2 ^ 8 * s.get IMU_STAT.SELFTEST_FAIL]).raise 0x13
    else s)

end Sys2Proof.Machine
end

