-- ==== Sys2Proof/Machine/Racking.lean ====
section
/-! DEFINITION.  The Racking Line: ground profile, strips and packets, attribution, taps and strip records (R171, R172,
R176 to R186). -/

namespace Sys2Proof.Machine

open Sys2Proof.Reg

def State.modRl (s : State) (f : Racking → Racking) : State := { s with racking := f s.racking }

/-- Set a sticky flag of RL_FLAGS, with event 0x29 under the mask in force (R180). -/
def State.rlFlag (s : State) (b : Nat) : State :=
  if bit (s.get RL_FLAGS.F) b then s
  else
    let t := s.put RL_FLAGS.F (s.get RL_FLAGS.F + 2 ^ b)
    if bit s.racking.cfg.evmask b then t.raise 0x29 else t

/-- Units of one strip (R177). -/
def stripUnits : Nat := 10240

/-- How a unit reads a peripheral word: the address, and the state it reads in; none after a bus error. -/
abbrev Reader := State → Nat → Option Nat

/-- The Q15 word that an ADDR[27:2] field names (R110). -/
def State.readQ15 (s : State) (rd : Reader) (addr : Nat) : Option Int := (rd s (0x20000000 + 4 * addr)).map (sgn 16)

/-! ### The ground profile (R178) -/

/-- Is column `c` a header column for a cutting width (R151)?  |199.5 − c| × 0.05 m ≤ HDR_W ÷ 2. -/
def headerColumn (hdrW : Nat) (c : Nat) : Bool :=
  let d : Frac := Frac.of ((399 - 2 * (c : Int)).natAbs : Nat) 20
  match f32Val hdrW with
  | some w => d.le w
  | none => hdrW == 0x7F800000

/-- The columns under the header. -/
def headerColumns (hdrW : Nat) : List Nat := (List.range 400).filter (headerColumn hdrW)

/-- The byte of ROLE_MAP for a role: CH[5:0], EN[7] (Table 8.2). -/
def State.role (s : State) (r : Nat) : Option Nat :=
  let b := bits (s.get ROLE_MAP.W 0 (r / 4)) (8 * (r % 4)) 8
  if bit b 7 then some (b % 64) else none

/-- One row of the profile from the published grid. -/
def State.profileRow (s : State) (cols : List Nat) (ch r : Nat) : RlRow :=
  let cfg := s.racking.cfg
  cols.foldl (fun a c =>
    let g := gridAt s.cuvee.grid (r * 400 + c)
    let edge := match cfg.edgeEn, s.role 3 with
      | true, some e => decide ((g.feats[e]?).getD 0 < (cfg.edgeMin : Int))
      | _, _ => false
    let a := { a with contra := a.contra || g.st == 2 }
    if edge then a
    else if cfg.cUse ≤ g.conf then { a with mass := a.mass + ((g.feats[ch]?).getD 0).toNat, cols := a.cols + 1 }
    else { a with mass := a.mass + cfg.nomcell, cols := a.cols + 1, subst := a.subst + 1 }) ⟨0, 0, 0, false⟩

/-- The travel position of the latest boundary at or before an instant. -/
def State.travelAt (s : State) (t : Nat) : Option Int :=
  (s.racking.travel.find? fun p => decide (p.1 ≤ t)).map Prod.snd

/-- The profile built from the last published grid completes. -/
def execGroundProfileComplete (s : State) : Host.Outcome State Fault Refusal :=
  s.act (
    match s.cuvee.pub, s.role 0 with
    | some p, some ch =>
      match s.on GRID_STAT.VALID, s.travelAt p.tref with
      | true, some c =>
        let cols := headerColumns ((p.hgWords[3]?).getD 0)
        s.modRl fun r =>
          { r with profile := some ⟨p.epoch, p.acq, p.tref, p.hgGen, c, (List.range 200).map fun i => s.profileRow cols ch i⟩ }
      | _, _ => s.modRl fun r => { r with profile := none }
    | _, _ => s.modRl fun r => { r with profile := none })

/-- The profile in use at a boundary: none when its T_ref lies more than 256 boundaries back. -/
def State.profileNow (s : State) : Option RlProfile :=
  match s.racking.profile with
  | some p => if s.mtc ≤ p.tref + 256 * 2000000 ∧ s.on GRID_STAT.VALID ∧ (s.role 0).isSome then some p else none
  | none => none

/-- What strip `n` would be cut as: row, age in 10 ms, HORIZON, NOGRID. -/
structure StripNow where
  row : RlRow
  age : Nat
  horizon : Bool
  nogrid : Bool

/-- The prediction for strip `n` at a boundary. -/
def State.stripNow (s : State) (n : Nat) : StripNow :=
  let nomRow := fun (hdrW : Nat) =>
    let k := (headerColumns hdrW).length
    (⟨k * s.racking.cfg.nomcell, k, k, false⟩ : RlRow)
  match s.profileNow with
  | none => ⟨nomRow (s.get HG_AC.W 0 3), 255, true, true⟩
  | some p =>
    let r := Int.fdiv ((n * stripUnits + stripUnits / 2 : Nat) - p.cref) stripUnits
    let age := min 255 (Config.quot 9 (s.mtc - p.acq) 2000000)
    if 0 ≤ r ∧ r < 200 then ⟨(p.rows[r.toNat]?).getD ⟨0, 0, 0, false⟩, age, false, false⟩
    else ⟨nomRow (s.get HG_AC.W 0 3), age, true, false⟩

/-- SUBST of a row: more than half of its counted cells are substituted. -/
def RlRow.substF (r : RlRow) : Bool := decide (r.cols < 2 * r.subst)

/-! ### Stages and packets (R177, R179, R180) -/

/-- The enabled stages after stage `i`, nearest first. -/
def State.stagesAfter (s : State) (i : Nat) : List Nat :=
  (List.range 8).filter fun k => decide (i < k) && s.on STG_CFG.EN k

/-- Packets still in the line. -/
def Packet.inLine (p : Packet) : Bool := p.exit.isNone

/-- The 32 words of a strip record (Table 9.2). -/
def State.stripWords (s : State) (p : Packet) (ovf restart : Bool) : List Nat :=
  let att := (List.range 16).map fun a =>
    if s.on AT_CFG.EN a then
      let h := (p.att[a]?).getD .zero
      let v :=
        if s.get AT_CFG.KIND a = 0 then min (2 ^ 24 - 1) (Config.quotZ 10 (h.sum.num * 256) h.sum.den).toNat
        else if h.share.num = 0 then 0
        else low 16 (Config.quotZ 10 (h.sum.num * h.share.den) (h.sum.den * h.share.num.toNat))
      v + 2 ^ 24 * b2n h.flt + 2 ^ 25 * b2n (!h.some_)
    else 0
  [p.strip % 2 ^ 32] ++ two p.cut ++
    [p.row.mass % 2 ^ 24 + 2 ^ 24 * p.age,
     p.row.cols + 2 ^ 9 * p.row.subst + 2 ^ 18 * b2n p.row.contra + 2 ^ 19 * b2n p.row.substF + 2 ^ 20 * b2n p.horizon
       + 2 ^ 21 * b2n p.nogrid + 2 ^ 22 * b2n ovf + 2 ^ 23 * b2n restart,
     if p.nogrid then 0xFFFFFFFF else p.epoch, p.rlGen + 2 ^ 8 * p.objGen + 2 ^ 16 * p.hgGen]
    ++ [(p.exit.getD s.mtc) % 2 ^ 32] ++ att ++ List.replicate 8 0

/-- Queue the strip record of a packet for the next output switch. -/
def State.stripDone (s : State) (p : Packet) (ovf : Bool) : State :=
  let w := s.stripWords p ovf s.racking.restart
  s.modRl fun r => { r with ready := r.ready ++ [w], restart := false }

/-- Cut strip `n` at this boundary. -/
def State.cutStrip (s : State) : State :=
  let n := s.racking.strips
  let s := s.modRl fun r => { r with strips := n + 1 }
  let s := s.put RL_STRIP.NEXT (n + 1)
  if s.on RL_CFG.CUT then
    let k := s.stripNow n
    let s := if k.nogrid then s.rlFlag RL_FLAGS.NOGRID else s
    match s.stagesAfter 0 with
    | first :: _ =>
      let pk : Packet :=
        { strip := n % 2 ^ 32, cut := s.mtc, row := k.row, age := k.age, horizon := k.horizon, nogrid := k.nogrid
          epoch := (s.profileNow.map RlProfile.epoch).getD 0, rlGen := s.get RL_STAT.GEN, objGen := s.get OBJ_STAT.GEN
          hgGen := (s.profileNow.map RlProfile.hgGen).getD 0, stage := first, pos := 0, exit := none, gone := 0, hist := []
          att := List.replicate 16 .zero }
      let inline := s.racking.packets.filter Packet.inLine
      let s :=
        if 2048 ≤ inline.length then
          match inline.head? with
          | some o =>
            let far := inline.foldl (fun b p => if b.stage < p.stage ∨ (b.stage = p.stage ∧ b.pos < p.pos) then p else b) o
            ((s.modRl fun r => { r with packets := r.packets.erase far }).stripDone far true).rlFlag RL_FLAGS.OVF |>.count
              RL_CNT0.OVF
          | none => s
        else s
      s.modRl fun r => { r with packets := r.packets ++ [pk] }
    | [] => s
  else s.count RL_CNT1.SKIPPED

/-- Cut strips while the travel holds whole ones. -/
def State.cutAll (s : State) : Nat → Nat → State
  | 0, trav => s.put RL_TRAVEL.FRAC trav
  | n + 1, trav => if stripUnits ≤ trav then s.cutStrip.cutAll n (trav - stripUnits) else s.put RL_TRAVEL.FRAC trav

/-- The travel of one frame (R177): the speed word, none after a bus error. -/
def State.rlTravel (s : State) (v : Option Int) : State :=
  let s := if v.isNone then s.rlFlag RL_FLAGS.SPD_ERR else s
  let v := v.getD s.racking.v
  let s := s.modRl fun r => { r with v := v }
  let s :=
    if v < 0 then (s.modRl fun r => { r with debt := r.debt + v.natAbs }).rlFlag RL_FLAGS.REVERSE
    else
      let pay := min s.racking.debt v.toNat
      let s := s.modRl fun r => { r with debt := r.debt - pay }
      s.cutAll 8 (s.get RL_TRAVEL.FRAC + v.toNat - pay)
  s.put RL_TRAVEL.DEBT (min 65535 (s.racking.debt / stripUnits))

/-- The travel position of the cutter bar, in units. -/
def State.rlPos (s : State) : Int :=
  (s.racking.strips * stripUnits + s.get RL_TRAVEL.FRAC : Nat) - (s.racking.debt : Int)

/-- Move a packet by the advances of the stages; one that leaves the last enabled stage has left the line. -/
def State.advance (s : State) (adv : List Nat) (p : Packet) : Packet :=
  if !p.inLine then { p with gone := p.gone + 1 }
  else
    -- a stage that is no longer enabled passes its packets to position 0 of the next
    let p1 := if s.on STG_CFG.EN p.stage then some p
      else match s.stagesAfter p.stage with
        | k :: _ => some { p with stage := k, pos := 0 }
        | [] => none
    match p1 with
    | none => { p with exit := some s.mtc }
    | some p =>
      let q := p.pos + (adv[p.stage]?).getD 0
      if q < 65536 then { p with pos := q }
      else
        match s.stagesAfter p.stage with
        | k :: _ => { p with stage := k, pos := q - 65536 }
        | [] => { p with exit := some s.mtc, pos := q - 65536 }

/-- The speed words and the advances of the stages (R179). -/
def State.rlStages (s : State) (rd : Reader) : State × List Nat :=
  (List.range 8).foldl (fun (acc : State × List Nat) i =>
    let t := acc.1
    if i = 0 ∨ !t.on STG_CFG.EN i then (if i = 0 then t else t.put STG_STAT.ADV 0 i, acc.2 ++ [0])
    else
      let r := if t.get STG_SRC.ADDR i = 0 then some (t.getZ STG_FIX.FIXV i) else t.readQ15 rd (t.get STG_SRC.ADDR i)
      let t := if r.isNone then t.rlFlag RL_FLAGS.SRC_ERR else t
      let x := r.getD ((t.racking.x[i]?).getD 0)
      let t := t.modRl fun q => { q with x := q.x.set i x }
      let a := (rnd (x * t.get STG_CFG.K i) 15).toNat
      (t.put STG_STAT.ADV a i, acc.2 ++ [a])) (s, [])

/-- The packet counts that the registers show. -/
def State.rlCounts (s : State) : State :=
  let ps := s.racking.packets.filter Packet.inLine
  forUpTo 8 (fun i t => if i = 0 then t else t.put STG_STAT.PKTS (ps.countP fun p => p.stage == i) i)
    (s.put RL_STAT.PKTS ps.length)

/-! ### Measurements and attribution (R176, R182, R183) -/

/-- A measurement: acquisition MTC, value, FLT. -/
structure Meas where
  mtc : Nat
  val : Int
  flt : Bool

/-- The 64-bit MTC behind AIN_MTC. -/
def State.ainMtc (s : State) (n : Nat) : Nat := s.get64 AIN_MTC_LO.MTC n

/-- Where a ROLE or MI channel takes its measurements from: an AIN channel or a measurement input. -/
inductive MeasSrc where
  | ain (n : Nat)
  | mi (k : Nat)

/-- The source of the measurement of a role (R176); none: the role is missing. -/
def State.roleSrc (s : State) (r : Nat) : Option MeasSrc :=
  let mi := ((List.range 8).find? fun k =>
    s.on MI_CFG.EN k && s.get MI_CFG.ROLE k == r && decide (1 ≤ r) && decide (r ≤ 7) && !s.on MI_VAL.FLT k).map .mi
  match s.roleChannel r with
  | some n => if s.on AIN_VAL.FLT n then mi else some (.ain n)
  | none => mi

/-- The FLT that a source shows now. -/
def State.srcFlt (s : State) : MeasSrc → Bool
  | .ain n => s.on AIN_VAL.FLT n
  | .mi k => s.on MI_VAL.FLT k

/-- The values that a source has given since the last boundary, oldest first; a disabled measurement input gives none. -/
def State.srcNew (s : State) (m : MeasSrc) : List Meas :=
  let l : List RlNew := match m with
    | .ain n => s.racking.newAin.filter fun x => x.src == n
    | .mi k => s.racking.newMi.filter fun x => x.src == k && s.on MI_CFG.EN k
  l.map fun x => ⟨x.mtc, x.val, x.flt⟩

/-- The LS measurements of a mask that arrived since the last boundary: one for each acquisition instant. -/
def State.lsMeas (s : State) (mask cls : Nat) : List Meas :=
  let bs := (s.newBins.filter fun p => bit mask p.1).map fun p =>
    let b := p.2
    let n := match cls with
      | 0 => b.grain
      | 1 => b.mog
      | _ => b.grain + b.mog + b.rej
    (b.stop - (b.stop - b.start) / 2, n, b.flt)
  ((bs.map fun b => b.1).eraseDups).map fun t =>
    let same := bs.filter fun b => b.1 == t
    ⟨t, ((same.map fun b => b.2.1).sum : Nat), same.any fun b => b.2.2⟩

/-- The packets at the point of channel `a` at instant `t`, by index, with how many boundaries back `b` lies. -/
def State.atPoint (s : State) (a : Nat) (back : Nat) (b : RlPast) (t : Nat) : List Nat :=
  let st := s.get AT_CFG.STAGE a
  let pos := s.get AT_POS.POS a
  let dw := s.get STG_FIX.DW st
  let adv := (b.adv[st]?).getD 0
  (s.racking.packets.zipIdx.filter fun p =>
    match p.1.hist[back]? with
    | some (k, x) =>
      let q : Int := (x * 2000000 + adv * (t - b.mtc) : Nat) - (pos * 2000000 : Nat)
      k == st && decide (2 * q.natAbs ≤ dw * 2000000)
    | none => false).map Prod.snd

/-- Set FLT of channel `a` on the packets of a list. -/
def State.atFault (s : State) (a : Nat) (J : List Nat) : State :=
  s.modRl fun r =>
    { r with
      packets := r.packets.zipIdx.map fun p =>
        if J.contains p.2 then { p.1 with att := p.1.att.modify a fun h => { h with flt := true } } else p.1 }

/-- Attribute one measurement to channel `a`; the count attributed (R182).  At a boundary before the first since EN the line
held no packets. -/
def State.attribute (s : State) (a : Nat) (m : Meas) : State × Int :=
  match s.racking.past.zipIdx.find? fun p => decide (p.1.mtc ≤ m.mtc) with
  | none =>
    if m.mtc + 32 * frameTicks < s.mtc then ((s.count RL_CNT0.ATT_OLD).rlFlag RL_FLAGS.ATT_OLD, 0)
    else (s.count AT_CNT.EMPTY 1 a, 0)
  | some (b, back) =>
      let J := s.atPoint a back b m.mtc
      let s := if m.flt then s.atFault a (s.atPoint a back b b.mtc) else s
      if J.isEmpty then (s.count AT_CNT.EMPTY 1 a, 0)
      else if m.flt then (s, 0)
      else
        let mass := fun (i : Nat) => ((s.racking.packets[i]?).map fun p => p.row.mass).getD 0
        let tot := (J.map mass).sum
        let share := fun (i : Nat) =>
          if tot = 0 then Frac.of (Config.zeroShare J.length i) 65536 else Frac.of (mass i : Nat) tot
        (s.modRl fun r =>
          { r with
            packets := r.packets.zipIdx.map fun p =>
              if J.contains p.2 then
                { p.1 with
                  att := p.1.att.modify a fun h =>
                    { h with sum := h.sum.add ((share p.2).mul (Frac.int m.val)), share := h.share.add (share p.2), some_ := true } }
              else p.1 }, m.val)

/-- Filter RATE toward `x` (R183). -/
def State.atFilter (s : State) (a : Nat) (x : Int) : State :=
  let r := s.getZ AT_RATE.RATE a
  s.putZ AT_RATE.RATE (sat16 (r + rnd (s.getZ AT_POS.ALPHA a * (x - r)) 15)) a

/-- Attribute measurements in order; the count attributed.  A channel of stage 0 attributes nothing. -/
def State.attributeAll (s : State) (a : Nat) (ms : List Meas) : State × Int :=
  if s.get AT_CFG.STAGE a = 0 then (s, 0)
  else
    ms.foldl (fun (t : State × Int) m =>
      let q := t.1.attribute a m
      (q.1, t.2 + q.2)) (s, 0)

/-- A role is missing: the packets at the point at this boundary carry FLT (R182). -/
def State.atMissing (s : State) (a : Nat) : State :=
  match s.racking.past with
  | b :: _ => if s.get AT_CFG.STAGE a = 0 then s else s.atFault a (s.atPoint a 0 b b.mtc)
  | [] => s

/-- Step t2 for one attribution channel (R182, R183). -/
def State.atStep (s : State) (a : Nat) : State :=
  if !s.on AT_CFG.EN a then s
  else if s.get AT_CFG.KIND a = 0 then
    let ms := s.lsMeas (s.get AT_CFG.LSMASK a) (s.get AT_CFG.CLASS a)
    let r := s.attributeAll a ms
    let flt := match ms.getLast? with
      | some m => m.flt
      | none => s.on AT_RATE.FLT a
    let s := r.1.putB AT_RATE.FLT flt a
    if flt then s else s.atFilter a (100 * r.2)
  else
    match if s.get AT_CFG.KIND a = 1 then s.roleSrc (s.get AT_CFG.SRC a) else some (.mi (s.get AT_CFG.SRC a % 8)) with
    | none => ((s.count AT_CNT.MISS 1 a).putB AT_RATE.FLT true a).atMissing a
    | some src =>
      let last := (s.racking.atLast[a]?).getD (0, 0, false)
      let ms := s.srcNew src
      let now := match (ms.filter fun m => !m.flt).getLast? with
        | some m => (m.mtc, m.val, true)
        | none => last
      let s := if ms.isEmpty then s.count AT_CNT.MISS 1 a else (s.attributeAll a ms).1
      let s := s.modRl fun r => { r with atLast := r.atLast.set a now }
      let s := s.putB AT_RATE.FLT (s.srcFlt src) a
      if s.srcFlt src || !now.2.2 then s else s.atFilter a now.2.1

/-! ### Taps (R181) -/

/-- A contributor to a tap: from, to (arrival in frames, or distance in cm), mass, age, flags, whether it is uncut. -/
structure Part where
  lo : Frac
  hi : Frac
  mass : Nat
  age : Nat
  contra : Bool
  subst : Bool
  horizon : Bool
  nogrid : Bool
  ground : Bool

/-- The overlap of a part with a window. -/
def Part.overlap (p : Part) (a b : Frac) : Frac :=
  let lo := if p.lo.lt a then a else p.lo
  let hi := if b.lt p.hi then b else p.hi
  if lo.lt hi then hi.sub lo else Frac.int 0

/-- Does a part contribute to a window: by overlap, or at one instant inside it? -/
def Part.inside (p : Part) (a b : Frac) : Bool :=
  (Frac.int 0).lt (p.overlap a b) || (p.hi.le p.lo && a.le p.lo && p.lo.lt b)

/-- The fraction of a part inside a window. -/
def Part.fraction (p : Part) (a b : Frac) : Frac :=
  if p.hi.le p.lo then (if a.le p.lo && p.lo.lt b then Frac.int 1 else Frac.int 0)
  else
    let o := p.overlap a b
    let d := p.hi.sub p.lo
    Frac.of (o.num * d.den) (o.den * d.num.toNat)

/-- TAP_INFO from the contributors. -/
def tapInfo (ps : List Part) : Nat :=
  (ps.map Part.age).foldl max 0 + 2 ^ 8 * b2n (ps.any Part.contra) + 2 ^ 9 * b2n (ps.any Part.subst)
    + 2 ^ 10 * b2n (ps.any Part.horizon) + 2 ^ 11 * b2n (ps.any Part.ground) + 2 ^ 12 * b2n (ps.any Part.nogrid)

/-- Uncut strip `n` as a part between two marks. -/
def State.groundPart (s : State) (n : Nat) (lo hi : Frac) : Part :=
  let k := s.stripNow n
  ⟨lo, hi, k.row.mass, k.age, k.row.contra, k.row.substF, k.horizon, k.nogrid, true⟩

/-- The result of a tap that has nothing to report. -/
def TapRes.none : TapRes := ⟨0, 0, 0x1000⟩

/-- Frames of travel for `d` position units at advance `adv`; none when it does not move. -/
def framesOf (d adv : Nat) : Option Frac := if adv = 0 then none else some (Frac.of (d : Nat) adv)

/-- The sum of optional times. -/
def addTimes (l : List (Option Frac)) : Option Frac :=
  l.foldl (fun a t => match a, t with
    | some x, some y => some (x.add y)
    | _, _ => none) (some (Frac.int 0))

/-- Frames of ground travel for `x` units. -/
def State.groundFrames (s : State) (x : Int) : Option Frac :=
  if 0 < s.racking.v then some (Frac.of x s.racking.v.toNat) else none

/-- Frames to move from position `x` of stage `a` to position `y` of a later stage `b`: the rest of `a`, the full transit of
each enabled stage between, and `y` in `b`.  Stage 0 ends where the line begins. -/
def State.between (s : State) (adv : List Nat) (a x b y : Nat) : Option Frac :=
  let v := fun (i : Nat) => (adv[i]?).getD 0
  let own := if a = 0 then some (Frac.int 0) else framesOf (65536 - x) (v a)
  addTimes ([own] ++ (((s.stagesAfter a).filter fun k => decide (k < b)).map fun k => framesOf 65536 (v k)) ++ [framesOf y (v b)])

/-- Frames until a packet at `x` of stage `from_`, or an uncut strip whose near edge lies `x` units ahead of the cutter bar
(`from_` 0), reaches the target.  Of a packet that has passed the target they are negative: its mass still spreads to the
arrival of the next strip behind it. -/
def State.arrival (s : State) (adv : List Nat) (stage pos : Nat) (from_ : Nat) (x : Int) : Option Frac :=
  let neg := fun (t : Option Frac) => t.map fun f => Frac.of (-f.num) f.den
  if from_ = 0 then
    if stage = 0 then s.groundFrames x else addTimes [s.groundFrames x, s.between adv 0 0 stage pos]
  else if from_ = stage then
    let d := framesOf (x - pos).natAbs ((adv[stage]?).getD 0)
    if x ≤ pos then d else neg d
  else if stage < from_ then neg (s.between adv stage pos from_ x.toNat)
  else s.between adv from_ x.toNat stage pos

/-- A RATE tap (R181): packets and uncut strips in order of arrival, each spread to the next behind it. -/
def State.tapRate (s : State) (adv : List Nat) (stage pos lead win : Nat) : TapRes :=
  let inline := (s.racking.packets.filter Packet.inLine).mergeSort fun p q =>
    decide (q.stage < p.stage) || (p.stage == q.stage && decide (q.pos ≤ p.pos))
  let pk := inline.filterMap fun p => (s.arrival adv stage pos p.stage p.pos).map fun t => (t, some p, 0)
  let count := if s.racking.v ≤ 0 then 0 else (s.racking.v.toNat * (lead + win) / 10) / stripUnits + 3
  let gr := (List.range count).filterMap fun i =>
    let n := s.racking.strips + i
    (s.arrival adv stage pos 0 ((n * stripUnits : Nat) - s.rlPos)).map fun t => (t, (none : Option Packet), n)
  let all := pk ++ gr
  let a := Frac.of (lead : Nat) 10
  let b := Frac.of (lead + win : Nat) 10
  let parts := (all.zip (all.drop 1)).map fun (e : (Frac × Option Packet × Nat) × (Frac × Option Packet × Nat)) =>
    match e.1.2.1 with
    | some p => (⟨e.1.1, e.2.1, p.row.mass, p.age, p.row.contra, p.row.substF, p.horizon, p.nogrid, false⟩ : Part)
    | none => s.groundPart e.1.2.2 e.1.1 e.2.1
  let ins := parts.filter fun p => p.inside a b
  let M := (ins.map fun p => (p.fraction a b).mul (Frac.int p.mass)).foldl Frac.add (Frac.int 0)
  let known := ((ins.filter fun p => !p.horizon).map fun p => p.overlap a b).foldl Frac.add (Frac.int 0)
  let v := ((M.mul (Frac.of 294912 10000)).divN win).round
  ⟨min 32767 v.toNat, min 255 (Config.quotZ 11 (known.num * 2550) (known.den * win)).toNat, tapInfo ins⟩

/-- A DENSITY tap: the mean row sum of the uncut strips in a window ahead of the cutter bar, 2,048 units to 1 cm. -/
def State.tapDensity (s : State) (lead win : Nat) : TapRes :=
  let count := (lead + win) * 2048 / stripUnits + 2
  let parts := (List.range count).map fun i =>
    let n := s.racking.strips + i
    let d : Int := (n * stripUnits : Nat) - s.rlPos
    s.groundPart n (Frac.of d 2048) (Frac.of (d + stripUnits) 2048)
  let a := Frac.int lead
  let b := Frac.int (lead + win : Nat)
  let ins := parts.filter fun p => p.inside a b
  let sum := (ins.map fun p => (p.overlap a b).mul (Frac.int p.mass)).foldl Frac.add (Frac.int 0)
  let len := (ins.map fun p => p.overlap a b).foldl Frac.add (Frac.int 0)
  let known := ((ins.filter fun p => !p.horizon).map fun p => p.overlap a b).foldl Frac.add (Frac.int 0)
  let v := if len.num = 0 then 0 else Config.quotZ 12 (sum.num * len.den) (sum.den * len.num.toNat)
  ⟨min 32767 v.toNat, min 255 (Config.quotZ 11 (known.num * 255) (known.den * win)).toNat, tapInfo ins⟩

/-- Tap `t` at step t3; a disabled one keeps its words. -/
def State.tapStep (s : State) (adv : List Nat) (t : Nat) : TapRes :=
  let stage := s.get TAP_CFG.STAGE t
  let lead := s.get TAP_WIN.LEAD t
  let win := max 1 (s.get TAP_WIN.WIN t)
  if !s.on TAP_CFG.EN t then
    ⟨s.get TAP_OUT.VAL t, s.get TAP_OUT.COVER t, s.get TAP_INFO.F t⟩
  else if !s.racking.on ∨ (stage ≠ 0 ∧ !s.on STG_CFG.EN stage) then .none
  else if s.on TAP_CFG.MODE t then (if stage = 0 then s.tapDensity lead win else .none)
  else s.tapRate adv stage (s.get TAP_CFG.POS t) lead win

/-! ### One boundary (R172) -/

/-- The configuration that the registers hold. -/
def State.rlCfgNow (s : State) : RlCfg :=
  ⟨s.get RL_CFG.C_USE, s.on RL_CFG.EDGE_EN, s.get RL_CFG.EDGE_MIN, s.get RL_CFG.NOMCELL, s.get RL_EVMASK.F,
    s.addr40 STRIP_BASE_LO.ADDR STRIP_BASE_HI.ADDR, clampN 4 15 (s.get STRIP_CFG.LOG2N), s.on STRIP_CFG.EV⟩

/-- What a pending configuration and EN change at a boundary (R180, R186).  The travel of a line that restarts begins anew, so
no earlier grid has a travel at its T_ref (log entry 63). -/
def State.rlConfigure (s : State) : State :=
  let s := s.modRl fun r => { r with cfg := s.rlCfgNow }
  let s := if s.racking.dirty then
      ((s.modRl fun r => { r with dirty := false }).bumpMod RL_STAT.GEN) |> fun t =>
        t.record .rlConfig (node domMachine none8 none8) [t.get RL_STAT.GEN]
    else s
  let en := s.on RL_CFG.EN
  if en == s.racking.on then s
  else if en then
    ((s.modRl fun r => { r with on := true, debt := 0, strips := 0, travel := [], past := [], packets := [], profile := none, restart := true }).put
      RL_STRIP.NEXT 0).put RL_TRAVEL.FRAC 0
  else (s.modRl fun r => { r with on := false, packets := [], travel := [] }).rlCounts

/-- Objective entries that have changed take effect (R184). -/
def State.objConfigure (s : State) : State :=
  let now := (List.range 8).map fun k => s.get OBJ.LIMIT 0 k + 2 ^ 16 * s.get OBJ.AT 0 k
  if now = s.racking.objSeen then s
  else
    let s := (s.modRl fun r => { r with objSeen := now }).bumpMod OBJ_STAT.GEN
    s.record .objGen (node domMachine none8 none8) (s.get OBJ_STAT.GEN :: now)

/-- Steps t0 to t2 and the taps of t3. -/
def State.rlBoundary (s : State) (rd : Reader) : State :=
  let s := s.rlConfigure.objConfigure
  let s := match s.profileNow with
    | some p => (s.put RL_GRID.EPOCH p.epoch).put RL_AGE.AGE (min 65535 (Config.quot 13 (s.mtc - p.acq) 20000))
    | none => s.put RL_AGE.AGE 65535
  if !s.racking.on then
    let taps := (List.range 16).map fun t => s.tapStep [] t
    ({ s with newBins := [] }).modRl fun r => { r with taps := taps, newAin := [], newMi := [] }
  else
    let v := if s.get RL_SPD.ADDR = 0 then some 0 else s.readQ15 rd (s.get RL_SPD.ADDR)
    let sa := s.rlStages rd
    let adv := sa.2
    let s := sa.1.rlTravel v
    let s := s.modRl fun r =>
      { r with
        packets := r.packets.map fun p =>
          let q := s.advance adv p
          { q with hist := (((if q.inLine then q.stage else 8), q.pos) :: p.hist).take 33 }
        past := (⟨s.mtc, adv⟩ :: r.past).take 33
        travel := ((s.mtc, s.rlPos) :: r.travel).take 256 }
    let s := forUpTo 16 (fun a t => t.atStep a) s
    let s := ({ s with newBins := [] }).modRl fun r => { r with newAin := [], newMi := [] }
    let finished := s.racking.packets.filter fun p => decide (32 ≤ p.gone)
    let s := finished.foldl (fun t p => t.stripDone p false) s
    let s := (s.modRl fun r => { r with packets := r.packets.filter fun p => !decide (32 ≤ p.gone) }).rlCounts
    let taps := (List.range 16).map fun t => s.tapStep adv t
    s.modRl fun r => { r with taps := taps }

/-- Write one strip record to the ring, or drop it (R185). -/
def State.writeStrip (s : State) (w : List Nat) : State :=
  let n := 2 ^ s.racking.cfg.log2n
  let wr := s.get STRIP_WR.IDX
  if (wr + 1) % n = s.get STRIP_RD.IDX % n then
    ((s.rlFlag RL_FLAGS.STRIP_DROP).count RL_CNT1.STRIP_DROP).record .stripDrop (node domMachine none8 none8) (w.take 1)
  else
    let a := s.racking.cfg.base + 128 * wr
    let s := ((s.fabWrite (a + 4) (w.drop 1)).fabWrite a (w.take 1)).put STRIP_WR.IDX ((wr + 1) % n)
    let s := s.modRl fun r => { r with written := s.mtc }
    if s.racking.cfg.ev then s.raise 0x2A else s

/-- A write of MI_VAL commits the measurement input, or discards a future value (R176). -/
def State.miValWrite (s : State) (k : Fin 8) (word : Nat) : State :=
  let t := s.get MI_MTC_LO.MTC k.val + 2 ^ 32 * s.get MI_MTC_HI.MTC k.val
  if s.mtc < t then s.count MI_CFG.FUT 1 k.val
  else
    let m := s.racking.mi[k.val]
    let s := s.putWord [MI_VAL.VAL, MI_VAL.FLT] word k.val
    let fresh := if m.ok && m.mtc == t then [] else [RlNew.mk k.val t (s.getZ MI_VAL.VAL k.val) (s.on MI_VAL.FLT k.val)]
    s.modRl fun r => { r with mi := upd r.mi k fun _ => ⟨true, t⟩, newMi := r.newMi ++ fresh }

def execMiValWrite (k : Fin 8) (word : Nat) (s : State) : Host.Outcome State Fault Refusal := s.act (s.miValWrite k word)

end Sys2Proof.Machine
end

