-- ==== Sys2Proof/Machine/Trellis.lean ====
section
/-! DEFINITION.  Trellis: fields, cells, strips, grids, revisions and its service (R241 to R252, R256 to R261). -/

namespace Sys2Proof.Machine

open Sys2Proof.Reg

def State.modTl (s : State) (f : Trellis → Trellis) : State := { s with trellis := f s.trellis }

/-- Set a sticky flag of TL_FLAGS, with event 0x2D. -/
def State.tlFlag (s : State) (b : Nat) : State := s.flag TL_FLAGS.F TL_EVMASK.F b 0x2D

/-! ### Cells (R242, R245, R246) -/

/-- The layers of Table 13.1. -/
def lyCover : Nat := 0
def lyArea : Nat := 1
def lyMass : Nat := 2
def lyMoist : Nat := 3
def lyLoss0 : Nat := 4
def lyLoss1 : Nat := 5
def lyCrop : Nat := 6
def lyTime : Nat := 7
def lyRev : Nat := 8
def lyCropF : Nat := 9
def lyCanopy : Nat := 10
def lyPosU : Nat := 11
def lyZone : Nat := 15

/-- A cell's word: the value and the meta byte, which keeps REVISED, SUBST and FLT of the old word (R245). -/
def cellWord (old value code : Nat) (subst revised : Bool) : Nat :=
  value % 2 ^ 24 + 2 ^ 24 * (code % 8) + 2 ^ 27 * b2n (bit old 27 || revised) + 2 ^ 28 * b2n (bit old 28 || subst)
    + 2 ^ 29 * b2n (bit old 29) + 2 ^ 31

/-- VALUE and WRITTEN of a cell's word. -/
def cellValue (w : Nat) : Nat := w % 2 ^ 24
def cellWritten (w : Nat) : Bool := bit w 31

/-- The largest VALUE; sums saturate there (R245). -/
def valueMax : Nat := 0xFFFFFF

/-- Can a cell (i, j) exist? -/
def cellIn (i j : Int) : Bool := decide (-32768 ≤ i) && decide (i ≤ 32767) && decide (-32768 ≤ j) && decide (j ≤ 32767)

/-- The word of a cell of the open field. -/
def State.tlWord (s : State) (layer : Nat) (i j : Int) : Nat := (regFind s.trellis.cells (cellKey layer i j)).getD 0

/-- The most tiles that a layer of a field holds. -/
def tilesMax : Nat := 256

/-- Write a cell of the open field: a layer that is not stored takes nothing; a write that would need a tile too many is
discarded, flagged and counted (R242, R246). -/
def State.tlSet (s : State) (layer : Nat) (i j : Int) (w : Nat) : State :=
  if !bit (s.get TL_FIELD.LAYERS) layer || !cellIn i j then s
  else
    let k := cellKey layer i j
    let t := tileOf k
    let have_ := s.trellis.tiles.contains t
    if !have_ && decide (tilesMax ≤ (s.trellis.tiles.filter fun x => x / 65536 == layer).length) then
      (s.count TL_CNT3.TILE_FULL).tlFlag TL_FLAGS.TILE_FULL
    else
      s.modTl fun l =>
        { l with
          cells := regSet l.cells k (w % 2 ^ 32)
          tiles := if have_ then l.tiles else t :: l.tiles
          cached := if l.cached.contains t then l.cached else t :: l.cached
          dirty := if l.dirty.contains t then l.dirty else t :: l.dirty }

/-- The open field, in OPEN or DRAIN. -/
def State.tlOpen (s : State) : Option TlField :=
  if s.get TL_FIELD.STATE = 0 then none else s.trellis.fields.find? fun f => f.id == s.get TL_FIELD_ID.ID

/-- The cell edge in mm; the encoding 0 is 16 (R242). -/
def edgeMm (edge : Nat) : Nat := 250 * (if edge % 16 = 0 then 16 else edge % 16)

/-- The cell of the open field that contains a point. -/
def State.tlCell (s : State) (p : Int × Int) : Int × Int :=
  let e := edgeMm (s.get TL_FIELD.EDGE)
  (Int.fdiv p.1 e, Int.fdiv p.2 e)

/-- A displacement of `f` mm forward and `l` mm left at heading `h`, clockwise from north: east and north. -/
def turn (h : Nat) (f l : Int) : Int × Int :=
  match h % 65536 with
  | 0 => (-l, f)
  | 16384 => (f, l)
  | 32768 => (l, -f)
  | 49152 => (-f, -l)
  | k => Config.rotate k f l

/-- A length in m, binary32, as mm. -/
def mmOf (w : Nat) : Int :=
  match f32Val w with
  | some v => Config.quotZ 20 (v.num * 1000) v.den
  | none => Config.unstated 1 [w]

/-! ### Time of a cell (R243) -/

/-- OFS of an instant in the session of the open field, in 2 s units. -/
def State.tlOfs (s : State) (mtc : Nat) : Nat :=
  match (s.tlOpen.bind fun f => f.sessions.head?) with
  | some x => min 65535 (Config.quot 22 (mtc - x.start) 400000000)
  | none => 0

/-- Is the time of a cell more than PASS_GAP before an instant, or the cell not yet written (R250)? -/
def State.newPass (s : State) (i j : Int) (mtc : Nat) : Bool :=
  let c := s.tlWord lyCover i j
  let t := s.tlWord lyTime i j
  let start := ((s.tlOpen.bind fun f => f.sessions.head?).map TlSession.start).getD 0
  !cellWritten c || !cellWritten t || bits t 16 8 != s.get TL_FIELD.SESSION
    || decide (start + bits t 0 16 * 400000000 + max 1 (s.get TL_PASS.PASS_GAP) * 200000000 < mtc)

/-- A write to a layer of 0 to 6 also sets TIME and POSU of the cell. -/
def State.tlStamp (s : State) (i j : Int) (mtc hu code : Nat) (subst : Bool) : State :=
  let s := s.tlSet lyTime i j
    (cellWord (s.tlWord lyTime i j) (s.get TL_FIELD.SESSION * 65536 + s.tlOfs mtc) code subst false)
  s.tlSet lyPosU i j (cellWord (s.tlWord lyPosU i j) hu code subst false)

/-! ### Solution records (R226, R247) -/

/-- A solution record as Trellis uses it. -/
structure SolRec where
  mtc : Nat
  fix : Nat
  hu : Nat
  vn : Int
  ve : Int
  heading : Nat
  x : Int
  y : Int

/-- A solution record from its words. -/
def readSol (w : List Nat) : SolRec :=
  let a := fun (i : Nat) => (w[i]?).getD 0
  ⟨a 1 + 2 ^ 32 * a 2, bits (a 3) 0 3, bits (a 9) 0 16, sgn 16 (bits (a 10) 0 16), sgn 16 (bits (a 10) 16 16),
   bits (a 11) 0 16, sgn 32 (a 12), sgn 32 (a 13)⟩

/-- The records in the solution ring, newest first. -/
def State.solRecs (s : State) : List SolRec :=
  match s.pos.sol with
  | none => []
  | some cfg =>
    let size := 2 ^ cfg.log2n
    let top := s.get GF_SOL.SEQ
    (List.range (min size top)).filterMap fun k =>
      let w := s.fabWords (cfg.ring + 64 * ((top - k) % size)) 16
      if w.head? = some ((top - k) % 2 ^ 32) then some (readSol w) else none

/-- Has a record a position in the open field? -/
def SolRec.placed (r : SolRec) : Bool := r.fix != 0 && r.x != -2147483648

/-- 1 ms, in ticks of 5 ns. -/
def msTicks : Nat := 200000

/-- The point, heading and HU at an instant: interpolated between two records, or extrapolated from one (R247). -/
def State.solAt (s : State) (t : Nat) : Option (Int × Int × Nat × Nat) :=
  let rs := s.solRecs
  let before := rs.find? fun r => decide (r.mtc ≤ t)
  let after := (rs.filter fun r => decide (t ≤ r.mtc)).getLast?
  let near := fun (r : SolRec) (n : Nat) => decide (t ≤ r.mtc + n * msTicks) && decide (r.mtc ≤ t + n * msTicks)
  let both := match before, after with
    | some a, some b => near a 150 && near b 150
    | _, _ => false
  match before, after with
  | some a, some b =>
    if both then
      if !a.placed || !b.placed then none
      else
        let d := b.mtc - a.mtc
        let mix := fun (u v : Int) => if d = 0 then u else u + Config.quotZ 21 ((v - u) * (t - a.mtc : Nat)) d
        some (mix a.x b.x, mix a.y b.y,
          low 16 (mix a.heading (a.heading + sgn 16 ((b.heading + 65536 - a.heading) % 65536))), max a.hu b.hu)
    else if near a 200 && a.placed then some (ahead a)
    else none
  | some a, none => if near a 200 && a.placed then some (ahead a) else none
  | none, _ => none
where
  /-- One record carried on by its velocity. -/
  ahead (a : SolRec) : Int × Int × Nat × Nat :=
    (a.x + Config.quotZ 21 (a.ve * (t - a.mtc : Nat)) 200000000, a.y + Config.quotZ 21 (a.vn * (t - a.mtc : Nat)) 200000000,
      a.heading, a.hu)

/-- The control point in the machine frame, in mm. -/
def State.controlPoint (s : State) : Int × Int := ((s.pos.sol.map fun c => (c.x, c.y)).getD (0, 0))

/-! ### Strips (R247 to R250) -/

/-- Header geometry of a generation, and whether it is no longer held. -/
def State.tlHg (s : State) (gen : Nat) : List Nat × Bool :=
  match s.trellis.hgs.find? fun g => g.1 == gen with
  | some g => (g.2, false)
  | none => (((s.trellis.hgs.head?).map Prod.snd).getD [], true)

/-- The service copies the active header geometry at every change of HG_CTL.GEN. -/
def State.tlHgSync (s : State) : State :=
  let g := s.get HG_CTL.GEN
  if s.on HG_CTL.PEND ∨ (s.trellis.hgs.head?).map Prod.fst = some g then s
  else s.modTl fun l => { l with hgs := ((g, (List.range 4).map fun j => s.get HG_AC.W 0 j) :: l.hgs).take 16 }

/-- Word `k` of a strip record. -/
def TlStrip.w (r : TlStrip) (k : Nat) : Nat := (r.words[k]?).getD 0

/-- The row of sub-cells of a strip: the cell of each, left to right. -/
def State.stripRow (s : State) (r : TlStrip) (at_ : Int × Int × Nat × Nat) : List (Int × Int) :=
  let hg := (s.tlHg (bits (r.w 6) 16 8)).1
  let full := (headerColumns ((hg[3]?).getD 0)).length
  let cols := bits (r.w 4) 0 9
  let mode := s.get TL_CTL.WIDTH_MODE
  let n := if mode = 1 ∨ mode = 2 then cols else full
  let skip := if mode = 2 then full - cols else 0
  let cp := s.controlPoint
  let fx := mmOf ((hg[0]?).getD 0) - cp.1 - 25
  let fy := mmOf ((hg[1]?).getD 0) - cp.2
  (List.range n).map fun k =>
    let left : Int := ((full : Int) - 1 - 2 * ((k + skip : Nat) : Int)) * 25
    let d := turn at_.2.2.1 fx (fy + left)
    s.tlCell (at_.1 + d.1, at_.2.1 + d.2)

/-- The cells of a row, left to right, with the count of sub-cells in each. -/
def rowCells (row : List (Int × Int)) : List ((Int × Int) × Nat) := row.eraseDups.map fun c => (c, row.count c)

/-- Shares of a total `num ÷ den` for counts of `n` sub-cells, the rounding residue carried on (R249). -/
def shares (num : Int) (den n : Nat) (ks : List Nat) : List Int :=
  let upTo := fun (K : Nat) => (Frac.of (num * K) (den * n)).round
  (ks.foldl (fun (a : Nat × List Int) k => (a.1 + k, a.2 ++ [upTo (a.1 + k) - upTo a.1])) (0, [])).2

/-- The mean time of one strip in ticks from the nearest strips read, up to sixteen intervals about it (R248). -/
def State.stripDt (s : State) (r : TlStrip) : Frac :=
  let run := s.trellis.strips.reverse
  let p := (run.findIdx? fun x => x.no == r.no && x.cut == r.cut).getD 0
  let last := run.length - 1
  let lo := min (p - 8) (last - 16)
  let hi := min last (lo + 16)
  let at_ := fun (k : Nat) => ((run[k]?).map TlStrip.cut).getD 0
  if hi ≤ lo then Frac.int (Config.unstated 2 [r.no, r.cut]) else Frac.of (at_ hi - at_ lo : Nat) (hi - lo)

/-- The grain mass of a strip in 0.1 g; none when its flow is faulty or empty (R248). -/
def State.stripMass (s : State) (r : TlStrip) : Option Int :=
  let a := r.w (8 + s.get TL_SRC.FLOW_AT)
  if bit a 24 || bit a 25 then none
  else
    let v := (Frac.int (sgn 16 (bits a 0 16) * s.get TL_SRC.CAL)).mul (s.stripDt r)
    some (v.mul (Frac.of 1 (23592960 * 16384))).round

/-- A result as a VALUE: it saturates at the top; what one below 0 becomes is not stated. -/
def asValue (place : Nat) (v : Int) : Nat := if v < 0 then Config.unstated place [low 64 v] else min valueMax v.toNat

/-- Add to the VALUE of a cell of a layer. -/
def State.tlAdd (s : State) (layer : Nat) (c : Int × Int) (n : Int) (code : Nat) (subst : Bool) : State :=
  let w := s.tlWord layer c.1 c.2
  s.tlSet layer c.1 c.2 (cellWord w (asValue 30 ((cellValue w : Int) + n)) code subst false)

/-- Set FLT of a cell of a layer. -/
def State.tlFault (s : State) (layer : Nat) (c : Int × Int) : State :=
  let w := s.tlWord layer c.1 c.2
  if bit w 29 then s else s.tlSet layer c.1 c.2 (w + 2 ^ 29)

/-- Count a pass of this machine over a cell, when it is a new one; `applied` for a section pass (R250, R255). -/
def State.tlPass (s : State) (c : Int × Int) (mtc code : Nat) (subst applied : Bool) : State :=
  if s.newPass c.1 c.2 mtc then
    let w := s.tlWord lyCover c.1 c.2
    let own := min 255 (bits w 0 8 + 1)
    let app := if applied then min 255 (bits w 16 8 + 1) else bits w 16 8
    let s := s.tlSet lyCover c.1 c.2 (cellWord w (own + 256 * bits w 8 8 + 65536 * app) code subst false)
    s.modTl fun l =>
      let t := tileOf (cellKey lyCover c.1 c.2)
      { l with cover := if l.cover.contains t then l.cover else t :: l.cover }
  else s

/-- What a strip does to one cell: `k` of its sub-cells lie there; its shares of mass, of the losses and of the crop
(R249). -/
def State.stripCell (s : State) (r : TlStrip) (hu : Nat) (c : Int × Int) (k : Nat) (m l0 l1 crop : Option Int) : State :=
  let code := s.codeAt r.cut
  let subst := bit (r.w 4) 19 || bit (r.w 4) 20 || bit (r.w 4) 21
  let s := if s.on TL_CTL.COV_SRC then s else s.tlPass c r.cut code subst false
  let s := s.tlAdd lyArea c (25 * k : Nat) code subst
  let old := cellValue (s.tlWord lyMass c.1 c.2)
  let mo := r.w (8 + s.get TL_SRC.MOIST_AT)
  let s :=
    if bit mo 24 || bit mo 25 then s.tlFault lyMoist c
    else
      match m with
      | none => s
      | some a =>
        let mu := (Frac.of (sgn 16 (bits mo 0 16) * 5000) 32768).round
        let w := s.tlWord lyMoist c.1 c.2
        let tot := (old : Int) + a
        let v := if tot ≤ 0 then Config.unstated 3 [w, low 32 mu, low 32 a] else asValue 31 (rdiv (cellValue w * old + mu * a) tot.toNat)
        s.tlSet lyMoist c.1 c.2 (cellWord w v code subst false)
  let part := fun (s : State) (layer : Nat) (v : Option Int) =>
    match v with
    | some a => s.tlAdd layer c a code subst
    | none => s.tlFault layer c
  let s := part (part (part (part s lyMass m) lyLoss0 l0) lyLoss1 l1) lyCrop crop
  s.tlStamp c.1 c.2 r.cut hu code subst

/-- Count a strip that is not placed. -/
def State.stripUnplaced (s : State) : State := (s.count TL_CNT0.UNPLACED).tlFlag TL_FLAGS.UNPLACED

/-- Does the field take strips cut at an instant (R243)? -/
def State.tlTakes (s : State) (cut : Nat) : Bool :=
  match s.get TL_FIELD.STATE with
  | 1 => true
  | 2 => match s.trellis.closed with
    | some t => decide (cut ≤ t)
    | none => false
  | _ => false

/-- Place one strip (R247 to R250). -/
def State.placeStrip (s : State) (r : TlStrip) : State :=
  let s := s.modTl fun l => { l with strips := l.strips.map fun x => if x = r then { x with placed := true } else x }
  let mass := s.stripMass r
  let s := if s.tlTakes r.cut then s.modTl fun l => { l with gap := l.gap + mass.getD 0 } else s
  let s :=
    match if s.tlTakes r.cut then s.solAt r.cut else none with
    | none => s.stripUnplaced
    | some at_ =>
      let s := if (s.tlHg (bits (r.w 6) 16 8)).2 then (s.count TL_CNT3.HG_MISS).tlFlag TL_FLAGS.HG_MISS else s
      let row := s.stripRow r at_
      let cells := rowCells row
      let ks := cells.map Prod.snd
      let n := row.length
      let loss := fun (ch : Nat) =>
        let a := r.w (8 + ch)
        if bit a 24 || bit a 25 then none else some (shares (bits a 0 24 : Nat) 16 n ks)
      let ms := mass.map fun m => shares m 1 n ks
      let l0 := loss (s.get TL_SRC.LOSS0_AT)
      let l1 := loss (s.get TL_SRC.LOSS1_AT)
      let cr := shares (bits (r.w 3) 0 24 : Nat) 2 n ks
      let get := fun (l : Option (List Int)) (i : Nat) => l.map fun v => (v[i]?).getD 0
      let s := cells.zipIdx.foldl (fun (t : State) (e : ((Int × Int) × Nat) × Nat) =>
        let c := e.1.1
        let before := cellValue (t.tlWord lyMass c.1 c.2)
        let t := t.stripCell r at_.2.2.2 c e.1.2 (get ms e.2) (get l0 e.2) (get l1 e.2) (get (some cr) e.2)
        t.modTl fun l => { l with gap := l.gap - ((cellValue (t.tlWord lyMass c.1 c.2) : Int) - before) }) s
      (s.count TL_CNT0.PLACED).put TL_STRIP.LAST r.no
  s.putZ TL_GAP.GAP (Config.quotZ 23 s.trellis.gap 100)

/-- Place every strip read that is not placed yet, oldest first. -/
def State.placeAll (s : State) : State :=
  (s.trellis.strips.reverse.filter fun r => !r.placed).foldl (fun t r => t.placeStrip r) s

/-! ### Flushing (R244) -/

/-- The number of backing tiles in use. -/
def State.tlUsed (s : State) : State := s.put TL_TILES.USED ((s.trellis.fields.map fun f => f.tiles.length).sum)

/-- The cells of some tiles. -/
def cellsOf (m : RegMap) (ts : List Nat) : RegMap := m.filter fun e => ts.contains (tileOf e.1)

/-- Start a flush of the dirty tiles, unless one runs. -/
def State.tlStartFlush (s : State) : State :=
  if s.trellis.flush.isSome then s
  else
    s.modTl fun l =>
      { l with
        flush := some ⟨l.cur, s.mtc, l.dirty, cellsOf l.cells l.dirty⟩
        dirty := [], served := l.served ++ l.waiting, waiting := [] }

/-- FLUSH_S in ticks, clamped. -/
def State.flushTicks (s : State) : Nat := max 5 (s.get TL_CTL.FLUSH_S) * 200000000

/-- A field whose backing takes the tiles of a flush. -/
def TlField.take (f : TlField) (x : TlFlush) : TlField :=
  if f.id = x.field then
    let kept := regDrop (fun k => x.tiles.contains (tileOf k)) f.cells
    { f with
      cells := x.cells.foldl (fun m e => regSet m e.1 e.2) kept
      tiles := x.tiles.foldl (fun t k => if t.contains k then t else k :: t) f.tiles }
  else f

/-- The service core of Trellis, and its mailbox. -/
def tlCore : Nat := 18
def tlBox : Fin 64 := 59

/-- A flush completes: the backing holds its tiles, TL_FLUSH_MTC its end, and the requests it served are answered. -/
def State.tlEndFlush (s : State) : State :=
  match s.trellis.flush with
  | none => s
  | some x =>
    let s := if s.flushTicks < s.mtc - x.start then s.tlFlag TL_FLAGS.FLUSH_LATE else s
    let served := s.trellis.served
    let s := s.modTl fun l => { l with flush := none, served := [], fields := l.fields.map fun f => f.take x }
    let s := (s.tlUsed).put64 TL_FLUSH_MTC_LO.MTC s.mtc
    let s := served.foldl (fun t q => t.done q.1.req tlCore q.2 stOk []) s
    if s.trellis.waiting.isEmpty then s else s.tlStartFlush

/-- Flush everything at once: at an open of another field, and at SHUTDOWN (R28). -/
def State.tlFlushNow (s : State) : State :=
  let s := s.tlEndFlush
  (if s.trellis.flush.isSome then s else s.tlStartFlush).tlEndFlush

def execTileFlushTimer (s : State) : Host.Outcome State Fault Refusal :=
  s.act (
    match s.trellis.flush with
    | some x => if s.flushTicks < s.mtc - x.start then s.tlFlag TL_FLAGS.FLUSH_LATE else s
    | none => if s.get TL_FIELD.STATE = 0 then s else s.tlStartFlush)

def execTileFlushComplete (s : State) : Host.Outcome State Fault Refusal := s.act s.tlEndFlush

/-! ### Opening and closing (R243, R257) -/

/-- A DRAIN field returns to NONE; the requests to close it wait for the flush. -/
def State.tlEndDrain (s : State) : State :=
  if s.get TL_FIELD.STATE = 2 then
    let s := [TL_FIELD.STATE, TL_FIELD.EDGE, TL_FIELD.SESSION, TL_FIELD.LAYERS, TL_FIELD_ID.ID].foldl (fun t f => t.put f 0) s
    (s.modTl fun l =>
      { l with closed := none, waiting := l.waiting ++ l.closing.map (fun q => (q, 0x0002)), closing := [] }).tlStartFlush
  else s

/-- DRAIN lasts at most 15 s from the close (R243). -/
def drainTicks : Nat := 15 * 200000000

/-- 15 s after the close. -/
def execFieldDrainTimeout (s : State) : Host.Outcome State Fault Refusal :=
  s.act (
    match s.trellis.closed with
    | some t => if s.get TL_FIELD.STATE = 2 ∧ t + drainTicks ≤ s.mtc then s.placeAll.tlEndDrain else s
    | none => s)

/-- Read one record of the strip ring: a strip cut after the close ends DRAIN, once the strips cut before it are placed. -/
def State.readStrip (s : State) : State :=
  let n := 2 ^ clampN 4 15 (s.get STRIP_CFG.LOG2N)
  let rd := s.get STRIP_RD.IDX % n
  let w := s.fabWords (s.addr40 STRIP_BASE_LO.ADDR STRIP_BASE_HI.ADDR + 128 * rd) 32
  let r : TlStrip := ⟨w.headD 0, (w[1]?).getD 0 + 2 ^ 32 * (w[2]?).getD 0, w, false⟩
  let s := s.put STRIP_RD.IDX ((rd + 1) % n)
  let s := match s.trellis.closed with
    | some t => if t < r.cut then s.placeAll.tlEndDrain else s
    | none => s
  -- a run ends at a gap of the strip numbers
  let s := match s.trellis.strips with
    | x :: _ => if x.no + 1 = r.no then s else (s.placeAll).modTl fun l => { l with strips := [] }
    | [] => s
  s.modTl fun l => { l with strips := r :: l.strips }

/-- Read the records that have arrived. -/
def State.readStrips (s : State) : Nat → State
  | 0 => s
  | n + 1 =>
    let size := 2 ^ clampN 4 15 (s.get STRIP_CFG.LOG2N)
    if s.get STRIP_RD.IDX % size = s.get STRIP_WR.IDX % size then s else s.readStrip.readStrips n

/-- Keep what the window of the next strip needs: eight strips before the oldest unplaced one, or the last seventeen. -/
def State.trimStrips (s : State) : State :=
  s.modTl fun l => { l with strips := l.strips.take (max 17 (8 + (l.strips.filter fun r => !r.placed).length)) }

/-- The Trellis service reads the strip ring and places the oldest strip whose window is complete (R247). -/
def execStripPlace (s : State) : Host.Outcome State Fault Refusal :=
  s.act (
    if !s.on TL_CTL.EN || !s.plat.serviceUp then s
    else
      let s := s.readStrips 32768
      let s := match (s.trellis.strips.filter fun r => !r.placed).getLast?, s.trellis.strips.head? with
        | some r, some last => if r.no + 8 ≤ last.no then s.placeStrip r else s
        | _, _ => s
      s.trimStrips)

/-- A run ends 1 s after the last record written to the ring (R247). -/
def runTicks : Nat := 200000000

/-- 1 s has passed since the last record: the run ends, and its strips are placed. -/
def execStripPlaceTimeout (s : State) : Host.Outcome State Fault Refusal :=
  s.act (
    if !s.on TL_CTL.EN || !s.plat.serviceUp || decide (s.mtc < s.racking.written + runTicks) then s
    else ((s.readStrips 32768).placeAll).modTl fun l => { l with strips := [] })

/-! ### Grids and revisions (R251, R252) -/

/-- The roles of CROPF and CANOPY: layer, role, the VALUE bit of its byte. -/
def gridLayers : List (Nat × Nat × Nat) := [(9, 0, 0), (9, 1, 8), (9, 5, 16), (10, 6, 0), (10, 7, 8), (10, 4, 16)]

/-- Replace a byte of a VALUE. -/
def setByte (v at_ b : Nat) : Nat := v - bits v at_ 8 * 2 ^ at_ + (b % 256) * 2 ^ at_

/-- The field cell of a grid cell, for a solution at T_ref and header geometry words (R151, R251). -/
def State.gridCellAt (s : State) (at_ : SolRec) (hg : List Nat) (cell : Nat) : Int × Int :=
  let cp := s.controlPoint
  let f := mmOf ((hg[0]?).getD 0) + 50 * (cell / 400 : Nat) + 25 - cp.1
  let l := mmOf ((hg[1]?).getD 0) + 25 * (399 - 2 * ((cell % 400 : Nat) : Int)) - cp.2
  let d := turn at_.heading f l
  s.tlCell (at_.x + d.1, at_.y + d.2)

/-- The service places the rows of the grid just published. -/
def execGridPlace (s : State) : Host.Outcome State Fault Refusal :=
  s.act (
    match s.cuvee.pub with
    | none => s
    | some p =>
      match s.solRecs.find? fun r => r.mtc == p.tref && r.placed with
      | none => s
      | some sol =>
        if !s.on TL_CTL.EN || s.get TL_FIELD.STATE != 1 || !s.plat.serviceUp then s
        else
          let rows := clampN 1 200 (s.get TL_PASS.ROWS)
          let good := s.cuvee.grid.filter fun e => decide (e.1 < 400 * rows) && decide (s.get TL_PASS.C_MIN ≤ e.2.conf)
          let placed := good.map fun e => (s.gridCellAt sol p.hgWords e.1, e.2)
          let code := s.codeAt p.tref
          (placed.map Prod.fst).eraseDups.foldl (fun (t : State) (c : Int × Int) =>
            let here := (placed.filter fun e => e.1 == c).map Prod.snd
            let tot := (here.map GridCell.conf).sum
            gridLayers.foldl (fun (t : State) (g : Nat × Nat × Nat) =>
              match t.role g.2.1 with
              | none => t
              | some ch =>
                let sum := (here.map fun x => (x.conf : Int) * (x.feats[ch]?).getD 0).sum
                let v := if tot = 0 then Config.unstated 4 [here.length] else (Config.quotZ 24 sum tot).toNat
                let w := t.tlWord g.1 c.1 c.2
                t.tlSet g.1 c.1 c.2 (cellWord w (setByte (cellValue w) g.2.2 v) code false false)) t) s)

/-- Is a cell of CROPF or CANOPY written at a field cell, so that a revision can change it (R252)? -/
def State.tlRevisable (s : State) (c : Int × Int) : Bool :=
  cellWritten (s.tlWord lyCropF c.1 c.2) || cellWritten (s.tlWord lyCanopy c.1 c.2)

/-- One field cell of a revision: applied where CROPF or CANOPY is written, else discarded as ahead. -/
def State.reviseCell (s : State) (c : Int × Int) (parts : List CvCell) (late : Nat) : State :=
  if !s.tlRevisable c then (s.count TL_CNT1.REV_AHEAD).tlFlag TL_FLAGS.REV_AHEAD
  else
    let hit := fun (t : State) (layer : Nat) => cellWritten (t.tlWord layer c.1 c.2)
    let w : Nat := match parts with
      | [p] => p.w
      | _ => Config.combineM (parts.map CvCell.w)
    let s := gridLayers.foldl (fun (t : State) (g : Nat × Nat × Nat) =>
      match t.role g.2.1 with
      | none => t
      | some ch =>
        let vs := parts.filterMap fun p => (p.feat ch).map fun v => (p.w, v)
        if vs.isEmpty || !hit t g.1 then t
        else
          let tot := (vs.map Prod.fst).sum
          let f := if tot = 0 then (((vs.head?).map Prod.snd).getD 0) else Config.quotZ 24 ((vs.map fun v => (v.1 : Int) * v.2).sum) tot
          let old := t.tlWord g.1 c.1 c.2
          let v := rdiv (255 * bits (cellValue old) g.2.2 8 + (w : Int) * f) (255 + w)
          t.tlSet g.1 c.1 c.2 (cellWord old (setByte (cellValue old) g.2.2 v.toNat) (t.codeAt t.mtc) false true)) s
    let r := s.tlWord lyRev c.1 c.2
    s.tlSet lyRev c.1 c.2
      (cellWord r (min 255 (bits r 0 8 + 1) + 256 * max (bits r 8 16) (min 65535 late)) (s.codeAt s.mtc) false true)

/-- A revision from Cuvee reaches Trellis (R161, R252). -/
def execRevisionApply (s : State) : Host.Outcome State Fault Refusal :=
  s.act (
    match s.cuvee.revs with
    | [] => s
    | o :: rest =>
      let s := s.modCv fun c => { c with revs := rest }
      let tref := epochStart (o.epoch + 1)
      match s.solRecs.find? fun r => r.mtc == tref && r.placed with
      | none => s
      | some sol =>
        if !s.on TL_CTL.EN || !s.on TL_CTL.REV_EN || s.get TL_FIELD.STATE != 1 || !s.plat.serviceUp then s
        else
          let hg := ((tableAt s.cuvee.hg o.epoch).map CvTable.words).getD []
          let placed := (sensorCells (s.get SENS_STAT.HEALTH o.sensor) [o]).map fun p => (s.gridCellAt sol hg p.cell, p)
          let late := Config.quot 25 (o.arrival - tref) msTicks
          let cells := (placed.map Prod.fst).eraseDups
          let t := cells.foldl (fun (t : State) (c : Int × Int) =>
            t.reviseCell c ((placed.filter fun e => e.1 == c).map Prod.snd) late) s
          if cells.any s.tlRevisable then t.count TL_CNT1.REV_APPLIED else t)

/-! ### Fleet coverage (R256) -/

/-- Merge a peer tile into the cells of a field: the maximum per cell. -/
def mergeTile (m : RegMap) (t : PeerTile) : RegMap :=
  t.cells.zipIdx.foldl (fun (m : RegMap) (e : (Nat × Nat) × Nat) =>
    let k := cellKey lyCover (t.i * 256 + (e.2 / 256 : Nat)) (t.j * 256 + (e.2 % 256 : Nat))
    let w := (regFind m k).getD 0
    let fl := max (bits w 8 8) (e.1.1 % 256)
    let ap := max (bits w 16 8) (e.1.2 % 256)
    let w' := bits w 0 8 + 256 * fl + 65536 * ap + w / 2 ^ 24 * 2 ^ 24
    if w' = 0 then m else regSet m k w') m

/-- The tile of a peer tile in COVER. -/
def PeerTile.tile (t : PeerTile) : Nat := tileOf (cellKey lyCover (t.i * 256) (t.j * 256))

/-- A complete peer COVER tile is merged, or rejected. -/
def execFleetTileMerge (s : State) : Host.Outcome State Fault Refusal :=
  s.act (
    match s.trellis.peer with
    | [] => s
    | t :: rest =>
      let s := s.modTl fun l => { l with peer := rest }
      if !s.on TL_CTL.FLEET_EN then s
      else
        match s.trellis.fields.find? fun f => f.id == t.field && f.lat == t.lat && f.lon == t.lon && f.edge == t.edge with
        | none => (s.count TL_CNT2.FLEET_REJ).tlFlag TL_FLAGS.FLEET_REJ
        | some f =>
          if !bit f.layers lyCover then s
          else
            let open_ := s.get TL_FIELD.STATE != 0 && f.id == s.get TL_FIELD_ID.ID
            let have_ := if open_ then s.trellis.tiles else f.tiles
            let full := !have_.contains t.tile && decide (tilesMax ≤ (have_.filter fun x => x / 65536 == lyCover).length)
            if full then (s.count TL_CNT3.TILE_FULL).tlFlag TL_FLAGS.TILE_FULL
            else
              let add := fun (l : List Nat) => if l.contains t.tile then l else t.tile :: l
              let s := s.count TL_CNT2.FLEET_MERGED
              if open_ then
                s.modTl fun l =>
                  { l with cells := mergeTile l.cells t, tiles := add l.tiles, cached := add l.cached, dirty := add l.dirty }
              else
                (s.modTl fun l =>
                  { l with
                    fields := l.fields.map fun x => if x.id = f.id then { x with cells := mergeTile x.cells t, tiles := add x.tiles } else x
                    flush := l.flush.map fun x =>
                      if x.field = f.id && x.tiles.contains t.tile then { x with cells := mergeTile x.cells t } else x }).tlUsed)

/-! ### The service (R257, R258) -/

/-- Open a field and start a session. -/
def State.tlOpenField (s : State) (f : TlField) : State :=
  let no := match f.sessions with
    | x :: _ => (x.no + 1) % 256
    | [] => 0
  let f' := { f with sessions := ⟨no, s.mtc, s.book.firstSeq, []⟩ :: f.sessions }
  let s := s.modTl fun l =>
    { l with
      fields := if l.fields.any fun x => x.id == f.id then l.fields.map fun x => if x.id = f.id then f' else x else l.fields ++ [f']
      cur := f.id, cells := f.cells, tiles := f.tiles, cached := [], dirty := [], closed := none, gap := 0, load := []
      cover := if l.cur = f.id then l.cover else [] }
  (((((s.put TL_FIELD.STATE 1).put TL_FIELD.EDGE f.edge).put TL_FIELD.SESSION no).put TL_FIELD.LAYERS f.layers).put TL_FIELD_ID.ID
    f.id).put TL_GAP.GAP 0

def execOpenField (q : SvcReq) (id : Nat) (create : Bool) (edge layers : Nat) (lat lon height : Int) (s : State) :
    Host.Outcome State Fault Refusal :=
  s.act (
    if !s.plat.serviceUp then s
    else
      let s := s.request tlBox 0x0001 q
        ([id, b2n create + 16 * (edge % 16) + 65536 * (layers % 65536)] ++ two (low 64 lat) ++ two (low 64 lon) ++ [low 32 height])
      let known := s.trellis.fields.find? fun f => f.id == id
      if s.get TL_FIELD.STATE = 1 ∧ s.get TL_FIELD_ID.ID ≠ id then s.done q tlCore 0x0001 stBusy []
      else
        match known, create with
        | some _, true => s.done q tlCore 0x0001 stBadParam []
        | none, false => s.done q tlCore 0x0001 stBadParam []
        | _, _ =>
          -- what the field in the cache holds goes to the backing first
          let s := s.tlEndDrain.tlFlushNow
          let f := match s.trellis.fields.find? fun f => f.id == id with
            | some f => f
            | none => ⟨id, edge % 16, layers % 65536, lat, lon, height, [], [], []⟩
          let s := s.tlOpenField f
          s.done q tlCore 0x0001 stOk [s.get TL_FIELD.SESSION])

def execCloseField (q : SvcReq) (s : State) : Host.Outcome State Fault Refusal :=
  s.act (
    if !s.plat.serviceUp then s
    else
      let s := s.request tlBox 0x0002 q
      match s.get TL_FIELD.STATE with
      | 0 => s.done q tlCore 0x0002 stOk []
      | 1 =>
        (((s.put TL_FIELD.STATE 2).modTl fun l => { l with closed := some s.mtc, closing := l.closing ++ [keepReq q] }).reply
          q tlCore 0x0002 stAccepted false [])
      | _ => (s.modTl fun l => { l with closing := l.closing ++ [keepReq q] }).reply q tlCore 0x0002 stAccepted false [])

/-- A 32-byte entry of LIST_FIELDS. -/
def TlField.entry (f : TlField) : List Nat :=
  [f.id, 16 * f.edge + 65536 * f.layers] ++ two (low 64 f.lat) ++ two (low 64 f.lon) ++ [low 32 f.height, f.tiles.length]

def execListFields (q : SvcReq) (addr : Nat) (s : State) : Host.Outcome State Fault Refusal :=
  s.act (
    if !s.plat.serviceUp then s
    else
      let s := s.request tlBox 0x0003 q (two addr)
      (s.fabWrite addr (s.trellis.fields.flatMap TlField.entry)).done q tlCore 0x0003 stOk [s.trellis.fields.length])

def execDeleteField (q : SvcReq) (id : Nat) (s : State) : Host.Outcome State Fault Refusal :=
  s.act (
    if !s.plat.serviceUp then s
    else
      let s := s.request tlBox 0x0004 q [id]
      if (s.get TL_FIELD.STATE ≠ 0 ∧ s.get TL_FIELD_ID.ID = id) ∨ !s.trellis.fields.any fun f => f.id == id then
        s.done q tlCore 0x0004 stBadParam []
      else
        (s.modTl fun l => { l with fields := l.fields.filter fun f => f.id != id }).tlUsed.done q tlCore 0x0004 stOk [])

/-- The cells of a rectangle, row-major from (i0, j0). -/
def rectCells (i0 j0 i1 j1 : Int) : List (Int × Int) :=
  (List.range (i1 - i0 + 1).toNat).flatMap fun (a : Nat) => (List.range (j1 - j0 + 1).toNat).map fun (b : Nat) => (i0 + (a : Nat), j0 + (b : Nat))

def execReadCells (q : SvcReq) (layer : Nat) (i0 j0 i1 j1 : Int) (addr : Nat) (s : State) :
    Host.Outcome State Fault Refusal :=
  s.act (
    if !s.plat.serviceUp then s
    else
      let s := s.request tlBox 0x0020 q ([layer] ++ [i0, j0, i1, j1].map (low 32) ++ two addr)
      if 16 ≤ layer ∨ s.get TL_FIELD.STATE = 0 ∨ !cellIn i0 j0 ∨ !cellIn i1 j1 then s.done q tlCore 0x0020 stBadParam []
      else
        let ws := (rectCells i0 j0 i1 j1).map fun c => s.tlWord layer c.1 c.2
        (s.fabWrite addr ws).done q tlCore 0x0020 stOk [ws.length])

def execWriteCells (q : SvcReq) (layer : Nat) (i0 j0 i1 j1 : Int) (addr : Nat) (s : State) :
    Host.Outcome State Fault Refusal :=
  s.act (
    if !s.plat.serviceUp then s
    else
      let s := s.request tlBox 0x0021 q ([layer] ++ [i0, j0, i1, j1].map (low 32) ++ two addr)
      if layer < 12 ∨ 16 ≤ layer ∨ s.get TL_FIELD.STATE = 0 ∨ !cellIn i0 j0 ∨ !cellIn i1 j1 then
        s.done q tlCore 0x0021 stBadParam []
      else
        let cs := rectCells i0 j0 i1 j1
        let ws := s.fabWords addr cs.length
        let code := s.codeAt s.mtc
        ((cs.zip ws).foldl (fun (t : State) (e : (Int × Int) × Nat) =>
          t.tlSet layer e.1.1 e.1.2 (cellWord (t.tlWord layer e.1.1 e.1.2) e.2 code false false)) s).done q tlCore 0x0021 stOk [])

/-- The cell (i, j) of a key. -/
def keyCell (k : Nat) : Int × Int := ((k / 65536 % 65536 : Nat) - 32768, (k % 65536 : Nat) - 32768)

/-- A name of a file of an export: TLGnnnnn and an ending, its number in five digits. -/
def tlgName (n : Nat) (ending : List Char) : List Nat :=
  ['T', 'L', 'G'].map Char.toNat ++ ([10000, 1000, 100, 10, 1].map fun d => 48 + n / d % 10) ++ ending.map Char.toNat

/-- TASKDATA.XML. -/
def taskName : List Nat := ['T', 'A', 'S', 'K', 'D', 'A', 'T', 'A', '.', 'X', 'M', 'L'].map Char.toNat

/-- An entry of the file table: NAME, OFFSET and LENGTH. -/
def exportEntry (name : List Nat) (off len : Nat) : List Nat :=
  name ++ List.replicate (16 - name.length) 0 ++ leBytes 8 off ++ leBytes 8 len

/-- The file table, ended by an entry of zeros, and the files behind it. -/
def exportImage (files : List (List Nat × List Nat)) : List Nat :=
  let base := 32 * (files.length + 1)
  (files.foldl (fun (a : List Nat × Nat) f => (a.1 ++ exportEntry f.1 a.2 f.2.length, a.2 + f.2.length)) ([], base)).1
    ++ List.replicate 32 0 ++ files.flatMap Prod.snd

/-- The files of an export: TASKDATA.XML, and two for each session of an exported cell. -/
def TlField.files (f : TlField) (dry : Nat) (out : List (Int × Int × Nat × Nat × Nat × Nat × Nat × Nat)) :
    List (List Nat × List Nat) :=
  let about := [(dry : Int), f.id, f.edge, f.layers, f.lat, f.lon, f.height]
  let used := f.sessions.filter fun x => out.any fun c => c.2.2.1 == x.no
  (taskName, Config.exportFile 0 about (used.flatMap TlSession.times) out) ::
    used.flatMap fun x =>
      let n := Config.unstated 32 [x.no]
      let file := fun (kind : Nat) =>
        Config.exportFile kind (about ++ [(x.no : Int), x.start, x.firstSeq]) x.times (out.filter fun c => c.2.2.1 == x.no)
      [(tlgName n ['.', 'X', 'M', 'L'], file 1), (tlgName n ['.', 'B', 'I', 'N'], file 2)]

/-- The export of a field from a snapshot of its cells: the file bytes, the cells exported and those omitted. -/
def State.tlExport (s : State) (f : TlField) (cells : RegMap) (dry : Nat) : List Nat × Nat × Nat :=
  let word := fun (layer : Nat) (c : Int × Int) => (regFind cells (cellKey layer c.1 c.2)).getD 0
  let rich := ((cells.filter fun e => decide (e.1 / 2 ^ 32 = lyArea) && decide (0 < cellValue e.2)).map fun e => keyCell e.1)
  let left := fun (c : Int × Int) => bits (word lyArea c) 24 3 == 0 && !s.on TL_CTL.NOTIME_POL
  let out := (rich.filter fun c => !left c).map fun c =>
    (c.1, c.2, bits (word lyTime c) 16 8, bits (word lyTime c) 0 16, bits (word lyArea c) 24 3, cellValue (word lyArea c),
      cellValue (word lyMass c), cellValue (word lyMoist c))
  (exportImage (f.files dry out), out.length, (rich.filter left).length)

def execExportField (q : SvcReq) (id dry addr limit : Nat) (s : State) : Host.Outcome State Fault Refusal :=
  s.act (
    if !s.plat.serviceUp then s
    else
      let s := s.request tlBox 0x0030 q ([id, dry] ++ two addr ++ [limit])
      match s.trellis.fields.find? fun f => f.id == id with
      | none => s.done q tlCore 0x0030 stBadParam []
      | some f =>
        let open_ := s.get TL_FIELD.STATE != 0 && f.id == s.get TL_FIELD_ID.ID
        let x := s.tlExport f (if open_ then s.trellis.cells else f.cells) dry
        if limit < x.1.length then s.done q tlCore 0x0030 stBadParam []
        else (s.fabWriteBytes addr x.1).done q tlCore 0x0030 stOk [x.1.length, x.2.1, x.2.2])

def execFlush (q : SvcReq) (s : State) : Host.Outcome State Fault Refusal :=
  s.act (
    if !s.plat.serviceUp then s
    else
      let s := s.request tlBox 0x0040 q
      ((s.modTl fun l => { l with waiting := l.waiting ++ [(keepReq q, 0x0040)] }).tlStartFlush).reply q tlCore 0x0040 stAccepted
        false [])

end Sys2Proof.Machine
end

