-- ==== Sys2Proof/Machine/Fleet.lean ====
section
/-! DEFINITION.  The fleet service and the Jalzen Fleet Exchange (R256, R290 to R300). -/

namespace Sys2Proof.Machine

open Sys2Proof.Reg

def State.modFleet (s : State) (f : Fleet → Fleet) : State := { s with fleet := f s.fleet }

/-- The service core of the fleet service, and its mailbox. -/
def jfxCore : Nat := 18
def jfxBox : Fin 64 := 58

/-- 1 s in ticks. -/
def secTicks : Nat := 200000000

/-- A tag record's value as a number, low byte first (R340). -/
def State.tagWord (s : State) (type : Nat) : Option Nat := (s.tags.recs.find? fun t => t.type == type).map fun t => leField t.value 0 4

def State.memberId (s : State) : Nat := (s.tagWord 0x0022 |>.bind fun _ => s.tagWord 0x0021).getD 0
def State.fleetId (s : State) : Nat := (s.tagWord 0x0020).getD 0

def allMembers : Nat := 0xFFFFFFFF

/-! ### Sending and notifying -/

/-- Send a message; the model keeps the last 64. -/
def State.jfxSend (s : State) (type dest : Nat) (ackreq : Bool) (payload : List Nat) : State :=
  s.modFleet fun f =>
    { f with seq := (f.seq + 1) % 2 ^ 32, sent := (⟨type, dest, f.seq, ackreq, payload⟩ :: f.sent).take 64 }

/-- A notification of Table 15.5, cut to the sixteen words that a message to a mailbox can have. -/
def State.jfxNotify (s : State) (words : List Nat) : State :=
  s.svcSend jfxCore s.fleet.notify ((words.take 16).map (· % 2 ^ 32))

/-- Show how many peers are ACTIVE. -/
def State.jfxShow (s : State) : State := s.put SW_JFX1.ACTIVE (s.fleet.peers.filter Peer.active).length

/-- The ACTIVE peer of an ID. -/
def State.jfxPeer (s : State) (id : Nat) : Option Peer := s.fleet.peers.find? fun p => p.id == id && p.active

/-- PEER_JOIN or PEER_LEAVE (R294). -/
def State.peerNotify (s : State) (code : Nat) (p : Peer) : State := s.jfxNotify ([code, p.id, p.cls, p.field] ++ two s.mtc)

def State.modPeer (s : State) (id : Nat) (f : Peer → Peer) : State :=
  s.modFleet fun l => { l with peers := l.peers.map fun p => if p.id = id then f p else p }

/-! ### Unload dialogs (R297) -/

def unloadEnd : Nat := 0
def unloadLost : Nat := 1
def unloadLeft : Nat := 2

/-- A dialog ends: notified and recorded. -/
def State.dialogEnd (s : State) (d : Dialog) (reason : Nat) : State :=
  let s := s.modFleet fun f => { f with dialogs := f.dialogs.filter fun x => x.no != d.no }
  let s := s.jfxNotify ([0x0083, d.no, 0x34, d.peer.getD allMembers] ++ two s.mtc ++ [reason])
  s.record .jfxUnload (node domComm none8 none8) [d.no, d.peer.getD allMembers, reason]

/-- A peer is ACTIVE no longer: PEER_LEAVE. -/
def State.peerDown (s : State) (id : Nat) : State :=
  match s.jfxPeer id with
  | none => s
  | some p => (s.modPeer id fun q => { q with active := false }).jfxShow.peerNotify 0x0081 p

/-- A peer leaves: its dialogs end. -/
def State.peerLeave (s : State) (id : Nat) : State :=
  match s.jfxPeer id with
  | none => s
  | some _ =>
    let s := s.peerDown id
    (s.fleet.dialogs.filter fun d => d.peer == some id).foldl (fun (t : State) (d : Dialog) => t.dialogEnd d unloadLeft) s

/-! ### Taking a message (R291) -/

/-- A failed MAC is counted, and reported at most once per second per sender. -/
def State.jfxAuthFail (s : State) (sender : Nat) : State :=
  let s := s.count SW_JFX.AUTH_FAIL
  let recent := s.fleet.authAt.any fun e => e.1 == sender && decide (s.mtc < e.2 + secTicks)
  if recent then s
  else
    (s.modFleet fun f => { f with authAt := ((sender, s.mtc) :: f.authAt.filter fun e => e.1 != sender).take 64 }).jfxNotify
      ([0x0084, sender] ++ two s.mtc)

/-- Is a message for this module? -/
def State.jfxForMe (s : State) (h : JfxHead) : Bool := h.dest == allMembers || h.dest == s.memberId

/-- A message of the admission exchange reaches the service: the state, and whether it is to be handled. -/
def State.jfxOpen (s : State) (h : JfxHead) : State × Bool :=
  if !s.plat.serviceUp || !s.fleet.on then (s, false)
  else if !h.macOk then (s.jfxAuthFail h.sender, false)
  else (s, s.jfxForMe h)

/-- Is a SEQ new within the 64-message window of a peer? -/
def Peer.fresh (p : Peer) (seq : Nat) : Bool :=
  if p.top < seq then true else decide (p.top - seq < 64) && !bit p.window (p.top - seq)

/-- The peer with a SEQ taken. -/
def Peer.take (p : Peer) (seq mtc : Nat) : Peer :=
  if p.top < seq then { p with top := seq, window := (p.window * 2 ^ (seq - p.top) + 1) % 2 ^ 64, last := mtc }
  else { p with window := p.window ||| 2 ^ (p.top - seq), last := mtc }

/-- The SEQ of a message of the admission exchange, where its sender is ACTIVE under its SESSION: it must be new (R291). -/
def State.jfxSeq (s : State) (h : JfxHead) : State × Bool :=
  match s.jfxPeer h.sender with
  | some p =>
    if p.session ≠ h.session then (s, true)
    else if p.fresh h.seq then (s.modPeer h.sender fun q => q.take h.seq s.mtc, true)
    else (s, false)
  | none => (s, true)

/-- A message of the admission exchange is taken: its MAC holds, it is for this module, and its SEQ is no repeat. -/
def State.jfxEnter (s : State) (h : JfxHead) : State × Bool :=
  let r := s.jfxOpen h
  if r.2 then r.1.jfxSeq h else r

/-- Any other message: discarded unless its sender is ACTIVE under its SESSION and its SEQ is new; acknowledged where it
asks for it. -/
def State.jfxTake (s : State) (h : JfxHead) : State × Bool :=
  let r := s.jfxOpen h
  if !r.2 then r
  else
    match r.1.jfxPeer h.sender with
    | none => (r.1, false)
    | some p =>
      if p.session ≠ h.session ∨ !p.fresh h.seq then (r.1, false)
      else
        let t := r.1.modPeer h.sender fun q => q.take h.seq r.1.mtc
        (if h.ackreq then t.jfxSend 0x7F h.sender false [h.seq] else t, true)

/-- Handle a message when it is taken. -/
def State.jfxOn (s : State) (h : JfxHead) (f : State → State) : State :=
  let r := s.jfxTake h
  if r.2 then f r.1 else r.1

/-! ### Admission (R292, R293) -/

/-- Is a member ID shut out, by PEER_BLOCK or by a 60 s block? -/
def State.jfxShut (s : State) (id : Nat) : Bool :=
  s.fleet.blocked.contains id || s.fleet.banned.any fun e => e.1 == id && decide (s.mtc < e.2)

def execJfxHello (h : JfxHead) (fleet cls field : Nat) (s : State) : Host.Outcome State Fault Refusal :=
  s.act (
    let r := s.jfxEnter h
    let s := r.1
    if !r.2 || fleet != s.fleetId || s.jfxShut h.sender then s
    else
      match s.jfxPeer h.sender with
      | some p =>
        if p.session = h.session then s.modPeer h.sender fun q => { q with field := field, cls := cls }
        else challenge (s.peerDown h.sender)
      | none => challenge s)
where
  /-- Answer with a CHALLENGE that carries a fresh random NA. -/
  challenge (s : State) : State :=
    let na := Config.random s.free % 2 ^ 64
    let s := s.fresh.modFleet fun f =>
      { f with admits := ⟨h.sender, h.session, cls, field, na, s.mtc⟩ :: f.admits.filter fun a => a.id != h.sender }
    s.jfxSend 0x02 h.sender false (two na)

/-- A received CHALLENGE is answered with NA and a fresh NB. -/
def execJfxChallenge (h : JfxHead) (na : Nat) (s : State) : Host.Outcome State Fault Refusal :=
  s.act (
    let r := s.jfxEnter h
    if r.2 then
      let nb := Config.random r.1.free % 2 ^ 64
      r.1.fresh.jfxSend 0x03 h.sender false (two na ++ two nb)
    else r.1)

/-- The ACTIVE peer whose place a new one may take (R293). -/
def State.jfxVictim (s : State) : Option Nat :=
  let own := s.get TL_FIELD_ID.ID
  let cand := s.fleet.peers.filter fun p =>
    p.active && decide (p.last + 2 * secTicks ≤ s.mtc) && !(s.fleet.dialogs.any fun d => d.peer == some p.id)
      && !(s.get TL_FIELD.STATE != 0 && p.field == own)
  -- the one silent longest, if it may go
  let oldest := (s.fleet.peers.filter Peer.active).foldl (fun (b : Option Peer) p =>
    match b with
    | none => some p
    | some q => if p.last < q.last then some p else some q) none
  oldest.bind fun p => if cand.any fun q => q.id == p.id then some p.id else none

/-- Put a peer into the known table; beyond 1,024 it replaces the one heard least recently that is not ACTIVE. -/
def addPeer (ps : List Peer) (p : Peer) : List Peer :=
  let rest := ps.filter fun q => q.id != p.id
  if rest.length < 1024 then p :: rest
  else
    let old := (rest.filter fun q => !q.active).foldl (fun (b : Option Peer) q =>
      match b with
      | none => some q
      | some r => if q.last < r.last then some q else some r) none
    match old with
    | some q => p :: rest.filter fun r => r.id != q.id
    | none => rest

/-- The newest entry of the watch log goes out once, when the first SERVER peer becomes ACTIVE after a wake (R298). -/
def State.jfxWatch (s : State) (p : Peer) : State :=
  if s.fleet.watchDue && p.cls == 6 then
    let s := s.modFleet fun f => { f with watchDue := false }
    match s.pos.watch.head? with
    | some e =>
      let ws := Config.watchEntry e.mtc e.fix e.lat e.lon e.hu e.time e.unc
      (s.jfxSend 0x51 p.id false ws).jfxSend 0x51 allMembers false ws
    | none => s
  else s

/-- A peer becomes ACTIVE. -/
def State.jfxAdmit (s : State) (p : Peer) : State :=
  let s := (s.modFleet fun f => { f with peers := addPeer f.peers p }).jfxShow
  (s.peerNotify 0x0080 p).jfxWatch p

/-- A RESPONSE must come within 2 s of its CHALLENGE (R292). -/
def admitTicks : Nat := 2 * secTicks

def execJfxResponse (h : JfxHead) (na : Nat) (s : State) : Host.Outcome State Fault Refusal :=
  s.act (
    let r := s.jfxEnter h
    let s := r.1
    if !r.2 || s.jfxShut h.sender then s
    else
      match s.fleet.admits.find? fun a => a.id == h.sender && a.na == na && decide (s.mtc ≤ a.at_ + admitTicks) with
      | none => s
      | some a =>
        let s := s.modFleet fun f => { f with admits := f.admits.filter fun x => x.id != h.sender }
        let p : Peer := ⟨h.sender, a.cls, a.field, true, h.session, h.seq, 1, s.mtc⟩
        if (s.jfxPeer h.sender).isSome || decide ((s.fleet.peers.filter Peer.active).length < 64) then s.jfxAdmit p
        else
          match s.jfxVictim with
          | some v => (s.peerLeave v).jfxAdmit p
          | none => s.count SW_JFX.REFUSED_FULL)

/-- 2 s without a valid RESPONSE; the third failure within 60 s blocks the ID for 60 s. -/
def execJfxAdmissionTimeout (id : Nat) (s : State) : Host.Outcome State Fault Refusal :=
  s.act (
    if !s.fleet.admits.any fun a => a.id == id && decide (a.at_ + admitTicks ≤ s.mtc) then s
    else
      let recent := (id, s.mtc) :: s.fleet.fails.filter fun e => decide (s.mtc < e.2 + 60 * secTicks)
      let mine := (recent.filter fun e => e.1 == id).length
      s.modFleet fun f =>
        { f with
          admits := f.admits.filter fun a => a.id != id
          fails := if 3 ≤ mine then recent.filter fun e => e.1 != id else recent
          banned := if 3 ≤ mine then (id, s.mtc + 60 * secTicks) :: f.banned.filter fun e => e.1 != id else f.banned })

def execJfxBlockExpiry (id : Nat) (s : State) : Host.Outcome State Fault Refusal :=
  s.act (s.modFleet fun f => { f with banned := f.banned.filter fun e => !(e.1 == id && decide (e.2 ≤ s.mtc)) })

def execJfxBye (h : JfxHead) (s : State) : Host.Outcome State Fault Refusal := s.act (s.jfxOn h fun t => t.peerLeave h.sender)

/-- An ACTIVE peer has sent no valid message for AGE_T. -/
def execJfxPeerAgeOut (id : Nat) (s : State) : Host.Outcome State Fault Refusal :=
  s.act (if (s.jfxPeer id).any fun p => decide (p.last + s.fleet.ageT * secTicks ≤ s.mtc) then s.peerLeave id else s)

/-! ### Messages delivered (R294) -/

/-- The code under which a received STATE is delivered; Table 15.5 lists none. -/
def stateCode : Nat := Config.unstated 8 []

def execJfxState (h : JfxHead) (fields : List Nat) (s : State) : Host.Outcome State Fault Refusal :=
  s.act (s.jfxOn h fun t => t.jfxNotify ([stateCode, h.sender] ++ two t.mtc ++ fields))

def execJfxUser (h : JfxHead) (bytes : List Nat) (s : State) : Host.Outcome State Fault Refusal :=
  s.act (s.jfxOn h fun t =>
    t.jfxNotify ([0x0082, h.sender] ++ two t.mtc ++ [bytes.length] ++ (List.range ((bytes.length + 3) / 4)).map fun k => leField bytes (4 * k) 4))

/-- UNLOAD_EVT: dialog, message type, sender, arrival MTC, fields. -/
def State.unloadEvt (s : State) (no type sender : Nat) (fields : List Nat) : State :=
  s.jfxNotify ([0x0083, no, type, sender] ++ two s.mtc ++ fields)

def State.dialog (s : State) (no : Nat) : Option Dialog := s.fleet.dialogs.find? fun d => d.no == no

/-- Open or change a dialog; at most eight are open. -/
def State.setDialog (s : State) (d : Dialog) : State :=
  s.modFleet fun f =>
    if f.dialogs.any fun x => x.no == d.no then { f with dialogs := f.dialogs.map fun x => if x.no = d.no then d else x }
    else if f.dialogs.length < 8 then { f with dialogs := f.dialogs ++ [d] }
    else f

def execJfxUnloadReq (h : JfxHead) (no : Nat) (fields : List Nat) (s : State) : Host.Outcome State Fault Refusal :=
  s.act (s.jfxOn h fun t => (t.setDialog ⟨no, some h.sender, t.mtc⟩).unloadEvt no 0x30 h.sender fields)

def execJfxUnloadOffer (h : JfxHead) (no : Nat) (fields : List Nat) (s : State) : Host.Outcome State Fault Refusal :=
  s.act (s.jfxOn h fun t => if (t.dialog no).isSome then t.unloadEvt no 0x31 h.sender fields else t)

def execJfxUnloadAccept (h : JfxHead) (no : Nat) (fields : List Nat) (s : State) : Host.Outcome State Fault Refusal :=
  s.act (s.jfxOn h fun t =>
    if (t.dialog no).isSome then (t.setDialog ⟨no, some h.sender, t.mtc⟩).unloadEvt no 0x32 h.sender fields else t)

def execJfxUnloadState (h : JfxHead) (no : Nat) (fields : List Nat) (s : State) : Host.Outcome State Fault Refusal :=
  s.act (s.jfxOn h fun t =>
    match t.dialog no with
    | some d => if d.peer = some h.sender then (t.setDialog { d with last := t.mtc }).unloadEvt no 0x33 h.sender fields else t
    | none => t)

def execJfxUnloadEnd (h : JfxHead) (no : Nat) (s : State) : Host.Outcome State Fault Refusal :=
  s.act (s.jfxOn h fun t =>
    match t.dialog no with
    | some d => if d.peer = some h.sender then t.dialogEnd d unloadEnd else t
    | none => t)

/-- 3 s without a STATE from the other side. -/
def execJfxUnloadLost (no : Nat) (s : State) : Host.Outcome State Fault Refusal :=
  s.act (
    match s.dialog no with
    | some d => if d.last + 3 * secTicks ≤ s.mtc then s.dialogEnd d unloadLost else s
    | none => s)

/-! ### Coverage tiles (R296) -/

/-- The cells of a tile from its fragments in order; each run is COUNT − 1, OWN, APPLIED. -/
def tileCells (fs : List TileFrag) : List (Nat × Nat) :=
  (fs.flatMap TileFrag.runs).flatMap fun r => List.replicate (r.1 + 1) (r.2.1, r.2.2)

/-- A tile must be complete within 5 s (R296). -/
def tileTicks : Nat := 5 * secTicks

/-- Do two fragments belong to one tile offer? -/
def sameTile (a b : TileFrag) : Bool := a.field == b.field && a.i == b.i && a.j == b.j && a.tileSeq == b.tileSeq && a.nfrag == b.nfrag

/-- Is a tile in reassembly to be discarded when a fragment of its sender comes: an older offer of the same tile, or its 5 s
over? -/
def TilePart.stale (p : TilePart) (sender mtc : Nat) (f : TileFrag) : Bool :=
  p.sender == sender && match p.frags with
    | b :: _ =>
      (b.field == f.field && b.i == f.i && b.j == f.j && decide (b.tileSeq < f.tileSeq)) || (sameTile b f && decide (p.at_ + tileTicks < mtc))
    | [] => true

/-- All fragments of an offer are there: the tile goes to Trellis, or is discarded. -/
def State.tileDone (s : State) (p : TilePart) : State :=
  match p.frags with
  | [] => s
  | a :: _ =>
    let ordered := (List.range a.nfrag).filterMap fun k => p.frags.find? fun f => f.frag == k
    let cells := tileCells ordered
    let s := s.modFleet fun f => { f with parts := f.parts.filter fun q => q != p }
    if cells.length = 65536 then
      s.modTl fun l => { l with peer := l.peer ++ [⟨a.field, a.lat, a.lon, a.edge, a.i, a.j, cells⟩] }
    else s.count SW_JFX1.TILE_DROP

def execJfxTile (h : JfxHead) (f : TileFrag) (s : State) : Host.Outcome State Fault Refusal :=
  s.act (s.jfxOn h fun t =>
    let gone := t.fleet.parts.filter fun p => p.stale h.sender t.mtc f
    let t := (t.modFleet fun l => { l with parts := l.parts.filter fun p => !gone.contains p }).count SW_JFX1.TILE_DROP gone.length
    let old := t.fleet.parts.find? fun p => p.sender == h.sender && (match p.frags with
      | b :: _ => sameTile b f
      | [] => false)
    let p : TilePart := match old with
      | some p => if p.frags.any fun b => b.frag == f.frag then p else { p with frags := p.frags ++ [f] }
      | none => ⟨h.sender, t.mtc, [f]⟩
    let t := t.modFleet fun l => { l with parts := p :: l.parts.filter fun q => some q != old }
    if f.nfrag ≤ p.frags.length then t.tileDone p else t)

/-- 5 s after its first fragment an incomplete tile is discarded. -/
def execJfxTileReassemblyTimeout (sender tileSeq : Nat) (s : State) : Host.Outcome State Fault Refusal :=
  s.act (
    let gone := s.fleet.parts.filter fun p => p.sender == sender && decide (p.at_ + tileTicks ≤ s.mtc) && (match p.frags with
      | b :: _ => b.tileSeq == tileSeq
      | [] => true)
    (s.modFleet fun f => { f with parts := f.parts.filter fun p => !gone.contains p }).count SW_JFX1.TILE_DROP gone.length)

/-- Runs of equal cells. -/
def tileRuns : List (Nat × Nat) → List (Nat × Nat × Nat)
  | [] => []
  | c :: rest =>
    match tileRuns rest with
    | (n, o, a) :: more => if (o, a) = c then (n + 1, o, a) :: more else (0, c.1, c.2) :: (n, o, a) :: more
    | [] => [(0, c.1, c.2)]

/-- Pieces of at most `n` elements. -/
def chunks {α : Type} (n : Nat) : Nat → List α → List (List α)
  | 0, _ => []
  | fuel + 1, l => if l.isEmpty then [] else l.take n :: chunks n fuel (l.drop n)

/-- The TILE messages of one own tile (R296). -/
def State.offerTile (s : State) (t : Nat) : State :=
  match s.tlOpen with
  | none => s
  | some f =>
    let i : Int := (t / 256 % 256 : Nat) - 128
    let j : Int := (t % 256 : Nat) - 128
    let cells := (List.range 65536).map fun k =>
      let w := s.tlWord lyCover (i * 256 + (k / 256 : Nat)) (j * 256 + (k % 256 : Nat))
      (bits w 0 8, bits w 16 8)
    let s := s.modFleet fun l => { l with tileSeq := (l.tileSeq + 1) % 2 ^ 32 }
    let parts := chunks 289 65536 (tileRuns cells)
    parts.zipIdx.foldl (fun (u : State) (e : List (Nat × Nat × Nat) × Nat) =>
      u.jfxSend 0x20 allMembers false
        ([f.id] ++ two (low 64 f.lat) ++ two (low 64 f.lon) ++
          [f.edge, low 16 i + 2 ^ 16 * low 16 j, u.fleet.tileSeq, e.2 + 2 ^ 16 * parts.length] ++ e.1.map fun r => r.1 + 2 ^ 16 * r.2.1 + 2 ^ 24 * r.2.2)) s

/-- Changed own COVER tiles are offered, at most once per 10 s (R256). -/
def execCoverTileOffer (s : State) : Host.Outcome State Fault Refusal :=
  s.act (
    let soon := match s.trellis.offered with
      | some t => decide (s.mtc < t + 10 * secTicks)
      | none => false
    if !s.on TL_CTL.FLEET_EN || !s.fleet.on || s.trellis.cover.isEmpty || s.get TL_FIELD.STATE == 0 || soon then s
    else
      let tiles := s.trellis.cover
      let s := s.modTl fun l => { l with cover := [], offered := some s.mtc }
      tiles.foldl (fun (t : State) (k : Nat) => t.offerTile k) s)

/-! ### Corrections (R298) -/

/-- The whole RTCM 3 frames of a byte string; `fuel` bounds the scan. -/
def rtcmFrames : Nat → List Nat → List (List Nat)
  | 0, _ => []
  | n + 1, bs =>
    match bs with
    | 0xD3 :: hi :: lo :: rest =>
      let len := hi % 4 * 256 + lo
      if rest.length < len + 3 then rtcmFrames n (hi :: lo :: rest)
      else (0xD3 :: hi :: lo :: rest.take (len + 3)) :: rtcmFrames n (rest.drop (len + 3))
    | _ :: rest => rtcmFrames n rest
    | [] => []

/-- The CRC-24Q that a frame carries in its last three bytes. -/
def rtcmCrc (f : List Nat) : Nat := beNat (f.drop (f.length - 3))

/-- Frames of a source, without those seen within 2 s. -/
def State.rtcmNew (s : State) (src : Nat) (bs : List Nat) : List (List Nat) × State :=
  let live := s.fleet.seen.filter fun e => decide (s.mtc < e.2.2 + 2 * secTicks)
  let r := (rtcmFrames bs.length bs).foldl (fun (a : List (List Nat) × List (Nat × Nat × Nat)) f =>
    let c := rtcmCrc f
    if a.2.any fun e => e.1 == src && e.2.1 == c then a else (a.1 ++ [f], (src, c, s.mtc) :: a.2)) ([], live)
  (r.1, s.modFleet fun f => { f with seen := r.2 })

def execJfxRtcm (h : JfxHead) (src hop : Nat) (bytes : List Nat) (s : State) : Host.Outcome State Fault Refusal :=
  s.act (s.jfxOn h fun t =>
    let r := t.rtcmNew src bytes
    let t := r.1.foldl (fun (u : State) (f : List Nat) => u.rtcmFrom 1 f) r.2
    if t.fleet.relay && decide (hop < t.fleet.hopMax) && !r.1.isEmpty then
      t.jfxSend 0x40 allMembers false ([src, hop + 1] ++ r.1.flatten)
    else t)

/-- RTCM_IN; with RELAY_EN its corrections go on to the fleet with HOP = 1, under this module's member ID. -/
def execRtcmIn (q : SvcReq) (src addr len : Nat) (s : State) : Host.Outcome State Fault Refusal :=
  s.act (
    if !s.svcUp then s
    else
      let bytes := s.fabBytes addr len
      let s := s.rtcmIn q src addr len
      if rtcmInOk src len && s.fleet.on && s.fleet.relay then
        let r := s.rtcmNew s.memberId bytes
        if r.1.isEmpty then r.2 else r.2.jfxSend 0x40 allMembers false ([s.memberId, 1] ++ r.1.flatten)
      else s)

/-! ### Snapshots to the server (R298) -/

/-- Words of capture in one fragment of 1,100 bytes, and fragments in one window. -/
def fragWords : Nat := 275
def windowFrags : Nat := 32

/-- The fragments of a snapshot. -/
def SnapTx.count (x : SnapTx) : Nat := (x.words.length + fragWords - 1) / fragWords

/-- Send a window of fragments; its last SEQ is what the server acknowledges. -/
def State.snapSend (s : State) (x : SnapTx) : State :=
  match s.fleet.server with
  | none => s
  | some m =>
    let n := min windowFrags (x.count - x.window * windowFrags)
    let s := (List.range n).foldl (fun (t : State) (k : Nat) =>
      let i := x.window * windowFrags + k
      t.jfxSend 0x50 m (k + 1 == n) ([x.index, i, x.count] ++ (x.words.drop (i * fragWords)).take fragWords)) s
    s.modFleet fun f => { f with snap := some { x with seq := f.seq - 1 } }

/-- SNAP_DONE or SNAP_FAIL, with the capture index. -/
def State.snapEnd (s : State) (x : SnapTx) (code : Nat) : State :=
  (s.modFleet fun f => { f with snap := none }).jfxNotify [code, x.index]

/-- A capture handed to the fleet service starts its transfer, or fails for want of a server. -/
def State.snapStart (s : State) : State :=
  match s.pos.jfxSnap with
  | none => s
  | some ws =>
    if s.fleet.snap.isSome then s
    else
      let x : SnapTx := ⟨s.fleet.captures, ws, 0, 0, 0⟩
      let s := (s.modPos fun p => { p with jfxSnap := none }).modFleet fun f => { f with captures := f.captures + 1 }
      if s.fleet.on && s.fleet.server.isSome then s.snapSend x else s.snapEnd x 0x0086

/-- A capture ends; one with DEST = JFX goes to the server. -/
def execSnapCaptureDone (samples : List Nat) (s : State) : Host.Outcome State Fault Refusal := s.act (s.snapCaptured samples).snapStart

/-- An ACK: of a message that waits for one, or of a window of the snapshot. -/
def execJfxAck (h : JfxHead) (seq : Nat) (s : State) : Host.Outcome State Fault Refusal :=
  s.act (s.jfxOn h fun t =>
    let done := t.fleet.acks.filter fun e => e.1 == seq
    let t := t.modFleet fun f => { f with acks := f.acks.filter fun e => e.1 != seq }
    let t := done.foldl (fun (u : State) (e : Nat × SvcWait) => u.done e.2.req jfxCore 0x0020 stOk []) t
    match t.fleet.snap with
    | some x =>
      if x.seq = seq ∧ t.fleet.server = some h.sender then
        if x.count ≤ (x.window + 1) * windowFrags then (t.snapEnd x 0x0085).snapStart
        else t.snapSend { x with window := x.window + 1, tries := 0 }
      else t
    | none => t)

/-- A window stays without acknowledgement: sent again up to three times, then SNAP_FAIL. -/
def execJfxSnapWindowTimeout (s : State) : Host.Outcome State Fault Refusal :=
  s.act (
    match s.fleet.snap with
    | none => s
    | some x => if 3 ≤ x.tries then (s.snapEnd x 0x0086).snapStart else s.snapSend { x with tries := x.tries + 1 })

/-- SNAP and WATCH_POS are for servers: this module takes them as valid messages and no more. -/
def execJfxSnap (h : JfxHead) (s : State) : Host.Outcome State Fault Refusal := s.act (s.jfxOn h id)
def execJfxWatchPos (h : JfxHead) (s : State) : Host.Outcome State Fault Refusal := s.act (s.jfxOn h id)

/-! ### Timers (R291) -/

/-- Has a period passed since an instant, if there is one? -/
def since (t : Option Nat) (ticks mtc : Nat) : Bool :=
  match t with
  | some x => decide (x + ticks ≤ mtc)
  | none => true

/-- HELLO every HELLO_T. -/
def execJfxHelloTimer (s : State) : Host.Outcome State Fault Refusal :=
  s.act (
    if s.fleet.on && s.plat.serviceUp && since s.fleet.helloAt (s.fleet.helloT * secTicks) s.mtc then
      (s.modFleet fun f => { f with helloAt := some s.mtc }).jfxSend 0x01 allMembers false
        [s.fleetId, s.fleet.cls, if s.get TL_FIELD.STATE = 0 then 0 else s.get TL_FIELD_ID.ID]
    else s)

/-- STATE every 1 s: time, position, HU, heading, speed, FIX, field and fill; the fill has no source in the module. -/
def execJfxStateTimer (s : State) : Host.Outcome State Fault Refusal :=
  s.act (
    if s.fleet.on && s.plat.serviceUp && since s.fleet.stateAt secTicks s.mtc then
      let s := s.modFleet fun f => { f with stateAt := some s.mtc }
      let r := s.solRecs.head?
      let w := match s.pos.sol with
        | some cfg => s.fabWords (cfg.ring + 64 * (s.get GF_SOL.SEQ % 2 ^ cfg.log2n)) 16
        | none => []
      let g := fun (k : Nat) => (w[k]?).getD 0
      let speed := (r.map fun x => isqrt (x.vn * x.vn + x.ve * x.ve).toNat).getD 0
      s.jfxSend 0x10 allMembers false
        (two s.tuNow ++ [s.codeAt s.mtc, g 4, g 5, g 6, g 7, bits (g 9) 0 16, bits (g 11) 0 16, speed, bits (g 3) 0 3,
          s.get TL_FIELD_ID.ID, Config.unstated 9 [s.free]])
    else s)

/-! ### The service (R299) -/

def execJfxStart (q : SvcReq) (cls notify helloT ageT : Nat) (s : State) : Host.Outcome State Fault Refusal :=
  s.act (
    if !s.plat.serviceUp then s
    else
      let s := s.request jfxBox 0x0001 q [cls, notify, helloT, ageT]
      let tags := (s.tagWord 0x0020).isSome && (s.tagWord 0x0021).isSome && (s.tagWord 0x0022).isSome
      if !tags ∨ s.get SW_CFG.JFX_VID = 0 ∨ helloT = 0 ∨ 10 < helloT ∨ ageT < 3 ∨ 120 < ageT then
        s.done q jfxCore 0x0001 stBadParam []
      else
        (s.fresh.modFleet fun f =>
          { f with
            on := true, cls := cls, notify := notify % 64, helloT := helloT, ageT := ageT
            session := Config.random s.free % 2 ^ 32, seq := 0, helloAt := none, stateAt := none }).done q jfxCore 0x0001 stOk [])

/-- The service stops: dialogs end, no peer is ACTIVE. -/
def State.jfxHalt (s : State) : State :=
  (s.modFleet fun f =>
    { f with
      on := false, admits := [], dialogs := [], parts := [], snap := none, acks := []
      peers := f.peers.map fun p => { p with active := false } }).jfxShow

def execJfxStop (q : SvcReq) (s : State) : Host.Outcome State Fault Refusal :=
  s.act (
    if !s.plat.serviceUp then s
    else
      let s := s.request jfxBox 0x0002 q
      let s := if s.fleet.on then s.jfxSend 0x04 allMembers false [] else s
      s.jfxHalt.done q jfxCore 0x0002 stOk [])

def execPeerList (q : SvcReq) (addr : Nat) (s : State) : Host.Outcome State Fault Refusal :=
  s.act (
    if !s.plat.serviceUp then s
    else
      let s := s.request jfxBox 0x0010 q (two addr)
      let ws := s.fleet.peers.flatMap fun p =>
        (Config.listWords 2 [p.id, p.cls, p.field, b2n p.active, p.last] ++ List.replicate 8 0).take 8
      (s.fabWrite addr ws).done q jfxCore 0x0010 stOk [s.fleet.peers.length])

def execPeerBlock (q : SvcReq) (id : Nat) (block : Bool) (s : State) : Host.Outcome State Fault Refusal :=
  s.act (
    if !s.plat.serviceUp then s
    else
      let s := s.request jfxBox 0x0011 q [id, b2n block]
      let rest := s.fleet.blocked.filter fun x => x != id
      if block && decide (32 ≤ rest.length) then s.done q jfxCore 0x0011 stBadParam []
      else
        let s := s.modFleet fun f => { f with blocked := if block then id :: rest else rest }
        (if block then s.peerLeave id else s).done q jfxCore 0x0011 stOk [])

def execSendUser (q : SvcReq) (dest len addr : Nat) (ackreq : Bool) (s : State) : Host.Outcome State Fault Refusal :=
  s.act (
    if !s.plat.serviceUp then s
    else
      let s := s.request jfxBox 0x0020 q ([dest, len] ++ two addr)
      if !s.fleet.on ∨ 1192 < len then s.done q jfxCore 0x0020 stBadParam []
      else
        let seq := s.fleet.seq
        let s := s.jfxSend 0x60 dest ackreq (s.fabBytes addr len)
        if ackreq then (s.modFleet fun f => { f with acks := f.acks ++ [(seq, keepReq q)] }).reply q jfxCore 0x0020 stAccepted false []
        else s.done q jfxCore 0x0020 stOk [])

/-- An unload message from a program: opens its dialog if need be, BUSY when eight are open. -/
def State.unloadOut (s : State) (q : SvcReq) (op no : Nat) (f : State → State) : State :=
  if !s.plat.serviceUp then s
  else
    let s := s.request jfxBox op q [no]
    if !s.fleet.on then s.done q jfxCore op stBadParam []
    else if (s.dialog no).isNone && decide (8 ≤ s.fleet.dialogs.length) then s.done q jfxCore op stBusy []
    else (f s).done q jfxCore op stOk []

/-- CLASS of a cart. -/
def classCart : Nat := 2

/-- REQ goes to all ACTIVE carts. -/
def execUnloadReq (q : SvcReq) (no : Nat) (fields : List Nat) (s : State) : Host.Outcome State Fault Refusal :=
  s.act (s.unloadOut q 0x0030 no fun t =>
    let t := t.setDialog ⟨no, none, t.mtc⟩
    (t.fleet.peers.filter fun p => p.active && p.cls == classCart).foldl (fun (u : State) (p : Peer) =>
      u.jfxSend 0x30 p.id false (no :: fields)) t)

/-- Send to the other side of a dialog. -/
def State.toDialog (s : State) (no type : Nat) (fields : List Nat) : State :=
  match (s.dialog no).bind Dialog.peer with
  | some p => s.jfxSend type p false (no :: fields)
  | none => s

def execUnloadOffer (q : SvcReq) (no : Nat) (fields : List Nat) (s : State) : Host.Outcome State Fault Refusal :=
  s.act (s.unloadOut q 0x0031 no fun t => t.toDialog no 0x31 fields)

/-- ACCEPT goes to one cart, the other side from then on. -/
def execUnloadAccept (q : SvcReq) (no member : Nat) (fields : List Nat) (s : State) : Host.Outcome State Fault Refusal :=
  s.act (s.unloadOut q 0x0032 no fun t => (t.setDialog ⟨no, some member, t.mtc⟩).toDialog no 0x32 fields)

def execUnloadState (q : SvcReq) (no : Nat) (fields : List Nat) (s : State) : Host.Outcome State Fault Refusal :=
  s.act (s.unloadOut q 0x0033 no fun t => t.toDialog no 0x33 fields)

def execUnloadEnd (q : SvcReq) (no : Nat) (s : State) : Host.Outcome State Fault Refusal :=
  s.act (s.unloadOut q 0x0034 no fun t =>
    let t := t.toDialog no 0x34 []
    match t.dialog no with
    | some d => t.dialogEnd d unloadEnd
    | none => t)

def execRtcmRelay (q : SvcReq) (en : Bool) (hopMax : Nat) (s : State) : Host.Outcome State Fault Refusal :=
  s.act (
    if !s.plat.serviceUp then s
    else
      let s := s.request jfxBox 0x0040 q [b2n en + 2 * hopMax]
      if hopMax = 0 ∨ 4 < hopMax then s.done q jfxCore 0x0040 stBadParam []
      else (s.modFleet fun f => { f with relay := en, hopMax := hopMax }).done q jfxCore 0x0040 stOk [])

def execServerSet (q : SvcReq) (id : Nat) (s : State) : Host.Outcome State Fault Refusal :=
  s.act (
    if !s.plat.serviceUp then s
    else ((s.request jfxBox 0x0050 q [id]).modFleet fun f => { f with server := some id }).done q jfxCore 0x0050 stOk [])

end Sys2Proof.Machine
end

