-- ==== Sys2Proof/Machine/Valves.lean ====
section
/-! DEFINITION.  Valve drive: banks, current profiles and protection (R189 to R203), and the part of the output
hold that acts on valves (R37 to R42). -/

namespace Sys2Proof.Machine

open Sys2Proof.Reg

/-! ### Views -/

def State.valve (s : State) (c : Fin 32) : Valve := s.valves[c.val]
def State.modValve (s : State) (c : Fin 32) (f : Valve → Valve) : State := { s with valves := upd s.valves c f }

/-- The bank of a channel: VBb holds VD4b to VD4b + 3 (R190). -/
def bankOf (c : Fin 32) : Fin 8 := ⟨c.val / 4, by omega⟩
def State.bank (s : State) (b : Fin 8) : Bank := s.banks[b.val]
def State.modBank (s : State) (b : Fin 8) (f : Bank → Bank) : State := { s with banks := upd s.banks b f }

/-- The four channels of a bank, lowest first. -/
def channelsOf (b : Fin 8) : List (Fin 32) := (List.finRange 32).filter fun c => c.val / 4 == b.val

/-- A channel draws current from the high side in boost, peak or hold (a held channel regulates its hold). -/
def Valve.energised (v : Valve) : Bool :=
  match v.phase with
  | .boost | .peak | .hold => true
  | .off | .swoff => false

/-- A channel stays LOCKED while any bank or channel condition holds it (R200). -/
def State.valveLocked (s : State) (c : Fin 32) : Bool :=
  let v := s.valve c
  let b := s.bank (bankOf c)
  v.lockShort || v.lockTemp || b.short || b.hot

/-- VD_STAT.PHASE (Table 10.6). -/
def State.valvePhase (s : State) (c : Fin 32) : Nat :=
  let v := s.valve c
  if s.valveLocked c then 7
  else if v.held then 6
  else if v.wait.isSome then 1
  else match v.phase with
    | .off => 0
    | .boost => 2
    | .peak => 3
    | .hold => 4
    | .swoff => 5

/-- The sum of effective hold levels of a bank in 0.2 mA, without channel `c` (R192). -/
def State.holdSumBut (s : State) (b : Fin 8) (c : Option (Fin 32)) : Nat :=
  ((channelsOf b).filter fun d => some d != c).foldl (fun t d => t + s.get VD_STAT.HOLD_EFF d.val) 0

/-- The charger of a bank's rail runs (R191). -/
def State.charging (s : State) (b : Fin 8) : Bool :=
  s.on VB_CFG.EN b.val && !(s.bank b).feedLow && (s.plat.power == .starting || s.plat.power == .run)

/-- The rail voltage in 0.5 V: as last measured while the charger runs.  Once it is off the bleeder takes the rail below 5 V
within 1 s; how it falls in that time is a free value (R191, log entry 64). -/
def State.railV (s : State) (b : Fin 8) : Nat :=
  let v := s.get VB_STAT.RAIL_V b.val
  match (s.bank b).bleed with
  | none => v
  | some t => min (if t + 200000000 ≤ s.mtc then min v 9 else v) (Config.unstated 27 [b.val, s.mtc - t])

/-- The rail is ready at BOOST_V − 4 V or above (R191). -/
def State.railReady (s : State) (b : Fin 8) : Bool := decide ((s.bank b).boostV - 8 ≤ s.railV b)

/-- The channel of a bank that is in its boost phase. -/
def State.booster (s : State) (b : Fin 8) : Option (Fin 32) :=
  (channelsOf b).find? fun c => (s.valve c).phase == .boost

/-- The boost is free when no channel boosts and the rail is ready (R198). -/
def State.boostFree (s : State) (b : Fin 8) : Bool := (s.booster b).isNone && s.railReady b

/-- A boost request waits for the rail while no channel boosts and the rail is not ready: since when (R191). -/
def State.bankSync (s : State) (b : Fin 8) : State :=
  let waits := !(s.bank b).order.isEmpty && (s.booster b).isNone && !s.railReady b
  s.modBank b fun k => { k with waitAt := if waits then some (k.waitAt.getD s.mtc) else none }

/-- The charger has gone on or off: the rail stands where it is, or its bleeder begins (R191). -/
def State.railTrack (s : State) (b : Fin 8) : State :=
  match s.charging b, (s.bank b).bleed with
  | true, some _ => ((s.put VB_STAT.RAIL_V (s.railV b) b.val).modBank b fun k => { k with bleed := none }).bankSync b
  | false, none => (s.modBank b fun k => { k with bleed := some s.mtc }).bankSync b
  | _, _ => s

def State.railTrackAll (s : State) : State := (List.finRange 8).foldl (fun t b => t.railTrack b) s

/-- A measurement of the rail, in 0.5 V, while its charger runs. -/
def State.railSet (s : State) (b : Fin 8) (v : Nat) : State :=
  if s.charging b then ((s.railTrack b).put VB_STAT.RAIL_V v b.val).bankSync b else s

/-- Is another channel of the bank energised? -/
def State.othersOn (s : State) (c : Fin 32) : Bool :=
  (channelsOf (bankOf c)).any fun d => d != c && (s.valve d).energised

/-- MTC ticks as microseconds. -/
def micros (t : Nat) : Nat := t / 200

/-- The NODE of a valve channel and of a bank (Table 17.13). -/
def valveNode (c : Fin 32) : Nat := node domActuation (c.val / 4) c.val
def bankNode (b : Fin 8) : Nat := node domActuation b.val none8

/-- Set a sticky flag of a channel (event 0x30) or of a bank (event 0x31) (R202). -/
def State.vdFlag (s : State) (c : Fin 32) (k : Nat) : State := s.flag VD_FLAGS.F VD_EVMASK.F k 0x30 c.val
def State.vbFlag (s : State) (b : Fin 8) (k : Nat) : State := s.flag VB_FLAGS.F VB_EVMASK.F k 0x31 b.val

/-! ### Levels (R192, R199) -/

/-- The hold level of a command: HOLD_I in 0.2 mA, above 30,000 treated as 30,000 (R193). -/
def holdLevel (h : Nat) : Nat := min h 30000

/-- Limit a level to what the bank's sum of 14 A leaves (70,000 units of 0.2 mA); a reduction sets BANK_LIM on
the bank and on the channel and counts in LIMITED (R192). -/
def State.limitSum (s : State) (c : Fin 32) (lvl : Nat) : State × Nat :=
  let room := 70000 - s.holdSumBut (bankOf c) (some c)
  if room < lvl then
    (((s.vdFlag c VD_FLAGS.BANK_LIM).vbFlag (bankOf c) VB_FLAGS.BANK_LIM).count VD_CNT1.LIMITED 1 c.val, room)
  else (s, lvl)

/-- IRMS of the latched profile as a hold level in 0.2 mA. -/
def Valve.irmsLevel (v : Valve) : Nat := 5 * v.prof.irms

/-- Give a channel its commanded level and the effective level after the limits of R192 and R199. -/
def State.setLevel (s : State) (c : Fin 32) (lvl : Nat) : State :=
  let lim := if s.on VD_STAT.DUTY_ACT c.val then min lvl (s.valve c).irmsLevel else lvl
  let r := s.limitSum c lim
  (r.1.modValve c fun v => { v with level := lvl }).put VD_STAT.HOLD_EFF r.2 c.val

/-- The dither w(t): a symmetric triangle of period 1 ÷ DITH_F between −1 and +1, at 0 and rising when hold was entered. -/
def Valve.dither (v : Valve) (t : Nat) : Frac :=
  let ph := (t - v.holdAt) * v.prof.dithF % 200000000
  if ph < 50000000 then Frac.of (ph : Nat) 50000000
  else if ph < 150000000 then Frac.of (100000000 - (ph : Int)) 50000000
  else Frac.of ((ph : Int) - 200000000) 50000000

/-- The hold target h × (1 + A × w(t)) for a level h (R195). -/
def Valve.holdTarget (v : Valve) (h t : Nat) : Frac :=
  if v.prof.dithEn then (Frac.int h).mul ((Frac.int 1).add ((Frac.of (v.prof.dithA : Nat) 1000).mul (v.dither t))) else Frac.int h

/-- The regulator takes the effective level, with its dither, as the target of the chop period that begins. -/
def State.takeTarget (s : State) (c : Fin 32) : State :=
  let h := s.get VD_STAT.HOLD_EFF c.val
  s.modValve c fun v => { v with target := h, aim := v.holdTarget h s.mtc }

/-! ### Switch-off (R196) -/

/-- Does a SLOW decay run? -/
def Valve.slow (v : Valve) : Bool := v.phase == .swoff && v.decay == 0

/-- End a SLOW decay in the bank as MEDIUM, because the high side comes on (R196). -/
def State.endSlow (s : State) (c : Fin 32) : State :=
  (channelsOf (bankOf c)).foldl (fun t d =>
    if (t.valve d).slow && d != c then
      ((((t.modValve d fun v => { v with decay := 1 }).put VD_STAT.SOFF_USED 1 d.val).vdFlag d VD_FLAGS.DOWNGRADE).vbFlag
        (bankOf c) VB_FLAGS.DOWNGRADE |>.count VD_CNT1.DOWNGRADES 1 d.val).count VB_CNT1.DOWNGRADES 1 (bankOf c).val
    else t) s

/-- The channel leaves WAIT. -/
def State.leaveWait (s : State) (c : Fin 32) : State :=
  (s.modValve c fun v => { v with wait := none }).modBank (bankOf c) fun b => { b with order := b.order.filter fun d => d != c.val }

/-- The current of a channel begins to decay in a mode: 0 SLOW, 1 MEDIUM, 2 or 3 FAST.  SLOW runs as MEDIUM while another
channel of the bank is energised. -/
def State.beginDecay (s : State) (c : Fin 32) (mode : Nat) : State :=
  if (s.valve c).energised then
    let down := mode == 0 && s.othersOn c
    let used := if down then 1 else min mode 2
    let t := s.modValve c fun v => { v with phase := .swoff, held := false, decay := used, level := 0, target := 0, since := s.mtc }
    let t := (t.put VD_STAT.SOFF_USED used c.val).put VD_STAT.HOLD_EFF 0 c.val
    if down then
      (((t.vdFlag c VD_FLAGS.DOWNGRADE).vbFlag (bankOf c) VB_FLAGS.DOWNGRADE).count VD_CNT1.DOWNGRADES 1 c.val).count
        VB_CNT1.DOWNGRADES 1 (bankOf c).val
    else t
  else (s.modValve c fun v => { v with held := false, level := 0, target := 0 }).put VD_STAT.HOLD_EFF 0 c.val

/-- Switch a channel off in a mode; a START that waits is dropped. -/
def State.switchOff (s : State) (c : Fin 32) (mode : Nat) : State := ((s.leaveWait c).beginDecay c mode).bankSync (bankOf c)

/-- Switch a channel off as FAST, whatever the phase's mode; a decay under way goes on as FAST (R200). -/
def State.switchFast (s : State) (c : Fin 32) : State :=
  if (s.valve c).phase == .swoff then
    (((s.leaveWait c).modValve c fun v => { v with decay := 2 }).put VD_STAT.SOFF_USED 2 c.val).bankSync (bankOf c)
  else s.switchOff c 2

/-- Clamp energy of a FAST decay, in 10 µJ (R196). -/
def State.clampAdd (s : State) (c : Fin 32) (e : Nat) : State :=
  let t := s.count VD_CLAMP_E.E e c.val
  if 15000 < e then t.vdFlag c VD_FLAGS.CLAMP_OVER else t

/-- The switch-off mode of the phase in progress, by the latched profile (R193). -/
def Valve.offMode (v : Valve) : Nat :=
  match v.phase with
  | .boost => v.prof.soffB
  | .peak => v.prof.soffP
  | .hold | .off | .swoff => v.prof.soffH

/-- The causes of a HOLD_END record (Table 17.13). -/
inductive HoldEnd where
  | write | timeout | abort | protection | estop
  deriving DecidableEq, Repr

def HoldEnd.code : HoldEnd → Nat
  | .write => 0
  | .timeout => 1
  | .abort => 2
  | .protection => 3
  | .estop => 4

/-- End the hold of a channel with a record, if it is held. -/
def State.endValveHold (s : State) (c : Fin 32) (why : HoldEnd) : State :=
  if (s.valve c).held then
    (s.modValve c fun v => { v with held := false }).record .holdEnd (valveNode c) [2 ^ 8 * why.code]
  else s

/-! ### Profiles (R194, R198) -/

/-- The profile that the registers of a channel describe now (R197). -/
def State.profileOf (s : State) (c : Fin 32) : VProfile :=
  { bEn := s.on VD_CFG.B_EN c.val
    soffB := s.get VD_CFG.SOFF_B c.val
    soffP := s.get VD_CFG.SOFF_P c.val
    soffH := s.get VD_CFG.SOFF_H c.val
    rejectDuty := s.on VD_CFG.DUTY_POL c.val
    bI := min (s.get VD_BOOST.B_I c.val) 20000
    bT := s.get VD_BOOST.B_T c.val
    pI := min (s.get VD_PEAK.P_I c.val) 20000
    pT := s.get VD_PEAK.P_T c.val
    hT := s.get VD_HOLD.H_T c.val
    chop := min (s.get VD_CFG.CHOP c.val) 2
    dithEn := s.on VD_CFG.DITH_EN c.val
    dithF := clampN 50 400 (s.get VD_DITH.DITH_F c.val)
    dithA := min (s.get VD_DITH.DITH_A c.val) 200
    irms := s.get VD_DUTY.IRMS c.val
    win := clampN 10 255 (s.get VD_DUTY.WIN c.val) }

/-- Enter hold: the level applies and the dither phase starts at 0 (R194, R195). -/
def State.enterHold (s : State) (c : Fin 32) : State :=
  ((s.modValve c fun v => { v with phase := .hold, since := s.mtc, holdAt := s.mtc, astray := none }).put VD_I.RES 0xFFFF c.val).takeTarget c

/-- Enter peak, chopped at P_I, or hold when P_T = 0 (R194). -/
def State.enterPeak (s : State) (c : Fin 32) : State :=
  (if (s.valve c).prof.pT = 0 then s.enterHold c
   else s.modValve c fun v =>
    { v with phase := .peak, since := s.mtc, target := 5 * v.prof.pI, aim := Frac.int (5 * v.prof.pI : Nat) }).bankSync (bankOf c)

/-- Start the profile of a channel from its first phase that is not skipped: latch the configuration and the
instant, count the start, and end a SLOW decay in the bank.  The clamp energy of a FAST decay that it cuts short is a free
value (log entry 64). -/
def State.runProfile (s : State) (c : Fin 32) (lvl : Nat) (noBoost noPeak : Bool) : State :=
  let s := if (s.valve c).energised then s.count VD_CNT0.RESTARTS 1 c.val else s
  let s := if (s.valve c).phase == .swoff && (s.valve c).decay == 2 then (s.clampAdd c (Config.unstated 28 [c.val, s.free])).fresh else s
  let s := (s.count VD_CNT0.STARTS 1 c.val).put VD_MTC.MTC s.mtc c.val
  let p := s.profileOf c
  let s := (s.leaveWait c).modValve c fun v => { v with prof := p, since := s.mtc }
  let s := (s.setLevel c lvl).endSlow c
  (if p.bEn && !noBoost then s.modValve c fun v => { v with phase := .boost }
   else if noPeak then s.enterHold c
   else s.enterPeak c).bankSync (bankOf c)

/-- Leave WAIT for a profile without boost: SKIPPED is set and counted (R198). -/
def State.skipBoost (s : State) (c : Fin 32) (lvl : Nat) : State :=
  ((s.vdFlag c VD_FLAGS.SKIPPED).count VB_CNT0.SKIPPED 1 (bankOf c).val).runProfile c lvl true false

/-- The channels that wait, with one more: by the instant of their first START, then by channel (R198). -/
def State.queueBoost (s : State) (c : Fin 32) : List Nat :=
  let o := (s.bank (bankOf c)).order
  let same := fun (d : Nat) => decide (c.val < d) && ((s.valve (Fin.ofNat 32 d)).wait.any fun w => w.since == s.mtc)
  (o.filter fun d => !same d) ++ c.val :: o.filter same

/-- A boost request: BOOST_V as it stands now is that of the rail from here (R197). -/
def State.boostRequest (s : State) (b : Fin 8) : State :=
  (s.modBank b fun k => { k with boostV := clampN 80 130 (s.get VB_CFG.BOOST_V b.val) }).bankSync b

/-- A START accepted by the channel (R193, R198, R199). -/
def State.start (s : State) (c : Fin 32) (lvl : Nat) : State :=
  let v := s.valve c
  let b := bankOf c
  match v.wait with
  | some w => s.modValve c fun v => { v with wait := some { w with level := lvl } }
  | none =>
    if s.on VD_STAT.DUTY_ACT c.val then (s.count VD_CNT1.LIMITED 1 c.val).runProfile c lvl true true
    else if !s.on VD_CFG.B_EN c.val then s.runProfile c lvl true false
    else if (s.bank b).railFail then s.skipBoost c lvl
    else
      let s := s.boostRequest b
      if v.phase == .boost || (s.boostFree b && (s.bank b).order.isEmpty) then s.runProfile c lvl false false
      else
        let w : VWait := ⟨lvl, s.mtc, s.get VB_CFG.OVERLAP_POLICY b.val, min 1000 (s.get VB_CFG.BOOST_WAIT b.val), false⟩
        let o := s.queueBoost c
        ((s.modValve c fun v => { v with wait := some w }).modBank b fun k => { k with order := o }).bankSync b

/-- A TRIM accepted by the channel: a running profile takes the level, a waiting START takes it as its own, and
any other channel starts (R193). -/
def State.trim (s : State) (c : Fin 32) (lvl : Nat) (wasHeld : Bool) : State :=
  let v := s.valve c
  match v.wait with
  | some w => s.modValve c fun v => { v with wait := some { w with level := lvl } }
  | none =>
    if v.energised && !wasHeld then
      let s := if s.on VD_STAT.DUTY_ACT c.val && decide (v.irmsLevel < lvl) then s.count VD_CNT1.LIMITED 1 c.val else s
      s.setLevel c lvl
    else s.start c lvl

/-! ### The command register (R193, R37) -/

/-- DUTY_POL = REJECT for a command: that of the running profile for a TRIM of it, else that of the profile that would start
(R197). -/
def State.rejects (s : State) (c : Fin 32) (op : Nat) : Bool :=
  let v := s.valve c
  if 2 ≤ op && v.energised && !v.held && v.wait.isNone then v.prof.rejectDuty else s.on VD_CFG.DUTY_POL c.val

/-- Is a VD_CMD write refused: EN 0 on the channel or its bank, LOCKED, or START or TRIM under an active duty
limit with REJECT (R193, R199, R200)? -/
def State.vdRefused (s : State) (c : Fin 32) (op : Nat) : Bool :=
  !s.on VD_CFG.EN c.val || !s.on VB_CFG.EN (bankOf c).val || s.valveLocked c
    || (op != 0 && s.on VD_STAT.DUTY_ACT c.val && s.rejects c op)

/-- One write of VD_CMD: OP 0 OFF, 1 START, 2 or 3 TRIM.  An accepted write ends an output hold of the channel. -/
def State.vdCmd (s : State) (c : Fin 32) (op hold : Nat) : State :=
  if s.vdRefused c op then s.count VD_CNT1.LIMITED 1 c.val
  else
    let held := (s.valve c).held
    let s := ((s.put VD_CMD.HOLD_I hold c.val).put VD_CMD.OP op c.val).endValveHold c .write
    match op with
    | 0 => s.switchOff c (s.valve c).offMode
    | 1 => s.start c (holdLevel hold)
    | _ => s.trim c (holdLevel hold) held

/-! ### Protection (R200) -/

/-- A current in mA as a record carries it: in 10 mA, saturating in 16 bits (R387). -/
def recCurrent (mA : Nat) : Nat := min (mA / 10) 0xFFFF

/-- A protection switches a channel off as FAST, ends its hold and writes its VALVE_PROT record. -/
def State.protect (s : State) (c : Fin 32) (cond curr : Nat) : State :=
  let ph := s.valvePhase c
  ((s.record .valveProt (valveNode c) [cond + 2 ^ 8 * ph + 2 ^ 16 * recCurrent curr]).endValveHold c .protection).switchFast c

/-- A bank condition switches all four channels off as FAST with one VALVE_PROT record for the bank. -/
def State.protectBank (s : State) (b : Fin 8) (cond curr : Nat) (rec : Bool) : State :=
  let s := if rec then s.record .valveProt (bankNode b) [cond + 2 ^ 16 * recCurrent curr] else s
  (channelsOf b).foldl (fun t c => (t.endValveHold c .protection).switchFast c) s

/-! ### Output hold (R37 to R42) -/

/-- RESET_MODE and ESTOP_CUT of a valve channel (R43). -/
def State.osvVd (s : State) (c : Fin 32) : Nat := bits (s.get OSV_VD.W 0 (c.val / 8)) (4 * (c.val % 8)) 4

/-- Does a mode hold the output: HOLD_T or HOLD_UNTIL_WRITE (Table 2.5)? -/
def holds (m : Nat) : Bool := m % 4 == 1 || m % 4 == 2

/-- The onset of a warm start at one valve channel (R37, R38, R42): a held channel stays held; an energised one
whose mode holds, under SEAL, drops to its hold level and is held; any other goes off. -/
def State.valveOnset (s : State) (c : Fin 32) : State :=
  let v := s.valve c
  if v.held then s
  else if s.on OSV_CTL.SEAL && holds (s.osvVd c) && v.energised then
    let t := if v.phase == .hold then s.leaveWait c else (s.leaveWait c).enterHold c
    ((t.modValve c fun v => { v with held := true, onset := s.mtc }).takeTarget c).bankSync (bankOf c)
  else s.switchFast c

/-- Switch a channel off and forget what it was doing, as at power loss (R37). -/
def State.valveDead (s : State) : State :=
  { s with valves := s.valves.map fun v => { v with phase := .off, wait := none, held := false, level := 0, target := 0 }
           banks := s.banks.map fun b => { b with order := [], waitAt := none } }

/-! ### Commands -/

def execVdOff (c : Fin 32) (hold : Nat) (s : State) : Host.Outcome State Fault Refusal := s.act (s.vdCmd c 0 hold)
def execVdStart (c : Fin 32) (hold : Nat) (s : State) : Host.Outcome State Fault Refusal := s.act (s.vdCmd c 1 hold)
def execVdTrim (c : Fin 32) (hold : Nat) (s : State) : Host.Outcome State Fault Refusal := s.act (s.vdCmd c 2 hold)

/-- The boost current reaches B_I: the channel enters peak, or hold (R194). -/
def execValveBoostEnd (c : Fin 32) (s : State) : Host.Outcome State Fault Refusal :=
  s.act (if (s.valve c).phase == .boost then s.enterPeak c else s)

/-- B_T expires before B_I: BOOST_SHORT; below 10 % of B_I the channel sets OPEN and switches off (R194). -/
def execValveBoostTimeout (c : Fin 32) (curr : Nat) (s : State) : Host.Outcome State Fault Refusal :=
  s.act (
    if (s.valve c).phase == .boost && decide ((s.valve c).since + 200 * (s.valve c).prof.bT ≤ s.mtc) then
      let t := s.vdFlag c VD_FLAGS.BOOST_SHORT
      if 10 * curr < (s.valve c).prof.bI then (t.vdFlag c VD_FLAGS.OPEN).protect c 0x2 curr else t.enterPeak c
    else s)

/-- P_T expires: the profile enters hold. -/
def execValvePeakEnd (c : Fin 32) (s : State) : Host.Outcome State Fault Refusal :=
  s.act (if (s.valve c).phase == .peak && decide ((s.valve c).since + 2000 * (s.valve c).prof.pT ≤ s.mtc) then s.enterHold c else s)

/-- H_T expires: switch-off in mode SOFF_H.  H_T = 0 never expires, and H_T of a held channel does not run.  A START that
waits for the boost waits on (R198). -/
def execValveHoldEnd (c : Fin 32) (s : State) : Host.Outcome State Fault Refusal :=
  s.act (
    let v := s.valve c
    if v.phase == .hold && !v.held && v.prof.hT != 0 && decide (v.since + 200000 * v.prof.hT ≤ s.mtc) then
      s.beginDecay c v.prof.soffH
    else s)

/-- The switch-off current falls below 50 mA; `e` is the clamp energy of a FAST switch-off in 10 µJ (R196). -/
def execValveSwitchOffEnd (c : Fin 32) (e : Nat) (s : State) : Host.Outcome State Fault Refusal :=
  s.act (
    if (s.valve c).phase == .swoff then
      let t := s.modValve c fun v => { v with phase := .off }
      if (s.valve c).decay = 2 then t.clampAdd c e else t
    else s)

/-- The boost becomes free with the rail at `rail` (0.5 V): the next waiting channel boosts, in order of arrival;
one that waited on under DEFER records its lateness (R198). -/
def execBoostFree (b : Fin 8) (rail : Nat) (s : State) : Host.Outcome State Fault Refusal :=
  s.act (
    let s := s.railSet b rail
    if s.boostFree b then
      match (s.bank b).order with
      | [] => s
      | d :: _ =>
        let c : Fin 32 := Fin.ofNat 32 d
        match (s.valve c).wait with
        | none => s
        | some w =>
          let late := min (micros (s.mtc - w.since)) 0xFFFF
          let t :=
            if w.deferred then
              let t := (s.put VD_LATE.LAST late c.val).count VD_LATE.LATE_CNT 1 c.val
              let t := t.put VB_LATE.LAST late b.val
              let t := t.put VB_LATE.MAX (max late (t.get VB_LATE.MAX b.val)) b.val
              (t.vdFlag c VD_FLAGS.DEFERRED).count VB_CNT0.DEFERRED 1 b.val
            else s
          t.runProfile c w.level false false
    else s)

/-- BOOST_WAIT expires for a waiting channel: OVERLAP_POLICY acts (R198). -/
def execBoostWaitExpiry (c : Fin 32) (s : State) : Host.Outcome State Fault Refusal :=
  s.act (
    let b := bankOf c
    match (s.valve c).wait with
    | none => s
    | some w =>
      if w.deferred || decide (s.mtc < w.since + 200 * w.limit) then s
      else match w.policy with
      | 0 => s.modValve c fun v => { v with wait := some { w with deferred := true } }
      | 1 => s.skipBoost c w.level
      | _ =>
        let t := (s.leaveWait c).bankSync b
        ((t.vdFlag c VD_FLAGS.REJECTED).count VD_CNT1.LIMITED 1 c.val).count VB_CNT1.REJECTED 1 b.val)

/-- The rail does not become ready within 20 ms of the instant a request first waits for it: RAIL_FAIL; channels waiting
under DEFER start without boost, in wait order (R191, R198). -/
def execRailFail (b : Fin 8) (rail : Nat) (s : State) : Host.Outcome State Fault Refusal :=
  s.act (
    let s := s.railSet b rail
    if (s.bank b).railFail || ((s.bank b).waitAt.all fun t => decide (s.mtc < t + 4000000)) then s
    else
      let s := (s.modBank b fun k => { k with railFail := true }).vbFlag b VB_FLAGS.RAIL_FAIL
      let s := s.record .valveRail (bankNode b) [1 + 2 ^ 8 * rail]
      (s.bank b).order.foldl (fun t d =>
        let c : Fin 32 := Fin.ofNat 32 d
        match (t.valve c).wait with
        | none => t
        | some w => if w.policy = 0 then t.skipBoost c w.level else t) s)

/-- The rail has been ready for 20 ms: the condition RAIL_FAIL ends (R191). -/
def execRailFailClear (b : Fin 8) (rail : Nat) (s : State) : Host.Outcome State Fault Refusal :=
  s.act (
    let s := s.railSet b rail
    if (s.bank b).railFail && s.railReady b then
      (s.modBank b fun k => { k with railFail := false }).record .valveRail (bankNode b) [2 ^ 8 * rail]
    else s)

/-- The end of a millisecond: q moves toward the mean square `m` (mA²) of that millisecond, and the duty limit
becomes active or ends (R199). -/
def execDutyUpdate (c : Fin 32) (m : Nat) (s : State) : Host.Outcome State Fault Refusal :=
  s.act (
    let v := s.valve c
    let q := v.q.add (((Frac.int m).sub v.q).divN (10 * v.prof.win))
    let i2 : Int := (v.prof.irms : Int) * v.prof.irms
    let est := isqrt q.floor.toNat
    let s := (s.modValve c fun v => { v with q := q }).put VD_DUTY_STAT.IRMS_EST (min est 0xFFFF) c.val
    if s.on VD_STAT.DUTY_ACT c.val then
      if (q.mul (Frac.int 100)).lt (Frac.int (81 * i2)) then
        let t := s.putB VD_STAT.DUTY_ACT false c.val
        if v.energised then
          let u := t.setLevel c v.level
          if v.phase == .hold then u.takeTarget c else u
        else t
      else s
    else if (Frac.int i2).le q then
      let t := (s.putB VD_STAT.DUTY_ACT true c.val).vdFlag c VD_FLAGS.DUTY
      let t := t.record .valveDuty (valveNode c) [est, v.prof.irms]
      let t := t.put VD_STAT.HOLD_EFF (min (t.get VD_STAT.HOLD_EFF c.val) v.irmsLevel) c.val
      if v.phase == .hold then t.takeTarget c else t
    else s)

/-- Low-side current `curr` (mA) above 28 A: SHORT, off, LOCKED (Table 10.2). -/
def execValveShort (c : Fin 32) (curr : Nat) (s : State) : Host.Outcome State Fault Refusal :=
  s.act (if 28000 < curr then ((s.vdFlag c VD_FLAGS.SHORT).protect c 0x1 curr).modValve c fun v => { v with lockShort := true } else s)

/-- Duty at 100 % with current under 25 % of target for 10 ms: OPEN, off, not locked. -/
def execValveOpenDetect (c : Fin 32) (curr : Nat) (s : State) : Host.Outcome State Fault Refusal :=
  s.act (
    let v := s.valve c
    if (v.phase == .peak || v.phase == .hold) && (Frac.int (20 * curr : Nat)).lt v.aim then (s.vdFlag c VD_FLAGS.OPEN).protect c 0x2 curr else s)

/-- Channel switch above 165 °C: OVERTEMP, off, LOCKED. -/
def execValveOvertemp (c : Fin 32) (curr : Nat) (s : State) : Host.Outcome State Fault Refusal :=
  s.act (((s.vdFlag c VD_FLAGS.OVERTEMP).protect c 0x3 curr).modValve c fun v => { v with lockTemp := true })

/-- The mean hold current stays outside ±10 % of its target for 20 ms: reported only. -/
def execRegFail (c : Fin 32) (s : State) : Host.Outcome State Fault Refusal :=
  s.act (
    if (s.valve c).phase == .hold && ((s.valve c).astray.any fun t => decide (t + 4000000 ≤ s.mtc)) then s.vdFlag c VD_FLAGS.REG_FAIL else s)

/-- More than 150 mA in an OFF channel while the high side is on: reported only. -/
def execLeak (c : Fin 32) (s : State) : Host.Outcome State Fault Refusal :=
  s.act (if (s.valve c).phase == .off && s.othersOn c then s.vdFlag c VD_FLAGS.LEAK else s)

/-- High-side current `curr` (mA) above 45 A: BANK_SHORT, all four channels off and LOCKED. -/
def execBankShort (b : Fin 8) (curr : Nat) (s : State) : Host.Outcome State Fault Refusal :=
  s.act (if 45000 < curr then ((s.vbFlag b VB_FLAGS.BANK_SHORT).protectBank b 0x4 curr true).modBank b fun k => { k with short := true } else s)

/-- High-side switch, `temp` °C, above 170 °C: BANK_HOT, all four channels off and LOCKED. -/
def execBankHot (b : Fin 8) (curr temp : Nat) (s : State) : Host.Outcome State Fault Refusal :=
  s.act (
    let s := s.put VB_STAT1.TEMP (min (temp + 40) 255) b.val
    if 170 < temp then ((s.vbFlag b VB_FLAGS.BANK_HOT).protectBank b 0x5 curr true).modBank b fun k => { k with hot := true } else s)

/-- FEED_LOW on the bank and on its energised channels, which switch off as FAST, with one record if there was one (R190).
`low` false: the feed stands again. -/
def State.bankFeed (s : State) (b : Fin 8) (cond curr : Nat) : State :=
  let any := (channelsOf b).any fun c => (s.valve c).energised
  let s := (channelsOf b).foldl (fun t c => if (t.valve c).energised then t.vdFlag c VD_FLAGS.FEED_LOW else t) (s.vbFlag b VB_FLAGS.FEED_LOW)
  s.protectBank b cond curr any

/-- The bank's feed stands low, or again as it should; a reversed stud is a feed of 0 V (R190, R365). -/
def execBankFeedLow (b : Fin 8) (curr : Nat) (low : Bool) (s : State) : Host.Outcome State Fault Refusal :=
  s.act (
    if low || s.on SUP_STUD.REV (b.val / 2) then (((s.modBank b fun k => { k with feedLow := true }).railTrack b).bankFeed b 0x6 curr)
    else (s.modBank b fun k => { k with feedLow := false }).railTrack b)

/-- PGND above LGND by 1.5 V for 10 µs: the bank's channels go off as at FEED_LOW, FEED_LOW with them, and SUP_FLAGS.PGND_OPEN
is set (R190, R368, Table 19.14). -/
def execPgndOpen (b : Fin 8) (curr : Nat) (s : State) : Host.Outcome State Fault Refusal :=
  s.act ((s.flag SUP_FLAGS.F SUP_EVMASK.F SUP_FLAGS.PGND_OPEN 0x0F).bankFeed b 0x7 curr)

/-- VB_CTL.CLEAR: BANK_SHORT is re-armed, BANK_HOT only with the switch below 150 °C (R200). -/
def State.vbClear (s : State) (b : Fin 8) (temp : Int) : State :=
  s.modBank b fun k => { k with short := false, hot := k.hot && decide (150 ≤ temp) }

def execVbClear (b : Fin 8) (temp : Int) (rq : Req) (s : State) : Host.Outcome State Fault Refusal :=
  s.act (if rq.sup then (s.put VB_STAT1.TEMP (min (temp + 40).toNat 255) b.val).vbClear b temp else s)

/-- A bank reset: channels off as FAST, the registers of the bank and of its channels restored, the rail starts
discharged (R201, R191).  Their decay goes on under the restored registers.  Of a held channel, Table 17.13 names no cause for
this end of its hold: the record says WRITE (DESIGN CHOICE, log entry 64). -/
def State.vbReset (s : State) (b : Fin 8) : State :=
  let s := (channelsOf b).foldl (fun t c => (t.endValveHold c .write).switchFast c) s
  let s := (s.resetRange (0x20700000 + 0x100 * b.val) (0x20700000 + 0x100 * b.val + 0x100)).resetRange
    (0x20701000 + 0x200 * b.val) (0x20701000 + 0x200 * b.val + 0x200)
  let s := (channelsOf b).foldl (fun t c => t.modValve c fun v =>
    { Valve.zero with phase := if v.phase == .swoff then .swoff else .off, decay := v.decay }) s
  s.modBank b fun _ => Bank.zero

def execVbRst (b : Fin 8) (rq : Req) (s : State) : Host.Outcome State Fault Refusal :=
  s.act (if rq.sup then s.vbReset b else s)

/-- A write of 1s to VD_FLAGS clears those flags; SHORT re-arms its lock, and OVERTEMP its own once the switch is
below 150 °C (R200). -/
def State.vdRearm (s : State) (c : Fin 32) (word temp : Nat) : State :=
  let f := s.get VD_FLAGS.F c.val
  let hot := decide (150 ≤ temp)
  let s := s.put VD_FLAGS.F (f - (f &&& word)) c.val
  s.modValve c fun v =>
    { v with
      lockShort := v.lockShort && !bit word VD_FLAGS.SHORT
      lockTemp := v.lockTemp && (!bit word VD_FLAGS.OVERTEMP || hot) }

def execVdFlagsRearm (c : Fin 32) (word temp : Nat) (rq : Req) (s : State) : Host.Outcome State Fault Refusal :=
  s.act (if rq.sup then s.vdRearm c word temp else s)

/-- The chop period of a profile in MTC ticks (R194). -/
def VProfile.chopTicks (p : VProfile) : Nat := if p.chop = 0 then 40000 else if p.chop = 1 then 20000 else 10000

/-- Does a chop period of channel `c` begin at instant `t`?  The free-running grid k × P + floor(c × P ÷ 32) (R194). -/
def VProfile.chopAt (p : VProfile) (c : Fin 32) (t : Nat) : Bool := t % p.chopTicks == c.val * p.chopTicks / 32

/-- Is a mean, in mA, outside ±10 % of the target of its period? -/
def Valve.outside (v : Valve) (mean : Nat) : Bool :=
  let m := Frac.int (50 * mean : Nat)
  m.lt (v.aim.mul (Frac.int 9)) || (v.aim.mul (Frac.int 11)).lt m

/-- A chop period begins on its grid: VD_I reports the mean of the period that ended, in hold with the coil resistance when
there is an estimate, that is with duty below 100 %, and the regulator takes a pending level (R194, R200). -/
def execValveChopPeriod (c : Fin 32) (mean : Nat) (res : Option Nat) (s : State) : Host.Outcome State Fault Refusal :=
  s.act (
    let v := s.valve c
    if !v.prof.chopAt c s.mtc then s
    else
      let s := if v.phase == .hold || v.phase == .peak then s.put VD_I.I (min mean 0xFFFF) c.val else s
      if v.phase == .hold then
        let far := res.isSome && v.outside mean
        let s := s.put VD_I.RES ((res.map fun r => min r 0xFFFE).getD 0xFFFF) c.val
        (s.modValve c fun v => { v with astray := if far then some (v.astray.getD s.mtc) else none }).takeTarget c
      else s)

/-- Writing EN to 0 on a channel or its bank switches the channel off at once as FAST (R201).  Of a held channel, Table 17.13
names no cause for this end of its hold: the record says WRITE (DESIGN CHOICE, log entry 64). -/
def State.vdDisable (s : State) (c : Fin 32) : State := (s.endValveHold c .write).switchFast c

end Sys2Proof.Machine
end

