-- ==== Sys2Proof/Machine/Loads.lean ====
section
/-! DEFINITION.  Protected load channels (R204 to R217), and the part of the output hold that acts on loads. -/

namespace Sys2Proof.Machine

open Sys2Proof.Reg

/-! ### Views -/

def State.load (s : State) (n : Fin 48) : Load := s.loads[n.val]
def State.modLoad (s : State) (n : Fin 48) (f : Load → Load) : State := { s with loads := upd s.loads n f }

/-- The channels of a group: LGg holds LC4g to LC4g + 3 (R205). -/
def loadsOf (g : Fin 12) : List (Fin 48) := (List.finRange 48).filter fun n => n.val / 4 == g.val

/-- LC0 to LC15 are heavy (Table 11.1). -/
def heavy (n : Fin 48) : Bool := decide (n.val < 16)

/-- Does a condition hold the channel in LOCKED? -/
def Load.locked (l : Load) : Bool := l.lockShort || l.lockTherm || l.lockClamp || l.lockHot

/-- Is the switch closed, or chopping? -/
def Load.isOn (l : Load) : Bool :=
  match l.st with
  | .on | .pwm => true
  | .off | .uvWait | .thermWait => false

/-- LC_STAT.STATE of a channel (Table 11.3). -/
def Load.state (l : Load) : Nat :=
  if l.locked then 6
  else if l.held then 5
  else match l.st with
    | .off => 0
    | .on => 1
    | .pwm => 2
    | .uvWait => 3
    | .thermWait => 4

/-- ILIM of a channel, clamped to its kind's range, in 0.1 A (Tables 11.1 and 11.3). -/
def State.ilim (s : State) (n : Fin 48) : Nat := clampN 1 (if heavy n then 200 else 60) (s.get LC_LIM.ILIM n.val)

/-- The limit in force in 0.1 A: INRUSH_I inside the inrush window, else ILIM (R207). -/
def State.limitInForce (s : State) (n : Fin 48) : Nat :=
  if s.on LC_STAT.INRUSH n.val then min (s.get LC_LIM.INRUSH_I n.val) 600 else s.ilim n

def loadNode (n : Fin 48) : Nat := node domActuation (n.val / 4) n.val
def groupNode (g : Fin 12) : Nat := node domActuation g.val none8

def State.lcFlag (s : State) (n : Fin 48) (k : Nat) : State := s.flag LC_FLAGS.F LC_EVMASK.F k 0x38 n.val
def State.lgFlag (s : State) (g : Fin 12) (k : Nat) : State := s.flag LG_FLAGS.F LG_EVMASK.F k 0x39 g.val

/-! ### Switching -/

/-- Change a channel; a change of its STATE is stamped in LC_MTC (R206). -/
def State.setLoad (s : State) (n : Fin 48) (f : Load → Load) : State :=
  let t := s.modLoad n f
  if (t.load n).state = (s.load n).state then t else t.put LC_MTC.MTC s.mtc n.val

/-- Add the clamp energy of one switch-off, in 10 µJ, to LC_CLAMP_E and to the budget account; above the budget
the channel locks, and whatever wait the switch-off began ends there (R213). -/
def State.clampIn (s : State) (n : Fin 48) (e : Nat) : State :=
  let acc := (s.load n).acc.add (Frac.of e 100)
  let budget := s.get LC_CE.CE_BUDGET n.val
  let s := (s.count LC_CLAMP_E.E e n.val).modLoad n fun l => { l with acc := acc }
  let s := if (if heavy n then 150000 else 50000) < e then s.lcFlag n LC_FLAGS.CLAMP_OVER else s
  if (Frac.int budget).lt acc then
    ((s.lcFlag n LC_FLAGS.CLAMP_LOCK).setLoad n fun l => { l with lockClamp := true, st := .off }).record .loadClamp (loadNode n)
      [acc.floor.toNat, budget]
  else s

/-- The switch opens, into state `st`; the inrush window ends; an open switch that carried current clamps `e`. -/
def State.openSwitch (s : State) (n : Fin 48) (st : LState) (e : Nat) : State :=
  let was := (s.load n).isOn
  let s := (s.setLoad n fun l => { l with st := st, limAt := none, offAt := if was then s.mtc else l.offAt }).putB LC_STAT.INRUSH false n.val
  let s := s.putB LC_STAT.AT_LIMIT false n.val
  if was then s.clampIn n e else s

/-- The switch closes or chops as commanded; from OFF, or on a return after undervoltage, a heavy channel with an
INRUSH_T opens its window (R206, R208, R212). -/
def State.closeSwitch (s : State) (n : Fin 48) (cmd : LCmd) (window : Bool) : State :=
  let open_ := window && heavy n && decide (0 < s.get LC_INRUSH.INRUSH_T n.val)
  let s := if open_ then (s.putB LC_STAT.INRUSH true n.val).modLoad n fun l => { l with winAt := s.mtc } else s
  match cmd with
  | .off => s
  | .on => s.setLoad n fun l => { l with st := .on }
  | .pwm d => s.setLoad n fun l => { l with st := .pwm, duty := d, perAt := s.mtc }

/-- End the hold of a load channel with a record, if it is held. -/
def State.endLoadHold (s : State) (n : Fin 48) (why : HoldEnd) : State :=
  if (s.load n).held then
    (s.setLoad n fun l => { l with held := false }).record .holdEnd (loadNode n) [1 + 2 ^ 8 * why.code]
  else s

/-! ### Commands (R206) -/

/-- What OP and DUTY command: DUTY 0 acts as OFF, 1,000 or more as ON. -/
def loadCmd (op duty : Nat) : LCmd :=
  if op = 0 then .off else if op = 1 then .on else if duty = 0 then .off else if 1000 ≤ duty then .on else .pwm duty

/-- One write of LC_CMD.  `e` is the clamp energy if the switch opens.  EN 0 and LOCKED refuse it.  An accepted
write ends an output hold and restarts the count of thermal returns. -/
def State.lcCmd (s : State) (n : Fin 48) (op duty e : Nat) : State :=
  if !s.on LC_CFG.EN n.val || (s.load n).locked then s.count LC_CNT0.REFUSED 1 n.val
  else
    let cmd := loadCmd op duty
    let s := ((s.put LC_CMD.DUTY duty n.val).put LC_CMD.OP op n.val).endLoadHold n .write
    let s := s.modLoad n fun l => { l with cmd := cmd, returns := 0 }
    match cmd, (s.load n).st with
    | .off, _ => s.openSwitch n .off e
    | _, .uvWait => s
    | _, .thermWait => s
    | .pwm _, .pwm => s
    | c, .on => s.closeSwitch n c false
    | c, .pwm => s.closeSwitch n c false
    | c, .off => (s.count LC_CNT0.SWITCH_ONS 1 n.val).closeSwitch n c true

/-! ### Protection -/

/-- A protection opens a channel's switch and ends its hold; the channel stays off until it is written. -/
def State.loadTrip (s : State) (n : Fin 48) (st : LState) (e : Nat) : State :=
  (s.endLoadHold n .protection).openSwitch n st e

/-- A LOAD_PROT record (Table 17.13); `curr` in mA. -/
def State.loadProt (s : State) (nd cause curr : Nat) (inrush : Bool) : State :=
  s.record .loadProt nd [cause + 2 ^ 8 * b2n inrush + 2 ^ 16 * recCurrent curr]

/-- A load channel returns to its last commanded state. -/
def State.loadReturn (s : State) (n : Fin 48) (window : Bool) : State :=
  match (s.load n).cmd with
  | .off => s.setLoad n fun l => { l with st := .off }
  | c => s.closeSwitch n c window

/-! ### Output hold -/

/-- RESET_MODE and ESTOP_CUT of a load channel (R43). -/
def State.osvLc (s : State) (n : Fin 48) : Nat := bits (s.get OSV_LC.W 0 (n.val / 8)) (4 * (n.val % 8)) 4

/-- The onset of a warm start at one load channel (R37, R38, R42): it keeps its on, off or duty state when its
mode holds, under SEAL; one that waits to return is off from here (R212). -/
def State.loadOnset (s : State) (n : Fin 48) : State :=
  let l := s.load n
  if l.held then s
  else if s.on OSV_CTL.SEAL && holds (s.osvLc n) then
    s.setLoad n fun l => { l with held := true, onset := s.mtc, st := if l.isOn then l.st else .off }
  else (s.openSwitch n .off (Config.clampEnergy n.val s.free)).fresh

/-- Every load channel goes off; what its clamp takes is not measured by the command. -/
def State.loadsDead (s : State) : State :=
  (List.finRange 48).foldl (fun (t : State) n =>
    ((t.openSwitch n .off (Config.clampEnergy n.val t.free)).setLoad n fun l => { l with held := false, cmd := .off, duty := 0 }).fresh) s

/-! ### The commands of the family -/

def execLcOff (n : Fin 48) (e : Nat) (s : State) : Host.Outcome State Fault Refusal := s.act (s.lcCmd n 0 0 e)
def execLcOn (n : Fin 48) (s : State) : Host.Outcome State Fault Refusal := s.act (s.lcCmd n 1 0 0)
def execLcPwm (n : Fin 48) (duty e : Nat) (s : State) : Host.Outcome State Fault Refusal := s.act (s.lcCmd n 2 duty e)

/-- INRUSH_T of a heavy channel in ms, at most 150 (Table 11.3). -/
def State.inrushMs (s : State) (n : Fin 48) : Nat := min 150 (s.get LC_INRUSH.INRUSH_T n.val)

/-- Is the output at 25 % of the feed or above: VOUT in 10 mV, the feed in 0.1 V? -/
def State.outHigh (s : State) (n : Fin 48) : Bool := decide (10 * s.get LG_STAT.FEED_V (n.val / 4) ≤ 4 * s.get LC_I.VOUT n.val)

/-- A channel that is on carries `curr` mA: the limiter holds it at or below the limit in force, AT_LIMIT shows it there, and
outside a window LIM_T counts from the instant it carries ILIM with its output at 25 % of the feed or above (R207, R208). -/
def State.carry (s : State) (n : Fin 48) (curr : Nat) : State :=
  let lim := 100 * s.limitInForce n
  let s := (s.put LC_I.I (min (min curr lim) 0xFFFF) n.val).putB LC_STAT.AT_LIMIT (decide (lim ≤ curr)) n.val
  let runs := decide (lim ≤ curr) && !s.on LC_STAT.INRUSH n.val && s.outHigh n
  s.modLoad n fun l => { l with limAt := if runs then some (l.limAt.getD s.mtc) else none }

/-- INRUSH_T expires: the limit in force returns to ILIM, and LIM_T starts if the channel is at it (R208). -/
def execInrushWindowEnd (n : Fin 48) (s : State) : Host.Outcome State Fault Refusal :=
  s.act (
    if s.on LC_STAT.INRUSH n.val && decide ((s.load n).winAt + 200000 * s.inrushMs n ≤ s.mtc) then
      let t := s.putB LC_STAT.INRUSH false n.val
      t.carry n (t.get LC_I.I n.val)
    else s)

/-- LIM_T in ms; 0 is treated as 1 (Table 11.3). -/
def State.limTms (s : State) (n : Fin 48) : Nat := max 1 (s.get LC_INRUSH.LIM_T n.val)

/-- Overload lasts LIM_T: the channel switches off and sets OVERLOAD; it is not locked (R207).  Time inside an
inrush window does not count, so no overload ends there. -/
def execLoadOverload (n : Fin 48) (e : Nat) (s : State) : Host.Outcome State Fault Refusal :=
  s.act (
    if (s.load n).isOn && ((s.load n).limAt.any fun t => decide (t + 200000 * s.limTms n ≤ s.mtc)) then (s.lcFlag n LC_FLAGS.OVERLOAD).loadTrip n .off e else s)

/-- The hard trip of Table 11.1 in mA. -/
def hardTrip (n : Fin 48) : Nat := if heavy n then 90000 else 30000

/-- Short detection with `curr` mA: above the hard trip (`hard`), or at the limit in force with the output below 25 % of the
feed: off, SHORT, LOCKED and a record (R209). -/
def execLoadShort (n : Fin 48) (hard : Bool) (curr e : Nat) (s : State) : Host.Outcome State Fault Refusal :=
  s.act (
    if (s.load n).isOn && (if hard then decide (hardTrip n < curr) else decide (100 * s.limitInForce n ≤ curr)) then
      let s := (s.lcFlag n LC_FLAGS.SHORT).loadProt (loadNode n) (if hard then 0x2 else 0x1) curr (s.on LC_STAT.INRUSH n.val)
      (s.loadTrip n .off e).setLoad n fun l => { l with lockShort := true }
    else s)

/-- A temperature in °C as a register shows it: °C + 40 in 8 bits. -/
def tempReg (t : Int) : Nat := min (t + 40).toNat 255

/-- A measurement shows in LC_I.VOUT and in its group's FEED_V (Table 11.5). -/
def State.senses (s : State) (n : Fin 48) (m : LoadMeas) : State :=
  (s.put LC_I.VOUT (min m.vout 0xFFFF) n.val).put LG_STAT.FEED_V (min m.feed 1023) (n.val / 4)

/-- One step of the thermal model (R210): what is measured on the channel (its current in the on-time of PWM), the mean
dissipation `p` (10 mW) and the die in °C; a trip at 175 °C and a return below 145 °C.  `e` is the clamp
energy of a trip.  A short in the same cycle has locked the channel: THERMAL is set and no second record written (R217). -/
def execLoadThermalUpdate (n : Fin 48) (m : LoadMeas) (p : Nat) (die : Int) (e : Nat) (s : State) : Host.Outcome State Fault Refusal :=
  s.act (
    let l := s.load n
    let rth : Nat := if heavy n then 2 else 5
    let steps : Nat := if heavy n then 200 else 100
    let idle := !l.isOn && decide (2000 * 200 * (if heavy n then 100 else 50) ≤ s.mtc - l.offAt)
    let s := ((s.senses n m).put LG_STAT.DIE_T (tempReg die) (n.val / 4))
    let s := if l.isOn then s.carry n m.curr else s.put LC_I.I (min m.curr 0xFFFF) n.val
    let th := if idle then Frac.int 0 else l.theta.add (((Frac.of (p * rth) 100).sub l.theta).divN steps)
    let tc := (Frac.int die).add th
    let hot := (Frac.int 175).le tc
    let s := s.modLoad n fun l => { l with theta := th }
    let s := (s.put LC_TEMP.TEMP (tempReg tc.floor) n.val).put LC_TEMP.P (min p 0xFFFF) n.val
    if l.isOn && hot then
      let s := (s.lcFlag n LC_FLAGS.THERMAL).loadProt (loadNode n) 0x3 m.curr (s.on LC_STAT.INRUSH n.val)
      if l.returns < s.get LC_CFG.THERM_N n.val then s.loadTrip n (if l.held then .off else .thermWait) e
      else (s.loadTrip n .off e).setLoad n fun l => { l with lockTherm := true }
    else if l.lockShort && l.offAt == s.mtc && hot then s.lcFlag n LC_FLAGS.THERMAL
    else if l.st == .thermWait && !l.locked && tc.lt (Frac.int 145) then
      ((s.modLoad n fun l => { l with returns := l.returns + 1 }).count LC_CNT1.THERM_RESTARTS 1 n.val).loadReturn n false
    else s)

/-- The open-load threshold in 0.1 mA: OL_THR × 5 mA in 50 to 2,000 mA, or with FINE × 0.1 mA in 2 to 50 mA (R211). -/
def State.openThreshold (s : State) (n : Fin 48) : Nat :=
  let t := s.get LC_OL.OL_THR n.val
  if s.on LC_CFG.FINE n.val then clampN 20 500 t else clampN 500 20000 (50 * t)

/-- The measured current, in 0.1 mA, stays below the open-load threshold for 10 ms of on-time: reported only (R211). -/
def execOpenOn (x : LoadAt) (s : State) : Host.Outcome State Fault Refusal :=
  s.act (
    let s := s.senses x.n x.m
    if (s.load x.n).isOn && decide (x.m.curr < s.openThreshold x.n) then s.lcFlag x.n LC_FLAGS.OPEN_ON else s)

/-- An off output, `vout` in 10 mV, stays above 60 % of the feed, `feed` in 0.1 V, for 10 ms under OFF_DIAG: reported only
(R211). -/
def execOpenOff (x : LoadAt) (s : State) : Host.Outcome State Fault Refusal :=
  s.act (
    let s := s.senses x.n x.m
    if !(s.load x.n).isOn && s.on LC_CFG.OFF_DIAG x.n.val && decide (6 * x.m.feed < x.m.vout) then s.lcFlag x.n LC_FLAGS.OPEN_OFF else s)

/-- UV_OFF and UV_HYS of a group in 0.1 V, clamped, and UV_DLY in ms (Table 11.4). -/
def State.uvOff (s : State) (g : Nat) : Nat := clampN 50 200 (s.get LG_CFG.UV_OFF g)
def State.uvHys (s : State) (g : Nat) : Nat := clampN 5 50 (s.get LG_CFG.UV_HYS g)
def State.uvDly (s : State) (g : Nat) : Nat := max 1 (s.get LG_CFG.UV_DLY g)

/-- What a group sees of its stud's feed: 0 V while the stud is reversed (R365, Table 19.7). -/
def State.groupFeed (s : State) (g feed : Nat) : Nat := if s.on SUP_STUD.REV (lgStudReset g) then 0 else feed

/-- The group feed, `feed` in 0.1 V, stays below UV_OFF for 100 µs: every channel that is on goes to UV_WAIT; a
held channel goes off and does not return (R212). -/
def execLoadUv (g : Fin 12) (feed : Nat) (s : State) : Host.Outcome State Fault Refusal :=
  s.act (
    let feed := s.groupFeed g.val feed
    let s := s.put LG_STAT.FEED_V (min feed 1023) g.val
    if s.uvOff g.val ≤ feed then s
    else
    let s := s.putB LG_STAT.UV_ACT true g.val
    let s := (s.lgFlag g LG_FLAGS.UV).count LG_CNT.UV_EVENTS 1 g.val
    let mask := (loadsOf g).foldl (fun m n => m + (if (s.load n).isOn then 2 ^ (n.val % 4) else 0)) 0
    let s := s.record .loadUv (groupNode g) [feed % 1024 + 2 ^ 16 * mask]
    (loadsOf g).foldl (fun t n =>
      if (t.load n).isOn then
        let held := (t.load n).held
        (t.lcFlag n LC_FLAGS.UV).loadTrip n (if held then .off else .uvWait) (Config.clampEnergy n.val t.free) |>.fresh
      else t) s)

/-- The feed, `feed` in 0.1 V, has stood at UV_OFF + UV_HYS for UV_DLY and k × 2 ms: channel n returns (R212). -/
def execLoadUvReturn (n : Fin 48) (feed : Nat) (s : State) : Host.Outcome State Fault Refusal :=
  s.act (
    let g := n.val / 4
    let feed := s.groupFeed g feed
    let s := s.put LG_STAT.FEED_V (min feed 1023) g
    let due := decide ((s.load n).offAt + 200000 * (s.uvDly g + 2 * (n.val % 4)) ≤ s.mtc)
    if feed < s.uvOff g + s.uvHys g then s
    else
    let s := s.putB LG_STAT.UV_ACT false g
    if (s.load n).st == .uvWait && !(s.load n).locked && due then
      (s.count LC_CNT1.UV_RESTARTS 1 n.val).loadReturn n true
    else s)

/-- Every 10 ms each account E falls by CE_BUDGET × 10 ms ÷ CE_WIN, not below 0 (R213). -/
def execClampBudgetDecay (s : State) : Host.Outcome State Fault Refusal :=
  s.act (
    (List.finRange 48).foldl (fun t n =>
      let w := max 1 (t.get LC_CE.CE_WIN n.val)
      let e := (t.load n).acc.sub (Frac.of (t.get LC_CE.CE_BUDGET n.val) (10 * w))
      t.modLoad n fun l => { l with acc := if e.lt (Frac.int 0) then Frac.int 0 else e }) s)

/-- The group die, `die` °C, reads 170 °C or above: all four channels off and LOCKED; `curr` (mA) is the group sum
(R214). -/
def execGrpHot (g : Fin 12) (die : Int) (curr : Nat) (s : State) : Host.Outcome State Fault Refusal :=
  s.act (
    let s := s.put LG_STAT.DIE_T (tempReg die) g.val
    if die < 170 then s
    else
      let s := ((s.lgFlag g LG_FLAGS.GRP_HOT).count LG_CNT.HOT 1 g.val).loadProt (groupNode g) 0x4 curr false
      (loadsOf g).foldl (fun t n =>
        (((t.lcFlag n LC_FLAGS.GRP_HOT).loadTrip n .off (Config.clampEnergy n.val t.free)).setLoad n fun l =>
          { l with lockHot := true }).fresh) s)

/-- LG_CTL.CLEAR once the die is below 150 °C leaves LOCKED after GRP_HOT (R214). -/
def State.lgClear (s : State) (g : Fin 12) (die : Int) : State :=
  if die < 150 then (loadsOf g).foldl (fun t n => t.setLoad n fun l => { l with lockHot := false }) s else s

def execLgClear (g : Fin 12) (die : Int) (rq : Req) (s : State) : Host.Outcome State Fault Refusal :=
  s.act (if rq.sup then (s.put LG_STAT.DIE_T (tempReg die) g.val).lgClear g die else s)

/-- A group reset: channels off, the registers of the group and of its channels restored, the budget account with LC_CE_ACC
(R214, R36).  Of a held channel, Table 17.13 names no cause for this end of its hold: the record says WRITE (DESIGN CHOICE, log
entry 64). -/
def State.lgReset (s : State) (g : Fin 12) : State :=
  let s := (loadsOf g).foldl (fun t n => (t.endLoadHold n .write).openSwitch n .off (Config.clampEnergy n.val t.free) |>.fresh) s
  let s := (s.resetRange (0x20711000 + 0x40 * g.val) (0x20711000 + 0x40 * g.val + 0x40)).resetRange
    (0x20710000 + 0x100 * g.val) (0x20710000 + 0x100 * g.val + 0x100)
  (loadsOf g).foldl (fun t n => t.modLoad n fun l => { Load.zero with theta := l.theta, offAt := l.offAt }) s

def execLgRst (g : Fin 12) (rq : Req) (s : State) : Host.Outcome State Fault Refusal :=
  s.act (if rq.sup then s.lgReset g else s)

/-- A write of 1s to LC_FLAGS clears those flags; SHORT, THERMAL and CLAMP_LOCK also leave LOCKED for their cause. -/
def State.lcRearm (s : State) (n : Fin 48) (word : Nat) : State :=
  let f := s.get LC_FLAGS.F n.val
  (s.put LC_FLAGS.F (f - (f &&& word)) n.val).setLoad n fun l =>
    { l with
      lockShort := l.lockShort && !bit word LC_FLAGS.SHORT
      lockTherm := l.lockTherm && !bit word LC_FLAGS.THERMAL
      lockClamp := l.lockClamp && !bit word LC_FLAGS.CLAMP_LOCK }

def execLcFlagsRearm (n : Fin 48) (word : Nat) (rq : Req) (s : State) : Host.Outcome State Fault Refusal :=
  s.act (if rq.sup then s.lcRearm n word else s)

/-- PWM_F in Hz, clamped (Table 11.3). -/
def State.pwmHz (s : State) (n : Fin 48) : Nat := clampN 50 1000 (s.get LC_CFG.PWM_F n.val)

/-- A PWM period begins, 1 ÷ PWM_F after the last: a changed DUTY takes effect (R206). -/
def execLoadPwmPeriod (n : Fin 48) (s : State) : Host.Outcome State Fault Refusal :=
  s.act (
    match (s.load n).st, (s.load n).cmd with
    | .pwm, .pwm d =>
      if 200000000 ≤ (s.mtc - (s.load n).perAt) * s.pwmHz n then s.modLoad n fun l => { l with duty := d, perAt := s.mtc } else s
    | _, _ => s)

/-- Writing EN to 0 switches the channel off at once (R215); the record of a hold that it ends says WRITE (DESIGN CHOICE, log
entry 64). -/
def State.lcDisable (s : State) (n : Fin 48) : State :=
  ((s.endLoadHold n .write).openSwitch n .off (Config.clampEnergy n.val s.free)).fresh

end Sys2Proof.Machine
end

