-- ==== Sys2Proof/Machine/Resets.lean ====
section
/-! DEFINITION.  What the onset of a warm start does to the outputs (R37 to R42), and what each kind of start clears
(R6, R34, R35). -/

namespace Sys2Proof.Machine

open Sys2Proof.Reg

/-! ### Outputs -/

/-- A truth value per channel as a mask. -/
def maskOf (n : Nat) (p : Nat → Bool) : Nat := (List.range n).foldl (fun a k => a + (if p k then 2 ^ k else 0)) 0

/-- OSV_HELD_VD, OSV_HELD_LC0 and OSV_HELD_LC1 (Table 2.8). -/
def State.heldVd (s : State) : Nat := maskOf 32 fun k => (s.valve (Fin.ofNat 32 k)).held
def State.heldLc (s : State) : Nat := maskOf 48 fun k => (s.load (Fin.ofNat 48 k)).held

/-- Is any channel held (OSV_CTL.HOLDING)? -/
def State.holding (s : State) : Bool := s.heldVd != 0 || s.heldLc != 0

/-- The onset of a warm start (R37): each channel follows its RESET_MODE; channels in hold give a HOLD_START record with
the cause of the onset; LOCKED becomes HOLDOVER (R236); the section engine stops (R259). -/
def State.onset (s : State) (cause : Nat) : State :=
  let s := (List.finRange 32).foldl (fun (t : State) (c : Fin 32) => t.valveOnset c) s
  let s := (List.finRange 48).foldl (fun (t : State) (n : Fin 48) => t.loadOnset n) s
  let s := s.tuWarm.put SC_CFG.EN 0
  if s.holding then
    s.record .holdStart (node domPlatform none8 none8) [cause, s.heldVd, s.heldLc % 2 ^ 32, s.heldLc / 2 ^ 32]
  else s

/-- Every output off, as at power loss (R37). -/
def State.outputsDead (s : State) : State := s.valveDead.loadsDead

/-- Every output off with the protections' accounts forgotten: a power-on reset and a wake (R42, R201, R215). -/
def State.actuationZero (s : State) : State :=
  { s with valves := Vector.replicate 32 Valve.zero, banks := Vector.replicate 8 Bank.zero
           loads := Vector.replicate 48 Load.zero }

/-! ### Registers -/

/-- Every register at its Reset value but those of the address ranges in `keep` (R6). -/
def State.resetBut (s : State) (keep : List (Nat × Nat)) : State :=
  { s with regs := regDrop (fun k => !keep.any fun r => decide (r.1 * 64 ≤ k) && decide (k < r.2 * 64)) s.regs }

/-- System control (R44, R375), the kept registers of the error controller (R343), actuation (R201, R215), time unit and
pulses (R236), Trellis (R259), update control (R360). -/
def keptSystem : Nat × Nat := (0x20000000, 0x20001000)
def keptErrLast : Nat × Nat := (0x2001001C, 0x20010020)
def keptErrCfg : Nat × Nat := (0x20010000, 0x20010004)
def keptErrSrc : Nat × Nat := (0x20010100, 0x20010200)
def keptActuation : Nat × Nat := (0x20700000, 0x20720000)
def keptTime : Nat × Nat := (0x20800000, 0x20800200)
def keptTrellis : Nat × Nat := (0x20900000, 0x20910000)
def keptUpdate : Nat × Nat := (0x20C00000, 0x20C01000)

/-- The registers that reflect the boot record, the key slot and the count over the module's life: kept by every
reset (R360).  UPD_CFG and SVC_CTL lie between them. -/
def keptLife : List (Nat × Nat) :=
  [(0x20C00000, 0x20C00004), (0x20C00008, 0x20C0001C), (0x20C00024, 0x20C00028)]

/-- The input levels in PWR_STATE and SVC_STAT are no register values that a reset restores. -/
def State.keepInputs (s : State) (old : State) : State :=
  (((((s.put PWR_STATE.KEY (old.get PWR_STATE.KEY)).put PWR_STATE.WAKE (old.get PWR_STATE.WAKE)).put PWR_STATE.ESTOP
    (old.get PWR_STATE.ESTOP)).put PWR_STATE.FEED_LOW (old.get PWR_STATE.FEED_LOW)).put SVC_STAT.STRAP
    (old.get SVC_STAT.STRAP))

/-! ### Units -/

/-- The units that every start begins anew: cores (R34), loop units (R109), locks and mailboxes, sensing, cameras, Cuvee
(R168), Racking Line (R186), GNSS channels and the positioning service (R224), CAN and ISOBUS (R275), Ethernet and the
fleet service (R300), the Decanter (R323), the error stack and queue (R332), a service session and an activation that
had not moved the boot record (R353).  The watch log is kept. -/
def State.unitsZero (s : State) : State :=
  let s := s.jfxHalt
  { s with
    cores := Vector.replicate 16 Core.zero
    loops := Vector.replicate 16 LoopUnit.zero
    locks := Vector.replicate 256 Lock.free
    mbox := Vector.replicate 64 []
    ain := Vector.replicate 40 Ain.zero
    ls := Vector.replicate 16 Ls.zero
    newBins := []
    imu := Imu.zero
    cams := Vector.replicate 10 Cam.zero
    cuvee := Cuvee.zero
    racking := Racking.zero
    gc := Vector.replicate 96 Gc.zero
    pos := { Pos.zero with watch := s.pos.watch }
    can := Vector.replicate 8 Can.zero
    nets := Vector.replicate 4 none
    tags := { s.tags with waits := [] }
    switch := Switch.zero
    dc := Decanter.zero
    errs := { s.errs with stack := [], queue := [], fatal := none }
    manager := { s.manager with owner := none, wait := none, act := none, copy := none, session := none }
    plat := { s.plat with snapshot := false, serviceUp := false, svcStopped := [], migrations := []
                          replies := [] } }

/-- What a warm start clears, over what its onset did (R35, Table 2.4). -/
def State.warmZero (s : State) : State :=
  let t := (s.resetBut [keptSystem, keptErrCfg, keptErrSrc, keptErrLast, keptActuation, keptTime, keptTrellis,
                        keptUpdate]).unitsZero
  let t := (t.put ERR_CFG.ARM 0).put SC_CFG.EN 0
  let t := { t with trellis := { t.trellis with served := [], waiting := [], closing := [], offered := none, load := []
                                                strips := [], sections := Vector.replicate 64 ⟨false, []⟩ } }
  ((t.put SVC_STAT.SESSION 0).put SVC_STAT.LEVEL 0).put SVC_STAT.PORT 0

/-- What stops at the entry to WATCH, and what a wake finds: every register at its Reset value but system control, DRAM
kept, no time, no open field (R28, R35, Table 13.4). -/
def State.coldZero (s : State) : State :=
  let t := ((s.resetBut (keptSystem :: keptLife)).keepInputs s).unitsZero.actuationZero
  { t with
    plat := { t.plat with keyOff := false }
    time := TimeUnit.zero
    codes := []
    trellis := { Trellis.zero with fields := s.trellis.fields, peer := s.trellis.peer }
    fleet := { t.fleet with peers := t.fleet.saved.map fun p => { p with active := false } }
    sram := [] }

/-- System control at its Reset values, the input levels apart: a power-on reset and a wake (R6, R42, R375). -/
def State.systemZero (s : State) : State := (s.resetRange 0x20000000 0x20001000).keepInputs s

/-- What a loss of the feed leaves: flash and the input levels (Table 2.4). -/
def State.powerZero (s : State) : State :=
  let t := s.coldZero.systemZero
  { t with
    dram := []
    pos := Pos.zero
    trellis := { t.trellis with peer := [], cover := [] }
    manager := { t.manager with placed := [] }
    book := { t.book with ring := [], ofs := 0, gen := 0 } }

end Sys2Proof.Machine
end

