-- ==== Sys2Proof/Machine/Errors.lean ====
section
/-! DEFINITION.  The error controller (R326 to R333, R388), the start after a FATAL, and the Cellar Book behind its window
(R335 to R339). -/

namespace Sys2Proof.Machine

open Sys2Proof.Reg

def platNode : Nat := node domPlatform none8 none8

/-! ### Sources and severities (R327, R328) -/

def sevNote : Nat := 0
def sevDegraded : Nat := 1
def sevSerious : Nat := 2
def sevFatal : Nat := 3

def errDoubleFault : Nat := 0x01
def errLockstep : Nat := 0x02
def errOvrKill : Nat := 0x03
def errMigFail : Nat := 0x04
def errDramUe : Nat := 0x05
def errDramCe : Nat := 0x06
def errTcmUe : Nat := 0x07
def errDmaBad : Nat := 0x08
def errDmaHalt : Nat := 0x09
def errLoopFault : Nat := 0x0A
def errFlash : Nat := 0x0B
def errFeedLow : Nat := 0x0C
def errSw : Nat := 0x0D
def errPllLock : Nat := 0x10
def errServiceFail : Nat := 0x11
def causeNest : Nat := 0xF0
def causeQueue : Nat := 0xF1
def causeTmo : Nat := 0xF2

/-- The severity of an error: its source's ERR_SRC_CFG, FATAL for FC0's DOUBLE_FAULT and for pair 0 (Table 17.1). -/
def State.errSev (s : State) (src detail : Nat) : Nat :=
  if (src = errDoubleFault ∨ src = errLockstep) ∧ detail = 0 then sevFatal else s.get ERR_SRC_CFG.SEV 0 src

/-- A write to ERR_SRC_CFG: a severity below the Floor stores the Floor, SW ignores it (R328). -/
def State.errSrcWrite (s : State) (src v : Nat) : State :=
  if src = errSw then s else s.put ERR_SRC_CFG.SEV (max (v % 4) (s.get ERR_SRC_CFG.FLOOR 0 src)) 0 src

/-! ### Records -/

/-- Write an ERROR record (R329, R387); the SEQ it takes. -/
def State.errRecord (s : State) (src sev level detail nd : Nat) (items : List Nat) : State × Nat :=
  (s.record .error nd ((src + 2 ^ 8 * sev + 2 ^ 12 * level + 2 ^ 16 * (detail % 65536)) :: items), s.book.seq)

/-! ### The fatal sequence (R333, R388) -/

/-- Begin the fatal sequence: the onset of R37, and ERR_LAST; a further FATAL sets SECOND. -/
def State.fatalStart (s : State) (cause detail seq : Nat) : State :=
  match s.errs.fatal with
  | some f => { s with errs := { s.errs with fatal := some { f with second := true } } }
  | none =>
    let shut := s.plat.power == .shutdown
    let unsealed := !s.on OSV_CTL.SEAL
    let t := if shut then s else s.onset StartCause.fatal.code
    let f : Fatal := ⟨cause, detail, seq, s.mtc, s.codeAt s.mtc, false, s.errs.stack, s.errs.queue, shut, t.holding, unsealed⟩
    ({ t with errs := { t.errs with fatal := some f } }.put ERR_LAST.CAUSE cause).put ERR_LAST.DETAIL detail

/-- A FATAL error: its ERROR record, then the sequence; during a fatal sequence only SECOND changes (R333). -/
def State.errFatal (s : State) (src detail nd : Nat) (items : List Nat) : State :=
  if s.errs.fatal.isSome then s.fatalStart src detail 0
  else
    let (t, seq) := s.errRecord src sevFatal 0 detail nd items
    t.fatalStart src detail seq

/-! ### Stack and queue (R329 to R332) -/

/-- Show the top level in ERR_TOP, zero when there is none. -/
def State.errShow (s : State) : State :=
  match s.errs.stack with
  | [] => (((((s.put ERR_TOP_A.SRC 0).put ERR_TOP_A.SEV 0).put ERR_TOP_A.LEVEL 0).put ERR_TOP_A.DETAIL 0).put
      ERR_TOP_B.NODE 0).put ERR_TOP_C.SEQ 0
  | e :: r => (((((s.put ERR_TOP_A.SRC e.src).put ERR_TOP_A.SEV e.sev).put ERR_TOP_A.LEVEL (r.length + 1)).put
      ERR_TOP_A.DETAIL e.detail).put ERR_TOP_B.NODE e.node).put ERR_TOP_C.SEQ e.seq

/-- Deliver the top level: ERR_TOP and event 0x0E, while ARM is 1 (R329, R332). -/
def State.errDeliver (s : State) : State := if s.on ERR_CFG.ARM then s.errShow.raise 0x0E else s

/-- Put an error on top of the stack and deliver it; its deadline runs from its first delivery (R331). -/
def State.errPush (s : State) (e : Err) : State :=
  let since := if s.on ERR_CFG.ARM then some s.mtc else none
  { s with errs := { s.errs with stack := { e with since := since } :: s.errs.stack } }.errDeliver

/-- The ticks that the deadline of a level has run. -/
def Err.age (e : Err) (now : Nat) : Nat :=
  match e.since with
  | some t => e.ran + (now - t)
  | none => e.ran

/-- The deadline of a level in ticks: T_DEG or T_SER of 10 ms each, 0 treated as 1 (R331, Table 17.10). -/
def State.errLimit (s : State) (e : Err) : Nat :=
  2000000 * max 1 (if e.sev = sevDegraded then s.get ERR_CFG.T_DEG else s.get ERR_CFG.T_SER)

/-- Every deadline stops and keeps the time it has run (R332). -/
def State.errStop (s : State) : State :=
  { s with errs := { s.errs with stack := s.errs.stack.map fun e => { e with ran := e.age s.mtc, since := none } } }

/-- Every deadline runs on, that of a level never delivered from 0 (R332). -/
def State.errRun (s : State) : State :=
  { s with errs := { s.errs with stack := s.errs.stack.map fun e => { e with since := some s.mtc } } }

/-- The queue with an error behind those of its severity and above. -/
def errQueue (e : Err) (q : List Err) : List Err := q.filter (fun x => decide (e.sev ≤ x.sev)) ++ e :: q.filter (fun x => decide (x.sev < e.sev))

/-- An error that can be placed nowhere ends in a FATAL of the controller's own (R331). -/
def State.errOverflow (s : State) (cause src sev detail nd : Nat) (items : List Nat) : State :=
  let (t, seq) := s.errRecord src sev 0 detail nd items
  t.errFatal cause src platNode [seq]

/-- Place a DEGRADED or SERIOUS error (R329). -/
def State.errPlace (s : State) (src sev detail nd : Nat) (items : List Nat) : State :=
  match s.errs.stack with
  | [] =>
    let (t, seq) := s.errRecord src sev 1 detail nd items
    t.errPush ⟨src, sev, detail, nd, seq, 0, none⟩
  | top :: r =>
    if top.sev < sev then
      if 3 ≤ r.length then s.errOverflow causeNest src sev detail nd items
      else
        let (t, seq) := s.errRecord src sev (r.length + 2) detail nd items
        (t.errPush ⟨src, sev, detail, nd, seq, 0, none⟩).count ERR_CNT1.PREEMPTS
    else if 4 ≤ s.errs.queue.length then s.errOverflow causeQueue src sev detail nd items
    else
      let (t, seq) := s.errRecord src sev 0 detail nd items
      ({ t with errs := { t.errs with queue := errQueue ⟨src, sev, detail, nd, seq, 0, none⟩ t.errs.queue } }).count ERR_CNT2.QUEUED

/-- An error of a given severity (R327). -/
def State.errTake (s : State) (src sev detail nd : Nat) (items : List Nat) : State :=
  if sev = sevNote then ((s.errRecord src sev 0 detail nd items).1).count ERR_CNT0.NOTES
  else if sev = sevDegraded then (s.errPlace src sev detail nd items).count ERR_CNT0.DEGRADED
  else if sev = sevSerious then (s.errPlace src sev detail nd items).count ERR_CNT1.SERIOUS
  else s.errFatal src detail nd items

/-- An entry of the watch log, newest first, at most 64 (R230). -/
def State.watchAdd (s : State) (e : WatchEntry) : State :=
  { s with pos := { s.pos with watch := (e :: s.pos.watch).take 64 } }

/-- A snapshot of WATCH that is given up: its entry carries FIX = NONE, and nothing is stated of the rest. -/
def State.watchAbandon (s : State) : State :=
  if s.plat.snapshot then
    let x := fun k => Config.unstated 10 [k, s.free]
    ({ s with plat := { s.plat with snapshot := false } }.watchAdd ⟨s.mtc, 0, x 0, x 1, x 2, x 3, x 4⟩).fresh
  else s

/-- A unit reports an error (R329, R388): in OFF, WATCH and recovery nothing is recorded, and a service core that stops
in WATCH ends the snapshot. -/
def State.errReport (s : State) (src detail nd : Nat) (items : List Nat) : State :=
  match s.plat.power with
  | .off | .recovery => s
  | .watch => if src = errServiceFail then s.watchAbandon else s
  | .starting | .run | .shutdown => s.errTake src (s.errSev src detail) detail nd items

/-- Is `src` a source that a unit reports (Table 17.1)?  SW is raised through ERR_RAISE. -/
def errKnown (src : Nat) : Bool := (decide (1 ≤ src) && decide (src ≤ 0x0C)) || src == errPllLock || src == errServiceFail

/-- The items of an ERROR record beyond its first (R387): an address of two words, the second cause of a DOUBLE_FAULT. -/
def errItems (src : Nat) (items : List Nat) : List Nat :=
  if src = errDramUe ∨ src = errDmaBad then (items ++ [0, 0]).take 2
  else if src = errDoubleFault then (items ++ [0, 0, 0]).take 3
  else []

/-- Can the source's unit report in the present power state?  A service core that stops is known from then on. -/
def State.errSource (s : State) (src detail : Nat) : State :=
  if src = errServiceFail then
    { s with plat := { s.plat with svcStopped := detail :: s.plat.svcStopped.filter fun k => k != detail } }
  else s

def execErrorReport (src detail nd : Nat) (items : List Nat) (s : State) : Host.Outcome State Fault Refusal :=
  .next (if errKnown src then (s.errSource src detail).errReport src detail nd (errItems src items) else s)

/-- ERR_DONE (R330). -/
def State.errDone (s : State) (seq : Nat) : State :=
  match s.errs.stack with
  | [] => s.count ERR_CNT2.DONE_IGN
  | top :: r =>
    if seq ≠ s.get ERR_TOP_C.SEQ ∨ seq ≠ top.seq then s.count ERR_CNT2.DONE_IGN
    else
      let t := { s with errs := { s.errs with stack := r } }.record .errDone platNode [seq]
      match t.errs.queue with
      | h :: q =>
        if (r.head?.map fun e => decide (e.sev < h.sev)).getD true then { t with errs := { t.errs with queue := q } }.errPush h
        else t.errDeliver
      | [] => if r.isEmpty then t.errShow else t.errDeliver

def execErrDone (seq : Nat) (rq : Req) (s : State) : Host.Outcome State Fault Refusal := .next (if rq.sup then s.errDone (seq % 2 ^ 32) else s)

/-- ERR_RAISE: source SW with the severity written (R328). -/
def State.errRaise (s : State) (sev detail : Nat) : State :=
  match s.plat.power with
  | .starting | .run | .shutdown => s.errTake errSw (sev % 4) (detail % 65536) platNode []
  | .off | .watch | .recovery => s

def execErrRaise (sev detail : Nat) (rq : Req) (s : State) : Host.Outcome State Fault Refusal := .next (if rq.sup then s.errRaise sev detail else s)

/-- ERR_CFG: ARM from 0 to 1 lets the deadlines run on and delivers the top level; from 1 to 0 it stops them (R332). -/
def State.errArm (s : State) (word : Nat) : State :=
  let was := s.on ERR_CFG.ARM
  let t := s.putWord [ERR_CFG.ARM, ERR_CFG.T_DEG, ERR_CFG.T_SER] word
  if was == t.on ERR_CFG.ARM then t
  else if was then t.errStop
  else if t.errs.stack.isEmpty then t
  else t.errRun.errDeliver

def execErrArmWrite (word : Nat) (rq : Req) (s : State) : Host.Outcome State Fault Refusal := .next (if rq.sup then s.errArm word else s)

/-- The deadline of a level expires (R331), once it has run its time; while ARM is 0 no deadline runs. -/
def execHandleTmo (level : Fin 4) (s : State) : Host.Outcome State Fault Refusal :=
  .next (
    match s.errs.stack.reverse[level.val]? with
    | some e =>
      if s.on ERR_CFG.ARM ∧ s.errLimit e ≤ e.age s.mtc then s.errFatal causeTmo e.src platNode [e.seq] else s
    | none => s)

/-! ### Starts (R31, R35, R44) -/

/-- Would the next start into the trial set make TRIES exceed CONFIRM_STARTS (R354)? -/
def State.rollbackDue (s : State) : Bool := s.manager.trial && decide (max 1 (s.get UPD_CFG.CONFIRM_STARTS) < s.manager.tries + 1)

/-- The cause of a start. -/
def State.startCause (s : State) (c : StartCause) : StartCause := if s.rollbackDue then .rollback else c

/-- RST_CAUSE as a word. -/
def State.rstCause (s : State) : Nat :=
  s.get RST_CAUSE.CAUSE + 2 ^ 8 * s.get RST_CAUSE.HELD + 2 ^ 9 * s.get RST_CAUSE.UNSEALED + 2 ^ 16 * s.get RST_CAUSE.START_COUNT

/-- Enter STARTING at a step with its cause: the START record with `last`, the SEQ before it, and the DUMP record of a
dump not yet reported (R31, R337). -/
def State.startEnter (s : State) (step : StartStep) (cause : StartCause) (last : Nat) : State :=
  let t := ({ s with plat := { s.plat with power := .starting, step := step, cause := cause } }).railTrackAll
  let t := (t.put RST_CAUSE.CAUSE cause.code).record .start platNode [(t.put RST_CAUSE.CAUSE cause.code).rstCause, t.book.powerUps, last]
  match t.errs.dumpNew with
  | none => t
  | some k =>
    match t.errs.dumps[k.val] with
    | none => t
    | some d =>
      { t with errs := { t.errs with dumpNew := none } }.record .dump platNode
        [d.seq, k.val + 2 ^ 8 * b2n d.complete + 2 ^ 9 * b2n d.fatal.second]

/-- A warm start from t2, its onset past, with HELD and UNSEALED as they stood there (R35, R44). -/
def State.warmStart (s : State) (cause : StartCause) (held unsealed : Bool) : State :=
  let t := (s.warmZero.put RST_CAUSE.HELD (b2n held)).put RST_CAUSE.UNSEALED (b2n unsealed)
  (t.count RST_CAUSE.START_COUNT).startEnter .t2 cause ((s.book.seq + 2 ^ 32 - 1) % 2 ^ 32)

/-- A warm start whose onset is now. -/
def State.warmNow (s : State) (cause : StartCause) : State :=
  let c := s.startCause cause
  let unsealed := !s.on OSV_CTL.SEAL
  let t := s.onset c.code
  t.warmStart c t.holding unsealed

/-! ### The Cellar Book behind its window (R335 to R339) -/

/-- The words of a record (R336, Table 17.6); only word 0 of a PAD is defined. -/
def Rec.words (r : Rec) : List Nat :=
  [r.len + 2 ^ 12 * r.type.code + 2 ^ 24 * (if r.type = .pad then 0 else r.code), r.seq, r.mtc % 2 ^ 32, r.mtc / 2 ^ 32 % 2 ^ 32, r.node] ++ r.items

/-- A window word (R339): the ring at (CB_CURSOR.OFS + 4k) mod 16 MiB. -/
def State.bookWord (s : State) (k : Nat) : Nat :=
  let o := (s.get CB_CURSOR.OFS * 4 + 4 * k) % bookSize
  match s.book.ring.find? fun r => decide (r.ofs ≤ o) && decide (o < r.ofs + 4 * r.len) with
  | none => Config.bookWord s.book.gen o
  | some r =>
    let n := (o - r.ofs) / 4
    if r.type = .pad then (if n = 0 then (r.words.head?).getD 0 else Config.bookWord r.gen o) else (r.words[n]?).getD 0

/-- CB_CUR_STAT.INTACT (R339). -/
def State.bookIntact (s : State) : Bool :=
  let g := s.get CB_CURSOR.GEN
  s.book.gen == g || (s.book.gen == (g + 1) % 256 && decide (s.book.ofs ≤ s.get CB_CURSOR.OFS * 4))

/-- The oldest whole record of the ring: GEN, offset, SEQ; where the ring holds none, the writer's place. -/
def State.bookTail (s : State) : Nat × Nat × Nat :=
  match (s.book.ring.filter fun r => r.type != .pad).getLast? with
  | some r => (r.gen, r.ofs, r.seq)
  | none => (s.book.gen, s.book.ofs, s.book.seq)

/-- The newest records of a list that fit in 1 GiB (R338). -/
def backingTrim : Nat → List Rec → List Rec
  | _, [] => []
  | left, r :: t => if 4 * r.len ≤ left then r :: backingTrim (left - 4 * r.len) t else []

/-- Copy the records not yet copied, in SEQ order; a record that the ring has lost counts in LOSS, and a CB_LOST record
then names the first and last (R338). -/
def State.bookFlush (s : State) : State :=
  let b := s.book
  let n := (b.seq + 2 ^ 32 - b.flushed) % 2 ^ 32
  if n = 0 then s
  else
    let isNew := fun (r : Rec) => r.type != .pad && decide ((r.seq + 2 ^ 32 - b.flushed) % 2 ^ 32 < n)
    let new := b.ring.filter isNew
    let lost := n - new.length
    let t := { s with book := { b with backing := backingTrim 1073741824 (new ++ b.backing), flushed := b.seq } }
    if lost = 0 then t
    else (t.count CB_CNT.LOSS lost).record .cbLost platNode [b.flushed, (b.flushed + lost - 1) % 2 ^ 32]

def execCbFlushTick (s : State) : Host.Outcome State Fault Refusal := .next (if s.recording then s.bookFlush else s)

/-- The book of a power-on start (R338): POWER_UPS increments and SEQ goes on 1,048,576 above the last copied SEQ, or
above the first SEQ of a power-up of which nothing was copied. -/
def Book.powerOn (b : Book) : Book × Nat :=
  if b.written || b.powerUps != 0 then
    let since := b.backing.filter fun r => decide ((r.seq + 2 ^ 32 - b.firstSeq) % 2 ^ 32 < 2 ^ 31)
    let s := (since.head?.map Rec.seq).getD b.firstSeq
    let n := (s + 1048576) % 2 ^ 32
    ({ b with ring := [], ofs := 0, gen := 0, seq := n, flushed := n, powerUps := b.powerUps + 1, firstSeq := n, written := false }, s)
  else ({ b with ring := [], ofs := 0, gen := 0, seq := 0, flushed := 0, powerUps := 1, firstSeq := 0, written := false },
    Config.unstated 11 [])

/-- The ring reloaded from the backing at a wake (R338). -/
def Book.reload (b : Book) : Book :=
  { b with ring := b.ring.filter fun r => r.type == .pad || b.backing.any fun x => x.seq == r.seq }

/-! ### Requests to the platform service (Table 17.9) -/

/-- The platform service runs on the service core that MB60 and MB61 name. -/
def platCore : Nat := 19

/-- May the request be served: the firmware runs and, for one over the service port, a session stands, at level WRITE
where `write` asks for it (R359)? -/
def State.portMay (s : State) (q : SvcReq) (write : Bool) : Bool :=
  q.src != portId || (match s.manager.session with
    | some x => !write || x.write
    | none => false)

/-- Words copied to a buffer as far as `limit` bytes allow whole records, oldest first; how many, and the first SEQ not
found. -/
def fetchRecs (all : List Rec) (first count : Nat) (limit : Nat) : List Rec × Nat :=
  let want := (List.range (min count (all.length + 1))).map fun k => (first + k) % 2 ^ 32
  let miss := (want.find? fun q => !all.any fun r => r.seq == q).getD ((first + count) % 2 ^ 32)
  let found := (all.filter fun r => decide ((r.seq + 2 ^ 32 - first) % 2 ^ 32 < count)).mergeSort
    fun a b => decide ((a.seq + 2 ^ 32 - first) % 2 ^ 32 ≤ (b.seq + 2 ^ 32 - first) % 2 ^ 32)
  let go := found.foldl (fun (a : List Rec × Nat × Bool) r =>
    if a.2.2 && decide (a.2.1 + 4 * r.len ≤ limit) then (r :: a.1, a.2.1 + 4 * r.len, true) else (a.1, a.2.1, false)) ([], 0, true)
  (go.1.reverse, miss)

def execCbFetch (q : SvcReq) (first count addr limit : Nat) (s : State) : Host.Outcome State Fault Refusal :=
  .next (
    if !s.plat.serviceUp then s
    else
      let s := s.request 61 0x0020 q ([first, count] ++ two addr ++ [limit])
      let (rs, miss) := fetchRecs s.book.backing (first % 2 ^ 32) count limit
      let s := s.fabWrite addr (rs.flatMap Rec.words)
      s.done q platCore 0x0020 stOk [rs.length, miss])

end Sys2Proof.Machine
end

