-- ==== Sys2Proof/Machine/CoreCtl.lean ====
section
/-! DEFINITION.  The control of the function cores (R72 to R91): pairs, schedule tables and their validation, the start,
overrun and end of activations, swaps, reset, failure and migration, locks and mailboxes as the supervisor commands
them. -/

namespace Sys2Proof.Machine

open Sys2Proof.Reg

def coreNode (c : Nat) : Nat := node domPlatform c none8

/-! ### Identity (R72, R83) -/

/-- Does a core stand behind the identity's block, for commands to it? -/
def State.controls (s : State) (c : Fin 16) : Bool := !s.paired c.val && (s.core c).life != .migrated

/-- Is the core a halted spare (CORE_STAT.STATE = SPARE)? -/
def State.isSpare (s : State) (c : Fin 16) : Bool := (s.core c).life == .halted && s.on CORE_CTL.SPARE c.val && !s.paired c.val

/-- The odd core of the pair of `c`. -/
def oddOf (c : Fin 16) : Fin 16 := Fin.ofNat 16 (c.val / 2 * 2 + 1)

/-- CORE_STAT.STATE (Table 4.6). -/
def State.coreState (s : State) (c : Fin 16) : Nat :=
  if s.paired c.val then 6
  else
    match (s.core c).life with
    | .halted => if s.on CORE_CTL.SPARE c.val then 4 else 0
    | .running => if (s.core c).executing then 2 else 1
    | .failed => 3
    | .migrated => 5

/-! ### Banks (R75, R76) -/

/-- The first test of R76 that a bank fails, with the entry or slot concerned; 0 where it passes.  EMPTY concerns neither: its
item is 0 (DESIGN CHOICE, log entry 59). -/
def State.bankTest (s : State) (c bank : Nat) : Nat × Nat :=
  let en := fun e => s.on ENT_CTL.EN c bank e
  let entries := List.range 32
  let slots := List.range 100
  let byte := fun n => s.slotByte c bank n
  match entries.find? fun e => en e && decide (4 * s.get ENT_PC.PC c bank e / 0x8000 ≠ bank) with
  | some e => (1, e)
  | none =>
    match slots.find? fun n => !bit (byte n) 6 && !en (byte n % 32) with
    | some n => (2, n)
    | none =>
      match entries.find? fun e => en e && !slots.any fun n => !bit (byte n) 6 && byte n % 32 == e && bit (byte n) 7 with
      | some e => (3, e)
      | none => if entries.any en then (0, 0) else (4, 0)

/-- Validate a bank: VALID, ERR and ERR_ITEM (R76). -/
def State.validateBank (s : State) (c bank : Nat) : State :=
  let r := s.bankTest c bank
  ((s.setBankValid c bank (r.1 == 0)).put BANK_CTL.ERR r.1 c).put BANK_CTL.ERR_ITEM r.2 c

def State.validate (s : State) (c : Fin 16) : State :=
  if !s.controls c then s
  else if s.frozen c then s.tableIgn c.val
  else s.modCore c fun k => { k with validating := some (1 - k.bank) }

def execValidate (c : Fin 16) (rq : Req) (s : State) : Host.Outcome State Fault Refusal := s.act (if rq.sup then s.validate c else s)

/-- The result of a validation appears, for the bank that VALIDATE named. -/
def execBankValidationDone (c : Fin 16) (s : State) : Host.Outcome State Fault Refusal :=
  s.act (
    match (s.core c).validating with
    | some b => (s.modCore c fun k => { k with validating := none }).validateBank c.val b.val
    | none => s)

def State.invalidate (s : State) (c : Fin 16) : State :=
  if !s.controls c then s
  else if s.frozen c then s.tableIgn c.val
  else s.setBankValid c.val (s.core c).other false

def execInvalidate (c : Fin 16) (rq : Req) (s : State) : Host.Outcome State Fault Refusal := s.act (if rq.sup then s.invalidate c else s)

/-- A write of a word of a schedule table (R76): ignored and counted in the active and in a frozen bank; it clears VALID
of the inactive one. -/
def State.tableWrite (s : State) (c : Fin 16) (bank : Nat) (f : State → State) : State :=
  if (s.core c).bank.val = bank ∨ s.frozen c then s.tableIgn c.val else (f s).setBankValid c.val bank false

/-! ### The service writes a bank (R34, R89) -/

/-- The defined bits of four slot bytes: bit 5 of each is reserved (R75, R3). -/
def slotBits (w : Nat) : Nat := w &&& 0xDFDFDFDF

/-- The fields of one word of a schedule table, by word index. -/
def tableWord (s : State) (c bank k v : Nat) : State :=
  if k < 25 then s.put SLOTMAP.W (slotBits v) c bank k
  else if 128 ≤ k ∧ k < 256 then
    let e := (k - 128) / 4
    match (k - 128) % 4 with
    | 0 => s.put ENT_PC.PC (bits v 2 14) c bank e
    | 1 => s.put ENT_ARG.W v c bank e
    | 2 => s.putWord [ENT_CTL.EN, ENT_CTL.PRIV] v c bank e
    | _ => s
  else s

/-- Load a bank from a Hjelette bank image and validate it.  Both cores of a lockstep pair hold the same (R72). -/
def State.loadBank (s : State) (c : Fin 16) (bank : Nat) (img : List Nat) : State :=
  let half := (List.range 0x8000).map (Config.imageByte img)
  let s := s.modCore c fun k => { k with itcm := k.itcm.writeBytes (0x8000 * bank) half }
  let s := (List.range 256).foldl (fun (t : State) k => tableWord t c.val bank k (Config.imageWord img k)) s
  s.validateBank c.val bank

/-- BANK_CTL as a word. -/
def State.bankCtl (s : State) (c : Nat) : Nat :=
  s.get BANK_CTL.VALID_A c + 2 * s.get BANK_CTL.VALID_B c + 2 ^ 16 * s.get BANK_CTL.ERR c + 2 ^ 24 * s.get BANK_CTL.ERR_ITEM c

/-- BANK_LOAD (R89).  A bad parameter is answered before a pending swap (DESIGN CHOICE, log entry 59). -/
def execBankLoad (q : SvcReq) (core addr len : Nat) (s : State) : Host.Outcome State Fault Refusal :=
  s.act (
    if !s.plat.serviceUp then s
    else
      let s := s.request 61 0x0001 q [core, addr % 2 ^ 32, addr / 2 ^ 32, len]
      if h : core < 16 then
        let c : Fin 16 := ⟨core, h⟩
        let img := s.fabBytes addr len
        if !s.controls c || !(List.range len).all (fun k => fabReaches (addr + k) false true) || !Config.imageOk img then
          s.done q platCore 0x0001 stBadParam []
        else if s.frozen c then s.done q platCore 0x0001 stBusy []
        else
          let s := s.loadBank c (s.core c).other img
          s.done q platCore 0x0001 stOk [s.bankCtl core]
      else s.done q platCore 0x0001 stBadParam [])

def execPartList (q : SvcReq) (addr : Nat) (s : State) : Host.Outcome State Fault Refusal :=
  s.act (
    if !s.plat.serviceUp then s
    else
      let s := s.request 61 0x0002 q [addr % 2 ^ 32, addr / 2 ^ 32]
      let ws := s.manager.placed.flatMap fun p =>
        [p.part.kind + 2 ^ 8 * p.part.target + 2 ^ 16 * p.part.gen, p.addr % 2 ^ 32, p.addr / 2 ^ 32, p.part.data.length]
      (s.fabWrite addr ws).done q platCore 0x0002 stOk [s.manager.placed.length])

/-! ### Slots (R77 to R79) -/

/-- Does the slot's byte start its entry? -/
def State.slotStarts (s : State) (c : Fin 16) (n : Nat) : Bool := bit (s.slotByte c.val (s.core c).bank.val n) 7

/-- A WAITSLOT of the core counts a slot; the target once reached is 100 (R59). -/
def Act.countSlot (a : Act) (n : Nat) : Act :=
  match a.wait with
  | some (.slot r target k) => { a with wait := some (.slot r (if target = n then 100 else target) (k + 1)) }
  | _ => a

/-- End the WAITSLOT of an entry whose slot has come: gA holds the slots elapsed. -/
def Core.slotCome (k : Core) (e : Nat) : Core :=
  match k.act e with
  | some a =>
    match a.wait with
    | some (.slot r 100 n) => k.modAct e fun x => { x with wait := none, ctx := (x.ctx.setG r (BitVec.ofNat 32 n)).next }
    | _ => k
  | none => k

/-- The overrun of the executing activation at a slot that it does not own (R79). -/
def State.overrun (s : State) (c : Fin 16) (n : Nat) : State :=
  match (s.core c).overSlots with
  | some k => s.modCore c fun x => { x with overSlots := some (k + 1) }
  | none =>
    let t := (s.modCore c fun x => { x with overSlots := some 0 }).count OVR_CNT.OVERRUN 1 c.val
    if t.get OVR_CFG.LIMIT c.val = 0 then t else t.modCore c fun x => { x with slotEnd := some n }

/-- What a slot of entry `e` owes where another activation holds the core: a start that no existing activation forbids, or the
resumption of an activation that waits for nothing; a start that cannot be made counts as skipped now (R77, R79). -/
def State.oweSlot (s : State) (c : Fin 16) (e : Nat) (start : Bool) : State :=
  let k := s.core c
  let late := k.overSlots.isSome
  let begun := (k.act e).isSome || k.owed.any fun o => o.entry == e && o.start
  let full := decide (8 ≤ k.acts.length + (k.owed.filter fun o => o.start).length)
  let s := if start && (begun || full) then s.count START_CNT.SKIP 1 c.val else s
  if start && !begun && !full then s.modCore c fun x => { x with owed := x.owed ++ [Owed.mk e true late] }
  else if (k.act e).any fun (a : Act) => a.wait.isNone && k.cur != some e then
    s.modCore c fun x => { x with owed := x.owed ++ [Owed.mk e false late] }
  else s

/-- A slot begins on one core.  A SLOT_END not yet taken is dropped when a slot of the activation's own entry begins, which ends
the overrun (DESIGN CHOICE, log entry 59). -/
def State.slotCore (s : State) (c : Fin 16) (n : Nat) : State :=
  let s := s.modCore c fun k => { k with slot := n }
  if (s.core c).life != .running || (s.core c).resetting || s.paired c.val then s
  else
    let s := s.modCore c fun k => { k with acts := k.acts.map fun a => a.countSlot n }
    let owner := s.slotOwner c n
    let k := s.core c
    let s := if k.cur.isSome && !k.guest then
        (if k.cur = owner then s.modCore c fun x => { x with overSlots := none, slotEnd := none } else s.overrun c n)
      else s
    let busy := k.executing && (k.guest || k.inIdle || k.cur != owner)
    let s := match owner with
      | none => s
      | some e =>
        let k' := (s.core c).slotCome e
        let s := s.modCore c fun _ => k'.modAct e fun a => { a with missed := false }
        if busy then s.oweSlot c e (s.slotStarts c n)
        else if s.slotStarts c n then s.startAct c e
        else s
    ((s.settle c).boundary c).takeEvent c

/-- The schedule ends an overrunning activation (R79): STATUS as an ERET of a handler running in it would restore it. -/
def State.overrunKill (s : State) (c : Fin 16) : State :=
  let k := s.core c
  match k.cur, k.overSlots with
  | some e, some n =>
    if s.get OVR_CFG.LIMIT c.val ≤ n ∧ k.life = .running then
      let s := s.modCore c Core.leaveHandler
      let s := ((s.endAct c e).count OVR_CNT.KILL 1 c.val).errReport errOvrKill c.val (coreNode c.val) []
      s.settle c
    else s
  | _, _ => s

def execOverrunKill (c : Fin 16) (s : State) : Host.Outcome State Fault Refusal := s.act (if s.live then s.overrunKill c else s)

/-! ### Run, swap and reset (R80, R81, R90) -/

def execCoreRunWrite (c : Fin 16) (run : Bool) (rq : Req) (s : State) : Host.Outcome State Fault Refusal :=
  s.act (if rq.sup && s.controls c then s.putB CORE_CTL.RUN run c.val else s)

/-- Accept a swap for a core. -/
def State.acceptSwap (s : State) (c : Fin 16) : State := s.modCore c fun k => { k with swapPend := true, swapAt := s.mtc }

/-- SWAP_SET: all or nothing (R80).  An identity that no core stands behind, the odd core of a pair or a migrated one, has no
valid bank (DESIGN CHOICE, log entry 59). -/
def State.swapSet (s : State) (mask : Nat) : State :=
  let named := (List.finRange 16).filter fun c => bit mask c.val
  if named.isEmpty then s
  else
    match named.find? fun c => (s.core c).swapPend with
    | some c => (s.put SWAP_STAT.RESULT 2).put SWAP_STAT.CORE c.val
    | none =>
      match named.find? fun c => !s.controls c || !s.bankValid c.val (s.core c).other with
      | some c => (s.put SWAP_STAT.RESULT 3).put SWAP_STAT.CORE c.val
      | none => (named.foldl (fun (t : State) (c : Fin 16) => t.acceptSwap c) s).put SWAP_STAT.RESULT 1

def execSwapSet (mask : Nat) (rq : Req) (s : State) : Host.Outcome State Fault Refusal := s.act (if rq.sup then s.swapSet mask else s)

/-- The control registers of Table 3.18 at reset; TCMs, tables and counters are kept (R81). -/
def Core.resetCtl (k : Core) : Core :=
  { k with bank := 0, swapPend := false, swapAt := 0, validating := none, slot := 0, frame := 0, cur := none, idle := Ctx.zero, inIdle := false
           guest := false, lockWait := none, owed := [], overSlots := none, slotEnd := none, busErr := [], ie := false, exl := false, evpend := 0
           evmask := 0, vbase := 0, xstatus := 0, epc := 0, ecause := 0, eval := 0, scratch0 := 0, scratch1 := 0, mtcHi := 0
           cycHi := 0, cyc := 0 }

/-- All that a core runs and waits for ends: a wait for a lock with its edge, every activation as under R58, and what a handler
in the idle context holds (R81, R90). -/
def State.quit (s : State) (c : Fin 16) : State :=
  let s := match (s.core c).lockWait with
    | some lw =>
      (s.withdraw (Fin.ofNat 256 lw.lock) ⟨c.val, (s.core c).actNo⟩).modCore c fun k => { k with lockWait := none }
    | none => s
  (s.endAllActs c).releaseAll ⟨c.val, idleAct⟩

/-- A function core reset (R81): its pending requests are withdrawn and its activations end; it reaches HALTED after.  CORE_ID
reads as Table 3.18 resets it, bank A (DEDUCED, log entry 59). -/
def State.coreReset (s : State) (c : Fin 16) : State :=
  if !s.controls c then s else (s.quit c).modCore c fun k => { k.resetCtl with acts := [], resetting := true }

def execCoreReset (c : Fin 16) (rq : Req) (s : State) : Host.Outcome State Fault Refusal := s.act (if rq.sup then s.coreReset c else s)

def execCoreResetDone (c : Fin 16) (s : State) : Host.Outcome State Fault Refusal :=
  s.act (if (s.core c).resetting then s.modCore c fun k => { k with resetting := false, life := .halted } else s)

/-! ### Lockstep (R72, R73) -/

/-- Does a core read HALTED for LSTEP_CFG, a spare not among them: the odd core of a pair counts as its even core. -/
def State.haltedFor (s : State) (c : Fin 16) : Bool :=
  s.coreState (if s.paired c.val then Fin.ofNat 16 (c.val - 1) else c) == 0

/-- A write to LSTEP_CFG.PAIR: each changed bit is judged on its own; a pair that is taken apart leaves the same TCM
contents in both cores. -/
def State.lstepWrite (s : State) (v : Nat) : State :=
  (List.finRange 7).foldl (fun (t : State) (j : Fin 7) =>
    let k := j.val + 1
    let even : Fin 16 := ⟨2 * k, by omega⟩
    let odd : Fin 16 := ⟨2 * k + 1, by omega⟩
    let old := t.get LSTEP_CFG.PAIR
    if bit old k = bit v k then t
    else if t.haltedFor even && t.haltedFor odd then
      if bit v k then t.put LSTEP_CFG.PAIR (old + 2 ^ k)
      else (t.put LSTEP_CFG.PAIR (old - 2 ^ k)).modCore odd fun x => { x with itcm := (t.core even).itcm, dtcm := (t.core even).dtcm }
    else t.count LSTEP_CFG.IGN_CNT) s

def execLstepCfgWrite (pair : Nat) (rq : Req) (s : State) : Host.Outcome State Fault Refusal := s.act (if rq.sup then s.lstepWrite pair else s)

/-! ### Failure and migration (R82, R83) -/

/-- A CORE record (Table 17.13). -/
def State.coreRecord (s : State) (c : Fin 16) (event result cause : Nat) : State :=
  s.record .core (coreNode c.val)
    [event + 2 ^ 8 * s.get CORE_STAT.PHYS c.val + 2 ^ 12 * s.get CORE_CTL.SPARE_CORE c.val + 2 ^ 16 * result + 2 ^ 24 * cause]

/-- A migration that cannot be made: RESULT, MIG_FAIL in MB0, the record and the error report. -/
def State.migFail (s : State) (c : Fin 16) (result : Nat) : State :=
  let s := (((s.put MIG_STAT.RESULT result).put MIG_STAT.CORE c.val).put MIG_STAT.SPARE (s.get CORE_CTL.SPARE_CORE c.val))
  ((s.platEvent 0x0012 (c.val + 2 ^ 8 * result)).coreRecord c 2 result 0).errReport errMigFail c.val (coreNode c.val) []

/-- MIG_STAT.BUSY shows whether a copy is in progress. -/
def State.migBusy (s : State) : State := s.putB MIG_STAT.BUSY (s.plat.migrations.any fun m => m.copied.isNone)

/-- Begin the migration of a failed core to its declared spare, if the conditions of R82 hold. -/
def State.migrate (s : State) (c : Fin 16) : State :=
  let p := Fin.ofNat 16 (s.get CORE_CTL.SPARE_CORE c.val)
  let fit := s.on CORE_CTL.SPARE_EN c.val && s.isSpare p && s.lockstep p.val == s.lockstep c.val
  let free := !s.plat.migrations.any fun m => m.spare == p || m.core == c
  if fit && free then
    let s := (((s.put MIG_STAT.BUSY 1).put MIG_STAT.CORE c.val).put MIG_STAT.SPARE p.val).put MIG_STAT.RESULT 0
    { (s.put MIG_STAT.DTCM_BAD 0) with plat := { s.plat with migrations := s.plat.migrations ++ [⟨c, p, none⟩] } }
  else s.migFail c 2

/-- Orphan every lock held under an identity; its own requests are withdrawn (R82, R323). -/
def State.orphanAll (s : State) (c : Nat) : State :=
  { s with locks := s.locks.map fun l =>
      { l with waiters := l.waiters.filter fun w => w.req != c, orphan := l.orphan || (l.holder.any fun h => h.req == c) } }

/-- The loops of a failed core stop after the sample in progress (Table 5.4). -/
def State.loopsStop (s : State) (c : Fin 16) : State :=
  let s := { s with loops := upd s.loops c fun u => { u with loops := u.loops.map fun l => { l with stopped := true } } }
  (List.range 8).foldl (fun (t : State) l => t.put LP_STAT.STATE 0 c.val l) s

/-- The stop of a core: it issues nothing more, and nothing it waited for will come. -/
def Core.stop (k : Core) : Core :=
  { k with life := .failed, lockWait := none, owed := [], overSlots := none, slotEnd := none, busErr := [], validating := none, resetting := false
           acts := k.acts.map fun a => { a with wait := none } }

/-- A core fails (R82), with the error source of its failure. -/
def State.coreFail (s : State) (c : Fin 16) (src : Nat) : State :=
  if (s.core c).life = .failed then s
  else
    let s := ((s.modCore c Core.stop).orphanAll c.val).loopsStop c
    let s := (s.platEvent 0x0010 c.val).coreRecord c 0 (s.get MIG_STAT.RESULT) src
    let mine := s.plat.migrations.filter fun m => m.spare == c
    let s := { s with plat := { s.plat with migrations := s.plat.migrations.filter fun m => m.spare != c } }
    let s := mine.foldl (fun (t : State) m => t.migBusy.migFail m.core 2) s
    if c.val / 2 = 0 then s
    else if s.on CORE_CTL.AUTO_MIG c.val && s.on CORE_CTL.SPARE_EN c.val then s.migrate c
    else s

/-- A cause met while EXL = 1 (R68): the core stops and reports DOUBLE_FAULT with the second cause. -/
def State.doubleFault (s : State) (c : Fin 16) (x : Exc) : State :=
  (s.errReport errDoubleFault c.val (coreNode c.val) [x.cause.toNat, (s.core c).ctx.pc.toNat, x.eval.toNat]).coreFail c errDoubleFault

/-- Take an exception, or stop with DOUBLE_FAULT while a handler runs (R66, R68). -/
def State.except (s : State) (c : Fin 16) (x : Exc) : State :=
  if (s.core c).exl then s.doubleFault c x else s.modCore c fun k => k.enter (s.status c) x

/-- The comparator of a lockstep pair finds a difference (R73). -/
def execLockstepMismatch (pair : Fin 8) (s : State) : Host.Outcome State Fault Refusal :=
  s.act (
    let c : Fin 16 := ⟨2 * pair.val, by omega⟩
    if s.live && s.lockstep c.val && (s.core c).life != .failed && (s.core c).life != .migrated then
      (s.errReport errLockstep pair.val (coreNode c.val) []).coreFail c errLockstep
    else s)

def State.migGo (s : State) (core : Fin 16) : State :=
  if (s.core core).life == .failed && s.controls core && core.val / 2 != 0 && !s.plat.migrations.any fun m => m.core == core then
    s.migrate core
  else s

def execMigGo (core : Fin 16) (go : Bool) (rq : Req) (s : State) : Host.Outcome State Fault Refusal :=
  s.act (if rq.sup && go then s.migGo core else s)

/-- The registers that a migration copies, as offsets of the block: CORE_CTL with the banks' state, LK_LIMIT, OVR_CFG, DWINk, EVSRC
and both schedule tables (Table 4.3). -/
def copiedOfs (o : Nat) : Bool :=
  o < 0x00C && !(o == 0x004) || o == 0x010 || o == 0x018 || decide (0x080 ≤ o) && decide (o < 0x180) || decide (0x400 ≤ o) && decide (o < 0xC00)

/-- Does a register key lie in the block of core `c`, at an offset that a migration copies? -/
def copiedKey (c k : Nat) : Bool :=
  let a := k / 64
  decide (0x20100000 + 0x1000 * c ≤ a) && decide (a < 0x20101000 + 0x1000 * c) && copiedOfs ((a - 0x20100000 - 0x1000 * c) / 4 * 4)

/-- What the copy of core `c` holds, with the bad DTCM words (their word indices) as zero. -/
def State.copyOf (s : State) (c : Fin 16) (dtcmBad : List Nat) : Copied :=
  { regs := s.regs.filter fun e => copiedKey c.val e.1
    itcm := (s.core c).itcm
    dtcm := dtcmBad.foldl (fun m i => m.writeN (4 * (i % 32768)) 4 0) (s.core c).dtcm }

/-- The copy of a migration ends (R82): an ITCM word that cannot be corrected ends it; bad DTCM words are written as zero on the
spare and counted. -/
def execMigrationCopyDone (core : Fin 16) (itcmBad : Bool) (dtcmBad : List Nat) (s : State) : Host.Outcome State Fault Refusal :=
  s.act (
    match s.plat.migrations.find? fun m => m.core == core && m.copied.isNone with
    | none => s
    | some _ =>
      if itcmBad then
        { s with plat := { s.plat with migrations := s.plat.migrations.filter fun m => m.core != core } }.migBusy.migFail core 3
      else
        { (s.put MIG_STAT.DTCM_BAD (min 4095 dtcmBad.length)) with
          plat := { s.plat with migrations := s.plat.migrations.map fun (m : Migration) =>
            if m.core = core then { m with copied := some (s.copyOf core dtcmBad) } else m } }.migBusy)

/-- Release an orphaned lock with its LOCK_ORPHAN record (R85). -/
def State.orphanFree (s : State) (n : Fin 256) (cause : Nat) : State :=
  let l := s.locks[n.val]
  if l.orphan then (s.record .lockOrphan platNode [n.val, holderNo l.holder, cause]).passLock n else s

/-- The identity runs again: its orphans are released, and counted. -/
def State.orphansBack (s : State) (c : Fin 16) : State :=
  (List.finRange 256).foldl (fun (t : State) (n : Fin 256) =>
    let l := t.locks[n.val]
    if l.orphan && holderNo l.holder == c.val then
      ((t.orphanFree n 0).modLock n fun x => { x with back := some s.mtc }).count LK_REL_CNT.CNT 1 c.val
    else t) s

/-- The registers of the block of core `c` as a migration copied them. -/
def State.pasteBlock (s : State) (c : Nat) (m : RegMap) : State :=
  { s with regs := m.foldl (fun r e => regSet r e.1 e.2) (regDrop (copiedKey c) s.regs) }

/-- Copy the registers of a block range from the block of core `p` to that of core `c`. -/
def State.blockCopy (s : State) (p c lo hi : Nat) : State :=
  let a := 0x20100000 + 0x1000 * p
  let inFrom := fun (e : Nat × Nat) => decide ((a + lo) * 64 ≤ e.1) && decide (e.1 < (a + hi) * 64)
  let b := 0x20100000 + 0x1000 * c
  let moved := (s.regs.filter inFrom).map fun e => (e.1 + b * 64 - a * 64, e.2)
  { s with regs := moved.foldl (fun m e => regSet m e.1 e.2) (regDrop (fun k => decide ((b + lo) * 64 ≤ k) && decide (k < (b + hi) * 64)) s.regs) }

/-- The spare takes over identity `c` (R83) with what the copy holds: what the copy does not carry is the spare's own: its loop
unit and its counters, its control registers in their reset state.  A pending swap moves with the identity. -/
def State.takeOver (s : State) (c p : Fin 16) (x : Copied) : State :=
  let phys := s.get CORE_STAT.PHYS p.val
  let s := (((s.blockCopy p.val c.val 0x00C 0x010).blockCopy p.val c.val 0x014 0x018).blockCopy p.val c.val 0x01C 0x028).blockCopy
    p.val c.val 0x180 0x400
  let s := s.blockCopy p.val c.val 0xC00 0x1000
  let sp := s.core p
  let s := s.modCore c fun k =>
    { k.resetCtl with
      itcm := x.itcm, dtcm := x.dtcm, acts := [], bank := k.bank, swapPend := k.swapPend, swapAt := k.swapAt, cyc := sp.cyc, posted := sp.posted
      life := .halted, resetting := false }
  let s := { (s.modCore p fun _ => { Core.zero with life := .migrated }) with loops := upd s.loops c fun _ => s.loops[p.val] }
  ((s.pasteBlock c.val x.regs).put CORE_STAT.PHYS phys c.val).put CORE_STAT.ALIAS c.val p.val

/-- Every migration whose copy has ended takes over at the boundary (Table 4.3, t3). -/
def State.takeOvers (s : State) : State :=
  let due := s.plat.migrations.filterMap fun m => m.copied.map fun x => (m, x)
  let s := { s with plat := { s.plat with migrations := s.plat.migrations.filter fun m => m.copied.isNone } }
  due.foldl (fun (t : State) d =>
    let m := d.1
    let pend := (t.core m.core).swapPend
    let t := t.takeOver m.core m.spare d.2
    let t := if t.lockstep m.core.val then t.takeOver (oddOf m.core) (oddOf m.spare) (t.copyOf (oddOf m.core) []) else t
    let t := ((t.put MIG_STAT.RESULT 1).put MIG_STAT.CORE m.core.val).put MIG_STAT.SPARE m.spare.val
    let t := (t.platEvent 0x0011 (m.core.val + 16 * m.spare.val)).coreRecord m.core 1 1 0
    if pend then
      (t.modCore m.core fun k => { k with swapAt := t.mtc }).record .schedule (coreNode m.core.val)
        [2 + 2 ^ 8 * (t.core m.core).bank.val, t.get SWAP_CNT.DELAY m.core.val]
    else t) s

/-! ### The boundary (R60, R74, R90) -/

/-- A pending swap at a major-frame boundary (R60, R80). -/
def State.swapCore (s : State) (c : Fin 16) : State :=
  let k := s.core c
  if !k.swapPend || decide (s.mtc < k.swapAt + 2) || k.life == .failed || s.paired c.val then s
  else if k.exl then
    let t := s.count SWAP_CNT.DELAY 1 c.val
    t.record .schedule (coreNode c.val) [1 + 2 ^ 8 * k.bank.val, t.get SWAP_CNT.DELAY c.val]
  else
    let t := (s.endAllActs c).modCore c fun x => { x with bank := 1 - x.bank, swapPend := false, owed := [] }
    t.record .schedule (coreNode c.val) [2 ^ 8 * (t.core c).bank.val, t.get SWAP_CNT.DELAY c.val]

/-- RUN at a major-frame boundary, and the frame count (R90, Table 3.18). -/
def State.runCore (s : State) (c : Fin 16) : State :=
  if s.paired c.val then s
  else
    let run := s.on CORE_CTL.RUN c.val && !s.on CORE_CTL.SPARE c.val
    let k := s.core c
    match k.life with
    | .running =>
      if run && !k.resetting then s.modCore c fun x => { x with frame := (x.frame + 1) % 2 ^ 24 }
      else if k.resetting then s
      else (s.quit c).modCore c fun x => { x.leaveHandler with life := .halted, inIdle := false, guest := false, owed := [] }
    | .halted =>
      if run && !k.resetting && s.bankValid c.val k.bank.val then
        ((s.modCore c fun x => { x with life := .running, frame := 0, slot := 0 }).orphansBack c).takeEvent c
      else s
    | .failed | .migrated => s

/-- The MRECVW waits of a core end at the boundary with EMPTY (R62). -/
def State.recvEmpty (s : State) (c : Fin 16) : State :=
  (s.core c).acts.foldl (fun (t : State) a =>
    match a.wait with
    | some (.recv r _ _ _) => t.endWait c a.entry r (mbStatus 0x01 0 (Config.unstated 12 [1, t.mtc, (t.core c).cyc] % 256))
    | _ => t) s

/-- Every core at a boundary: takeovers, swaps, RUN. -/
def State.coresBoundary (s : State) : State :=
  let s := s.takeOvers
  let s := (List.finRange 16).foldl (fun (t : State) (c : Fin 16) => t.swapCore c) s
  (List.finRange 16).foldl (fun (t : State) (c : Fin 16) => t.runCore c) s

/-- Retry the replies that wait (R89). -/
def State.retryReplies (s : State) : State :=
  let rs := s.plat.replies
  let s := { s with plat := { s.plat with replies := [] } }
  rs.foldl (fun (t : State) r =>
    let m := Fin.ofNat 64 r.mb
    if t.canSend m r.core r.words.length then t.pushMsg m r.core r.words
    else
      let t := if t.on MB_CFG.EN 0 r.mb && t.mbFull m then t.count MB_STAT.FULL_CNT 1 0 r.mb else t
      { t with plat := { t.plat with replies := t.plat.replies ++ [{ r with tries := r.tries + 1 }] } }) s

/-- The opcodes that the service behind a request mailbox defines (R88; Tables 12.3, 13.2, 14.5, 15.5, 17.9 and 18.6). -/
def svcOps (m : Nat) : List Nat :=
  match m with
  | 56 => [0x01, 0x02, 0x10, 0x11, 0x20, 0x21, 0x30, 0x31]
  | 57 => [0x01, 0x02, 0x10, 0x20, 0x21, 0x30, 0x40, 0x50]
  | 58 => [0x01, 0x02, 0x10, 0x11, 0x20, 0x30, 0x31, 0x32, 0x33, 0x34, 0x40, 0x50]
  | 59 => [0x01, 0x02, 0x03, 0x04, 0x20, 0x21, 0x30, 0x40]
  | 60 => [0x01, 0x02, 0x03, 0x04, 0x05, 0x06, 0x07, 0x10, 0x11]
  | 61 => [0x01, 0x02, 0x10, 0x11, 0x12, 0x20, 0x30, 0x31]
  | _ => []

/-- The service core behind a request mailbox (R88, Table 4.8). -/
def svcOf (m : Nat) : Nat := if m = 56 then 16 else if m = 57 then 17 else if m ≤ 59 then 18 else 19

/-- A request at the head of a service's mailbox whose opcode the service does not define is taken and answered BAD_OP (R88). -/
def State.badOp (s : State) (m : Nat) : State :=
  match s.mbox[(Fin.ofNat 64 m).val] with
  | g :: rest =>
    let w := (g.words[0]?).getD 0
    if (svcOps m).contains (bits w 0 16) then s
    else
      (s.modMbox (Fin.ofNat 64 m) fun _ => rest).done ⟨g.sender, bits w 16 6, (g.words[1]?).getD 0, bit w 31⟩ (svcOf m) (bits w 0 16) stBadOp []
  | [] => s

/-- At a boundary, which lies within the two frames of R89, the services answer what they do not know. -/
def State.badOps (s : State) : State :=
  if s.plat.serviceUp then (List.range 6).foldl (fun (t : State) k => forUpTo 16 (fun _ u => u.badOp (56 + k)) t) s else s

def execServiceReplyDrop (index : Nat) (s : State) : Host.Outcome State Fault Refusal :=
  s.act (
    match s.plat.replies[index]? with
    | some r =>
      if 4 ≤ r.tries then
        { s with plat := { s.plat with replies := s.plat.replies.eraseIdx index } }.record .mbDrop (node domPlatform r.mb none8)
          [r.core, (r.words[0]?).getD 0, (r.words[1]?).getD 0]
      else s
    | none => s)

/-! ### Locks and mailboxes (R85, R86) -/

/-- Is this the instant of a boundary, not yet begun, at which an identity runs again: by a migration whose copy has ended, or
from HALTED with RUN = 1? -/
def State.runsNow (s : State) (c : Nat) : Bool :=
  let k := s.core (Fin.ofNat 16 c)
  s.mtc % frameTicks == 0 && decide (s.plat.frameNext ≤ s.mtc / frameTicks) &&
    ((s.plat.migrations.any fun m => m.core.val == c && m.copied.isSome) ||
      (k.life == .halted && !k.resetting && s.on CORE_CTL.RUN c && !s.on CORE_CTL.SPARE c && s.bankValid c k.bank.val))

/-- A write to LK_FREE (R85).  In the cycle in which the orphan's identity begins its frame, the boundary releases the lock, once,
and the write is neither an effect nor ignored (Table 4.9). -/
def State.lkFree (s : State) (n : Fin 256) : State :=
  let l := s.locks[n.val]
  if l.orphan then (if l.holder.any fun h => s.runsNow h.req then s else s.orphanFree n 1)
  else if l.back = some s.mtc then s
  else s.count LK_STAT.FREE_IGN

def execLkFree (n : Fin 256) (rq : Req) (s : State) : Host.Outcome State Fault Refusal := s.act (if rq.sup then s.lkFree n else s)

/-- Is a mailbox configured by the module (R87)? -/
def mbFixed (m : Nat) : Bool := m == 0 || (decide (56 ≤ m) && decide (m ≤ 61))

/-- Pool words in use (R86). -/
def State.poolUsed (s : State) : Nat :=
  (List.range 64).foldl (fun a m => if s.on MB_CFG.EN 0 m then a + s.mbDepth m * s.mbMaxw m else a) 0

/-- The cores that wait on a mailbox in MRECVW complete with BAD_MAILBOX (R86). -/
def State.recvBad (s : State) (m : Nat) : State :=
  (List.finRange 16).foldl (fun (t : State) (c : Fin 16) =>
    (t.core c).acts.foldl (fun (u : State) a =>
      match a.wait with
      | some (.recv r mb _ _) => if mb = m then u.endWait c a.entry r (mbStatus 0x02 0 (Config.unstated 12 [2, u.mtc, (u.core c).cyc] % 256)) else u
      | _ => u) t) s

/-- A write to MB_CFG (R86). -/
def State.mbCfg (s : State) (m : Fin 64) (w : Nat) : State :=
  if mbFixed m.val then s
  else
    let was := s.on MB_CFG.EN 0 m.val
    let en := bit w 0
    let t := s.putWord [MB_CFG.EN, MB_CFG.DEPTH, MB_CFG.MAXW, MB_CFG.RECV] w 0 m.val
    let changed := t.get MB_CFG.DEPTH 0 m.val != s.get MB_CFG.DEPTH 0 m.val || t.get MB_CFG.MAXW 0 m.val != s.get MB_CFG.MAXW 0 m.val
      || t.get MB_CFG.RECV 0 m.val != s.get MB_CFG.RECV 0 m.val
    if (was && changed) || (!was && en && decide (4096 < t.poolUsed)) then s.put MB_POOL.CFG_ERR 1
    else if was && !en then
      ((t.modMbox m fun _ => []).count MB_STAT.DROP (s.mbox[m.val]).length 0 m.val).recvBad m.val
    else t

def execMbCfgWrite (m : Fin 64) (w : Nat) (rq : Req) (s : State) : Host.Outcome State Fault Refusal := s.act (if rq.sup then s.mbCfg m w else s)

end Sys2Proof.Machine
end

