-- ==== Sys2Proof/Machine/DcCtl.lean ====
section
/-! DEFINITION.  The fabric's arbiter as it is commanded (R306 to R313), and the control of the Decanter (R314 to R322). -/

namespace Sys2Proof.Machine

open Sys2Proof.Reg

/-! ### Arbiter -/

/-- Is a requester of the control class (Table 16.2)? -/
def State.isControl (s : State) (r : Nat) : Bool := s.on REQ_CFG.TC r

/-- Does control requester `r` outrank requester `o` (R308)? -/
def State.outranks (s : State) (r o : Nat) : Bool := !s.isControl o || decide (s.get REQ_CFG.PRIO o < s.get REQ_CFG.PRIO r)

/-- Now, in CLK_FAB cycles of 2.5 ns. -/
def State.fabNow (s : State) : Nat := 2 * s.mtc

/-- CREDIT_WIN in cycles; values below 64 are treated as 64. -/
def State.creditWin (s : State) : Nat := max 64 (s.get ARB_CFG.CREDIT_WIN)

/-- Is a new credit window due? -/
def State.windowDue (s : State) : Bool :=
  match s.dc.window with
  | some t => decide (t + s.creditWin ≤ s.fabNow)
  | none => true

/-- Every data requester's CREDIT is its REFILL (R309). -/
def State.refill (s : State) : State :=
  (List.range 88).foldl (fun (t : State) r => if t.isControl r then t else t.put REQ_CREDIT.CREDIT (t.get REQ_CREDIT.REFILL r) r) s

/-- The start of a credit window. -/
def execCreditWindow (s : State) : Host.Outcome State Fault Refusal :=
  s.act (if s.windowDue then { s.refill with dc := { s.dc with window := some s.fabNow } } else s)

/-- A write to REQ_CFG: CLASS of a data requester, PRIO of a control requester (R312, Table 16.8). -/
def State.reqWrite (s : State) (r word : Nat) : State :=
  if s.isControl r then s.put REQ_CFG.PRIO (bits word 8 8) r else s.put REQ_CFG.CLASS (bits word 1 3) r

/-- A write to REQ_CFG.PRIO of a control requester. -/
def execReqPrioWrite (r : Fin 88) (prio : Nat) (rq : Req) (s : State) : Host.Outcome State Fault Refusal :=
  s.act (if rq.sup && s.isControl r.val then s.put REQ_CFG.PRIO prio r.val else s)

/-- The control requester of the highest PRIO among some, the lowest number on a tie. -/
def State.topControl (s : State) (rs : List (Fin 88)) : Option (Fin 88) :=
  (rs.filter fun r => s.isControl r.val).foldl (fun (best : Option (Fin 88)) (r : Fin 88) =>
    match best with
    | none => some r
    | some b =>
      let p := s.get REQ_CFG.PRIO r.val
      let q := s.get REQ_CFG.PRIO b.val
      if q < p ∨ (q = p ∧ r < b) then some r else some b) none

/-- The waiting requester that takes port `p` from its holder, if one may (R308). -/
def State.revoker (s : State) (p : Fin 5) (owner : Fin 88) (waiting : List (Fin 88)) : Option (Fin 88) :=
  if s.on FP_CFG.PREEMPT_EN p.val then s.topControl (waiting.filter fun r => s.outranks r.val owner.val && r != owner) else none

/-- Port `p` passes from its holder to `r` (R311).  `beats` of the revoked transfer were granted; in CREDIT mode they are
credited back. -/
def State.revoke (s : State) (p : Fin 5) (owner r : Fin 88) (beats : Nat) : State :=
  let t := (s.count FP_CNT.REVOKES 1 p.val).count REQ_REVOKED.W 1 owner.val
  let t := if s.on FP_CFG.MODE p.val && !s.isControl owner.val then t.count REQ_CREDIT.CREDIT beats owner.val else t
  ((t.put FP_STAT.OWNER r.val p.val).put FP_STAT.PARKED 0 p.val).put FP_STAT.BUSY 1 p.val

/-- A port whose holder a waiting requester outranks: the requesters that wait, and the beats granted. -/
def execFabricRevoke (p : Fin 5) (owner : Fin 88) (waiting : List (Fin 88)) (beats : Nat) (s : State) :
    Host.Outcome State Fault Refusal :=
  s.act (
    match s.revoker p owner waiting with
    | some r => (s.revoke p owner r beats).put FP_STAT.WAITING waiting.eraseDups.length p.val
    | none => s)

/-- The port of a fabric address (Table 16.1). -/
def fabPort (a : Nat) : Option Nat :=
  if inDram a then some (if bit a 12 then 1 else 0)
  else if inSram a then some 2
  else if inPeriph a then some 3
  else if inTcm a then some 4
  else none

/-- One beat of a requester at the port of an address, after which the port stays parked on it (R310, Table 16.6); a data
requester's grant is counted, and in CREDIT mode its beat charged (R309, R313). -/
def State.beat (s : State) (a r : Nat) : State :=
  match fabPort a with
  | none => s
  | some p =>
    let s := (((s.put FP_STAT.OWNER r p).put FP_STAT.PARKED 1 p).put FP_STAT.BUSY 0 p).count FP_BEATS.W 1 p
    if s.isControl r then s
    else
      let s := s.count REQ_GRANTS.W 1 r
      if s.on FP_CFG.MODE p then s.put REQ_CREDIT.CREDIT (s.get REQ_CREDIT.CREDIT r - 1) r else s

/-- Bytes of a beat at a port (Table 16.1). -/
def beatBytes (p : Nat) : Nat :=
  match p with
  | 0 | 1 => 64
  | 2 => 32
  | 3 => 4
  | _ => 16

/-- The beats that `len` bytes from a fabric address take. -/
def beatsOf (a len : Nat) : Nat :=
  match fabPort a with
  | some p => if len = 0 then 0 else (a + len - 1) / beatBytes p - a / beatBytes p + 1
  | none => 0

/-! ### Decanter channels -/

def State.dcCh (s : State) (n : Fin 32) : Dc := s.dc.ch[n.val]
def State.modDc (s : State) (n : Fin 32) (f : Dc → Dc) : State := { s with dc := { s.dc with ch := upd s.dc.ch n f } }

/-- DC_STAT.STATE and CAUSE encodings (Table 16.9). -/
def dcIdle : Nat := 0
def dcFetch : Nat := 1
def dcMove : Nat := 2
def dcWriteback : Nat := 3
def dcRateWait : Nat := 4
def dcHalted : Nat := 5
def dcRunaway : Nat := 1
def dcSelfLink : Nat := 2
def dcWbFail : Nat := 3
def dcFetchFail : Nat := 4
def dcStopped : Nat := 5

def State.dcState (s : State) (n : Fin 32) : Nat := s.get DC_STAT.STATE n.val
def State.dcFlag (s : State) (n : Fin 32) (b : Nat) : State := s.flag DC_FLAGS.F DC_EVMASK.F b 0x2B n.val
def dcNode (n : Fin 32) : Nat := node domPlatform none8 n.val

/-- DC_CUR as a fabric address. -/
def State.dcCur (s : State) (n : Fin 32) : Nat := s.addr40 DC_CUR_LO.ADDR DC_CUR_HI.ADDR n.val
def State.dcErrAddr (s : State) (n : Fin 32) : Nat := s.get DC_ERR_ADDR_LO.W n.val + 2 ^ 32 * s.get DC_ERR_ADDR_HI.ADDR n.val

/-! ### Movers (R314) -/

def State.onMover (s : State) (n : Fin 32) : Bool := s.dc.movers.any fun m => m == some n

/-- A channel that could use a mover now. -/
def State.dcReady (s : State) (n : Fin 32) : Bool := s.dcState n == dcMove && !s.onMover n && !(s.dcCh n).desc.isNone

/-- The first channel in round robin after `last` that satisfies `p`. -/
def nextOf (last : Nat) (p : Fin 32 → Bool) : Option (Fin 32) :=
  ((List.range 32).map fun k => (Fin.ofNat 32 (last + 1 + k))).find? p

/-- A free mover takes its next channel: HI channels first, each kind in round robin. -/
def State.moverTake (s : State) (m : Fin 2) : State :=
  if (s.dc.movers[m.val]).isSome then s
  else
    match nextOf s.dc.lastHi fun n => s.dcReady n && s.on DC_CFG.HI n.val with
    | some n => { s.put DC_STAT.BUF 0 n.val with dc := { s.dc with movers := s.dc.movers.set m.val (some n) m.isLt, lastHi := n.val } }
    | none =>
      match nextOf s.dc.lastLo fun n => s.dcReady n with
      | some n => { s.put DC_STAT.BUF 0 n.val with dc := { s.dc with movers := s.dc.movers.set m.val (some n) m.isLt, lastLo := n.val } }
      | none => s

def State.moversTake (s : State) : State := (s.moverTake 0).moverTake 1

/-- A channel gives up its mover. -/
def State.moverFree (s : State) (n : Fin 32) : State :=
  { s with dc := { s.dc with movers := s.dc.movers.map fun m => if m = some n then none else m } }.moversTake

/-- A HI channel that is ready takes the mover of the higher-numbered of two normal channels (R314). -/
def execDcHiPreempt (n : Fin 32) (s : State) : Host.Outcome State Fault Refusal :=
  s.act (
    match s.dc.movers[0], s.dc.movers[1] with
    | some a, some b =>
      if s.live && s.dcReady n && s.on DC_CFG.HI n.val && !s.on DC_CFG.HI a.val && !s.on DC_CFG.HI b.val then
        let m : Fin 2 := if b < a then 0 else 1
        let v := if b < a then a else b
        let t := { s with dc := { s.dc with movers := s.dc.movers.set m.val (some n) m.isLt, lastHi := n.val } }
        (t.put DC_STAT.BUF 1 v.val).count DC_CNT1.PREEMPTS 1 v.val
      else s
    | _, _ => s)

/-! ### The chain (R317, R319) -/

/-- Halt a channel with its cause: DMA_HALT, event 0x2C, the flag of the cause, and the report (R317, Table 17.1). -/
def State.dcHalt (s : State) (n : Fin 32) (cause : Nat) : State :=
  let t := ((s.put DC_STAT.STATE dcHalted n.val).put DC_STAT.CAUSE cause n.val).put DC_STAT.BUF 0 n.val
  let t := (t.modDc n fun _ => Dc.zero).moverFree n
  let t := t.dcFlag n (if cause = dcWbFail then DC_FLAGS.WB_FAIL else if cause = dcFetchFail then DC_FLAGS.FETCH_FAIL
    else if cause = dcStopped then DC_FLAGS.STOPPED else DC_FLAGS.RUNAWAY)
  let t := (t.record .dmaHalt (dcNode n) ([cause] ++ two (t.dcCur n) ++ [t.get DC_STAT.HOPS n.val])).raise 0x2C
  t.errReport errDmaHalt n.val (dcNode n) []

/-- Point CUR at a descriptor and fetch it. -/
def State.dcGoto (s : State) (n : Fin 32) (a : Nat) : State :=
  let t := (s.put DC_CUR_LO.ADDR (a / 32) n.val).put DC_CUR_HI.ADDR (a / 2 ^ 32) n.val
  ((t.put DC_STAT.CUR_VALID 1 n.val).put DC_STAT.STATE dcFetch n.val).put DC_STAT.CAUSE 0 n.val

/-- HOP_LIMIT, 0 treated as 1. -/
def State.hopLimit (s : State) (n : Fin 32) : Nat := max 1 (s.get DC_HOP.HOP_LIMIT n.val)

/-- Follow NEXT, unless the chain has reached HOP_LIMIT. -/
def State.dcFollow (s : State) (n : Fin 32) (next : Nat) : State :=
  if s.hopLimit n ≤ s.get DC_STAT.HOPS n.val then s.dcHalt n dcRunaway else s.dcGoto n next

/-- END and NEXT of a descriptor in memory: words 0, 5 and 6. -/
def State.dcLink (s : State) (a : Nat) : Bool × Nat :=
  (bit (s.fabN a 4) 8, s.fabN (a + 20) 4 / 32 * 32 + 2 ^ 32 * (s.fabN (a + 24) 4 % 256))

/-- Re-read words 0, 5 and 6 of CUR: END = 0 is followed, END = 1 counts in REFETCH (R317, R321). -/
def State.dcReread (s : State) (n : Fin 32) : State :=
  let a := s.dcCur n
  if !fabReaches a false false then s.dcHalt n dcFetchFail
  else
    let (stop, next) := s.dcLink a
    if stop then s.count DC_CNT2.REFETCH 1 n.val
    else if next = a then s.dcHalt n dcSelfLink
    else s.dcFollow n next

/-- Start the chain at HEAD. -/
def State.dcHead (s : State) (n : Fin 32) : State :=
  (s.put DC_STAT.HOPS 0 n.val).dcGoto n (s.addr40 DC_HEAD_LO.ADDR DC_HEAD_HI.ADDR n.val)

def State.dcStart (s : State) (n : Fin 32) : State :=
  if s.on DC_CFG.EN n.val && s.dcState n == dcIdle then s.dcHead n else s

/-- STOP, or EN written to 0 (R322): a write-back in progress ends first. -/
def State.dcStop (s : State) (n : Fin 32) : State :=
  if s.dcState n = dcIdle ∨ s.dcState n = dcHalted then s
  else if s.dcState n = dcWriteback then s.modDc n fun d => { d with stopping := true }
  else s.dcHalt n dcStopped

def State.dcClear (s : State) (n : Fin 32) : State :=
  if s.dcState n = dcHalted then
    ((s.put DC_STAT.STATE dcIdle n.val).put DC_STAT.CAUSE 0 n.val).put DC_STAT.CUR_VALID 1 n.val
  else s

/-- A write to DC_CTL: START, STOP, CLEAR. -/
def State.dcCtl (s : State) (n : Fin 32) (w : Nat) : State :=
  let s := if bit w 2 then s.dcClear n else s
  let s := if bit w 0 then s.dcStart n else s
  if bit w 1 then s.dcStop n else s

def execDcStart (n : Fin 32) (rq : Req) (s : State) : Host.Outcome State Fault Refusal := s.act (if rq.sup then s.dcStart n else s)
def execDcStop (n : Fin 32) (rq : Req) (s : State) : Host.Outcome State Fault Refusal := s.act (if rq.sup then s.dcStop n else s)
def execDcClear (n : Fin 32) (rq : Req) (s : State) : Host.Outcome State Fault Refusal := s.act (if rq.sup then s.dcClear n else s)

/-- A ring of the doorbell (R303, R321). -/
def State.dcRing (s : State) (n : Fin 32) (id : Nat) : State :=
  let owner := s.get DC_CFG.OWNER n.val
  if owner ≠ 0x1F ∧ id ≠ owner then (s.dcFlag n DC_FLAGS.OWNER_IGN).count DC_CNT2.IGN 1 n.val
  else
    let t := s.bumpMod DC_DBCNT.W n.val
    let t := if t.dcState n = dcHalted then t else t.put DC_STAT.HOPS 0 n.val
    if t.dcState n = dcIdle ∧ t.on DC_CFG.EN n.val then
      (if t.on DC_STAT.CUR_VALID n.val then t.dcReread n else t.dcHead n)
    else t

def execDcDoorbell (n : Fin 32) (rq : Req) (s : State) : Host.Outcome State Fault Refusal := s.act (s.dcRing n (s.served rq.id))

/-- The fields of DC_CFG. -/
def dcCfgFields : List Fld := [DC_CFG.EN, DC_CFG.HI, DC_CFG.PRIV, DC_CFG.BURST, DC_CFG.RATE, DC_CFG.RETRY_MAX, DC_CFG.OWNER]

/-- A write to DC_CFG: of a channel neither IDLE nor HALTED only EN is taken (R322). -/
def State.dcCfg (s : State) (n : Fin 32) (w : Nat) : State :=
  let still := s.dcState n == dcIdle || s.dcState n == dcHalted
  let was := s.on DC_CFG.EN n.val
  let t := if still then s.putWord dcCfgFields w n.val else s.put DC_CFG.EN (w % 2) n.val
  if was && !bit w 0 then t.dcStop n else t

def execDcEnableWrite (n : Fin 32) (w : Nat) (rq : Req) (s : State) : Host.Outcome State Fault Refusal := s.act (if rq.sup then s.dcCfg n w else s)

/-! ### Descriptors (R315 to R318) -/

/-- A descriptor as it lies in memory (Table 16.3). -/
def State.dcRead (s : State) (n : Fin 32) (a : Nat) : DcDesc :=
  let w := fun k => s.fabN (a + 4 * k) 4
  { op := w 0 % 8, stop := bit (w 0) 8, ev := bit (w 0) 9, src := w 1 + 2 ^ 32 * (w 2 % 256), dst := w 3 + 2 ^ 32 * bits (w 2) 8 8
    const := w 1, len := w 4 % 2 ^ 24, next := w 5 / 32 * 32 + 2 ^ 32 * (w 6 % 256), db := s.get DC_DBCNT.W n.val }

/-- STATUS values of word 7. -/
def dcOk : Nat := 0x01
def dcMismatch : Nat := 0x02
def dcBadBus : Nat := 0x10
def dcBadTimeout : Nat := 0x11
def dcBadOp : Nat := 0x12
def dcBadAlign : Nat := 0x13

/-- A descriptor's operation has ended with a status: its word 7 is to be written back. -/
def State.dcEnd (s : State) (n : Fin 32) (status result : Nat) : State :=
  let t := s.modDc n fun d => { d with status := status, result := result, tries := 0 }
  ((t.put DC_STAT.STATE dcWriteback n.val).put DC_STAT.BUF 0 n.val).moverFree n

/-- A BAD end: BAD, DESC_BAD and the report with DC_ERR_ADDR (R318). -/
def State.dcBad (s : State) (n : Fin 32) (status result : Nat) : State :=
  let t := ((s.dcEnd n status result).dcFlag n DC_FLAGS.BAD).count DC_CNT0.DESC_BAD 1 n.val
  t.errReport errDmaBad n.val (dcNode n) (two (t.dcErrAddr n))

/-- Does a range of `len` bytes touch FP3 other than by aligned words (R316)? -/
def fp3Bad (a len : Nat) : Bool := (inPeriph a || inPeriph (a + len - 1)) && (a % 4 != 0 || len % 4 != 0)

/-- Is the descriptor's data misaligned? -/
def DcDesc.misaligned (d : DcDesc) : Bool :=
  d.len != 0 && ((d.op == 1 && (d.dst % 4 != 0 || d.len % 4 != 0)) || fp3Bad d.dst d.len || (d.op != 1 && fp3Bad d.src d.len))

/-- Is the pause after the channel's last burst still on (R320)? -/
def State.dcPausing (s : State) (n : Fin 32) : Bool := decide (s.fabNow < (s.dcCh n).until_)

/-- A descriptor fetch returns (R317). -/
def execDcDescriptorFetched (n : Fin 32) (ok : Bool) (s : State) : Host.Outcome State Fault Refusal :=
  s.act (
    if !s.live || s.dcState n != dcFetch then s
    else
      let a := s.dcCur n
      if !ok || !fabReaches a false false then s.dcHalt n dcFetchFail
      else
        let d := s.dcRead n a
        let t := (s.put DC_STAT.HOPS (s.get DC_STAT.HOPS n.val + 1) n.val).put DC_REMAIN.LEN d.len n.val
        if !d.stop && d.next == a then t.dcHalt n dcSelfLink
        else
          let t := t.modDc n fun c => { c.rest with desc := some d }
          if 2 < d.op then t.dcBad n dcBadOp 0
          else if d.misaligned then t.dcBad n dcBadAlign 0
          else if d.len = 0 then t.dcEnd n dcOk 0
          else if t.dcPausing n then t.put DC_STAT.STATE dcRateWait n.val
          else (t.put DC_STAT.STATE dcMove n.val).moversTake)

/-- The response to the write of word 7 returns (R317). -/
def execDcWritebackDone (n : Fin 32) (ok : Bool) (s : State) : Host.Outcome State Fault Refusal :=
  s.act (
    match (s.dcCh n).desc with
    | none => s
    | some d =>
      if !s.live || s.dcState n != dcWriteback then s
      else
        let c := s.dcCh n
        if !ok then
          if s.get DC_CFG.RETRY_MAX n.val ≤ c.tries then s.dcHalt n dcWbFail
          else (s.modDc n fun x => { x with tries := x.tries + 1 }).count DC_CNT1.RETRIES 1 n.val
        else
          let s := s.fabWrite (s.dcCur n + 28) [c.status + 2 ^ 8 * c.result]
          let s := if c.status = dcOk then s.count DC_CNT0.DESC_OK 1 n.val else s
          let s := if c.status = dcMismatch then s.dcFlag n DC_FLAGS.MISMATCH else s
          let s := if d.ev then s.dcFlag n DC_FLAGS.DESC else s
          let s := s.put DC_REMAIN.LEN 0 n.val
          if c.stopping then s.dcHalt n dcStopped
          else if !d.stop then (s.modDc n Dc.rest).dcFollow n d.next
          else
            let idle := fun (t : State) =>
              if t.dcState n = dcWriteback then
                ((t.modDc n Dc.rest).dcFlag n DC_FLAGS.DONE).put DC_STAT.STATE dcIdle n.val
              else t
            if s.get DC_DBCNT.W n.val ≠ d.db then idle ((s.modDc n Dc.rest).dcReread n)
            else idle s)

/-- The rate pause ends: the channel may take a mover again (R320). -/
def execDcRatePauseEnd (n : Fin 32) (s : State) : Host.Outcome State Fault Refusal :=
  s.act (if s.live && s.dcState n == dcRateWait && !s.dcPausing n then (s.put DC_STAT.STATE dcMove n.val).moversTake else s)

end Sys2Proof.Machine
end

