-- ==== Sys2Proof/Machine/Isobus.lean ====
section
/-! DEFINITION.  The ISOBUS service (R276 to R279): networks, address claims, transport, the VT and TC roles. -/

namespace Sys2Proof.Machine

open Sys2Proof.Reg

/-- The service core of the ISOBUS service, and its mailbox. -/
def netCore : Nat := 17
def netBox : Fin 64 := 57

def State.modNet (s : State) (k : Fin 4) (f : Net → Net) : State := { s with nets := s.nets.set k.val ((s.nets[k.val]).map f) k.isLt }

/-- The abort reason of a transport session refused for want of a session (R277), and of one that fails otherwise. -/
def abortBusy : Nat := 1

/-! ### Identifiers of ISO 11783-3 -/

/-- A 29-bit identifier from priority, PGN, destination and source. -/
def netId (prio pgn da sa : Nat) : Nat :=
  let ps := if bits pgn 8 8 < 240 then pgn / 256 * 256 + da % 256 else pgn
  prio % 8 * 2 ^ 26 + ps % 2 ^ 18 * 2 ^ 8 + sa % 256

/-- PGN, destination and source of an identifier. -/
def netPgn (id : Nat) : Nat :=
  let p := bits id 8 18
  if bits id 16 8 < 240 then p / 256 * 256 else p
def netDa (id : Nat) : Nat := if bits id 16 8 < 240 then bits id 8 8 else 0xFF
def netSa (id : Nat) : Nat := bits id 0 8
def netPrio (id : Nat) : Nat := bits id 26 3

def pgnClaim : Nat := 0xEE00
def pgnRequest : Nat := 0xEA00
def pgnTpCm : Nat := 0xEC00
def pgnTpDt : Nat := 0xEB00
def pgnEtpCm : Nat := 0xC800
def pgnEtpDt : Nat := 0xC700
def pgnProcess : Nat := 0xCB00
def pgnToVt : Nat := 0xE700
def pgnFromVt : Nat := 0xE600

/-- A little-endian number of some bytes. -/
def leNat (d : List Nat) : Nat := d.foldr (fun b a => b % 256 + 256 * a) 0

/-- A NAME is self-configurable when its top bit is set (ISO 11783-5). -/
def selfConfig (name : Nat) : Bool := bit name 63

/-! ### Sending -/

/-- A notification or received PGN: code, network, words. -/
def State.netNotify (s : State) (k : Fin 4) (words : List Nat) : State :=
  match s.nets[k.val] with
  | some x => s.svcSend netCore x.notify (words.map (· % 2 ^ 32))
  | none => s

/-- Put frames that wait into free transmit buffers, in order. -/
def State.netPump (s : State) (k : Fin 4) : State :=
  (List.finRange 32).foldl (fun (t : State) (b : Fin 32) =>
    match t.nets[k.val] with
    | some x =>
      match x.txq with
      | f :: rest =>
        if t.txPending x.can.val b.val || x.busy.any fun e => e.1 == b then t
        else
          let ws := [f.id + 2 ^ 29, 0, 0, f.data.length + 2 ^ 4 * f.data.length] ++ (List.range 16).map fun i => dataWord f.data i
          let t := t.modCan x.can fun c => { c with tx := upd c.tx b fun e => { e with words := ws } }
          let t := t.modNet k fun y => { y with txq := rest, busy := y.busy ++ [(b, f.req)] }
          t.txRequest x.can (2 ^ b.val) netCore
      | [] => t
    | none => t) s

/-- Send a frame. -/
def State.netSend (s : State) (k : Fin 4) (prio pgn da sa : Nat) (d : List Nat) (req : Option (SvcWait × Nat)) : State :=
  (s.modNet k fun x => { x with txq := x.txq ++ [⟨netId prio pgn da sa, d, req⟩] }).netPump k

/-- Answer a kept request of this service. -/
def State.netReply (s : State) (w : SvcWait) (op status : Nat) (results : List Nat) : State := s.done w.req netCore op status results

/-- A transport session ends that a request waits for. -/
def State.tpAnswer (s : State) (req : Option (SvcWait × Nat)) (ok : Bool) (reason : Nat) : State :=
  match req with
  | some q => if ok then s.netReply q.1 q.2 stOk [] else s.netReply q.1 q.2 stBadParam [reason]
  | none => s

/-- The service holds its controller at its own OWNER, bit timing and INIT (R276): where they have been reset it writes them
again. -/
def State.netHold (s : State) (n : Fin 8) (fast : Bool) : State :=
  if s.on CAN_CTL.INIT n.val then
    let s := (s.put CAN_CFG.OWNER 0x10 n.val).putWord [CAN_NBT.BRP, CAN_NBT.TSEG1, CAN_NBT.TSEG2, CAN_NBT.SJW] 0x0A0A4504 n.val
    (if fast then s.put CAN_NBT.BRP 2 n.val else s).canInitWrite n false
  else s

/-- Transmit buffers of the service that have completed: their requests are answered, and further frames go out. -/
def State.netSync (s : State) (n : Fin 8) : State :=
  match s.netOn n with
  | none => s
  | some k =>
    match s.nets[k.val] with
    | none => s
    | some x =>
      let s := s.netHold n x.fast
      let done := x.busy.filter fun e => !s.txPending n.val e.1.val
      let s := s.modNet k fun y => { y with busy := y.busy.filter fun e => s.txPending n.val e.1.val }
      let s := done.foldl (fun (t : State) (e : Fin 32 × Option (SvcWait × Nat)) =>
        let sent := ((t.can[n.val]).events.any fun v => v.buf == e.1.val && v.result == resSent)
        let t := t.clearBit CAN_TX_DONE.W e.1.val n.val
        let t := t.modCan n fun c => { c with events := c.events.filter fun v => v.buf != e.1.val }
        t.tpAnswer e.2 sent (Config.unstated 7 [e.1.val])) s
      s.netPump k

/-! ### Networks (R276) -/

def execNetOpen (q : SvcReq) (can kind rate notify leave : Nat) (s : State) : Host.Outcome State Fault Refusal :=
  s.act (
    if !s.plat.serviceUp then s
    else
      let s := s.request netBox 0x0001 q [can, kind + 2 ^ 8 * rate, notify, leave]
      match (List.finRange 4).find? fun k => (s.nets[k.val]).isNone with
      | none => s.done q netCore 0x0001 stBadParam []
      | some k =>
        if 8 ≤ can ∨ 1 < kind ∨ 1 < rate ∨ leave = 0 ∨ 30 < leave ∨ !s.on CAN_CTL.INIT can then s.done q netCore 0x0001 stBadParam []
        else
          let n := Fin.ofNat 8 can
          let s := { s with nets := s.nets.set k.val (some ⟨n, kind == 1, kind == 1 && rate == 1, notify % 64, leave, [], [], 0, [], [], [], [], [], none, []⟩) k.isLt }
          (s.netHold n (kind == 1 && rate == 1)).done q netCore 0x0001 stOk [k.val])

/-- The requests that a network has still to answer, with their opcodes. -/
def Net.requests (x : Net) : List (SvcWait × Nat) :=
  x.busy.filterMap Prod.snd ++ x.txq.filterMap NetTx.req ++ x.txs.filterMap TpSession.req
    ++ (x.vt.toList.map fun v => (v.req, 0x0030)) ++ (x.cfs.filterMap fun c => c.req.map fun w => (w, 0x0010))

/-- Close a network: what it has still to answer fails, and its controller returns to INIT with OWNER = 0x1F. -/
def State.netClose (s : State) (k : Fin 4) : State :=
  match s.nets[k.val] with
  | none => s
  | some x =>
    let s := { s with nets := s.nets.set k.val none k.isLt }
    let s := x.requests.foldl (fun (t : State) (w : SvcWait × Nat) => t.tpAnswer (some w) false (Config.unstated 7 [w.2])) s
    (s.canInitWrite x.can true).put CAN_CFG.OWNER 0x1F x.can.val

def execNetClose (q : SvcReq) (net : Nat) (s : State) : Host.Outcome State Fault Refusal :=
  s.act (
    if !s.plat.serviceUp then s
    else
      let s := s.request netBox 0x0002 q [net]
      if h : net < 4 then
        if (s.nets[net]).isNone then s.done q netCore 0x0002 stBadParam []
        else (s.netClose ⟨net, h⟩).done q netCore 0x0002 stOk []
      else s.done q netCore 0x0002 stBadParam [])

/-! ### Address claims -/

/-- Send the address claim of a NAME. -/
def State.netClaim (s : State) (k : Fin 4) (addr name : Nat) : State := s.netSend k 6 pgnClaim 0xFF addr (leBytes 8 name) none

def execCfAdd (q : SvcReq) (net record addr : Nat) (s : State) : Host.Outcome State Fault Refusal :=
  s.act (
    if !s.plat.serviceUp then s
    else
      let s := s.request netBox 0x0010 q [net, record, addr]
      match if h : net < 4 then (s.nets[net]).map fun x => (x, (⟨net, h⟩ : Fin 4)) else none,
          s.tags.recs.find? fun t => t.type == 0x0010 && t.index == record with
      | some (x, k), some t =>
        if 4 ≤ x.cfs.length then s.done q netCore 0x0010 stBadParam []
        else
          let name := leNat ((t.value.drop 4).take 8)
          let s := s.modNet k fun y => { y with cfs := y.cfs ++ [⟨record, name, addr % 256, false, s.mtc, some (keepReq q)⟩] }
          (s.netClaim k (addr % 256) name).reply q netCore 0x0010 stAccepted false []
      | _, _ => s.done q netCore 0x0010 stBadParam [])

/-- An address is held 250 ms after its claim. -/
def claimTicks : Nat := 50000000

/-- 250 ms after its claim an internal CF holds its address. -/
def execAddressClaimDone (k : Fin 4) (cf : Fin 4) (s : State) : Host.Outcome State Fault Refusal :=
  s.act (
    match (s.nets[k.val]).bind fun x => x.cfs[cf.val]? with
    | none => s
    | some c =>
      if c.held ∨ s.mtc < c.claimed + claimTicks then s
      else
        let s := s.modNet k fun x => { x with cfs := x.cfs.set cf.val { c with held := true, req := none } }
        match c.req with
        | some w => s.netReply w 0x0010 stOk [c.addr]
        | none => s)

/-- An address that no control function of the network has, from 128 to 247. -/
def Net.freeAddr (x : Net) : Nat :=
  (((List.range 120).map fun i => 128 + i).find? fun a =>
    !(x.cfs.any fun c => c.addr == a) && !(x.ext.any fun c => c.present && c.addr == a)).getD 0xFE

/-- An internal CF loses its address (R279). -/
def State.claimLost (s : State) (k : Fin 4) (i : Nat) (c : IntCf) : State :=
  match s.nets[k.val] with
  | none => s
  | some x =>
    let a := x.freeAddr
    let s :=
      if selfConfig c.name ∧ a ≠ 0xFE then
        (s.modNet k fun x => { x with cfs := x.cfs.set i { c with addr := a, held := false, claimed := s.mtc } }).netClaim k a c.name
      else
        let s := (s.netClaim k 0xFE c.name).modNet k fun x => { x with cfs := x.cfs.eraseIdx i }
        match c.req with
        | some w => s.netReply w 0x0010 stBadParam []
        | none => s
    s.netNotify k [0x0103, k.val, i]

/-! ### External control functions (R279) -/

/-- Has a NAME sections mapped? -/
def Net.mapped (x : Net) (name : Nat) : Bool := x.maps.any fun m => m.name == name

/-- CF_JOIN or CF_LEAVE. -/
def State.cfNotify (s : State) (k : Fin 4) (code : Nat) (c : ExtCf) (ready : Bool) : State :=
  s.netNotify k ([code, k.val] ++ two c.name ++ [c.addr, b2n ready])

/-- An external CF becomes ABSENT: sessions with its address are aborted, and mapped sections go off. -/
def State.cfAbsent (s : State) (k : Fin 4) (name : Nat) : State :=
  match (s.nets[k.val]).bind fun x => (x.ext.find? fun c => c.name == name && c.present).map fun c => (x, c) with
  | none => s
  | some (x, c) =>
    let gone := x.txs.filter fun t => t.da == c.addr
    let s := s.modNet k fun y =>
      { y with
        ext := y.ext.map fun e => if e.name = name then { e with present := false, descr := false, work := false } else e
        rxs := y.rxs.filter fun t => t.sa != c.addr
        txs := y.txs.filter fun t => t.da != c.addr }
    let s := gone.foldl (fun (t : State) (g : TpSession) => t.tpAnswer g.req false (Config.unstated 7 [c.addr])) s
    let s := s.cfNotify k 0x0101 c false
    if x.mapped name then s.putB SC_CFG.MASTER false else s

/-- No frame has arrived from the address of a CF for LEAVE_T. -/
def State.cfSilent (s : State) (k : Fin 4) (name : Nat) : Bool :=
  (s.nets[k.val]).any fun x => x.ext.any fun e => e.name == name && e.present && decide (e.last + x.leave * 200000000 ≤ s.mtc)

def execCfLeaveTimeout (k : Fin 4) (name : Nat) (s : State) : Host.Outcome State Fault Refusal :=
  s.act (if s.cfSilent k name then s.cfAbsent k name else s)

/-- A valid address claim of an external CF. -/
def State.cfClaims (s : State) (k : Fin 4) (name addr : Nat) : State :=
  match s.nets[k.val] with
  | none => s
  | some x =>
    -- another NAME that had the address leaves
    let s := (x.ext.filter fun e => e.present && e.addr == addr && e.name != name).foldl (fun (t : State) (e : ExtCf) => t.cfAbsent k e.name) s
    match x.ext.find? fun e => e.name == name with
    | some e =>
      let e' : ExtCf := { e with addr := addr, present := true, last := s.mtc }
      let s := s.modNet k fun y => { y with ext := y.ext.map fun c => if c.name = name then e' else c }
      if e.present || x.mapped name then s else s.cfNotify k 0x0100 e' false
    | none =>
      if 64 ≤ x.ext.length then s.modNet k fun y => { y with untracked := y.untracked + 1 }
      else
        let e : ExtCf := ⟨name, addr, true, s.mtc, false, false⟩
        (s.modNet k fun y => { y with ext := y.ext ++ [e] }).cfNotify k 0x0100 e false

/-- An address claim arrives. -/
def State.netClaimed (s : State) (k : Fin 4) (name addr : Nat) : State :=
  if addr = 0xFE then s.cfAbsent k name
  else
    match (s.nets[k.val]).bind fun x => (x.cfs.findIdx? fun c => c.addr == addr).bind fun i => (x.cfs[i]?).map fun c => (i, c) with
    | some (i, c) =>
      if c.name < name then s.netClaim k c.addr c.name
      else (s.claimLost k i c).cfClaims k name addr
    | none => s.cfClaims k name addr

/-! ### Transport (R277) -/

/-- Bytes 5 to 7 of a connection management frame. -/
def cmPgn (pgn : Nat) : List Nat := leBytes 3 pgn

/-- The packets of a message. -/
def packets (len : Nat) : Nat := (len + 6) / 7

/-- A data packet: its sequence number and seven bytes, filled up with 0xFF. -/
def dtPacket (seq : Nat) (d : List Nat) (i : Nat) : List Nat := seq :: (((d.drop (7 * i)).take 7) ++ List.replicate 7 0xFF).take 7

def TpSession.cm (t : TpSession) : Nat := if t.etp then pgnEtpCm else pgnTpCm
def TpSession.dt (t : TpSession) : Nat := if t.etp then pgnEtpDt else pgnTpDt

/-- Send a message of more than eight bytes: BAM to all, else RTS. -/
def State.tpStart (s : State) (k : Fin 4) (sa da pgn prio : Nat) (d : List Nat) (req : Option (SvcWait × Nat)) : State :=
  match s.nets[k.val] with
  | none => s
  | some x =>
    let n := d.length
    let etp := decide (1785 < n)
    if etp ∧ (da = 0xFF ∨ x.j1939 ∨ 117440505 < n) then s.tpAnswer req false (Config.unstated 7 [n])
    else if da = 0xFF then
      let s := s.netSend k 7 pgnTpCm 0xFF sa ([32] ++ leBytes 2 n ++ [packets n, 0xFF] ++ cmPgn pgn) none
      (List.range (packets n)).foldl (fun (t : State) (i : Nat) =>
        t.netSend k 7 pgnTpDt 0xFF sa (dtPacket (i + 1) d i) (if i + 1 = packets n then req else none)) s
    else if 16 ≤ x.txs.length then s.tpAnswer req false abortBusy
    else
      let t : TpSession := ⟨etp, sa, da, pgn, n, d, 0, 0, prio, req, s.mtc⟩
      let s := s.modNet k fun y => { y with txs := y.txs ++ [t] }
      s.netSend k 7 t.cm da sa
        ((if etp then [20] ++ leBytes 4 n else [16] ++ leBytes 2 n ++ [packets n, 0xFF]) ++ cmPgn pgn) none

/-- A clear-to-send for a transmit session: the packets it asks for go out. -/
def State.tpCts (s : State) (k : Fin 4) (t : TpSession) (count first : Nat) : State :=
  let last := min (packets t.len) (first - 1 + count)
  let s := if t.etp ∧ 0 < count then s.netSend k 7 t.cm t.da t.sa ([22, count % 256] ++ leBytes 3 (first - 1) ++ cmPgn t.pgn) none else s
  (List.range (last - (first - 1))).foldl (fun (u : State) (i : Nat) =>
    u.netSend k 7 t.dt t.da t.sa (dtPacket (if t.etp then i + 1 else first + i) t.data (first - 1 + i)) none) s

/-- Ask for the next window of a receive session. -/
def State.tpAsk (s : State) (k : Fin 4) (t : TpSession) : State :=
  let n := min 255 (packets t.len - t.next)
  let body := if t.etp then [21, n] ++ leBytes 3 (t.next + 1) else [17, n, t.next + 1, 0xFF, 0xFF]
  s.netSend k 7 t.cm t.sa t.da (body ++ cmPgn t.pgn) none

/-- Deliver a received message to the subscriptions of its PGN (R278). -/
def State.netDeliver (s : State) (k : Fin 4) (pgn da sa prio start : Nat) (d : List Nat) : State :=
  match s.nets[k.val] with
  | none => s
  | some x =>
    let absent := x.ext.any (fun e => e.addr == sa && !e.present) && !(x.ext.any fun e => e.addr == sa && e.present)
    let mine := da == 0xFF || x.cfs.any fun c => c.addr == da
    if absent || !mine then s
    else
      (x.subs.filter fun b => b.pgn == pgn && (b.source == 0xFF || b.source == sa)).foldl (fun (t : State) (b : PgnSub) =>
        let n := d.length
        let head := [0x0080, k.val, pgn + 2 ^ 24 * sa, da + 2 ^ 8 * prio, n] ++ two start
        if n ≤ 36 then t.netNotify k (head ++ (List.range ((n + 3) / 4)).map fun i => dataWord d i)
        else (t.fabWriteBytes b.addr (d.take b.size)).netNotify k (head ++ two b.addr)) s

/-- What the VT answers to the pool being stored (R277). -/
def State.vtAnswer (s : State) (k : Fin 4) (da sa : Nat) (d : List Nat) : State :=
  match (s.nets[k.val]).bind fun x => x.vt.bind fun v => (x.cfs[v.cf]?).map fun c => (v, c) with
  | none => s
  | some (v, c) =>
    if c.addr ≠ da then s
    else
      let ok := fun (i : Nat) => decide ((d[i]?).getD 0xFF = 0)
      match v.step, d.head? with
      | 1, some 0x12 =>
        if ok 1 then
          (s.modNet k fun x => { x with vt := some { v with step := 2 } }).netSend k 5 pgnToVt sa da (0xD0 :: (v.label ++ List.replicate 7 0x20).take 7) none
        else (s.modNet k fun x => { x with vt := none }).netReply v.req 0x0030 stBadParam []
      | 2, some 0xD0 =>
        (s.modNet k fun x => { x with vt := none }).netReply v.req 0x0030 (if ok 5 then stOk else stBadParam) []
      | _, _ => s

/-- A TC client with mapped sections shows that its descriptor is accepted, or its first work state: with both, its
re-admission completes (R279). -/
def State.tcProcess (s : State) (k : Fin 4) (sa : Nat) (d : List Nat) : State :=
  match (s.nets[k.val]).bind fun x => (x.ext.find? fun e => e.addr == sa && e.present && x.mapped e.name) with
  | none => s
  | some e =>
    let cmd := (d.headD 0)
    let ddi := leNat ((d.drop 2).take 2)
    let e' : ExtCf :=
      { e with
        descr := e.descr || cmd == 0x81
        work := e.work || (cmd % 16 == 3 && (ddi == 141 || (decide (161 ≤ ddi) && decide (ddi ≤ 176)))) }
    let s := s.modNet k fun x => { x with ext := x.ext.map fun c => if c.name = e.name then e' else c }
    if e'.descr && e'.work && !(e.descr && e.work) then s.cfNotify k 0x0100 e' true else s

/-- A complete message, of one frame or of a session. -/
def State.netMessage (s : State) (k : Fin 4) (pgn da sa prio start : Nat) (d : List Nat) : State :=
  let s := if pgn = pgnFromVt then s.vtAnswer k da sa d else s
  let s := if pgn = pgnProcess then s.tcProcess k sa d else s
  s.netDeliver k pgn da sa prio start d

/-- A transmit session ends. -/
def State.tpDone (s : State) (k : Fin 4) (t : TpSession) (ok : Bool) (reason : Nat) : State :=
  let s := s.modNet k fun x => { x with txs := x.txs.erase t }
  let s := s.tpAnswer t.req ok reason
  -- a pool that has arrived is closed
  match (s.nets[k.val]).bind fun x => x.vt with
  | some v =>
    if v.step = 0 ∧ t.pgn = pgnToVt then
      if ok then
        (s.modNet k fun x => { x with vt := some { v with step := 1 } }).netSend k 5 pgnToVt t.da t.sa (0x12 :: List.replicate 7 0xFF) none
      else (s.modNet k fun x => { x with vt := none }).netReply v.req 0x0030 stBadParam [reason]
    else s
  | none => s

/-- A connection management frame. -/
def State.tpCm (s : State) (k : Fin 4) (etp : Bool) (da sa : Nat) (d : List Nat) (start : Nat) : State :=
  match s.nets[k.val] with
  | none => s
  | some x =>
    let b := fun (i : Nat) => (d[i]?).getD 0
    let pgn := leNat ((d.drop 5).take 3)
    let tx := x.txs.find? fun t => t.da == sa && t.sa == da && t.etp == etp && t.pgn == pgn
    let rx := x.rxs.find? fun t => t.sa == sa && t.da == da && t.etp == etp
    let cm := if etp then pgnEtpCm else pgnTpCm
    let mine := x.cfs.any fun c => c.addr == da
    match b 0 with
    | 16 | 20 =>
      let len := leNat ((d.drop 1).take (if etp then 4 else 2))
      if !mine || (etp && (x.j1939 || decide (117440505 < len))) || (!etp && decide (1785 < len)) then s
      else if 16 ≤ (x.rxs.filter fun t => t != (rx.getD t) || rx.isNone).length then
        s.netSend k 7 cm sa da ([255, abortBusy, 0xFF, 0xFF, 0xFF] ++ cmPgn pgn) none
      else
        let t : TpSession := ⟨etp, sa, da, pgn, len, [], 0, 0, 7, none, start⟩
        (s.modNet k fun y => { y with rxs := (y.rxs.filter fun u => !(u.sa == sa && u.da == da && u.etp == etp)) ++ [t] }).tpAsk k t
    | 32 =>
      if etp ∨ 16 ≤ x.rxs.length then s
      else
        let t : TpSession := ⟨false, sa, 0xFF, pgn, leNat ((d.drop 1).take 2), [], 0, 0, 7, none, start⟩
        s.modNet k fun y => { y with rxs := (y.rxs.filter fun u => !(u.sa == sa && u.da == 0xFF)) ++ [t] }
    | 17 => match tx with
      | some t => s.tpCts k t (b 1) (b 2)
      | none => s
    | 21 => match tx with
      | some t => s.tpCts k t (b 1) (leNat ((d.drop 2).take 3))
      | none => s
    | 22 => match rx with
      | some t => s.modNet k fun y => { y with rxs := y.rxs.map fun u => if u = t then { t with offset := leNat ((d.drop 2).take 3) } else u }
      | none => s
    | 19 | 23 => match tx with
      | some t => s.tpDone k t true 0
      | none => s
    | 255 =>
      let s := s.modNet k fun y => { y with rxs := y.rxs.filter fun u => !(u.sa == sa && u.da == da && u.etp == etp) }
      match tx with
      | some t => s.tpDone k t false (b 1)
      | none => s
    | _ => s

/-- A data packet of a receive session. -/
def State.tpDt (s : State) (k : Fin 4) (etp : Bool) (da sa : Nat) (d : List Nat) : State :=
  match (s.nets[k.val]).bind fun x => x.rxs.find? fun t => t.sa == sa && t.da == da && t.etp == etp with
  | none => s
  | some t =>
    if t.offset + d.headD 0 ≠ t.next + 1 then s
    else
      let t' : TpSession := { t with data := (t.data ++ (d.drop 1)).take t.len, next := t.next + 1 }
      if packets t.len ≤ t'.next then
        let s := s.modNet k fun y => { y with rxs := y.rxs.erase t }
        let s :=
          if da = 0xFF then s
          else
            let body := if etp then [23] ++ leBytes 4 t.len else [19] ++ leBytes 2 t.len ++ [packets t.len, 0xFF]
            s.netSend k 7 t.cm sa da (body ++ cmPgn t.pgn) none
        s.netMessage k t.pgn da sa t.prio t.start t'.data
      else
        let s := s.modNet k fun y => { y with rxs := y.rxs.map fun u => if u = t then t' else u }
        if etp && t'.next % 255 == 0 then s.tpAsk k t' else s

/-- The service takes a frame of its network (R276 to R279). -/
def State.netFrame (s : State) (k : Fin 4) (f : CanFrame) : State :=
  if !f.ide || f.rtr then s
  else
    let sa := netSa f.id
    let da := netDa f.id
    let pgn := netPgn f.id
    let d := f.data.take (canLen f)
    let s := s.modNet k fun x => { x with ext := x.ext.map fun e => if e.present && e.addr == sa then { e with last := s.mtc } else e }
    if pgn = pgnClaim then s.netClaimed k (leNat d) sa
    else if pgn = pgnRequest ∧ leNat (d.take 3) = pgnClaim then
      match s.nets[k.val] with
      | some x => (x.cfs.filter fun c => da == 0xFF || da == c.addr).foldl (fun (t : State) (c : IntCf) => t.netClaim k c.addr c.name) s
      | none => s
    else if pgn = pgnTpCm then s.tpCm k false da sa d f.start
    else if pgn = pgnEtpCm then s.tpCm k true da sa d f.start
    else if pgn = pgnTpDt then s.tpDt k false da sa d
    else if pgn = pgnEtpDt then s.tpDt k true da sa d
    else s.netMessage k pgn da sa (netPrio f.id) f.start d

/-! ### Commands -/

/-- The service reads out the queue of its controller. -/
def State.netDrain (s : State) (n : Fin 8) : State :=
  let c := s.get CAN_QSTAT.COUNT n.val
  let qn := s.canQn n.val
  let head := s.get CAN_QSTAT.HEAD n.val
  if qn = 0 then s
  else
    ((forUpTo c (fun i t => t.canSetNew n.val ((head + i) % qn) false) s).put CAN_QSTAT.HEAD ((head + c) % qn) n.val).put
      CAN_QSTAT.COUNT 0 n.val

/-- A valid frame is matched and stored; a network's service takes it. -/
def execCanFrameReceived (n : Fin 8) (f : CanFrame) (s : State) : Host.Outcome State Fault Refusal :=
  s.act (
    let live := decide (s.get CAN_STAT.STATE n.val < 2)
    let s := s.canFrame n f
    match s.netOn n with
    | some k => if live && s.plat.serviceUp then (s.netDrain n).netFrame k f else s
    | none => s)

/-- The attempt in progress ends: sent, or ended by a loss of arbitration. -/
def execCanTxComplete (n : Fin 8) (ok : Bool) (s : State) : Host.Outcome State Fault Refusal := s.act ((s.txEnd n ok).netSync n)

/-- CAN_CTL.RST; a network on the controller holds it at work (R276). -/
def State.canRstNet (s : State) (n : Fin 8) : State := (s.canRstWrite n).netSync n

def execCanRst (n : Fin 8) (rq : Req) (s : State) : Host.Outcome State Fault Refusal :=
  s.act (if rq.sup then s.canRstNet n else s)

/-- A bus error (R274): its kind, met as transmitter or as receiver, and what ISO 11898-1 adds to the error counter. -/
def execCanBusError (n : Fin 8) (kind : CanError) (tx : Bool) (inc : Nat) (s : State) : Host.Outcome State Fault Refusal :=
  s.act ((s.canError n kind tx inc).netSync n)

def execPgnSub (q : SvcReq) (net pgn source addr size : Nat) (s : State) : Host.Outcome State Fault Refusal :=
  s.act (
    if !s.plat.serviceUp then s
    else
      let s := s.request netBox 0x0020 q ([net, pgn, source] ++ two addr ++ [size])
      if h : net < 4 then
        if (s.nets[net]).isNone then s.done q netCore 0x0020 stBadParam []
        else (s.modNet ⟨net, h⟩ fun x => { x with subs := x.subs ++ [⟨pgn % 2 ^ 18, source % 256, addr, size⟩] }).done q netCore 0x0020 stOk []
      else s.done q netCore 0x0020 stBadParam [])

def execPgnSend (q : SvcReq) (net cf : Nat) (out : PgnOut) (s : State) : Host.Outcome State Fault Refusal :=
  s.act (
    if !s.plat.serviceUp then s
    else
      let s := s.request netBox 0x0021 q ([net, cf, out.pgn, out.dest, out.prio, out.len] ++ two out.addr)
      match if h : net < 4 then ((s.nets[net]).bind fun x => x.cfs[cf]?).map fun c => (c, (⟨net, h⟩ : Fin 4)) else none with
      | none => s.done q netCore 0x0021 stBadParam [Config.unstated 7 [net, cf]]
      | some (c, k) =>
        if !c.held then s.done q netCore 0x0021 stBadParam [Config.unstated 7 [net, cf]]
        else
          let d := s.fabBytes out.addr out.len
          let s := s.reply q netCore 0x0021 stAccepted false []
          if out.len ≤ 8 then s.netSend k out.prio out.pgn out.dest c.addr d (some (keepReq q, 0x0021))
          else s.tpStart k c.addr out.dest out.pgn out.prio d (some (keepReq q, 0x0021)))

/-- The VT of a network: a present CF whose NAME has function 29 (ISO 11783-1). -/
def Net.vtAddr (x : Net) : Option Nat := (x.ext.find? fun e => e.present && bits e.name 40 8 == 29).map ExtCf.addr

def execVtPool (q : SvcReq) (net cf addr len : Nat) (label : List Nat) (s : State) : Host.Outcome State Fault Refusal :=
  s.act (
    if !s.plat.serviceUp then s
    else
      let s := s.request netBox 0x0030 q ([net, cf] ++ two addr ++ [len, dataWord label 0, dataWord label 1])
      match if h : net < 4 then
          ((s.nets[net]).bind fun x => (x.cfs[cf]?).bind fun c => x.vtAddr.map fun v => (c, v, x.vt.isSome)).map fun e => (e, (⟨net, h⟩ : Fin 4))
        else none with
      | none => s.done q netCore 0x0030 stBadParam []
      | some ((c, v, busy), k) =>
        if busy then s.done q netCore 0x0030 stBusy []
        else
          let s := s.modNet k fun x => { x with vt := some ⟨cf, 0, label.take 7, keepReq q⟩ }
          (s.reply q netCore 0x0030 stAccepted false []).tpStart k c.addr v pgnToVt 5 (0x11 :: s.fabBytes addr len) none)

def execTcMap (q : SvcReq) (net name : Nat) (pairs : List (Nat × Nat)) (s : State) : Host.Outcome State Fault Refusal :=
  s.act (
    if !s.plat.serviceUp then s
    else
      let s := s.request netBox 0x0040 q (net :: two name)
      match if h : net < 4 then (s.nets[net]).map fun x => (x, (⟨net, h⟩ : Fin 4)) else none with
      | none => s.done q netCore 0x0040 stBadParam []
      | some (x, k) =>
        let old := (x.maps.find? fun m => m.name == name).map TcMap.pairs
        if 8 < pairs.length ∨ pairs.any (fun p => decide (64 ≤ p.2)) ∨ (old.isNone ∧ 4 ≤ x.maps.length) then
          s.done q netCore 0x0040 stBadParam []
        else
          let m : TcMap := ⟨name, old.getD [] ++ pairs, none⟩
          (s.modNet k fun y => { y with maps := (y.maps.filter fun e => e.name != name) ++ [m] }).done q netCore 0x0040 stOk [])

def execNetList (q : SvcReq) (net addr : Nat) (s : State) : Host.Outcome State Fault Refusal :=
  s.act (
    if !s.plat.serviceUp then s
    else
      let s := s.request netBox 0x0050 q (net :: two addr)
      match if h : net < 4 then s.nets[net] else none with
      | none => s.done q netCore 0x0050 stBadParam []
      | some x =>
        let pad := fun (l : List Nat) => (l ++ List.replicate 8 0).take 8
        let ws := pad (Config.listWords 0 [x.ext.length, x.untracked]) ++
          x.ext.flatMap fun e => pad (Config.listWords 1 [e.name, e.addr, b2n e.present])
        (s.fabWrite addr ws).done q netCore 0x0050 stOk [x.ext.length])

/-! ### Section setpoints to TC clients (R277) -/

/-- The engine sections of a map as a mask, and those that are on. -/
def State.tcMasks (s : State) (m : TcMap) : Nat × Nat :=
  let on := s.get SC_STATE0.ON + 2 ^ 32 * s.get SC_STATE1.ON
  let mask := (m.pairs.map fun p => 2 ^ (p.2 % 64)).foldl (fun a b => a ||| b) 0
  (mask, on &&& mask)

/-- Send the setpoints of the mapped clients of a network: all of them, or those that have changed. -/
def State.tcSend (s : State) (k : Fin 4) (all : Bool) : State :=
  match s.nets[k.val] with
  | none => s
  | some x =>
    x.maps.foldl (fun (t : State) (m : TcMap) =>
      let v := t.tcMasks m
      match x.ext.find? (fun e => e.name == m.name && e.present && e.descr && e.work), (x.cfs.head?) with
      | some e, some c =>
        if all || m.sent != some v.2 then
          (t.netSend k 3 pgnProcess e.addr c.addr ((Config.tcSetpoint v.1 v.2 ++ List.replicate 8 0xFF).take 8) none).modNet k fun y =>
            { y with maps := y.maps.map fun z => if z.name = m.name then { z with sent := some v.2 } else z }
        else t
      | _, _ => t) s

def execTcSetpointRefresh (k : Fin 4) (s : State) : Host.Outcome State Fault Refusal :=
  s.act (if s.plat.serviceUp then s.tcSend k true else s)

/-- At a frame boundary the changes of the section engine go to the clients. -/
def State.tcBoundary (s : State) : State := if s.plat.serviceUp then (List.finRange 4).foldl (fun (t : State) (k : Fin 4) => t.tcSend k false) s else s

end Sys2Proof.Machine
end

