-- ==== Sys2Proof/Machine/LoopCtl.lean ====
section
/-! DEFINITION.  The loop units as they are commanded: enabling loops, coefficient and table switches, the trace ring
(R98, R100, R106 to R108).  The samples themselves are in Loops.lean, over the bus. -/

namespace Sys2Proof.Machine

open Sys2Proof.Reg

def State.loopU (s : State) (c : Fin 16) : LoopUnit := s.loops[c.val]
def State.modLoopU (s : State) (c : Fin 16) (f : LoopUnit → LoopUnit) : State := { s with loops := upd s.loops c f }
def State.loop (s : State) (c : Fin 16) (l : Fin 8) : Loop := (s.loopU c).loops[l.val]
def State.modLoop (s : State) (c : Fin 16) (l : Fin 8) (f : Loop → Loop) : State :=
  s.modLoopU c fun u => { u with loops := upd u.loops l f }
def State.repTab (s : State) (c : Fin 16) (t : Fin 8) : RepTable := (s.loopU c).tabs[t.val]
def State.modRepTab (s : State) (c : Fin 16) (t : Fin 8) (f : RepTable → RepTable) : State :=
  s.modLoopU c fun u => { u with tabs := upd u.tabs t f }

/-- An event of a core's own loop unit (R110), taken at once where the core executes no instruction (R69).  The record of
the even core is the state of both cores of a lockstep pair. -/
def State.raiseAt (s : State) (c : Fin 16) (ev : Nat) : State :=
  (s.modCore c fun k => k.pend (s.eventMask ev c.val 32)).eventNow c

def loopNode (c : Fin 16) (l : Fin 8) : Nat := node domPlatform c.val l.val

def loopOff : Nat := 0
def loopRun : Nat := 1
def loopFault : Nat := 2

/-! ### The trace ring (R107, R108) -/

def trIdle : Nat := 0
def trArmed : Nat := 1
def trPost : Nat := 2
def trDone : Nat := 3

def State.trState (s : State) (c : Fin 16) : Nat := s.get TR_STAT.STATE c.val

/-- Words to be written from the trigger record on. -/
def State.trCount (s : State) (c : Fin 16) : Nat := 4096 - s.get TR_CFG.PRE c.val

/-- The trigger source of the ring is asserted: the next record written carries TRIG. -/
def State.trTrigger (s : State) (c : Fin 16) : State :=
  if s.trState c = trArmed then s.modLoopU c fun u => { u with trig := true } else s

def State.trDoneNow (s : State) (c : Fin 16) : State := (s.put TR_STAT.STATE trDone c.val).raiseAt c 0x09

/-- More than 8 nodes are to be captured of some loop (TR_STAT.CFG_ERR, R107). -/
def State.trCfgErr (s : State) (c : Fin 16) : Bool :=
  (List.range 8).any fun l => decide (8 < ((List.range 16).filter fun k => bit (s.get TR_NODES.NODES c.val l) k).length)

/-- Store the words of a record at WR_PTR; WRAP once the ring has been written all the way round. -/
def State.trStore (s : State) (c : Fin 16) (ws : List Nat) : State :=
  let p := s.get TR_STAT.WR_PTR c.val
  let put := fun (m : RegMap × Nat) (w : Nat) =>
    ((if w % 2 ^ 32 = 0 then regDrop (fun k => k == m.2) m.1 else regSet m.1 m.2 (w % 2 ^ 32)), (m.2 + 1) % 4096)
  let t := s.modLoopU c fun u =>
    { u with ring := (ws.foldl put (u.ring, p)).1, seq := (u.seq + 1) % 65536, words := min 4096 (u.words + ws.length) }
  let t := t.put TR_STAT.WR_PTR ((p + ws.length) % 4096) c.val
  if 4096 ≤ (t.loopU c).words then t.put TR_STAT.WRAP 1 c.val else t

/-- Is the ring being written? -/
def State.trWriting (s : State) (c : Fin 16) : Bool :=
  s.on TR_CFG.EN c.val && (s.trState c == trArmed || s.trState c == trPost)

/-- Does a record of `n` words pass the count of the words from the trigger record on (R108)? -/
def State.trPasses (s : State) (c : Fin 16) (n : Nat) : Bool :=
  let u := s.loopU c
  let first := s.trState c == trArmed && u.trig
  !(s.trState c == trArmed && !first) && decide (s.trCount c < (if first then 0 else u.after) + n)

/-- Write a record of the layout of Table 5.2; `mk` takes TRIG and SEQ.  The shortest record is of 3 words, so fewer places
than that end POST. -/
def State.trWrite (s : State) (c : Fin 16) (mk : Nat → Nat → List Nat) : State :=
  if !s.trWriting c then s
  else
    let u := s.loopU c
    let first := s.trState c == trArmed && u.trig
    let ws := mk (b2n first) u.seq
    if s.trState c = trArmed ∧ !first then s.trStore c ws
    else
      let after := (if first then 0 else u.after) + ws.length
      if s.trPasses c ws.length then s.trDoneNow c
      else
        let t := if first then
            ((s.put TR_STAT.TRIG_PTR (s.get TR_STAT.WR_PTR c.val) c.val).put TR_TRIG_MTC.MTC (ws.headD 0) c.val).put
              TR_STAT.STATE trPost c.val
          else s
        let t := (t.trStore c ws).modLoopU c fun u => { u with after := after, trig := false }
        if s.trCount c < after + 3 then t.trDoneNow c else t

/-- A MARK record of TMARK (R107); one that is not written is counted (Table 5.9). -/
def State.trMark (s : State) (c : Fin 16) (imm : Nat) (g : Word) : State :=
  let s := if bit imm 15 && s.get TR_CFG.TSRC c.val == 0 then s.trTrigger c else s
  if !s.trWriting c then s.count TR_LOST.MARK_LOST 1 c.val
  else
    let now := s.mtc % 2 ^ 32
    let s := if s.trPasses c 4 then s.count TR_LOST.MARK_LOST 1 c.val else s
    s.trWrite c fun trig seq => [now, 2 + 2 ^ 9 * trig + 2 ^ 16 * seq, imm % 2 ^ 15, g.toNat]

def State.trArm (s : State) (c : Fin 16) : State :=
  if s.trState c = trIdle ∨ s.trState c = trDone then
    ((s.put TR_STAT.STATE trArmed c.val).put TR_STAT.WRAP 0 c.val).modLoopU c fun u => { u with words := 0, after := 0, trig := false }
  else s

def State.trSoft (s : State) (c : Fin 16) : State := if s.get TR_CFG.TSRC c.val = 0 then s.trTrigger c else s

def State.trStop (s : State) (c : Fin 16) : State :=
  (s.put TR_STAT.STATE trIdle c.val).modLoopU c fun u => { u with trig := false }

/-- A write to TR_CTL.  Each bit reads 1 until the next slot begins (DESIGN CHOICE, log entry 60). -/
def State.trCtl (s : State) (c : Fin 16) (w : Nat) : State :=
  let s := s.put TR_CTL.ARM (s.get TR_CTL.ARM c.val ||| bits w 0 1) c.val
  let s := s.put TR_CTL.SOFT (s.get TR_CTL.SOFT c.val ||| bits w 1 1) c.val
  let s := s.put TR_CTL.STOP (s.get TR_CTL.STOP c.val ||| bits w 2 1) c.val
  let s := if bit w 2 then s.trStop c else s
  let s := if bit w 0 then s.trArm c else s
  if bit w 1 then s.trSoft c else s

/-- The bits of TR_CTL clear: their commands are carried out. -/
def State.trCtlClear (s : State) (c : Fin 16) : State := s.putWord [TR_CTL.ARM, TR_CTL.SOFT, TR_CTL.STOP] 0 c.val

/-- A write to TR_CFG: another trigger node has no earlier value. -/
def State.trCfg (s : State) (c : Fin 16) (w : Nat) : State :=
  let t := s.putWord [TR_CFG.EN, TR_CFG.TSRC, TR_CFG.TLOOP, TR_CFG.TNODE, TR_CFG.PRE] w c.val
  if t.get TR_CFG.TLOOP c.val = s.get TR_CFG.TLOOP c.val ∧ t.get TR_CFG.TNODE c.val = s.get TR_CFG.TNODE c.val then t
  else t.modLoopU c fun u => { u with node := none }

/-- The word at TR_RDPTR (TR_RDDATA). -/
def State.trRead (s : State) (c : Fin 16) : Nat := (regFind (s.loopU c).ring (s.get TR_RDPTR.PTR c.val)).getD 0

def execTraceArm (c : Fin 16) (rq : Req) (s : State) : Host.Outcome State Fault Refusal := s.act (if rq.sup && s.controls c then s.trCtl c 1 else s)
def execTraceSoft (c : Fin 16) (rq : Req) (s : State) : Host.Outcome State Fault Refusal := s.act (if rq.sup && s.controls c then s.trCtl c 2 else s)
def execTraceStop (c : Fin 16) (rq : Req) (s : State) : Host.Outcome State Fault Refusal := s.act (if rq.sup && s.controls c then s.trCtl c 4 else s)

/-! ### Flags (R97) -/

/-- Set flags of a loop: a new one with its mask bit raises the loop's event, and may trigger the trace (R97, R108). -/
def State.lpFlags (s : State) (c : Fin 16) (l : Fin 8) (m : Nat) : State :=
  let old := s.get LP_FLAGS.F c.val l.val
  let new := m &&& (2 ^ 13 - 1 - old)
  let t := s.put LP_FLAGS.F (old ||| m) c.val l.val
  let t := if new &&& t.get LP_EVMASK.F c.val l.val = 0 then t else t.raiseAt c (0x01 + l.val)
  if t.get TR_CFG.TSRC c.val = 1 ∧ t.get TR_CFG.TLOOP c.val = l.val ∧ new &&& t.get TR_LEVEL.FMASK c.val ≠ 0 then t.trTrigger c else t

def State.lpFlag (s : State) (c : Fin 16) (l : Fin 8) (b : Nat) : State := s.lpFlags c l (2 ^ b)

/-! ### Loops (R98, R100) -/

/-- EN of a loop (R98, R109).  FAULT is left only when EN is written to 0 and then to 1 (R99). -/
def State.lpEnable (s : State) (c : Fin 16) (l : Fin 8) (en : Bool) : State :=
  let was := s.on LP_CFG.EN c.val l.val
  let t := s.putB LP_CFG.EN en c.val l.val
  if en && !was then
    ((t.modLoop c l fun x => { x with first := true, stamp := none, stopped := false }).put LP_STAT.STALE_RUN 0 c.val l.val).put
      LP_STAT.STATE loopRun c.val l.val
  else if was && !en && s.get LP_STAT.STATE c.val l.val != loopFault then t.put LP_STAT.STATE loopOff c.val l.val
  else t

/-- A write to LP_CFG. -/
def State.lpCfg (s : State) (c : Fin 16) (l : Fin 8) (w : Nat) : State :=
  (s.putWord [LP_CFG.RATE, LP_CFG.PHASE, LP_CFG.SP_SRC, LP_CFG.FF_SRC, LP_CFG.MF, LP_CFG.REP_EN, LP_CFG.LEARN, LP_CFG.STALE_POL,
    LP_CFG.REP_MAP] w c.val l.val).lpEnable c l (bit w 0)

def execLoopEnable (c : Fin 16) (l : Fin 8) (en : Bool) (rq : Req) (s : State) : Host.Outcome State Fault Refusal :=
  s.act (if rq.sup && s.controls c then s.lpEnable c l en else s)

def execCoefSwap (c : Fin 16) (l : Fin 8) (rq : Req) (s : State) : Host.Outcome State Fault Refusal :=
  s.act (if rq.sup && s.controls c then s.put LP_CTL.COEF_SWAP 1 c.val l.val else s)

def execIntLoad (c : Fin 16) (l : Fin 8) (rq : Req) (s : State) : Host.Outcome State Fault Refusal :=
  s.act (if rq.sup && s.controls c then s.put LP_CTL.INT_LOAD 1 c.val l.val else s)

/-! ### Repetitive tables (R102, R106) -/

/-- LEN as configured: above 1,024 it is 1,024. -/
def State.rtLen (s : State) (c : Fin 16) (t : Fin 8) : Nat := min 1024 (s.get RT_CFG.LEN c.val t.val)

/-- The tag word of the active copy, or of the shadow copy: LEARNED of the active one is REVS ≥ MIN_REVS (R102). -/
def State.rtTag (s : State) (c : Fin 16) (t : Fin 8) (shadow : Bool := false) : Nat :=
  if shadow then s.get RT_SHTAG.TAG c.val t.val
  else
    let w := s.get RT_TAG.TAG c.val t.val
    bits w 0 3 + 8 * b2n (decide (s.get RT_ADV.MIN_REVS c.val t.val ≤ bits w 16 16)) + 2 ^ 4 * bits w 4 28

/-- An exchange instant of a table: a new LEN takes effect, and a requested switch is made (R106). -/
def State.rtExchange (s : State) (c : Fin 16) (t : Fin 8) : State :=
  let s := s.modRepTab c t fun r => { r with len := s.rtLen c t }
  if s.on RT_CFG.SWITCH c.val t.val then
    let act := s.rtTag c t true
    let sh := s.rtTag c t
    let s := s.modRepTab c t fun r => { r with active := r.shadow, shadow := r.active }
    let s := ((s.put RT_TAG.TAG act c.val t.val).put RT_SHTAG.TAG sh c.val t.val).put RT_CFG.SWITCH 0 c.val t.val
    s.record .rtSwitch (node domPlatform c.val t.val) [bits act 8 8 + 2 ^ 8 * bits sh 8 8]
  else s

/-- Does a loop's REP_MAP name the table? -/
def State.lpNames (s : State) (c : Fin 16) (l : Fin 8) (t : Fin 8) : Bool :=
  (List.range 4).any fun b => bits (s.get LP_CFG.REP_MAP c.val l.val) (3 * b) 3 == t.val

/-- The lowest-numbered enabled loop that names a table. -/
def State.rtUser (s : State) (c : Fin 16) (t : Fin 8) : Option (Fin 8) :=
  (List.finRange 8).find? fun l => s.on LP_CFG.EN c.val l.val && s.lpNames c l t

def execRtSwitch (c : Fin 16) (t : Fin 8) (rq : Req) (s : State) : Host.Outcome State Fault Refusal :=
  s.act (if rq.sup && s.controls c then s.put RT_CFG.SWITCH 1 c.val t.val else s)

/-- An entry of a copy. -/
def entryOf (m : RegMap) (j : Nat) : Int := sgn 16 ((regFind m j).getD 0)

/-- A copy with an entry set. -/
def entrySet (m : RegMap) (j : Nat) (v : Nat) : RegMap :=
  if v % 65536 = 0 then regDrop (fun k => k == j) m else regSet m j (v % 65536)

end Sys2Proof.Machine
end

