-- ==== Sys2Proof/Machine/MachineFn.lean ====
section
/-! DEFINITION.  The machine functions MF0 to MF31 and the switch of their outputs (R172 to R175). -/

namespace Sys2Proof.Machine

open Sys2Proof.Reg

def State.modMf (s : State) (m : Fin 32) (f : Mf → Mf) : State := s.modRl fun r => { r with mf := upd r.mf m f }

/-- Set a sticky flag of MF_FLAGS under a condition, with event 0x28. -/
def State.mfFlagIf (s : State) (m : Nat) (c : Bool) (b : Nat) : State :=
  if c then s.flag MF_FLAGS.F MF_EVMASK.F b 0x28 m else s

/-- The policies, ordered (R173). -/
def polUse : Nat := 0
def polHold : Nat := 1
def polNominal : Nat := 2
def polFallback : Nat := 3

/-- The trim step of R173, when the trim runs: the new trim, and whether TMIN or TMAX limited it. -/
def State.mfTrim (s : State) (m : Nat) (limit rate : Int) : Int × Bool :=
  let raw := s.getZ MF_STAT.TRIM m + rnd (s.getZ MF_TRIM_K.KT m * (limit - rate)) 15
  let lo := s.getZ MF_TRIM_LIM.TMIN m
  let hi := s.getZ MF_TRIM_LIM.TMAX m
  (clampZ lo hi raw, clampZ lo hi raw != raw)

/-- A step limited to ± `lim` around `prev`; 0: no limit. -/
def rateLimit (lim : Nat) (prev v : Int) : Int := if lim = 0 then v else clampZ (prev - lim) (prev + lim) v

/-- One machine function at step t3 (R173, R174).  TRIM_CLR clears the trim of a function that is off or in HOLD too (log
entry 38). -/
def State.mfCompute (s : State) (m : Fin 32) : State :=
  let i := m.val
  let en := s.on MF_CFG.EN i
  let was := (s.racking.mf[i]).on
  let s := if en == was then s else s.modMf m fun f => { f with on := en, ffu := if en then 0 else f.ffu }
  let s := if s.on MF_CTL.TRIM_CLR i then (s.putZ MF_STAT.TRIM 0 i).putB MF_CTL.TRIM_CLR false i else s
  if !en ∨ 2 ≤ s.get MF_CFG.SP_MODE i then s
  else
    let tap := s.get MF_CFG.TAP i
    let off := !s.on TAP_CFG.EN tap
    let res := (s.racking.taps[tap]?).getD .none
    let nom := s.getZ MF_FFK.NOM i
    let tv := if off then nom else sgn 16 res.val
    let info := if off then 0 else res.info
    let ageMax := s.get MF_CFG.AGE_MAX i
    let stale := ageMax != 0 && (decide (ageMax < bits info 0 8) || bit info 12)
    let contra := bit info 8
    let p := polUse
    let p := if stale then max p (s.get MF_CFG.STALE_POL i) else p
    let p := if contra then max p (s.get MF_CFG.CON_POL i) else p
    let p := if s.get MF_CFG.SP_MODE i = 1 then polFallback else p
    let ffu := (s.racking.mf[i]).ffu
    let ff := if p = polUse then sat16 (rnd (s.getZ MF_FFK.FFK i * (tv - nom)) 15) else if p = polHold then ffu else 0
    let base := if p = polFallback then s.getZ MF_FB.FB i else s.getZ MF_SP.SP i
    -- the trim
    let k := s.get MF_CFG.OBJ i
    let at_ := s.get OBJ.AT 0 k
    let hold := s.on AT_RATE.FLT at_
    let runs := s.on MF_CFG.TRIM_EN i && p != polFallback && !hold
    let tr := s.mfTrim i (s.getZ OBJ.LIMIT 0 k) (s.getZ AT_RATE.RATE at_)
    let trim := if runs then tr.1 else s.getZ MF_STAT.TRIM i
    -- the outputs
    let toSp := s.on MF_CFG.FF_TO_SP i
    let s0 := sat16 (base + trim + (if toSp then ff else 0))
    let s1 := clampZ (s.getZ MF_LIM.MIN i) (s.getZ MF_LIM.MAX i) s0
    let s2 := rateLimit (s.get MF_RLIM.SP_RLIM i) (s.racking.mf[i]).sp s1
    let f1 := if toSp then 0 else ff
    let f2 := rateLimit (s.get MF_RLIM.FF_RLIM i) (s.racking.mf[i]).ff f1
    let old := s.get MF_STAT.POL i
    let s := (s.putZ MF_STAT.TRIM trim i).put MF_STAT.POL p i
    let s := s.modMf m fun f => { f with ffu := if p = polUse then ff else f.ffu, sp := s2, ff := f2 }
    let s := (s.mfFlagIf i off MF_FLAGS.TAP_OFF).mfFlagIf i stale MF_FLAGS.STALE
    let s := (s.mfFlagIf i contra MF_FLAGS.CONTRA).mfFlagIf i (p == polFallback) MF_FLAGS.FALLBACK
    let s := (s.mfFlagIf i (s1 != s0) MF_FLAGS.CLAMP).mfFlagIf i (s2 != s1 || f2 != f1) MF_FLAGS.RATE
    let s := (s.mfFlagIf i (runs && tr.2) MF_FLAGS.TRIM_SAT).mfFlagIf i hold MF_FLAGS.TRIM_HOLD
    let s := if p = polUse then s else s.count MF_CNT.POL_FRAMES 1 i
    if p = old then s else s.record .mfPolicy (node domMachine none8 i) [old + 2 ^ 2 * p, res.info]

/-- Step t3 for all machine functions, in ascending order. -/
def State.mfBoundary (s : State) : State := (List.finRange 32).foldl (fun t m => t.mfCompute m) s

/-- At B + 200 µs, or `late` after it, every MF_OUT and TAP_OUT word switches, and complete strip records are written
(R172). -/
def execMfOutputSwitch (late : Bool) (s : State) : Host.Outcome State Fault Refusal :=
  s.act (
    let s := if late then (s.rlFlag RL_FLAGS.LATE).count RL_CNT1.LATE else s
    let s := (List.finRange 32).foldl (fun (t : State) (m : Fin 32) =>
      (t.putZ MF_OUT.SP (t.racking.mf[m.val]).sp m.val).putZ MF_OUT.FF (t.racking.mf[m.val]).ff m.val) s
    let s := s.racking.taps.zipIdx.foldl (fun t p =>
      ((t.put TAP_OUT.VAL p.1.val p.2).put TAP_OUT.COVER p.1.cover p.2).put TAP_INFO.F p.1.info p.2) s
    let ws := s.racking.ready
    ws.foldl (fun t w => t.writeStrip w) (s.modRl fun r => { r with ready := [] }))

/-- A write to MF_SP: only its owner's takes effect (R175).  A function core counts under its identity. -/
def State.mfSpWrite (s : State) (m : Nat) (v : Nat) (rq : Req) : State :=
  let o := s.get MF_CFG.OWNER m
  if rq.id < 16 ∧ (o = 0x1F ∨ o = rq.id) then s.put MF_SP.SP v m
  else (s.mfFlagIf m true MF_FLAGS.OWNER_IGN).count MF_CNT.OWNER_IGN 1 m

def execMfSpWrite (m : Fin 32) (v : Nat) (rq : Req) (s : State) : Host.Outcome State Fault Refusal :=
  s.act (s.mfSpWrite m.val v (s.asIdentity rq))

/-- MF_CTL.TRIM_CLR: the trim is 0 from the next boundary (R174). -/
def execTrimClr (m : Fin 32) (rq : Req) (s : State) : Host.Outcome State Fault Refusal :=
  s.act (if rq.sup then s.putB MF_CTL.TRIM_CLR true m.val else s)

end Sys2Proof.Machine
end

