-- ==== Sys2Proof/Machine/PowerOps.lean ====
section
/-! DEFINITION.  Power, reset requests and the output supervisor as registers command them (R28 to R44). -/

namespace Sys2Proof.Machine

open Sys2Proof.Reg

/-! ### Shutdown and reset requests (R28, R29, R35) -/

/-- Entry to SHUTDOWN: every output goes off, the fleet service says BYE, the record is written (Table 17.13). -/
def State.shutdown (s : State) (cause : Nat) : State :=
  let t := s.record .shutdown platNode [cause + 2 ^ 8 * s.get PWR_STATE.KEY]
  let t := (t.outputsDead.jfxHalt).put SC_CFG.EN 0
  ({ t with plat := { t.plat with power := .shutdown, keyOff := false } }).railTrackAll

/-- A write to RST_REQ (Table 2.8): it acts only in RUN and with the passcode.  A start that a rollback is due for has
that cause (R354). -/
def State.rstReq (s : State) (cmd pass : Nat) : State :=
  if s.plat.power != .run || s.errs.fatal.isSome || pass != 0x6B0D then s
  else if cmd = 1 then s.warmNow .supReq
  else if cmd = 2 then s.shutdown 0
  else s

/-! ### The output supervisor (R37 to R43) -/

/-- Does some channel hold MODE = 0b11 (OSV_CTL.BAD_MODE)? -/
def State.badMode (s : State) : Bool :=
  (List.finRange 32).any (fun c => s.osvVd c % 4 == 3) || (List.finRange 48).any (fun n => s.osvLc n % 4 == 3)

/-- A write of 1 to OSV_CTL.SEAL (R37, R42). -/
def State.seal (s : State) : State := if s.badMode then s.put OSV_CTL.SEAL_REF 1 else s.put OSV_CTL.SEAL 1

/-- The defined bits of eight 4-bit channel fields: bit 3 of each is reserved (R43). -/
def osvBits (w : Nat) : Nat := w &&& 0x77777777

/-- A write to OSV_VDm or OSV_LCm: ignored and counted under SEAL (R42). -/
def State.osvWrite (s : State) (f : Fld) (m w : Nat) : State :=
  if s.on OSV_CTL.SEAL then s.count OSV_STAT.SEALED_WR_CNT else s.put f (osvBits w) 0 m

/-! ### The ESTOP loop (R40, R369) -/

/-- Is a valve channel on, or about to be? -/
def Valve.live (v : Valve) : Bool := v.energised || v.wait.isSome

/-- Is a load channel on, or waiting to return? -/
def Load.live (l : Load) : Bool :=
  match l.st with
  | .off => false
  | .on | .pwm | .uvWait | .thermWait => true

/-- The channels that an opening of the loop cuts: those on with ESTOP_CUT = 1. -/
def State.cutVd (s : State) : Nat := maskOf 32 fun k => (s.valve (Fin.ofNat 32 k)).live && bit (s.osvVd (Fin.ofNat 32 k)) 2
def State.cutLc (s : State) : Nat := maskOf 48 fun k => (s.load (Fin.ofNat 48 k)).live && bit (s.osvLc (Fin.ofNat 48 k)) 2

/-- Cut one valve channel. -/
def State.estopValve (s : State) (c : Fin 32) : State :=
  if (s.valve c).live && bit (s.osvVd c) 2 then (s.endValveHold c .estop).switchFast c else s

/-- Cut one load channel; its clamp energy is not measured by the command. -/
def State.estopLoad (s : State) (n : Fin 48) : State :=
  if (s.load n).live && bit (s.osvLc n) 2 then
    (((s.endLoadHold n .estop).openSwitch n .off (Config.clampEnergy n.val s.free)).modLoad n fun l => { l with cmd := .off }).fresh
  else s

/-- The loop opens, or is found fed from elsewhere: the cut, and the ESTOP record (R40, Table 17.13). -/
def State.estopCut (s : State) (fault : Bool) : State :=
  let v := s.cutVd
  let l := s.cutLc
  let t := (List.finRange 32).foldl (fun (t : State) (c : Fin 32) => t.estopValve c) s
  let t := (List.finRange 48).foldl (fun (t : State) (n : Fin 48) => t.estopLoad n) t
  t.record .estop platNode [2 * b2n fault, v, l % 2 ^ 32, l / 2 ^ 32]

/-- Set a flag of SUP_FLAGS with its event 0x0F (R375). -/
def State.supFlag (s : State) (b : Nat) : State := s.flag SUP_FLAGS.F SUP_EVMASK.F b 0x0F

end Sys2Proof.Machine
end

