-- ==== Sys2Proof/Machine/Sha.lean ====
section
/-! DEFINITION.  SHA-256 (R347, R360), after FIPS 180-4 (PRESUMED: the manual names the function and not its steps). -/

namespace Sys2Proof.Machine

/-- The largest r below `r + 2 ^ k` with r ^ e ≤ x, bit by bit from bit k − 1 down. -/
def rootBits (e x : Nat) : Nat → Nat → Nat
  | 0, r => r
  | k + 1, r => rootBits e x k (if (r + 2 ^ k) ^ e ≤ x then r + 2 ^ k else r)

/-- The first 32 bits of the fractional part of the e-th root of a number below 2 ^ 12. -/
def rootFraction (e n : Nat) : Nat := rootBits e (n * 2 ^ (32 * e)) 44 0 % 2 ^ 32

/-- The primes below 312, of which there are 64. -/
def shaPrimes : List Nat := (List.range 312).filter fun n => decide (2 ≤ n) && (List.range 18).all fun d => decide (d < 2) || decide (n ≤ d) || n % d != 0

/-- The round constants: from the cube roots of the first 64 primes. -/
def shaK : List Nat := shaPrimes.map (rootFraction 3)

/-- The initial hash value: from the square roots of the first 8 primes. -/
def shaH : List Nat := (shaPrimes.take 8).map (rootFraction 2)

/-- Rotate a 32-bit number right. -/
def ror (n v : Nat) : Nat := v / 2 ^ n + v % 2 ^ n * 2 ^ (32 - n)

/-- One more word of the message schedule; the list is newest first. -/
def shaWord (w : List Nat) : Nat :=
  let x := (w[14]?).getD 0
  let y := (w[1]?).getD 0
  let s0 := (ror 7 x ^^^ ror 18 x) ^^^ (x / 2 ^ 3)
  let s1 := (ror 17 y ^^^ ror 19 y) ^^^ (y / 2 ^ 10)
  ((w[15]?).getD 0 + s0 + (w[6]?).getD 0 + s1) % 2 ^ 32

/-- The schedule of a block of 16 words, in order. -/
def shaSchedule (block : List Nat) : List Nat :=
  ((List.range 48).foldl (fun w _ => shaWord w :: w) block.reverse).reverse

/-- One round over the working variables a to h. -/
def shaRound (v : List Nat) (kw : Nat) : List Nat :=
  match v with
  | [a, b, c, d, e, f, g, h] =>
    let s1 := (ror 6 e ^^^ ror 11 e) ^^^ ror 25 e
    let ch := (e &&& f) ^^^ ((2 ^ 32 - 1 - e) &&& g)
    let t1 := h + s1 + ch + kw
    let s0 := (ror 2 a ^^^ ror 13 a) ^^^ ror 22 a
    let maj := ((a &&& b) ^^^ (a &&& c)) ^^^ (b &&& c)
    [(t1 + s0 + maj) % 2 ^ 32, a, b, c, (d + t1) % 2 ^ 32, e, f, g]
  | _ => v

def shaBlock (h block : List Nat) : List Nat :=
  let v := ((shaK.zip (shaSchedule block)).map fun p => p.1 + p.2).foldl shaRound h
  (h.zip v).map fun p => (p.1 + p.2) % 2 ^ 32

/-- Big-endian words of a byte list. -/
def beWords (n : Nat) (bs : List Nat) : List Nat :=
  (List.range n).map fun i => (List.range 4).foldl (fun a k => a * 256 + (bs[4 * i + k]?).getD 0) 0

/-- The padded message, as blocks of 64 bytes. -/
def shaPad (bs : List Nat) : List Nat :=
  let n := bs.length
  let zeros := (119 - n % 64) % 64
  bs ++ [0x80] ++ List.replicate zeros 0 ++ (List.range 8).map fun k => (8 * n) / 256 ^ (7 - k) % 256

/-- Fold the blocks of a message; `fuel` bounds their number. -/
def shaGo : Nat → List Nat → List Nat → List Nat
  | 0, h, _ => h
  | k + 1, h, bs => shaGo k (shaBlock h (beWords 16 (bs.take 64))) (bs.drop 64)

/-- The 32 bytes of SHA-256. -/
def sha256 (bs : List Nat) : List Nat :=
  let p := shaPad bs
  (shaGo (p.length / 64) shaH p).flatMap fun w => (List.range 4).map fun k => w / 256 ^ (3 - k) % 256

end Sys2Proof.Machine
end

