-- ==== Sys2Proof/Machine/TagArea.lean ====
section
/-! DEFINITION.  The image of the tag area (R340). -/

namespace Sys2Proof.Machine

/-- TYPE of FLEET_KEY, whose value no path returns. -/
def tagFleetKey : Nat := 0x0022
def tagIsoName : Nat := 0x0010

/-- A record as bytes: TYPE, LEN, the value padded to whole words; the value of FLEET_KEY as zeros where `hide`. -/
def Tag.bytes (hide : Bool) (t : Tag) : List Nat :=
  let v := if hide && t.type == tagFleetKey then t.value.map fun _ => 0 else t.value.map (· % 256)
  leBytes 2 t.type ++ leBytes 2 t.value.length ++ v ++ List.replicate ((4 - t.value.length % 4) % 4) 0

/-- The bytes of the records. -/
def tagBody (hide : Bool) (rs : List Tag) : List Nat := rs.flatMap (Tag.bytes hide)

/-- USED: the header and the records (DEDUCED: a width of 14 bits admits the whole area). -/
def tagUsed (rs : List Tag) : Nat := 16 + (tagBody false rs).length

/-- The 8,192 bytes of the area as the window shows them; the CRC is that of the area itself. -/
def TagArea.image (a : TagArea) : List Nat :=
  let pad := fun (l : List Nat) => (l ++ List.replicate (8176 - l.length) 0).take 8176
  leBytes 4 0x31474154 ++ leBytes 4 a.gen ++ leBytes 4 (tagUsed a.recs) ++ leBytes 4 (crc32c (pad (tagBody false a.recs)))
    ++ pad (tagBody true a.recs)

/-- Word `k` of the window; empty after a failed CRC. -/
def TagArea.word (a : TagArea) (k : Nat) : Nat :=
  if a.bad then 0
  else (List.range 4).foldl (fun v i => v + (a.image[4 * k + i]?).getD 0 * 256 ^ i) 0

end Sys2Proof.Machine
end

