-- ==== Sys2Proof/Machine/Bus.lean ====
section
/-! DEFINITION.  The peripheral window (R2 to R6, R377): what a read of a register returns and does, and what a write
does. -/

namespace Sys2Proof.Machine

open Sys2Proof.Reg

/-! ### Where a register lies -/

/-- The instance of a field whose register lies at an address.  The last entry of a table may lie where the next row
would begin (TONE has 257 entries at a row pitch of 256). -/
def locate (f : Fld) (a : Nat) : Option (Nat × Nat × Nat) :=
  if a < f.addr then none
  else
    let d := a - f.addr
    let i := if f.ni ≤ 1 then 0 else d / f.si
    let r := d - i * f.si
    let j := if f.nj ≤ 1 then 0 else r / f.sj
    let q := r - j * f.sj
    let k := if f.nk ≤ 1 then 0 else q / f.sk
    if i < f.ni ∧ j < f.nj ∧ k < f.nk ∧ f.at i j k = a then some (i, j, k)
    else if j = 0 ∨ f.nk ≤ 1 then none
    else if i < f.ni ∧ j - 1 < f.nj ∧ (r - (j - 1) * f.sj) / f.sk < f.nk ∧ f.at i (j - 1) ((r - (j - 1) * f.sj) / f.sk) = a then
      some (i, j - 1, (r - (j - 1) * f.sj) / f.sk)
    else none

/-- A field's instance at an address. -/
structure Hit where
  fld : Fld
  i : Nat
  j : Nat
  k : Nat

/-- The fields of the register at an address; none where no block lists it (R3, R377). -/
def hitsAt (a : Nat) : List Hit :=
  blocks.flatMap fun b =>
    if b.base ≤ a ∧ a < b.base + b.stride * b.count ∧ b.first ≤ (a - b.base) / b.stride then
      b.flds.filterMap fun f => (locate f a).map fun p => ⟨f, p.1, p.2.1, p.2.2⟩
    else []

/-- Are two fields the same one? -/
def sameFld (f g : Fld) : Bool := f.addr == g.addr && f.lo == g.lo

/-- The core of a function core control block. -/
def fcOf (a : Nat) : Option (Fin 16) :=
  if 0x20100000 ≤ a ∧ a < 0x20110000 then some (Fin.ofNat 16 ((a - 0x20100000) / 0x1000)) else none

/-! ### Reading: the fields that hardware shows -/

/-- The first of a list of (field, value) that is the field asked for; the store's value where none is. -/
def pick (f : Fld) (dflt : Nat) : List (Fld × (Unit → Nat)) → Nat
  | [] => dflt
  | (g, v) :: t => if sameFld f g then v () else pick f dflt t

/-- PWR_STATE.STATE (Table 2.8). -/
def Power.code : Power → Nat
  | .run => 2
  | .shutdown => 3
  | .off | .watch | .starting | .recovery => 1

/-- Is a sensor supply on: from t4 of a start and through warm starts, with its SS_EN bit, not in OFF, WATCH and SHUTDOWN (R368)? -/
def State.sensorSupplyOn (s : State) (k : Nat) : Bool :=
  bit (s.get SUP_CFG.SS_EN) k &&
    (s.plat.power == .run ||
      (s.plat.power == .starting && (s.plat.step == .t4 || (s.plat.cause != .powerOn && s.plat.cause != .wake))))

/-- The sensor supplies in foldback; one that is off is in none. -/
def State.ssAct (s : State) : Nat := maskOf 4 fun k => bit (s.get SUP_STAT.SS_ACT) k && s.sensorSupplyOn k

def State.viewSys (s : State) (f : Fld) (v : Nat) : Nat :=
  pick f v
    [(PWR_STATE.STATE, fun _ => s.plat.power.code), (SUP_STAT.SS_ACT, fun _ => s.ssAct), (OSV_CTL.BAD_MODE, fun _ => b2n s.badMode), (OSV_CTL.HOLDING, fun _ => b2n s.holding),
     (OSV_HELD_VD.HELD, fun _ => s.heldVd), (OSV_HELD_LC0.HELD, fun _ => s.heldLc % 2 ^ 32), (OSV_HELD_LC1.HELD, fun _ => s.heldLc / 2 ^ 32)]

def State.viewErr (s : State) (f : Fld) (v : Nat) : Nat :=
  pick f v [(ERR_STAT.DEPTH, fun _ => s.errs.stack.length), (ERR_STAT.QLEN, fun _ => s.errs.queue.length)]

def State.viewBook (s : State) (f : Fld) (k v : Nat) : Nat :=
  pick f v
    [(CB_WR.OFS, fun _ => s.book.ofs / 4), (CB_WR.GEN, fun _ => s.book.gen), (CB_WR_SEQ.W, fun _ => s.book.seq),
     (CB_TAIL.OFS, fun _ => s.bookTail.2.1 / 4), (CB_TAIL.GEN, fun _ => s.bookTail.1), (CB_TAIL_SEQ.W, fun _ => s.bookTail.2.2),
     (CB_CUR_STAT.INTACT, fun _ => b2n s.bookIntact), (CB_FLUSH_SEQ.W, fun _ => (s.book.flushed + 2 ^ 32 - 1) % 2 ^ 32),
     (CB_WIN.W, fun _ => s.bookWord k)]

def State.viewLock (s : State) (f : Fld) (j v : Nat) : Nat :=
  let l := s.locks[j % 256]'(by omega)
  pick f v
    [(LK_STATE.HOLDER, fun _ => holderNo l.holder), (LK_STATE.WAITERS, fun _ => l.waiters.length), (LK_STATE.ORPHAN, fun _ => b2n l.orphan),
     (MB_STAT.COUNT, fun _ => (s.mbox[j % 64]'(by omega)).length), (MB_POOL.USED, fun _ => s.poolUsed)]

def State.viewDc (s : State) (f : Fld) (v : Nat) : Nat :=
  let mover := fun (m : Fin 2) => (s.dc.movers[m.val]).map Fin.val
  pick f v
    [(DC_RUN.W, fun _ => maskOf 32 fun n => s.get DC_STAT.STATE n != dcIdle && s.get DC_STAT.STATE n != dcHalted),
     (DC_HALT.W, fun _ => maskOf 32 fun n => s.get DC_STAT.STATE n == dcHalted),
     (DC_MOVER.M0_CH, fun _ => (mover 0).getD 0), (DC_MOVER.M0_BUSY, fun _ => b2n (mover 0).isSome),
     (DC_MOVER.M1_CH, fun _ => (mover 1).getD 0), (DC_MOVER.M1_BUSY, fun _ => b2n (mover 1).isSome),
     (SWAP_STAT.PEND, fun _ => maskOf 16 fun c => (s.core (Fin.ofNat 16 c)).swapPend)]

/-- A field of a core's block: a core that has migrated shows MIGRATED and its alias and nothing else (R83). -/
def State.viewCore (s : State) (f : Fld) (i j v : Nat) : Nat :=
  let c := Fin.ofNat 16 i
  if (s.core c).life = .migrated ∧ !s.paired i then pick f 0 [(CORE_STAT.STATE, fun _ => 5), (CORE_STAT.ALIAS, fun _ => v)]
  else
    pick f v
      [(CORE_STAT.STATE, fun _ => s.coreState c), (CORE_STAT.CTX, fun _ => (s.core c).acts.length), (TR_RDDATA.W, fun _ => s.trRead c),
       (TR_STAT.CFG_ERR, fun _ => b2n (s.trCfgErr c)), (RT_TAG.TAG, fun _ => s.rtTag c (Fin.ofNat 8 j))]

def State.viewSense (s : State) (f : Fld) (i v : Nat) : Nat :=
  let w := fun (_ : Unit) => s.lsBinWord (Fin.ofNat 16 i)
  pick f v
    [(AIN_STAT.ROLE_DUP, fun _ => b2n (s.roleDup i)), (AIN_STAT.CFG_ERR, fun _ => b2n (s.ainCfgErr i)),
     (LS_BIN.GRAIN, fun u => bits (w u) 0 12), (LS_BIN.MOG, fun u => bits (w u) 12 10), (LS_BIN.REJ, fun u => bits (w u) 22 6),
     (LS_BIN.FLT, fun u => bits (w u) 29 1), (LS_BIN.TRUNC, fun u => bits (w u) 30 1), (LS_BIN.VALID, fun u => bits (w u) 31 1),
     (LS_FIFO.LEVEL, fun _ => (s.ls[i % 16]'(by omega)).fifo.length)]

def State.viewAct (s : State) (f : Fld) (i v : Nat) : Nat :=
  let b := Fin.ofNat 8 i
  let waiting := fun (_ : Unit) => maskOf 4 fun k => (s.valve (Fin.ofNat 32 (4 * i + k))).wait.isSome
  pick f v
    [(VD_STAT.PHASE, fun _ => s.valvePhase (Fin.ofNat 32 i)),
     (VD_I.RES, fun _ => if (s.valve (Fin.ofNat 32 i)).phase == .hold then v else 0xFFFF), (VB_STAT.RAIL_V, fun _ => s.railV b),
     (VB_STAT.HS_SRC, fun _ => if (s.booster b).isSome then 2 else b2n ((channelsOf b).any fun c => (s.valve c).energised)),
     (VB_STAT.BOOSTING, fun _ => b2n (s.booster b).isSome), (VB_STAT.BOOSTER, fun _ => ((s.booster b).map fun c => c.val % 4).getD 0),
     (VB_STAT.WAITING, waiting), (VB_STAT.RAIL_READY, fun _ => b2n (s.railReady b)),
     (VB_STAT1.HOLD_SUM, fun _ => min 4095 (s.holdSumBut b none / 50)), (LC_STAT.STATE, fun _ => (s.load (Fin.ofNat 48 i)).state),
     (LC_CE_ACC.E, fun _ => min 65535 (s.load (Fin.ofNat 48 i)).acc.floor.toNat),
     (LG_CUR.I, fun _ => min 65535 (Config.quot 15 (((List.range 4).map fun k => s.get LC_I.I (4 * i + k)).sum) 10))]

def State.viewTime (s : State) (f : Fld) (i v : Nat) : Nat :=
  pick f v
    [(TU_STAT.CODE, fun _ => s.codeAt s.mtc), (CONV_SLEW.S, fun _ => low 32 s.tnow.slew), (TU_U.U, fun _ => s.tuU), (TU_SINCE.T, fun _ => if s.time.st = .unset then 0 else s.tuSince), (TP_STAT.ACTIVE, fun _ => b2n (s.tpActive i))]

def State.viewCan (s : State) (f : Fld) (i j k v : Nat) : Nat :=
  let n := Fin.ofNat 8 i
  let w := Fin.ofNat 2 j
  let ev := (s.can[n.val]).events
  let oldest := ev.head?
  let hp := fun (c0 : Nat) => (List.range 4).foldl (fun a c => a + s.get CAN_HPNEW.NEW (c0 + c) * 2 ^ (8 * c)) 0
  let window := fun (_ : Unit) =>
    if k = 0 then s.rxwWord0 n w else if 3 < k ∧ s.rxwFinds n w = false then 0 else s.rxwWord n w k
  pick f v
    [(CAN_TXEV_A.BUF, fun _ => (oldest.map TxEv.buf).getD 0), (CAN_TXEV_A.RESULT, fun _ => (oldest.map TxEv.result).getD 0),
     (CAN_TXEV_A.LATE, fun _ => b2n ((oldest.map TxEv.late).getD false)), (CAN_TXEV_A.COUNT, fun _ => ev.length),
     (CAN_TXEV_A.VALID, fun _ => b2n oldest.isSome), (CAN_TXEV_B.MTC, fun _ => (oldest.map TxEv.stamp).getD 0),
     (CAN_TXEV_C.MTC, fun _ => (oldest.map TxEv.stamp).getD 0 / 2 ^ 32), (RXW_W.W, window),
     (TXW_W.W, fun _ => ((s.can[n.val]).tx[s.get TXW_SEL.BUF i % 32]'(by omega)).w j),
     (CAN_HP_SUM0.NEW, fun _ => hp 0), (CAN_HP_SUM1.NEW, fun _ => hp 4)]

/-- The first 24 bits of a key's SHA-256; of the release key the specification states no value. -/
def keyPrint (key : Option (List Nat)) : Nat :=
  match key with
  | none => Config.unstated 20 [] % 2 ^ 24
  | some bs => (sha256 bs).take 3 |>.foldl (fun a b => a * 256 + b) 0

/-- The set that runs: the one switched in place while its copy is still under way (UPD_STAT.STATE = TRIAL), else that of
the active boot slot. -/
def State.activeSet (s : State) : Option SoftSet :=
  if s.get UPD_STAT.STATE = 5 ∧ s.manager.copy.isSome then s.manager.copy else s.manager.slots[s.manager.slot.val]

def State.viewUpd (s : State) (f : Fld) (j v : Nat) : Nat :=
  let m := s.manager
  pick f v
    [(TAG_STAT.GEN, fun _ => if s.tags.bad then 0 else s.tags.gen), (TAG_STAT.USED, fun _ => if s.tags.bad then 0 else tagUsed s.tags.recs),
     (TAG_STAT.BAD, fun _ => b2n s.tags.bad), (TAG_WIN.W, fun _ => s.tags.word j),
     (FACTORY.W, fun _ => factoryWord j),
     (UPD_STAT.SLOT, fun _ => m.slot.val), (UPD_STAT.TRIES, fun _ => m.tries), (SET_ACTIVE.W, fun _ => ((s.activeSet).map SoftSet.id).getD 0),
     (KEY_STAT.USER, fun _ => b2n m.key.isSome), (KEY_STAT.LOCKED, fun _ => b2n m.locked), (KEY_STAT.FP, fun _ => keyPrint m.key),
     (SVC_STAT.SESSION, fun _ => b2n m.session.isSome), (SVC_STAT.LEVEL, fun _ => b2n (m.session.any fun x => x.write)),
     (SVC_STAT.PORT, fun _ => b2n (m.session.any fun x => x.eth))]

/-- The value a field reads as. -/
def State.view (s : State) (h : Hit) : Nat :=
  let v := s.get h.fld h.i h.j h.k
  let a := h.fld.addr
  let r :=
    if h.fld.acc = .wo then 0
    else if a < 0x20010000 then s.viewSys h.fld v
    else if a < 0x20020000 then s.viewErr h.fld v
    else if a < 0x20030000 then s.viewBook h.fld h.j v
    else if a < 0x20040000 then s.viewLock h.fld h.j v
    else if a < 0x20100000 then s.viewDc h.fld v
    else if a < 0x20110000 then s.viewCore h.fld h.i h.j v
    else if a < 0x20300000 then s.viewDc h.fld v
    else if a < 0x20400000 then s.viewSense h.fld h.i v
    else if a < 0x20700000 then v
    else if a < 0x20800000 then s.viewAct h.fld h.i v
    else if a < 0x20900000 then s.viewTime h.fld h.i v
    else if a < 0x20A00000 then v
    else if a < 0x20B00000 then s.viewCan h.fld h.i h.j h.k v
    else if a < 0x20C00000 then pick h.fld v [(SW_STAT.BUF, fun _ => s.bufKib)]
    else s.viewUpd h.fld h.j v
  r % 2 ^ h.fld.w

/-- The word that a read of an address returns; reserved bits and unlisted offsets read zero (R3). -/
def State.peek (s : State) (a : Nat) : Nat := (hitsAt a).foldl (fun w h => w + s.view h * 2 ^ h.fld.lo) 0

/-! ### What a read does (R2) -/

/-- The registers whose read latches a high half kept behind the low one: low, high. -/
def latches : List (Fld × Fld) :=
  [(AIN_MTC_LO.MTC, AIN_MTC_HI.MTC), (IMU_MTC_LO.MTC, IMU_MTC_HI.MTC), (CAM_FS_LO.MTC, CAM_FS_HI.MTC), (GRID_PUB_MTC_LO.MTC, GRID_PUB_MTC_HI.MTC),
   (SENS_LAST_LO.MTC, SENS_LAST_HI.MTC), (TP_MTC_LO.MTC, TP_MTC_HI.MTC), (GC_DUMP_MTC_LO.MTC, GC_DUMP_MTC_HI.MTC),
   (TL_FLUSH_MTC_LO.MTC, TL_FLUSH_MTC_HI.MTC)]

/-- LASTW of the frame that a window has locked. -/
def State.rxwEnds (s : State) (n : Fin 8) (w : Fin 2) (k : Nat) : Bool := ((s.can[n.val]).win[w.val]).isSome && k == s.rxwLast n w

/-- The effect of reading one field: RC clears, the head of a FIFO is removed, halves are latched. -/
def State.readFld (s : State) (h : Hit) : State :=
  let s := if h.fld.acc = .rc then s.put h.fld 0 h.i h.j h.k else s
  if sameFld h.fld TU_NOW_MTC_LO.W then s.tuLatch
  else if sameFld h.fld CONV_MTC_LO.W then s.convLatch
  else if sameFld h.fld LS_BIN.GRAIN then s.lsPop (Fin.ofNat 16 h.i)
  else if sameFld h.fld CAN_TXEV_C.MTC then s.txEvPop (Fin.ofNat 8 h.i)
  else if sameFld h.fld RXW_W.W then
    let n := Fin.ofNat 8 h.i
    let w := Fin.ofNat 2 h.j
    if h.k = 0 then s.rxwLock n w
    else if s.rxwEnds n w h.k then s.rxwConsume n w
    else s
  else
    match latches.find? fun p => sameFld h.fld p.1 with
    | some p => s.put p.2 (s.get p.1.behind h.i h.j h.k) h.i h.j h.k
    | none => s

/-- The value that a read returns where the read itself latches it. -/
def readsAfter (a : Nat) : Bool := (locate TU_NOW_MTC_LO.W a).isSome || (locate CONV_MTC_LO.W a).isSome

/-- A read of a register: the word, and what the read leaves. -/
def State.busRead (s : State) (a : Nat) : Nat × State :=
  let t := (hitsAt a).foldl (fun (t : State) h => t.readFld h) s
  (if readsAfter a then t.peek a else s.peek a, t)

/-! ### Writing -/

/-- Write one field by its type (R2). -/
def State.writeFld (s : State) (h : Hit) (w : Nat) : State :=
  let v := bits w h.fld.lo h.fld.w
  match h.fld.acc with
  | .rw => s.put h.fld v h.i h.j h.k
  | .w1c => s.put h.fld (s.get h.fld h.i h.j h.k &&& (2 ^ h.fld.w - 1 - v)) h.i h.j h.k
  | .w1s => s.put h.fld (s.get h.fld h.i h.j h.k ||| v) h.i h.j h.k
  | .ro | .wo | .rc => s

/-- Write the fields of a register by their types, those only that the privilege reaches (R5). -/
def State.writePlain (s : State) (hs : List Hit) (w : Nat) (sup : Bool) : State :=
  hs.foldl (fun (t : State) h => if sup || h.fld.prog then t.writeFld h w else t) s

/-- The action of a register, where its address is one. -/
def onReg (f : Fld) (a : Nat) (g : Nat → Nat → Nat → State) : Option State := (locate f a).map fun p => g p.1 p.2.1 p.2.2

/-- A register that keeps its fields by type and then acts. -/
def State.then_ (s : State) (hs : List Hit) (w : Nat) (sup : Bool) (f : State → State) : State := f (s.writePlain hs w sup)

/-- A measured temperature that a register write needs and does not carry. -/
def State.unmeasured (s : State) (k : Nat) : Nat := Config.unstated 19 [k, s.free]

/-! System control. -/
def State.actSys (s : State) (a w : Nat) : Option State :=
  (onReg RST_REQ.CMD a fun _ _ _ => s.rstReq (bits w 0 4) (bits w 16 16))
  <|> (onReg OSV_CTL.SEAL a fun _ _ _ =>
    let t := if bit w 1 then s.put OSV_CTL.SEAL_REF 0 else s
    if bit w 0 then t.seal else t)
  <|> (onReg SUP_CFG.STUD_LIM a fun _ _ _ =>
    let t := s.putWord [SUP_CFG.STUD_LIM, SUP_CFG.SS_EN, SUP_CFG.PLATE_WARN] w
    t.put SUP_STAT.SS_ACT t.ssAct)
  <|> (onReg OSV_VD.W a fun _ j _ => s.osvWrite OSV_VD.W j w)
  <|> (onReg OSV_LC.W a fun _ j _ => s.osvWrite OSV_LC.W j w)

/-! Error controller, locks and mailboxes. -/
def State.actPlat (s : State) (a w : Nat) : Option State :=
  (onReg ERR_CFG.ARM a fun _ _ _ => s.errArm w)
  <|> (onReg ERR_DONE.SEQ a fun _ _ _ => s.errDone w)
  <|> (onReg ERR_RAISE.SEV a fun _ _ _ => s.errRaise (w % 4) (bits w 16 16))
  <|> (onReg ERR_SRC_CFG.SEV a fun _ j _ => s.errSrcWrite j w)
  <|> (onReg LK_FREE.LOCK a fun _ _ _ => s.lkFree (Fin.ofNat 256 w))
  <|> (onReg MB_CFG.EN a fun _ j _ => s.mbCfg (Fin.ofNat 64 j) w)
  <|> (onReg MB_PERM.SEND a fun _ j _ => if j = 0 then s else s.put MB_PERM.SEND w 0 j)
  <|> (onReg REQ_CFG.CLASS a fun i _ _ => s.reqWrite i w)
  <|> (onReg FP_CFG.MODE a fun i _ _ =>
    let t := s.put FP_CFG.MODE (w % 2) i
    if i = 3 then t else t.put FP_CFG.PREEMPT_EN (bits w FP_CFG.PREEMPT_EN.lo 1) i)

/-! The Decanter. -/
def State.actDc (s : State) (a w id : Nat) : Option State :=
  (onReg DC_CFG.EN a fun i _ _ => s.dcCfg (Fin.ofNat 32 i) w)
  <|> (onReg DC_CTL.START a fun i _ _ => s.dcCtl (Fin.ofNat 32 i) w)
  <|> (onReg DC_DOORBELL.W a fun i _ _ => s.dcRing (Fin.ofNat 32 i) id)
  <|> (onReg LSTEP_CFG.PAIR a fun _ _ _ => s.lstepWrite w)
  <|> (onReg SWAP_SET.CORES a fun _ _ _ => s.swapSet w)
  <|> (onReg MIG_GO.CORE a fun _ _ _ =>
    if bit w MIG_GO.GO.lo then s.migGo (Fin.ofNat 16 (bits w MIG_GO.CORE.lo MIG_GO.CORE.w)) else s)

/-- A write to CORE_CTL. -/
def State.coreCtl (s : State) (c : Fin 16) (w : Nat) : State :=
  let t := s.putWord [CORE_CTL.RUN, CORE_CTL.SPARE, CORE_CTL.SWAP_EN, CORE_CTL.SPARE_EN, CORE_CTL.SPARE_CORE, CORE_CTL.AUTO_MIG] w c.val
  if bit w CORE_CTL.RST.lo then t.coreReset c else t

/-- A write to BANK_CTL. -/
def State.bankWrite (s : State) (c : Fin 16) (w : Nat) : State :=
  let t := if bit w BANK_CTL.VALIDATE.lo then s.validate c else s
  if bit w BANK_CTL.INVALIDATE.lo then t.invalidate c else t

/-! A function core's block: one that has migrated, and the odd core of a pair, ignore writes. -/
def State.actCore (s : State) (hs : List Hit) (a w : Nat) (sup : Bool) : Option State :=
  match fcOf a with
  | none => none
  | some c =>
    if !s.controls c then some s
    else
      (onReg CORE_CTL.RUN a fun _ _ _ => s.coreCtl c w)
      <|> (onReg BANK_CTL.VALIDATE a fun _ _ _ => s.bankWrite c w)
      <|> (onReg SLOTMAP.W a fun i j k => s.tableWrite c j fun t => t.put SLOTMAP.W (slotBits w) i j k)
      <|> (onReg ENT_PC.PC a fun _ j _ => s.tableWrite c j fun t => t.writePlain hs w sup)
      <|> (onReg ENT_ARG.W a fun _ j _ => s.tableWrite c j fun t => t.writePlain hs w sup)
      <|> (onReg ENT_CTL.EN a fun _ j _ => s.tableWrite c j fun t => t.writePlain hs w sup)
      <|> (onReg LP_CFG.EN a fun _ j _ => s.lpCfg c (Fin.ofNat 8 j) w)
      <|> (onReg TR_CFG.EN a fun _ _ _ => s.trCfg c w)
      <|> (onReg TR_CTL.ARM a fun _ _ _ => s.trCtl c w)

/-! Sensing. -/
def State.actSense (s : State) (hs : List Hit) (a w : Nat) (sup : Bool) : Option State :=
  (onReg AIN_CFG.MODE a fun i _ _ => s.ainCfgWrite (s.writePlain hs w sup) (Fin.ofNat 40 i))
  <|> (onReg LS_CFG.EN a fun i _ _ => s.lsEnabled (s.writePlain hs w sup) (Fin.ofNat 16 i))
  <|> (onReg LS_CTL.RESTART a fun i _ _ => if bit w 0 then s.modLs (Fin.ofNat 16 i) fun l => { l with restart := true } else s)
  <|> (onReg CAM_CFG.EN a fun i _ _ => (s.camCfgWrite (Fin.ofNat 10 i) 0 w).cvReleaseAll)
  <|> (onReg CAM_SIZE.WIDTH a fun i _ _ => (s.camCfgWrite (Fin.ofNat 10 i) 1 w).cvReleaseAll)
  <|> (onReg CAM_PERIOD.PERIOD a fun i _ _ => (s.camCfgWrite (Fin.ofNat 10 i) 2 w).cvReleaseAll)
  <|> (onReg SET_CTL.NW a fun i _ _ =>
    if bit w SET_CTL.GO.lo then s.camSetGo (Fin.ofNat 10 i) (bits w SET_CTL.NW.lo SET_CTL.NW.w)
    else if s.on SET_CTL.GO i then s.camSetIgnored (Fin.ofNat 10 i)
    else s.writePlain hs w sup)
  <|> (onReg SET_W.REG a fun i _ _ => if s.on SET_CTL.GO i then s.camSetIgnored (Fin.ofNat 10 i) else s.writePlain hs w sup)

/-- Is an offset of a pipe's block in its shadow set? -/
def pipeShadow (o : Nat) : Bool :=
  (decide (0x40 ≤ o) && decide (o < 0x80)) || (decide (0x1000 ≤ o) && decide (o < 0x1404)) || (decide (0x2000 ≤ o) && decide (o < 0x2C04))

/-! The Pipeline: while a switch is pending, writes to the shadow set are ignored and counted (R139). -/
def State.actPipe (s : State) (a w : Nat) : Option State :=
  if 0x20410000 ≤ a ∧ a < 0x20420000 then
    let p := Fin.ofNat 4 ((a - 0x20410000) / 0x4000)
    (onReg PIPE_CTL.TBL_SWITCH a fun _ _ _ => if bit w 0 then s.tblSwitch p else s)
    <|> (if s.on PIPE_CTL.TBL_SWITCH p.val && pipeShadow ((a - 0x20410000) % 0x4000) && !(hitsAt a).isEmpty then some (s.count PIPE_CNT.SHADOW_IGN 1 p.val) else none)
  else none

/-! Cuvee. -/
def State.actFuse (s : State) (a w : Nat) : Option State :=
  (onReg ROLE_MAP.W a fun i j k => s.put ROLE_MAP.W (w &&& 0xBFBFBFBF) i j k)
  <|> (onReg CV_CTL.EN a fun _ _ _ => s.cvCtlWrite w)
  <|> (onReg SENS_CFG.EN a fun i _ _ => s.sensCfgWrite (Fin.ofNat 16 i) w)
  <|> (onReg SENS_PERIOD.PERIOD a fun i _ _ => (s.put SENS_PERIOD.PERIOD w i).cvReleaseAll)
  <|> (onReg TT_CTL.COMMIT a fun i _ _ => if bit w 0 then s.ttCommit (Fin.ofNat 16 i) else s)
  <|> (onReg HG_CTL.COMMIT a fun _ _ _ => if bit w 0 then s.hgCommit else s)
  <|> (onReg MS_CTL.SWAP a fun i _ _ => if bit w 0 then s.modelSwap (Fin.ofNat 16 i) else s)

/-! Machine functions and the Racking Line: its registers but the reader's STRIP_RD are its configuration (R180). -/
def State.actFlow (s : State) (hs : List Hit) (a w : Nat) (rq : Req) : Option State :=
  let line := hs.any fun h =>
    (flds_rl ++ flds_stg ++ flds_tap ++ flds_at).any (sameFld h.fld ·) && h.fld.acc == .rw && !sameFld h.fld STRIP_RD.IDX
  (onReg MF_SP.SP a fun i _ _ => s.mfSpWrite i (bits w 0 16) rq)
  <|> (onReg MI_VAL.VAL a fun i _ _ => s.miValWrite (Fin.ofNat 8 i) w)
  <|> (if line then some ((s.writePlain hs w rq.sup).modRl fun r => { r with dirty := true }) else none)

/-! Valves and loads: the temperatures and clamp energies that a command of its own row would carry are not known. -/
def State.actDrive (s : State) (hs : List Hit) (a w : Nat) (sup : Bool) : Option State :=
  (onReg VD_CMD.HOLD_I a fun i _ _ => s.vdCmd (Fin.ofNat 32 i) (bits w VD_CMD.OP.lo VD_CMD.OP.w) (bits w VD_CMD.HOLD_I.lo VD_CMD.HOLD_I.w))
  <|> (onReg VD_FLAGS.F a fun i _ _ => (s.vdRearm (Fin.ofNat 32 i) w (s.unmeasured 0)).fresh)
  <|> (onReg VD_CFG.EN a fun i _ _ =>
    let t := s.writePlain hs w sup
    if s.on VD_CFG.EN i && !t.on VD_CFG.EN i then t.vdDisable (Fin.ofNat 32 i) else t)
  <|> (onReg VB_CFG.EN a fun i _ _ =>
    let t := s.writePlain hs w sup
    let t := if s.on VB_CFG.EN i && !t.on VB_CFG.EN i then (channelsOf (Fin.ofNat 8 i)).foldl (fun (u : State) c => u.vdDisable c) t else t
    t.railTrack (Fin.ofNat 8 i))
  <|> (onReg VB_CTL.CLEAR a fun i _ _ =>
    let b := Fin.ofNat 8 i
    let t := if bit w VB_CTL.CLEAR.lo then (s.vbClear b (s.unmeasured 1 : Nat)).fresh else s
    if bit w VB_CTL.RST.lo then t.vbReset b else t)
  <|> (onReg LC_CMD.DUTY a fun i _ _ =>
    (s.lcCmd (Fin.ofNat 48 i) (bits w LC_CMD.OP.lo LC_CMD.OP.w) (bits w LC_CMD.DUTY.lo LC_CMD.DUTY.w) (Config.clampEnergy i s.free)).fresh)
  <|> (onReg LC_LIM.ILIM a fun i _ _ => s.writePlain hs (if heavy (Fin.ofNat 48 i) then w else w &&& 0x3FF) sup)
  <|> (onReg LC_INRUSH.LIM_T a fun i _ _ => s.writePlain hs (if heavy (Fin.ofNat 48 i) then w else w &&& 0xFF0000) sup)
  <|> (onReg LC_FLAGS.F a fun i _ _ => s.lcRearm (Fin.ofNat 48 i) w)
  <|> (onReg LC_CFG.EN a fun i _ _ =>
    let t := s.writePlain hs w sup
    if s.on LC_CFG.EN i && !t.on LC_CFG.EN i then t.lcDisable (Fin.ofNat 48 i) else t)
  <|> (onReg LG_CTL.CLEAR a fun i _ _ =>
    let g := Fin.ofNat 12 i
    let t := if bit w LG_CTL.CLEAR.lo then (s.lgClear g (s.unmeasured 2 : Nat)).fresh else s
    if bit w LG_CTL.RST.lo then t.lgReset g else t)

/-! Position and time. -/
def State.actPos (s : State) (hs : List Hit) (a w : Nat) (rq : Req) : Option State :=
  let tp := fun (i : Nat) => s.tpChanged (s.writePlain hs w rq.sup) (Fin.ofNat 2 i)
  (onReg TP_CFG.EN a fun i _ _ => tp i)
  <|> (onReg TP_DLY.CABLE_DLY a fun i _ _ => tp i)
  <|> (onReg GC_CFG.EN a fun i _ _ =>
    s.gcWrite (Fin.ofNat 96 i) 0 w rq.id)
  <|> (onReg GC_CODE_FRQ.FRQ a fun i _ _ => s.gcWrite (Fin.ofNat 96 i) 1 w rq.id)
  <|> (onReg GC_CARR_FRQ.FRQ a fun i _ _ => s.gcWrite (Fin.ofNat 96 i) 2 w rq.id)
  <|> (onReg GC_TAPS.SP a fun i _ _ => s.gcWrite (Fin.ofNat 96 i) 3 w rq.id)
  <|> (onReg GC_CODE_ADJ.ADJ a fun i _ _ => s.gcCodeAdj (Fin.ofNat 96 i) w rq.id)
  <|> (onReg GC_CARR_ADJ.ADJ a fun i _ _ => s.gcCarrAdj (Fin.ofNat 96 i) w rq.id)
  <|> (onReg GF_CFG.BIAS0 a fun _ _ _ => s.gfCfgWrite w)

/-- Bit timing and mode registers are writable while INIT = 1 (Table 14.9). -/
def State.canConfig (s : State) (hs : List Hit) (n : Fin 8) (w : Nat) : State :=
  if s.on CAN_CTL.INIT n.val then s.writePlain hs w true
  else (s.canFlag n.val CAN_FLAGS.CFG_ERR).count CAN_CNT3.IGN 1 n.val

/-- A write to CAN_CTL: the modes, then INIT, RECOVER and RST. -/
def State.canCtl (s : State) (n : Fin 8) (w : Nat) : State :=
  let t := s.putWord [CAN_CTL.MODE, CAN_CTL.FD_EN, CAN_CTL.BRS_EN, CAN_CTL.BO_AUTO] w n.val
  let t := t.canInitWrite n (bit w CAN_CTL.INIT.lo)
  let t := if bit w CAN_CTL.RECOVER.lo then t.canRecover n else t
  if bit w CAN_CTL.RST.lo then t.canRstNet n else t

/-! CAN. -/
def State.actCan (s : State) (hs : List Hit) (a w id : Nat) : Option State :=
  let n := fun (i : Nat) => Fin.ofNat 8 i
  (onReg CAN_CTL.INIT a fun i _ _ => s.canCtl (n i) w)
  <|> (onReg CAN_NBT.BRP a fun i _ _ => s.canConfig hs (n i) w)
  <|> (onReg CAN_DBT.BRP a fun i _ _ => s.canConfig hs (n i) w)
  <|> (onReg CAN_TDC.TDCO a fun i _ _ => s.canConfig hs (n i) w)
  <|> (onReg CAN_CFG.OWNER a fun i _ _ => s.canConfig hs (n i) w)
  <|> (onReg RXW_SEL.BUF a fun i j _ => s.rxwSelect (n i) (Fin.ofNat 2 j) w id)
  <|> (onReg RXW_REL.REL a fun i j _ => s.rxwRel (n i) (Fin.ofNat 2 j) w id)
  <|> (onReg TXW_SEL.BUF a fun i _ _ => if s.canOwner i id then s.put TXW_SEL.BUF w i else s.canOwnerIgn i)
  <|> (onReg TXW_W.W a fun i j _ => s.txwWrite (n i) (Fin.ofNat 20 j) w id)
  <|> (onReg CAN_TX_REQ.W a fun i _ _ => s.txRequest (n i) w id)
  <|> (onReg CAN_TX_CANCEL.W a fun i _ _ => (s.txCancel (n i) w id).netSync (n i))
  <|> (onReg CAN_TX_DONE.W a fun i _ _ =>
    if s.canOwner i id then s.put CAN_TX_DONE.W (s.get CAN_TX_DONE.W i &&& (2 ^ 32 - 1 - w % 2 ^ 32)) i else s.canOwnerIgn i)
  <|> (onReg HPF_ID.ID a fun i _ _ => (s.canKeep (n i)).writePlain hs w true)
  <|> (onReg HPF_MASK.MASK a fun i _ _ => (s.canKeep (n i)).writePlain hs w true)
  <|> (onReg HPF_CTL.COPY a fun i _ _ => (s.canKeep (n i)).writePlain hs w true)
  <|> (onReg AF_ID.ID a fun i _ _ => (s.canKeep (n i)).writePlain hs w true)
  <|> (onReg AF_MASK.MASK a fun i _ _ => (s.canKeep (n i)).writePlain hs w true)
  <|> (onReg AF_ACT.ACT a fun i _ _ => (s.canKeep (n i)).writePlain hs w true)

/-! Ethernet, and update control. -/
def State.actNet (s : State) (hs : List Hit) (a w id : Nat) (sup : Bool) : Option State :=
  (onReg ETH_CFG.EN a fun i _ _ =>
    let t := (s.ethCfgKeep i).writePlain hs w sup
    if s.on ETH_CFG.EN i && !t.on ETH_CFG.EN i then t.linkLoss (Fin.ofNat 10 i) else t)
  <|> (onReg HQ_TX_WR.IDX a fun i _ _ => s.hqTxWrite (Fin.ofNat 2 i) (bits w 0 16) id)
  <|> (onReg HQ_RX_RD.IDX a fun i _ _ => if s.hqOwner i id then s.put HQ_RX_RD.IDX w i else s)
  <|> (onReg SVC_CTL.WRITE_EN a fun _ _ _ =>
    let t := s.put SVC_CTL.WRITE_EN w
    if bit w 0 then t
    else { t with manager := { t.manager with session := t.manager.session.map fun x => { x with write := false } } })

/-- The registers that act. -/
def State.act? (s : State) (hs : List Hit) (a w : Nat) (rq : Req) : Option State :=
  if a < 0x20010000 then s.actSys a w
  else if a < 0x20050000 then s.actPlat a w
  else if a < 0x20100000 then s.actDc a w rq.id
  else if a < 0x20110000 then s.actCore hs a w rq.sup
  else if a < 0x20300000 then s.actDc a w rq.id
  else if a < 0x20410000 then s.actSense hs a w rq.sup
  else if a < 0x20500000 then s.actPipe a w
  else if a < 0x20600000 then s.actFuse a w
  else if a < 0x20700000 then s.actFlow hs a w rq
  else if a < 0x20800000 then s.actDrive hs a w rq.sup
  else if a < 0x20900000 then s.actPos hs a w rq
  else if a < 0x20A00000 then none
  else if a < 0x20B00000 then s.actCan hs a w rq.id
  else s.actNet hs a w rq.id rq.sup

/-- May the privilege of a write reach the register (R5)?  An unlisted offset ignores every write. -/
def mayWrite (hs : List Hit) (sup : Bool) : Bool := sup || hs.isEmpty || hs.any fun h => h.fld.prog

/-- A write of a word to an address of the window; none: the access fault of R5.  Owners are checked by identity (R83). -/
def State.busWrite (s : State) (a w : Nat) (r : Req) : Option State :=
  let hs := hitsAt a
  let rq := s.asIdentity r
  if !mayWrite hs rq.sup then none
  else some ((s.act? hs a (w % 2 ^ 32) rq).getD (s.writePlain hs (w % 2 ^ 32) rq.sup))

/-- A write without a row of its own; one that R5 refuses takes no effect. -/
def execRegisterWrite (addr value : Nat) (rq : Req) (s : State) : Host.Outcome State Fault Refusal :=
  s.act (if addr % 4 = 0 then (s.busWrite addr value rq).getD s else s)

end Sys2Proof.Machine
end

