-- ==== Sys2Proof/Machine/Flags.lean ====
section
/-! DEFINITION.  The sticky flags of STATUS (R56, R57, Table 3.18) as a mask in their STATUS positions, and how an
instruction sets them. -/

namespace Sys2Proof.Machine

def flSat : Nat := 2 ^ 8
def flOvf : Nat := 2 ^ 9
def flNv : Nat := 2 ^ 16
def flDz : Nat := 2 ^ 17
def flOf : Nat := 2 ^ 18
def flUf : Nat := 2 ^ 19
def flNx : Nat := 2 ^ 20

/-- A flag mask that holds where a condition does. -/
def flagIf (b : Bool) (m : Nat) : Nat := if b then m else 0

/-- Set the sticky flags of a mask; no flag is cleared. -/
def Ctx.raised (x : Ctx) (m : Nat) : Ctx :=
  { x with
    sat := x.sat || bit m 8, ovf := x.ovf || bit m 9, fnv := x.fnv || bit m 16, fdz := x.fdz || bit m 17, fof := x.fof || bit m 18
    fuf := x.fuf || bit m 19, fnx := x.fnx || bit m 20 }

/-- A CWR of STATUS: a sticky flag written with 1 clears; OTRAP and FTRAP take the value written (R64). -/
def Ctx.writeStatus (x : Ctx) (v : Word) : Ctx :=
  { x with
    sat := x.sat && !v.getLsbD 8, ovf := x.ovf && !v.getLsbD 9, fnv := x.fnv && !v.getLsbD 16, fdz := x.fdz && !v.getLsbD 17
    fof := x.fof && !v.getLsbD 18, fuf := x.fuf && !v.getLsbD 19, fnx := x.fnx && !v.getLsbD 20, otrap := v.getLsbD 24
    ftrap := v.getLsbD 25 }

end Sys2Proof.Machine
end

