-- ==== Sys2Proof/Machine/Operands.lean ====
section
/-! DEFINITION.  The operand forms of Mavalor (R48, R49): immediates, f registers and
accumulators. -/

namespace Sys2Proof.Machine

/-! ### Immediates -/

/-- sext(IMM). -/
def sext16 (imm : BitVec 16) : Word := imm.signExtend 32

/-- zext(IMM). -/
def zext16 (imm : BitVec 16) : Word := imm.zeroExtend 32

/-! ### Registers -/

/-- Does the f register field name a register (R45)? -/
def okF (r : Fin 32) : Bool := decide (r.val < 16)

/-- Does the accumulator field name an accumulator (R45)? -/
def okA (r : Fin 32) : Bool := decide (r.val < 4)

/-- The f register of a field; an instruction with a field of 16 or more does not execute (R49). -/
def Ctx.getF (x : Ctx) (r : Fin 32) : Word := x.f[r.val % 16]'(by omega)
def Ctx.setF (x : Ctx) (r : Fin 32) (v : Word) : Ctx := { x with f := x.f.set (r.val % 16) v (by omega) }

/-- The accumulator of a field; an instruction with a field of 4 or more does not execute (R49). -/
def Ctx.getA (x : Ctx) (r : Fin 32) : BitVec 40 := x.a[r.val % 4]'(by omega)
def Ctx.setA (x : Ctx) (r : Fin 32) (v : BitVec 40) : Ctx := { x with a := x.a.set (r.val % 4) v (by omega) }

/-- A Q15 operand: bits [15:0], signed (R57). -/
def q15 (w : Word) : Int := (w.truncate 16).toInt

/-- A word from an integer. -/
def wordZ (v : Int) : Word := BitVec.ofInt 32 v

end Sys2Proof.Machine
end

