-- ==== Sys2Proof/Machine/CoreExec.lean ====
section
/-! DEFINITION.  How a function core executes one instruction (R50, R55, R65 to R69): when it executes, and the instruction
boundary after it. -/

namespace Sys2Proof.Machine

open Sys2Proof.Reg

/-! ### The instruction boundary -/

/-- Does the identity execute an instruction now: its core runs and an activation or a handler executes that does not
wait for a lock (R28, R72, R78)? -/
def State.coreRuns (s : State) (c : Fin 16) : Bool :=
  let k := s.core c
  s.live && !s.paired c.val && k.life == .running && !k.resetting && k.executing && k.lockWait.isNone

/-- Advance the cycle count of a core (R50). -/
def State.spend (s : State) (c : Fin 16) (n : Nat) : State := s.modCore c fun k => { k with cyc := k.cyc + n }

/-- Change the context in which a core executes. -/
def State.modCtx (s : State) (c : Fin 16) (f : Ctx → Ctx) : State := s.modCore c fun k => k.modCtx f

/-- The context in which a core executes. -/
def State.ctx (s : State) (c : Fin 16) : Ctx := (s.core c).ctx

/-- FETCH for running past 0x0000_FFFC (R55). -/
def State.fetchPast (s : State) (c : Fin 16) : State := (s.modCtx c fun x => { x with pc := 0xFFFC }).except c pastExc

/-- Is a cause to be taken before the instruction: the bus error of a posted store, or FETCH (Table 3.19)? -/
def State.cause (s : State) (c : Fin 16) : Bool := !(s.core c).busErr.isEmpty || (s.ctx c).past

/-- Take the cause at an instruction boundary that stands before the next instruction (R65, R68). -/
def State.takeCause (s : State) (c : Fin 16) : State :=
  match (s.core c).busErr with
  | a :: r =>
    (s.modCore c fun k => { k with busErr := r }).except c ⟨0x05, 0, true, (s.ctx c).pc, a⟩
  | [] => if (s.ctx c).past then s.fetchPast c else s

/-- The instruction boundary: causes in the order of Table 3.19. -/
def State.bound (s : State) (c : Fin 16) : State := if s.cause c then s.takeCause c else (s.boundary c).takeEvent c

/-- Execute one instruction of a core.  A cause that stands at the boundary before it is taken in its place. -/
def State.issue (s : State) (c : Fin 16) (t : State) : Host.Outcome State Fault Refusal :=
  .next (if s.coreRuns c then (if s.cause c then s.takeCause c else t) else s)

/-- An instruction completes: its effect on the context, the next address, its cycles, the boundary after it. -/
def State.retire (s : State) (c : Fin 16) (n : Nat) (f : Ctx → Ctx) : State :=
  ((s.spend c n).modCtx c fun x => (f x).next).bound c

/-- A control transfer to an address, with its effect on the context; a bad target raises FETCH and does neither (R55). -/
def State.transfer (s : State) (c : Fin 16) (n : Nat) (target : Word) (f : Ctx → Ctx) : State :=
  if decide (0x10000 ≤ target.toNat) || target.toNat % 4 != 0 then s.except c ⟨0x03, 0, false, (s.ctx c).pc, target⟩
  else ((s.spend c n).modCtx c fun x => { f x with pc := target }).bound c

/-- ILLEGAL at the instruction whose word is given (R49, Table 3.19). -/
def State.illegal (s : State) (c : Fin 16) (w : Word) : State := s.except c ⟨0x01, 0, false, (s.ctx c).pc, w⟩

/-- PRIVILEGE at the instruction whose word is given (R47, Table 3.19). -/
def State.privilege (s : State) (c : Fin 16) (w : Word) : State := s.except c ⟨0x02, 0, false, (s.ctx c).pc, w⟩

/-- ACCESS with a detail code of Table 3.20. -/
def State.access (s : State) (c : Fin 16) (detail : Nat) (v : Word) : State := s.except c ⟨0x04, detail, false, (s.ctx c).pc, v⟩

/-- An instruction whose effect is on the context alone. -/
def State.plain (s : State) (c : Fin 16) (n : Nat) (f : Ctx → Ctx) : Host.Outcome State Fault Refusal :=
  s.issue c (s.retire c n f)

/-- The same for an instruction with register fields that must name a register: otherwise ILLEGAL. -/
def State.checked (s : State) (c : Fin 16) (ok : Bool) (w : Word) (t : State) : Host.Outcome State Fault Refusal :=
  s.issue c (if ok then t else s.illegal c w)

/-! ### Event lines -/

/-- An event line becomes pending on a core, and is taken if it can be. -/
def execEventLine (c : Fin 16) (line : Fin 32) (s : State) : Host.Outcome State Fault Refusal :=
  .next (
    if s.live && !s.paired c.val then
      let s := s.modCore c fun k => k.pend (2 ^ line.val)
      if (s.core c).executing && (s.core c).lockWait.isNone && s.cause c then s.takeCause c else s.takeEvent c
    else s)

end Sys2Proof.Machine
end

