-- ==== Sys2Proof/Machine/CoreAlu.lean ====
section
/-! DEFINITION.  The integer instructions of Mavalor (R50, R51; Tables 3.4 to 3.6) and its branches and jumps (R55, Table
3.8). -/

namespace Sys2Proof.Machine

/-! ### Shared forms -/

/-- gA := f(gB, gC) in `n` cycles. -/
def State.alu3 (s : State) (c : Fin 16) (n : Nat) (a b d : Fin 32) (f : Word → Word → Word) : Host.Outcome State Fault Refusal :=
  s.plain c n fun x => x.setG a (f (x.getG b) (x.getG d))

/-- gA := f(gB). -/
def State.alu2 (s : State) (c : Fin 16) (a b : Fin 32) (f : Word → Word) : Host.Outcome State Fault Refusal :=
  s.plain c 1 fun x => x.setG a (f (x.getG b))

/-- gA and sticky flags from gB and gC. -/
def State.alu3f (s : State) (c : Fin 16) (n : Nat) (a b d : Fin 32) (f : Word → Word → Word × Nat) :
    Host.Outcome State Fault Refusal :=
  s.plain c n fun x => let r := f (x.getG b) (x.getG d); (x.setG a r.1).raised r.2

/-- A truth value in a register. -/
def wordB (b : Bool) : Word := BitVec.ofNat 32 (b2n b)

/-! ### Table 3.4 -/

/-- The shift count gC[4:0]. -/
def shamt (w : Word) : Nat := w.toNat % 32

/-- The number of leading zero bits. -/
def clz (w : Word) : Word := if w = 0 then 32 else BitVec.ofNat 32 (31 - Nat.log2 w.toNat)

def execAdd (c : Fin 16) (a b d : Fin 32) (s : State) : Host.Outcome State Fault Refusal := s.alu3 c 1 a b d fun x y => x + y
def execSub (c : Fin 16) (a b d : Fin 32) (s : State) : Host.Outcome State Fault Refusal := s.alu3 c 1 a b d fun x y => x - y
def execAnd (c : Fin 16) (a b d : Fin 32) (s : State) : Host.Outcome State Fault Refusal := s.alu3 c 1 a b d fun x y => x &&& y
def execOr (c : Fin 16) (a b d : Fin 32) (s : State) : Host.Outcome State Fault Refusal := s.alu3 c 1 a b d fun x y => x ||| y
def execXor (c : Fin 16) (a b d : Fin 32) (s : State) : Host.Outcome State Fault Refusal := s.alu3 c 1 a b d fun x y => x ^^^ y
def execNor (c : Fin 16) (a b d : Fin 32) (s : State) : Host.Outcome State Fault Refusal := s.alu3 c 1 a b d fun x y => ~~~(x ||| y)
def execSlt (c : Fin 16) (a b d : Fin 32) (s : State) : Host.Outcome State Fault Refusal := s.alu3 c 1 a b d fun x y => wordB (x.slt y)
def execSltu (c : Fin 16) (a b d : Fin 32) (s : State) : Host.Outcome State Fault Refusal := s.alu3 c 1 a b d fun x y => wordB (x.ult y)
def execSll (c : Fin 16) (a b d : Fin 32) (s : State) : Host.Outcome State Fault Refusal := s.alu3 c 1 a b d fun x y => x <<< shamt y
def execSrl (c : Fin 16) (a b d : Fin 32) (s : State) : Host.Outcome State Fault Refusal := s.alu3 c 1 a b d fun x y => x >>> shamt y
def execSra (c : Fin 16) (a b d : Fin 32) (s : State) : Host.Outcome State Fault Refusal := s.alu3 c 1 a b d fun x y => x.sshiftRight (shamt y)
def execSlli (c : Fin 16) (a b sh : Fin 32) (s : State) : Host.Outcome State Fault Refusal := s.alu2 c a b fun x => x <<< sh.val
def execSrli (c : Fin 16) (a b sh : Fin 32) (s : State) : Host.Outcome State Fault Refusal := s.alu2 c a b fun x => x >>> sh.val
def execSrai (c : Fin 16) (a b sh : Fin 32) (s : State) : Host.Outcome State Fault Refusal := s.alu2 c a b fun x => x.sshiftRight sh.val
def execMin (c : Fin 16) (a b d : Fin 32) (s : State) : Host.Outcome State Fault Refusal := s.alu3 c 1 a b d fun x y => if x.slt y then x else y
def execMax (c : Fin 16) (a b d : Fin 32) (s : State) : Host.Outcome State Fault Refusal := s.alu3 c 1 a b d fun x y => if x.slt y then y else x
def execMinu (c : Fin 16) (a b d : Fin 32) (s : State) : Host.Outcome State Fault Refusal := s.alu3 c 1 a b d fun x y => if x.ult y then x else y
def execMaxu (c : Fin 16) (a b d : Fin 32) (s : State) : Host.Outcome State Fault Refusal := s.alu3 c 1 a b d fun x y => if x.ult y then y else x
def execClz (c : Fin 16) (a b : Fin 32) (s : State) : Host.Outcome State Fault Refusal := s.alu2 c a b clz
def execSextb (c : Fin 16) (a b : Fin 32) (s : State) : Host.Outcome State Fault Refusal := s.alu2 c a b fun x => (x.truncate 8).signExtend 32
def execSexth (c : Fin 16) (a b : Fin 32) (s : State) : Host.Outcome State Fault Refusal := s.alu2 c a b fun x => (x.truncate 16).signExtend 32

/-- The exact result saturated to 32 bits, with SAT where it was. -/
def satWord (v : Int) : Word × Nat := (wordZ (sat32 v), flagIf (sat32 v != v) flSat)

def execAdds (c : Fin 16) (a b d : Fin 32) (s : State) : Host.Outcome State Fault Refusal := s.alu3f c 1 a b d fun x y => satWord (x.toInt + y.toInt)
def execSubs (c : Fin 16) (a b d : Fin 32) (s : State) : Host.Outcome State Fault Refusal := s.alu3f c 1 a b d fun x y => satWord (x.toInt - y.toInt)

/-- ADDV and SUBV: OVF on signed overflow; with OTRAP, OVERFLOW is taken, OVF set and gA not written (R65).  OVF is set also where
OVERFLOW ends in DOUBLE_FAULT (DESIGN CHOICE, log entry 58). -/
def State.overflowing (s : State) (c : Fin 16) (a b d : Fin 32) (f : Int → Int → Int) : Host.Outcome State Fault Refusal :=
  let x := s.ctx c
  let v := f (x.getG b).toInt (x.getG d).toInt
  let ovf := sat32 v != v
  s.issue c (
    if ovf && x.otrap then (s.modCtx c fun y => y.raised flOvf).except c ⟨0x06, 0, false, x.pc, 0⟩
    else s.retire c 1 fun y => (y.setG a (wordZ v)).raised (flagIf ovf flOvf))

def execAddv (c : Fin 16) (a b d : Fin 32) (s : State) : Host.Outcome State Fault Refusal := s.overflowing c a b d fun x y => x + y
def execSubv (c : Fin 16) (a b d : Fin 32) (s : State) : Host.Outcome State Fault Refusal := s.overflowing c a b d fun x y => x - y

/-! ### Table 3.5 -/

def execAddi (c : Fin 16) (a b : Fin 32) (imm : BitVec 16) (s : State) : Host.Outcome State Fault Refusal := s.alu2 c a b fun x => x + sext16 imm
def execAndi (c : Fin 16) (a b : Fin 32) (imm : BitVec 16) (s : State) : Host.Outcome State Fault Refusal := s.alu2 c a b fun x => x &&& zext16 imm
def execOri (c : Fin 16) (a b : Fin 32) (imm : BitVec 16) (s : State) : Host.Outcome State Fault Refusal := s.alu2 c a b fun x => x ||| zext16 imm
def execXori (c : Fin 16) (a b : Fin 32) (imm : BitVec 16) (s : State) : Host.Outcome State Fault Refusal := s.alu2 c a b fun x => x ^^^ zext16 imm
def execSlti (c : Fin 16) (a b : Fin 32) (imm : BitVec 16) (s : State) : Host.Outcome State Fault Refusal := s.alu2 c a b fun x => wordB (x.slt (sext16 imm))
def execSltiu (c : Fin 16) (a b : Fin 32) (imm : BitVec 16) (s : State) : Host.Outcome State Fault Refusal := s.alu2 c a b fun x => wordB (x.ult (sext16 imm))
def execLui (c : Fin 16) (a : Fin 32) (imm : BitVec 16) (s : State) : Host.Outcome State Fault Refusal := s.alu2 c a 0 fun _ => zext16 imm <<< 16

/-! ### Table 3.6 and R51 -/

def execMul (c : Fin 16) (a b d : Fin 32) (s : State) : Host.Outcome State Fault Refusal := s.alu3 c 2 a b d fun x y => x * y
def execMulh (c : Fin 16) (a b d : Fin 32) (s : State) : Host.Outcome State Fault Refusal := s.alu3 c 2 a b d fun x y => wordZ (asr (x.toInt * y.toInt) 32)
def execMulhu (c : Fin 16) (a b d : Fin 32) (s : State) : Host.Outcome State Fault Refusal := s.alu3 c 2 a b d fun x y => BitVec.ofNat 32 (x.toNat * y.toNat / 2 ^ 32)

/-- Division and remainder, with OVF on the cases of R51. -/
def quotS (x y : Word) : Word × Nat :=
  if y = 0 then (if x.toInt < 0 then 0x80000000 else 0x7FFFFFFF, flOvf)
  else if x = 0x80000000 ∧ y = 0xFFFFFFFF then (0x7FFFFFFF, flOvf)
  else (wordZ (Int.tdiv x.toInt y.toInt), 0)

def quotU (x y : Word) : Word × Nat := if y = 0 then (0xFFFFFFFF, flOvf) else (BitVec.ofNat 32 (x.toNat / y.toNat), 0)

def remS (x y : Word) : Word × Nat :=
  if y = 0 then (x, flOvf)
  else if x = 0x80000000 ∧ y = 0xFFFFFFFF then (0, flOvf)
  else (wordZ (Int.tmod x.toInt y.toInt), 0)

def remU (x y : Word) : Word × Nat := if y = 0 then (x, flOvf) else (BitVec.ofNat 32 (x.toNat % y.toNat), 0)

def execDiv (c : Fin 16) (a b d : Fin 32) (s : State) : Host.Outcome State Fault Refusal := s.alu3f c 18 a b d quotS
def execDivu (c : Fin 16) (a b d : Fin 32) (s : State) : Host.Outcome State Fault Refusal := s.alu3f c 18 a b d quotU
def execRem (c : Fin 16) (a b d : Fin 32) (s : State) : Host.Outcome State Fault Refusal := s.alu3f c 18 a b d remS
def execRemu (c : Fin 16) (a b d : Fin 32) (s : State) : Host.Outcome State Fault Refusal := s.alu3f c 18 a b d remU

/-! ### Table 3.8 -/

/-- A conditional branch on gA and gB: 2 cycles taken, 1 not taken. -/
def State.branch (s : State) (c : Fin 16) (a b : Fin 32) (imm : BitVec 16) (p : Word → Word → Bool) : Host.Outcome State Fault Refusal :=
  let x := s.ctx c
  s.issue c (
    if p (x.getG a) (x.getG b) then s.transfer c 2 (x.pc + sext16 imm * 4) (fun y => y)
    else s.retire c 1 fun y => y)

def execBeq (c : Fin 16) (a b : Fin 32) (imm : BitVec 16) (s : State) : Host.Outcome State Fault Refusal := s.branch c a b imm fun x y => x == y
def execBne (c : Fin 16) (a b : Fin 32) (imm : BitVec 16) (s : State) : Host.Outcome State Fault Refusal := s.branch c a b imm fun x y => x != y
def execBlt (c : Fin 16) (a b : Fin 32) (imm : BitVec 16) (s : State) : Host.Outcome State Fault Refusal := s.branch c a b imm fun x y => x.slt y
def execBge (c : Fin 16) (a b : Fin 32) (imm : BitVec 16) (s : State) : Host.Outcome State Fault Refusal := s.branch c a b imm fun x y => !x.slt y
def execBltu (c : Fin 16) (a b : Fin 32) (imm : BitVec 16) (s : State) : Host.Outcome State Fault Refusal := s.branch c a b imm fun x y => x.ult y
def execBgeu (c : Fin 16) (a b : Fin 32) (imm : BitVec 16) (s : State) : Host.Outcome State Fault Refusal := s.branch c a b imm fun x y => !x.ult y

/-- The target of J and JAL. -/
def jumpTarget (pc : Word) (off : BitVec 26) : Word := pc + off.signExtend 32 * 4

def execJ (c : Fin 16) (off : BitVec 26) (s : State) : Host.Outcome State Fault Refusal :=
  s.issue c (s.transfer c 2 (jumpTarget (s.ctx c).pc off) fun y => y)

def execJal (c : Fin 16) (off : BitVec 26) (s : State) : Host.Outcome State Fault Refusal :=
  s.issue c (s.transfer c 2 (jumpTarget (s.ctx c).pc off) fun y => y.setG 31 (y.pc + 4))

def execJalr (c : Fin 16) (a b : Fin 32) (imm : BitVec 16) (s : State) : Host.Outcome State Fault Refusal :=
  s.issue c (s.transfer c 3 ((s.ctx c).getG b + sext16 imm) fun y => y.setG a (y.pc + 4))

end Sys2Proof.Machine
end

