-- ==== Sys2Proof/Machine/Float.lean ====
section
/-! DEFINITION.  The float arithmetic of Mavalor (R56, Tables 3.9 and 3.10): binary32 with exact arithmetic, one
rounding, subnormals read and written as zero, and the flags.  A result is a word and a flag mask. -/

namespace Sys2Proof.Machine

/-- A binary32 value: a sign, and zero, a finite number m × 2^e, an infinity, or a NaN that signals or not. -/
inductive FVal where
  | zero (neg : Bool)
  | fin (neg : Bool) (m : Nat) (e : Int)
  | inf (neg : Bool)
  | nan (signalling : Bool)
  deriving DecidableEq, Repr

/-- Read a word; a subnormal operand is zero of the same sign. -/
def fOf (w : Word) : FVal :=
  let v := w.toNat
  let s := bit v 31
  let e := bits v 23 8
  let m := bits v 0 23
  if e = 0 then .zero s
  else if e = 255 then (if m = 0 then .inf s else .nan (!bit m 22))
  else .fin s (m + 2 ^ 23) ((e : Int) - 150)

/-- The canonical quiet NaN. -/
def fNan : Word := 0x7FC00000

def fZero (neg : Bool) : Word := BitVec.ofNat 32 (2 ^ 31 * b2n neg)
def fInf (neg : Bool) : Word := BitVec.ofNat 32 (2 ^ 31 * b2n neg + 0x7F800000)

def FVal.isNan : FVal → Bool
  | .nan _ => true
  | _ => false

def FVal.isSnan : FVal → Bool
  | .nan b => b
  | _ => false

def FVal.neg : FVal → FVal
  | .zero s => .zero (!s)
  | .fin s m e => .fin (!s) m e
  | .inf s => .inf (!s)
  | .nan b => .nan b

/-- m × 2^sh rounded to nearest, ties to even, for an exponent of either sign; and whether it was inexact. -/
def roundShift (m : Nat) (sh : Int) : Nat × Bool :=
  if 0 ≤ sh then (m * 2 ^ sh.toNat, false)
  else
    let k := (-sh).toNat
    let q := m / 2 ^ k
    let r := 2 * (m % 2 ^ k)
    (if 2 ^ k < r ∨ (r = 2 ^ k ∧ q % 2 = 1) then q + 1 else q, m % 2 ^ k != 0)

/-- The word of m × 2^e, m above 0, rounded once to 24 bits with the exponent unbounded; then the range. -/
def fPack (neg : Bool) (m : Nat) (e : Int) : Word × Nat :=
  let sh : Int := 23 - (Nat.log2 m : Int)
  let r := roundShift m sh
  let up := decide (2 ^ 24 ≤ r.1)
  let sig := if up then r.1 / 2 else r.1
  let x : Int := e - sh + (b2n up : Nat) + 150
  if 255 ≤ x then (fInf neg, flOf ||| flNx)
  else if x ≤ 0 then (fZero neg, flUf ||| flNx)
  else (BitVec.ofNat 32 (2 ^ 31 * b2n neg + 2 ^ 23 * x.toNat + sig % 2 ^ 23), flagIf r.2 flNx)

/-- The word of a signed m × 2^e; an exact zero takes the sign given. -/
def fPackZ (zneg : Bool) (m : Int) (e : Int) : Word × Nat :=
  if m = 0 then (fZero zneg, 0) else fPack (decide (m < 0)) m.natAbs e

def signed (neg : Bool) (m : Nat) : Int := if neg then -(m : Int) else (m : Int)

/-- The NaN result of an operation with a NaN operand. -/
def fNanOf (signalling : Bool) : Word × Nat := (fNan, flagIf signalling flNv)
def fInvalid : Word × Nat := (fNan, flNv)

/-- The exact sum of two signed numbers m × 2^e, over the smaller exponent. -/
def fSum (m1 : Int) (e1 : Int) (m2 : Int) (e2 : Int) : Word × Nat :=
  let e := min e1 e2
  fPackZ false (m1 * 2 ^ (e1 - e).toNat + m2 * 2 ^ (e2 - e).toNat) e

def fAdd (a b : FVal) : Word × Nat :=
  if a.isNan || b.isNan then fNanOf (a.isSnan || b.isSnan)
  else
    match a, b with
    | .inf s, .inf t => if s = t then (fInf s, 0) else fInvalid
    | .inf s, _ => (fInf s, 0)
    | _, .inf t => (fInf t, 0)
    | .zero s, .zero t => (fZero (s && t), 0)
    | .fin s m e, .fin t n f => fSum (signed s m) e (signed t n) f
    | .fin s m e, _ => fPack s m e
    | _, .fin t n f => fPack t n f
    | _, _ => (fNan, 0)

def fMul (a b : FVal) : Word × Nat :=
  if a.isNan || b.isNan then fNanOf (a.isSnan || b.isSnan)
  else
    match a, b with
    | .inf _, .zero _ | .zero _, .inf _ => fInvalid
    | .inf s, .inf t | .inf s, .fin t _ _ | .fin s _ _, .inf t => (fInf (s != t), 0)
    | .zero s, .zero t | .zero s, .fin t _ _ | .fin s _ _, .zero t => (fZero (s != t), 0)
    | .fin s m e, .fin t n f => fPack (s != t) (m * n) (e + f)
    | _, _ => (fNan, 0)

/-- The quotient of two 24-bit numbers to 40 bits and more, its last bit set where a remainder is left: that rounds as
the exact quotient does. -/
def fDiv (a b : FVal) : Word × Nat :=
  if a.isNan || b.isNan then fNanOf (a.isSnan || b.isSnan)
  else
    match a, b with
    | .inf _, .inf _ | .zero _, .zero _ => fInvalid
    | .inf s, .zero t | .inf s, .fin t _ _ => (fInf (s != t), 0)
    | .zero s, .inf t | .fin s _ _, .inf t | .zero s, .fin t _ _ => (fZero (s != t), 0)
    | .fin s _ _, .zero t => (fInf (s != t), flDz)
    | .fin s m e, .fin t n f =>
      let q := m * 2 ^ 40 / n
      fPack (s != t) (2 * q + (if m * 2 ^ 40 % n = 0 then 0 else 1)) (e - f - 41)
    | _, _ => (fNan, 0)

/-- The root of a number of 62 or 63 bits, its last bit set where it is not exact. -/
def fSqrt (a : FVal) : Word × Nat :=
  match a with
  | .nan b => fNanOf b
  | .zero s => (fZero s, 0)
  | .inf s => if s then fInvalid else (fInf false, 0)
  | .fin s m e =>
    if s then fInvalid
    else
      let t : Nat := if e % 2 = 0 then 38 else 39
      let v := m * 2 ^ t
      let r := isqrt v
      fPack false (2 * r + (if r * r = v then 0 else 1)) ((e - (t : Int)) / 2 - 1)

/-- fB × fC + fD with one rounding; an infinity times a zero is invalid whatever the addend. -/
def fMulAdd (a b c : FVal) : Word × Nat :=
  let inv :=
    match a, b with
    | .inf _, .zero _ | .zero _, .inf _ => true
    | _, _ => false
  if inv then fInvalid
  else if a.isNan || b.isNan || c.isNan then fNanOf (a.isSnan || b.isSnan || c.isSnan)
  else
    match a, b with
    | .inf s, .inf t | .inf s, .fin t _ _ | .fin s _ _, .inf t =>
      (match c with
       | .inf u => if u = (s != t) then (fInf u, 0) else fInvalid
       | _ => (fInf (s != t), 0))
    | .zero s, .zero t | .zero s, .fin t _ _ | .fin s _ _, .zero t =>
      (match c with
       | .inf u => (fInf u, 0)
       | .zero u => (fZero ((s != t) && u), 0)
       | .fin u n f => fPack u n f
       | .nan _ => (fNan, 0))
    | .fin s m e, .fin t n f =>
      (match c with
       | .inf u => (fInf u, 0)
       | .zero _ => fPack (s != t) (m * n) (e + f)
       | .fin u k g => fSum (signed (s != t) (m * n)) (e + f) (signed u k) g
       | .nan _ => (fNan, 0))
    | _, _ => (fNan, 0)

/-- The negation of a result that is no NaN (FNMADD). -/
def fNegResult (r : Word × Nat) : Word × Nat := (if (fOf r.1).isNan then r.1 else r.1 ^^^ 0x80000000, r.2)

/-- Is a below b, both no NaN?  Zeros of either sign are equal. -/
def fLess (a b : FVal) : Bool :=
  match a, b with
  | .inf s, .inf t => s && !t
  | .inf s, _ => s
  | _, .inf t => !t
  | .zero _, .zero _ => false
  | .zero _, .fin t _ _ => !t
  | .fin s _ _, .zero _ => s
  | .fin s m e, .fin t n f =>
    let g := min e f
    decide (signed s m * 2 ^ (e - g).toNat < signed t n * 2 ^ (f - g).toNat)
  | _, _ => false

/-- The sign of a value that is no NaN. -/
def FVal.isNeg : FVal → Bool
  | .zero s => s
  | .fin s _ _ => s
  | .inf s => s
  | .nan _ => false

/-- The order of FMIN and FMAX, with −0 below +0. -/
def fBelow (a b : FVal) : Bool := fLess a b || (!fLess b a && a.isNeg && !b.isNeg)

/-- An operand as FMIN and FMAX give it: a subnormal is zero of the same sign. -/
def fFlush (w : Word) : Word :=
  match fOf w with
  | .zero s => fZero s
  | _ => w

def fMinMax (max : Bool) (a b : Word) : Word × Nat :=
  let x := fOf a
  let y := fOf b
  let fl := flagIf (x.isSnan || y.isSnan) flNv
  if x.isNan && y.isNan then (fNan, fl)
  else if x.isNan then (fFlush b, fl)
  else if y.isNan then (fFlush a, fl)
  else (fFlush (if (if max then fBelow x y else fBelow y x) then b else a), fl)

def fEq (a b : FVal) : Nat × Nat :=
  if a.isNan || b.isNan then (0, flagIf (a.isSnan || b.isSnan) flNv) else (b2n (!fLess a b && !fLess b a), 0)

def fLt (a b : FVal) : Nat × Nat := if a.isNan || b.isNan then (0, flNv) else (b2n (fLess a b), 0)
def fLe (a b : FVal) : Nat × Nat := if a.isNan || b.isNan then (0, flNv) else (b2n (!fLess b a), 0)

/-- A finite value times 2^sh as an integer, to nearest or toward zero; and whether it was inexact. -/
def fInt (trunc : Bool) (neg : Bool) (m : Nat) (e : Int) : Int × Bool :=
  if trunc then
    (if 0 ≤ e then (signed neg (m * 2 ^ e.toNat), false)
     else (signed neg (m / 2 ^ (-e).toNat), m % 2 ^ (-e).toNat != 0))
  else ((signed neg (roundShift m e).1), (roundShift m e).2)

/-- FCVT.W.S and FTRC.W.S. -/
def fToInt (trunc : Bool) (a : FVal) : Word × Nat :=
  match a with
  | .nan _ => (0, flNv)
  | .inf s => (if s then 0x80000000 else 0x7FFFFFFF, flNv)
  | .zero _ => (0, 0)
  | .fin s m e =>
    let r := fInt trunc s m e
    if sat32 r.1 = r.1 then (wordZ r.1, flagIf r.2 flNx) else (wordZ (sat32 r.1), flNv)

/-- FCVT.Q.S: FNX whenever the value written differs from the exact one. -/
def fToQ (a : FVal) : Word × Nat :=
  match a with
  | .nan _ => (0, flNv)
  | .inf s => (if s then 0x80000000 else 0x7FFFFFFF, flSat ||| flNx)
  | .zero _ => (0, 0)
  | .fin s m e =>
    let r := fInt false s m (e + 31)
    if sat32 r.1 = r.1 then (wordZ r.1, flagIf r.2 flNx) else (wordZ (sat32 r.1), flSat ||| flNx)

/-- A signed word times 2^e as a float (FCVT.S.W, FCVT.S.Q). -/
def fFromInt (w : Word) (e : Int) : Word × Nat := fPackZ false w.toInt e

end Sys2Proof.Machine
end

