-- ==== Sys2Proof/Machine/CoreFix.lean ====
section
/-! DEFINITION.  The float instructions (R56, Tables 3.9 and 3.10) and the fixed-point and accumulator instructions (R57,
Tables 3.11 and 3.12). -/

namespace Sys2Proof.Machine

/-! ### Float -/

/-- A float result with its flags: with FTRAP, FNV or FDZ takes FLOAT, the flags set and the destination not written.  The flags
are set also where FLOAT ends in DOUBLE_FAULT (DESIGN CHOICE, log entry 58). -/
def State.floated (s : State) (c : Fin 16) (n : Nat) (r : Word × Nat) (dest : Ctx → Word → Ctx) : State :=
  let x := s.ctx c
  if x.ftrap && (bit r.2 16 || bit r.2 17) then
    (s.modCtx c fun y => y.raised r.2).except c ⟨0x07, 0, false, x.pc, BitVec.ofNat 32 r.2⟩
  else s.retire c n fun y => (dest y r.1).raised r.2

def wF (a b d : Fin 32) (fn : Nat) : Word := wordReg 0x20 a b d fn

/-- fA := f(fB, fC). -/
def State.float3 (s : State) (c : Fin 16) (n fn : Nat) (a b d : Fin 32) (f : Word → Word → Word × Nat) : Host.Outcome State Fault Refusal :=
  s.checked c (okF a && okF b && okF d) (wF a b d fn)
    (s.floated c n (f ((s.ctx c).getF b) ((s.ctx c).getF d)) fun y v => y.setF a v)

/-- fA := f(fB). -/
def State.float2 (s : State) (c : Fin 16) (n fn : Nat) (a b : Fin 32) (f : Word → Word × Nat) : Host.Outcome State Fault Refusal :=
  s.checked c (okF a && okF b) (wF a b 0 fn) (s.floated c n (f ((s.ctx c).getF b)) fun y v => y.setF a v)

/-- gA := the comparison of fB and fC. -/
def State.floatCmp (s : State) (c : Fin 16) (fn : Nat) (a b d : Fin 32) (f : FVal → FVal → Nat × Nat) : Host.Outcome State Fault Refusal :=
  let r := f (fOf ((s.ctx c).getF b)) (fOf ((s.ctx c).getF d))
  s.checked c (okF b && okF d) (wF a b d fn) (s.floated c 1 (BitVec.ofNat 32 r.1, r.2) fun y v => y.setG a v)

/-- gA := f(fB). -/
def State.floatToG (s : State) (c : Fin 16) (n fn : Nat) (a b : Fin 32) (f : Word → Word × Nat) : Host.Outcome State Fault Refusal :=
  s.checked c (okF b) (wF a b 0 fn) (s.floated c n (f ((s.ctx c).getF b)) fun y v => y.setG a v)

/-- fA := f(gB). -/
def State.floatFromG (s : State) (c : Fin 16) (n fn : Nat) (a b : Fin 32) (f : Word → Word × Nat) : Host.Outcome State Fault Refusal :=
  s.checked c (okF a) (wF a b 0 fn) (s.floated c n (f ((s.ctx c).getG b)) fun y v => y.setF a v)

def execFadd (c : Fin 16) (a b d : Fin 32) (s : State) : Host.Outcome State Fault Refusal := s.float3 c 3 0x000 a b d fun x y => fAdd (fOf x) (fOf y)
def execFsub (c : Fin 16) (a b d : Fin 32) (s : State) : Host.Outcome State Fault Refusal := s.float3 c 3 0x001 a b d fun x y => fAdd (fOf x) (fOf y).neg
def execFmul (c : Fin 16) (a b d : Fin 32) (s : State) : Host.Outcome State Fault Refusal := s.float3 c 3 0x002 a b d fun x y => fMul (fOf x) (fOf y)
def execFdiv (c : Fin 16) (a b d : Fin 32) (s : State) : Host.Outcome State Fault Refusal := s.float3 c 14 0x003 a b d fun x y => fDiv (fOf x) (fOf y)
def execFsqrt (c : Fin 16) (a b : Fin 32) (s : State) : Host.Outcome State Fault Refusal := s.float2 c 14 0x004 a b fun x => fSqrt (fOf x)
def execFmin (c : Fin 16) (a b d : Fin 32) (s : State) : Host.Outcome State Fault Refusal := s.float3 c 1 0x005 a b d fun x y => fMinMax false x y
def execFmax (c : Fin 16) (a b d : Fin 32) (s : State) : Host.Outcome State Fault Refusal := s.float3 c 1 0x006 a b d fun x y => fMinMax true x y
/-- FABS and FNEG change the sign bit alone, of a NaN or a subnormal too (Table 3.9; DESIGN CHOICE, log entry 58). -/
def execFabs (c : Fin 16) (a b : Fin 32) (s : State) : Host.Outcome State Fault Refusal := s.float2 c 1 0x007 a b fun x => (x &&& 0x7FFFFFFF, 0)
def execFneg (c : Fin 16) (a b : Fin 32) (s : State) : Host.Outcome State Fault Refusal := s.float2 c 1 0x008 a b fun x => (x ^^^ 0x80000000, 0)
def execFmov (c : Fin 16) (a b : Fin 32) (s : State) : Host.Outcome State Fault Refusal := s.float2 c 1 0x009 a b fun x => (x, 0)
def execFeq (c : Fin 16) (a b d : Fin 32) (s : State) : Host.Outcome State Fault Refusal := s.floatCmp c 0x00A a b d fEq
def execFlt (c : Fin 16) (a b d : Fin 32) (s : State) : Host.Outcome State Fault Refusal := s.floatCmp c 0x00B a b d fLt
def execFle (c : Fin 16) (a b d : Fin 32) (s : State) : Host.Outcome State Fault Refusal := s.floatCmp c 0x00C a b d fLe
def execFcvtSW (c : Fin 16) (a b : Fin 32) (s : State) : Host.Outcome State Fault Refusal := s.floatFromG c 2 0x00D a b fun x => fFromInt x 0
def execFcvtWS (c : Fin 16) (a b : Fin 32) (s : State) : Host.Outcome State Fault Refusal := s.floatToG c 2 0x00E a b fun x => fToInt false (fOf x)
def execFtrcWS (c : Fin 16) (a b : Fin 32) (s : State) : Host.Outcome State Fault Refusal := s.floatToG c 2 0x00F a b fun x => fToInt true (fOf x)
def execFmvFG (c : Fin 16) (a b : Fin 32) (s : State) : Host.Outcome State Fault Refusal := s.floatFromG c 1 0x010 a b fun x => (x, 0)
def execFmvGF (c : Fin 16) (a b : Fin 32) (s : State) : Host.Outcome State Fault Refusal := s.floatToG c 1 0x011 a b fun x => (x, 0)
def execFcvtSQ (c : Fin 16) (a b : Fin 32) (s : State) : Host.Outcome State Fault Refusal := s.floatFromG c 2 0x012 a b fun x => fFromInt x (-31)
def execFcvtQS (c : Fin 16) (a b : Fin 32) (s : State) : Host.Outcome State Fault Refusal := s.floatToG c 2 0x013 a b fun x => fToQ (fOf x)

/-- fA := f(fB, fC, fD). -/
def State.float4 (s : State) (c : Fin 16) (fn : Nat) (a b d e : Fin 32) (f : FVal → FVal → FVal → Word × Nat) : Host.Outcome State Fault Refusal :=
  let x := s.ctx c
  s.checked c (okF a && okF b && okF d && okF e) (wordQuad 0x21 a b d e fn)
    (s.floated c 4 (f (fOf (x.getF b)) (fOf (x.getF d)) (fOf (x.getF e))) fun y v => y.setF a v)

def execFmadd (c : Fin 16) (a b d e : Fin 32) (s : State) : Host.Outcome State Fault Refusal := s.float4 c 0 a b d e fMulAdd
def execFmsub (c : Fin 16) (a b d e : Fin 32) (s : State) : Host.Outcome State Fault Refusal := s.float4 c 1 a b d e fun x y z => fMulAdd x y z.neg
def execFnmadd (c : Fin 16) (a b d e : Fin 32) (s : State) : Host.Outcome State Fault Refusal := s.float4 c 2 a b d e fun x y z => fNegResult (fMulAdd x y z)

/-! ### Fixed point -/

/-- The exact result saturated to 16 bits and sign-extended, with SAT where it was. -/
def satHalf (v : Int) : Word × Nat := (wordZ (sat16 v), flagIf (sat16 v != v) flSat)

/-- gA from gB alone. -/
def State.alu2f (s : State) (c : Fin 16) (a b : Fin 32) (f : Word → Word × Nat) : Host.Outcome State Fault Refusal :=
  s.plain c 1 fun x => let r := f (x.getG b); (x.setG a r.1).raised r.2

def execQadd15 (c : Fin 16) (a b d : Fin 32) (s : State) : Host.Outcome State Fault Refusal := s.alu3f c 1 a b d fun x y => satHalf (q15 x + q15 y)
def execQsub15 (c : Fin 16) (a b d : Fin 32) (s : State) : Host.Outcome State Fault Refusal := s.alu3f c 1 a b d fun x y => satHalf (q15 x - q15 y)
def execQmul15 (c : Fin 16) (a b d : Fin 32) (s : State) : Host.Outcome State Fault Refusal := s.alu3f c 2 a b d fun x y => satHalf (rnd (q15 x * q15 y) 15)
def execQneg15 (c : Fin 16) (a b : Fin 32) (s : State) : Host.Outcome State Fault Refusal := s.alu2f c a b fun x => satHalf (-q15 x)
def execQabs15 (c : Fin 16) (a b : Fin 32) (s : State) : Host.Outcome State Fault Refusal := s.alu2f c a b fun x => satHalf (q15 x).natAbs
def execQsat15 (c : Fin 16) (a b : Fin 32) (s : State) : Host.Outcome State Fault Refusal := s.alu2f c a b fun x => satHalf x.toInt
def execQadd31 (c : Fin 16) (a b d : Fin 32) (s : State) : Host.Outcome State Fault Refusal := s.alu3f c 1 a b d fun x y => satWord (x.toInt + y.toInt)
def execQsub31 (c : Fin 16) (a b d : Fin 32) (s : State) : Host.Outcome State Fault Refusal := s.alu3f c 1 a b d fun x y => satWord (x.toInt - y.toInt)
def execQmul31 (c : Fin 16) (a b d : Fin 32) (s : State) : Host.Outcome State Fault Refusal := s.alu3f c 3 a b d fun x y => satWord (rnd (x.toInt * y.toInt) 31)
def execQneg31 (c : Fin 16) (a b : Fin 32) (s : State) : Host.Outcome State Fault Refusal := s.alu2f c a b fun x => satWord (-x.toInt)
def execQabs31 (c : Fin 16) (a b : Fin 32) (s : State) : Host.Outcome State Fault Refusal := s.alu2f c a b fun x => satWord x.toInt.natAbs
def execQshl31 (c : Fin 16) (a b d : Fin 32) (s : State) : Host.Outcome State Fault Refusal := s.alu3f c 1 a b d fun x y => satWord (x.toInt * 2 ^ shamt y)

/-! ### Accumulators -/

def wA (a b d : Fin 32) (fn : Nat) : Word := wordReg 0x25 a b d fn

/-- The accumulator clamped to 40 bits, with OVF where it was. -/
def accWord (v : Int) : BitVec 40 × Nat := (BitVec.ofInt 40 (sat40 v), flagIf (sat40 v != v) flOvf)

/-- aA := f(aA, gB, gC). -/
def State.acc (s : State) (c : Fin 16) (n fn : Nat) (a b d : Fin 32) (f : Int → Word → Word → Int) : Host.Outcome State Fault Refusal :=
  s.checked c (okA a) (wA a b d fn) (s.retire c n fun x =>
    let r := accWord (f (x.getA a).toInt (x.getG b) (x.getG d))
    (x.setA a r.1).raised r.2)

/-- The exact Q30 product of two Q15 operands, and the rounded product of two Q31 operands. -/
def prod15 (x y : Word) : Int := q15 x * q15 y
def prod31 (x y : Word) : Int := rnd (x.toInt * y.toInt) 31

def execMac15 (c : Fin 16) (a b d : Fin 32) (s : State) : Host.Outcome State Fault Refusal := s.acc c 1 0 a b d fun v x y => v + prod15 x y
def execMsu15 (c : Fin 16) (a b d : Fin 32) (s : State) : Host.Outcome State Fault Refusal := s.acc c 1 1 a b d fun v x y => v - prod15 x y
def execMula15 (c : Fin 16) (a b d : Fin 32) (s : State) : Host.Outcome State Fault Refusal := s.acc c 1 2 a b d fun _ x y => prod15 x y
def execMac31 (c : Fin 16) (a b d : Fin 32) (s : State) : Host.Outcome State Fault Refusal := s.acc c 2 3 a b d fun v x y => v + prod31 x y
def execMsu31 (c : Fin 16) (a b d : Fin 32) (s : State) : Host.Outcome State Fault Refusal := s.acc c 2 4 a b d fun v x y => v - prod31 x y
def execMula31 (c : Fin 16) (a b d : Fin 32) (s : State) : Host.Outcome State Fault Refusal := s.acc c 2 5 a b d fun _ x y => prod31 x y

def execAclr (c : Fin 16) (a : Fin 32) (s : State) : Host.Outcome State Fault Refusal :=
  s.checked c (okA a) (wA a 0 0 8) (s.retire c 1 fun x => x.setA a 0)

/-- ALD: bits [39:32] from gC[7:0], bits [31:0] from gB. -/
def execAld (c : Fin 16) (a b d : Fin 32) (s : State) : Host.Outcome State Fault Refusal :=
  s.checked c (okA a) (wA a b d 9) (s.retire c 1 fun x => x.setA a (((x.getG d).truncate 8 : BitVec 8) ++ x.getG b))

def execArdl (c : Fin 16) (a b : Fin 32) (s : State) : Host.Outcome State Fault Refusal :=
  s.checked c (okA b) (wA a b 0 10) (s.retire c 1 fun x => x.setG a ((x.getA b).truncate 32))

def execArdh (c : Fin 16) (a b : Fin 32) (s : State) : Host.Outcome State Fault Refusal :=
  s.checked c (okA b) (wA a b 0 11) (s.retire c 1 fun x => x.setG a (((x.getA b).extractLsb' 32 8).signExtend 32))

def execAext (c : Fin 16) (a b sh : Fin 32) (s : State) : Host.Outcome State Fault Refusal :=
  s.checked c (okA b) (wA a b sh 12) (s.retire c 2 fun x =>
    let r := satWord (rnd (x.getA b).toInt sh.val)
    (x.setG a r.1).raised r.2)

def execAext15 (c : Fin 16) (a b sh : Fin 32) (s : State) : Host.Outcome State Fault Refusal :=
  s.checked c (okA b) (wA a b sh 13) (s.retire c 2 fun x =>
    let r := satHalf (rnd (x.getA b).toInt sh.val)
    (x.setG a r.1).raised r.2)

end Sys2Proof.Machine
end

