-- ==== Sys2Proof/Machine/CoreMem.lean ====
section
/-! DEFINITION.  Loads, stores and barriers of the function cores (R23 to R27, R52 to R54, R70). -/

namespace Sys2Proof.Machine

open Sys2Proof.Reg

/-! ### Where an access falls (Table 1.6) -/

/-- The place of an access: an offset in a TCM, a peripheral address, or a fabric address of shared SRAM or DRAM. -/
inductive Place where
  | itcm (ofs : Nat)
  | dtcm (ofs : Nat)
  | sram (addr : Nat)
  | periph (addr : Nat)
  | dram (addr : Nat)
  deriving DecidableEq, Repr

/-- The fabric address of an access through a DRAM window (R25). -/
def windowAddr (base ea : Nat) : Nat := base * 2 ^ 28 + ea % 2 ^ 28

/-- The place of a DRAM window access, or the detail code of its fault (R25, R52).  Where several hold, WINDOW_DISABLED stands
before WINDOW_READ_ONLY and that before WINDOW_BASE (DESIGN CHOICE, log entry 58). -/
def State.windowPlace (s : State) (c : Fin 16) (ea : Nat) (store : Bool) : Place ⊕ Nat :=
  let w := bits ea 28 2
  if !s.on DWIN.EN c.val w then .inr 0x05
  else if store && s.on DWIN.WP c.val w then .inr 0x06
  else if s.get DWIN.BASE c.val w < 0x800 ∨ 0x83F < s.get DWIN.BASE c.val w then .inr 0x07
  else .inl (.dram (windowAddr (s.get DWIN.BASE c.val w) ea))

/-- The place of an access of `width` bytes at privilege `sup`, or the detail code of its fault (R52, Table 3.20).  Where several
cases hold, MISALIGNED comes first, then WIDTH, then PRIVILEGE (DESIGN CHOICE, log entry 58). -/
def State.place (s : State) (c : Fin 16) (sup : Bool) (ea width : Nat) (store : Bool) : Place ⊕ Nat :=
  if ea % width ≠ 0 then .inr 0x01
  else if ea < 0x10000 then (if store && !sup then .inr 0x04 else .inl (.itcm ea))
  else if 0x20000 ≤ ea ∧ ea < 0x40000 then .inl (.dtcm (ea - 0x20000))
  else if inSram ea then .inl (.sram ea)
  else if inPeriph ea then
    (if width ≠ 4 then .inr 0x02
     else if store && !mayWrite (hitsAt ea) sup then .inr 0x04
     else .inl (.periph ea))
  else if 0x40000000 ≤ ea ∧ ea < 0x80000000 then s.windowPlace c ea store
  else .inr 0x03

/-! ### Posted stores (R53) -/

/-- A posted store reaches its target: memory, or a register of the peripheral window. -/
def State.perform (s : State) (c : Fin 16) (p : Posted) : State :=
  let id := s.requester c
  let s := s.beat p.addr id
  match p.cls with
  | .periph => (s.busWrite p.addr p.data ⟨id, p.sup⟩).getD s
  | .sram | .dram => s.fabWriteBytes p.addr (leBytes p.width p.data)

/-- Take posted stores of a core off its list. -/
def State.modPosted (s : State) (c : Fin 16) (f : List Posted → List Posted) : State :=
  s.modCore c fun k => { k with posted := f k.posted }

/-- Every earlier store of some classes completes, oldest first (R70). -/
def State.drain (s : State) (c : Fin 16) (p : Class → Bool) : State :=
  let due := (s.core c).posted.filter fun x => p x.cls
  due.foldl (fun (t : State) x => t.perform c x) (s.modPosted c fun l => l.filter fun x => !p x.cls)

/-- The oldest store of a class is taken off. -/
def dropFirst (cls : Class) : List Posted → List Posted
  | [] => []
  | p :: t => if p.cls = cls then t else p :: dropFirst cls t

def State.oldest (s : State) (c : Fin 16) (cls : Class) : Option Posted := (s.core c).posted.find? fun p => p.cls == cls

/-- The write response of the oldest posted store of a class returns: the store is performed and its place is free. -/
def State.postedDone (s : State) (c : Fin 16) (cls : Class) : State :=
  match s.oldest c cls with
  | some p => (s.modPosted c (dropFirst cls)).perform c p
  | none => s

def execPostedStoreComplete (c : Fin 16) (cls : Class) (s : State) : Host.Outcome State Fault Refusal := s.act (s.postedDone c cls)

/-- A multi-bit DRAM error is reported with its fabric address, one of a TCM with its core (R27, Table 17.1). -/
def State.reportDram (s : State) (c : Fin 16) (addr : Nat) : State := s.errReport errDramUe (s.requester c) platNode (two addr)
/-- A corrected single-bit error: one of DRAM is source DRAM_CE, one of a TCM is counted (R27, R65, Table 17.1). -/
def State.fixedDram (s : State) (c : Fin 16) (fixed : Bool) : State := if fixed then s.errReport errDramCe (s.requester c) platNode [] else s
def State.fixedTcm (s : State) (c : Fin 16) (fixed : Bool) : State := if fixed then s.modCore c fun k => { k with tcmCe := k.tcmCe + 1 } else s
def State.reportTcm (s : State) (c : Fin 16) : State := s.errReport errTcmUe c.val (coreNode c.val) []

/-- The response of the oldest posted store of a class is a bus error: it is taken at the next instruction boundary (R65). -/
def State.postedError (s : State) (c : Fin 16) (cls : Class) : State :=
  match s.oldest c cls with
  | none => s
  | some p =>
    let s := s.modPosted c (dropFirst cls)
    let s := if cls = .dram then s.reportDram c p.addr else s
    if (s.core c).life != .running then s
    else
      let s := s.modCore c fun k => { k with busErr := k.busErr ++ [p.ea] }
      if s.coreRuns c then s.takeCause c else s

def execPostedStoreBusError (c : Fin 16) (cls : Class) (s : State) : Host.Outcome State Fault Refusal := s.act (s.postedError c cls)

/-! ### Loads (Table 3.7, R53) -/

/-- What a load gives: a detail code, a bus error (its detail, and the state), or the number read, the cycles and the state. -/
inductive Loaded where
  | access (detail : Nat)
  | bus (detail : Nat) (s : State)
  | value (v n : Nat) (s : State)

/-- Read `width` bytes for a core. -/
def State.loadFrom (s : State) (c : Fin 16) (ea width : Nat) (env : Env) : Loaded :=
  match s.place c (s.ctx c).priv ea width false with
  | .inr d => .access d
  | .inl (.itcm o) => if env.err then .bus 1 (s.reportTcm c) else .value ((s.core c).itcm.readN o width) 2 (s.fixedTcm c env.fixed)
  | .inl (.dtcm o) => if env.err then .bus 1 (s.reportTcm c) else .value ((s.core c).dtcm.readN o width) 2 (s.fixedTcm c env.fixed)
  | .inl (.sram a) =>
    let s := (s.drain c fun k => k == .sram).beat a (s.requester c)
    if env.err then .bus 0 s else .value (s.fabN a width) (10 + env.wait) s
  | .inl (.dram a) =>
    let s := (s.drain c fun k => k == .dram).beat a (s.requester c)
    if env.err then .bus 0 (s.reportDram c a) else .value (s.fabN a width) (56 + env.wait) (s.fixedDram c env.fixed)
  | .inl (.periph a) =>
    let s := (s.drain c fun k => k == .periph).beat a (s.requester c)
    if env.err then .bus 0 s
    else
      let r := s.busRead a
      .value r.1 (14 + env.wait) r.2

/-- ea := gB + sext(IMM). -/
def Ctx.ea (x : Ctx) (b : Fin 32) (imm : BitVec 16) : Word := x.getG b + sext16 imm

/-- A load of `width` bytes at ea. -/
def State.loadAt (s : State) (c : Fin 16) (b : Fin 32) (imm : BitVec 16) (width : Nat) (env : Env) (dest : Ctx → Nat → Ctx) : State :=
  let x := s.ctx c
  let ea := x.ea b imm
  match s.loadFrom c ea.toNat width env with
  | .access d => s.access c d ea
  | .bus d t => if t.coreRuns c then t.except c ⟨0x05, d, false, x.pc, ea⟩ else t
  | .value v n t =>
    if t.coreRuns c then t.retire c n fun y => dest y v else t

def execLw (c : Fin 16) (a b : Fin 32) (imm : BitVec 16) (env : Env) (s : State) : Host.Outcome State Fault Refusal :=
  s.issue c (s.loadAt c b imm 4 env fun y v => y.setG a (BitVec.ofNat 32 v))

def execLh (c : Fin 16) (a b : Fin 32) (imm : BitVec 16) (env : Env) (s : State) : Host.Outcome State Fault Refusal :=
  s.issue c (s.loadAt c b imm 2 env fun y v => y.setG a ((BitVec.ofNat 16 v).signExtend 32))

def execLhu (c : Fin 16) (a b : Fin 32) (imm : BitVec 16) (env : Env) (s : State) : Host.Outcome State Fault Refusal :=
  s.issue c (s.loadAt c b imm 2 env fun y v => y.setG a (BitVec.ofNat 32 v))

def execLb (c : Fin 16) (a b : Fin 32) (imm : BitVec 16) (env : Env) (s : State) : Host.Outcome State Fault Refusal :=
  s.issue c (s.loadAt c b imm 1 env fun y v => y.setG a ((BitVec.ofNat 8 v).signExtend 32))

def execLbu (c : Fin 16) (a b : Fin 32) (imm : BitVec 16) (env : Env) (s : State) : Host.Outcome State Fault Refusal :=
  s.issue c (s.loadAt c b imm 1 env fun y v => y.setG a (BitVec.ofNat 32 v))

def execFlw (c : Fin 16) (a b : Fin 32) (imm : BitVec 16) (env : Env) (s : State) : Host.Outcome State Fault Refusal :=
  s.checked c (okF a) (wordImm 0x1D a b imm) (s.loadAt c b imm 4 env fun y v => y.setF a (BitVec.ofNat 32 v))

/-! ### Stores -/

/-- Post a store; a ninth stalls until the oldest completes (R53). -/
def State.post (s : State) (c : Fin 16) (p : Posted) (wait : Nat) : State :=
  match (s.core c).posted with
  | q :: r =>
    if 8 ≤ (s.core c).posted.length then
      (((s.modPosted c fun _ => r).perform c q).modPosted c fun l => l ++ [p]).spend c wait
    else s.modPosted c fun l => l ++ [p]
  | [] => s.modPosted c fun l => l ++ [p]

/-- The state after a store has been made or posted. -/
def State.storeTo (s : State) (c : Fin 16) (pl : Place) (ea : Word) (width v : Nat) (wait : Nat) : State :=
  let sup := (s.ctx c).priv
  match pl with
  | .itcm o => s.itcmStore c o width v
  | .dtcm o => s.modCore c fun k => { k with dtcm := k.dtcm.writeN o width v }
  | .sram a => s.post c ⟨.sram, a, ea, width, v, sup⟩ wait
  | .dram a => s.post c ⟨.dram, a, ea, width, v, sup⟩ wait
  | .periph a => s.post c ⟨.periph, a, ea, width, v, sup⟩ wait

/-- A store of the low `width` bytes of a word at ea. -/
def State.storeAt (s : State) (c : Fin 16) (b : Fin 32) (imm : BitVec 16) (width : Nat) (v : Word) (wait : Nat) : State :=
  let x := s.ctx c
  let ea := x.ea b imm
  match s.place c x.priv ea.toNat width true with
  | .inr d => s.access c d ea
  | .inl pl =>
    let t := s.storeTo c pl ea width (v.toNat % 2 ^ (8 * width)) wait
    if t.coreRuns c then t.retire c 1 fun y => y else t

def execSw (c : Fin 16) (a b : Fin 32) (imm : BitVec 16) (wait : Nat) (s : State) : Host.Outcome State Fault Refusal :=
  s.issue c (s.storeAt c b imm 4 ((s.ctx c).getG a) wait)

def execSh (c : Fin 16) (a b : Fin 32) (imm : BitVec 16) (wait : Nat) (s : State) : Host.Outcome State Fault Refusal :=
  s.issue c (s.storeAt c b imm 2 ((s.ctx c).getG a) wait)

def execSb (c : Fin 16) (a b : Fin 32) (imm : BitVec 16) (wait : Nat) (s : State) : Host.Outcome State Fault Refusal :=
  s.issue c (s.storeAt c b imm 1 ((s.ctx c).getG a) wait)

def execFsw (c : Fin 16) (a b : Fin 32) (imm : BitVec 16) (wait : Nat) (s : State) : Host.Outcome State Fault Refusal :=
  s.checked c (okF a) (wordImm 0x1E a b imm) (s.storeAt c b imm 4 ((s.ctx c).getF a) wait)

/-! ### Barriers (R70) -/

/-- A barrier waits until the earlier accesses of its classes have completed. -/
def State.barrier (s : State) (c : Fin 16) (p : Class → Bool) (wait : Nat) : State :=
  let t := s.drain c p
  if t.coreRuns c then t.retire c (1 + wait) fun y => y else t

def execBarIo (c : Fin 16) (wait : Nat) (s : State) : Host.Outcome State Fault Refusal := s.issue c (s.barrier c (fun k => k == .periph) wait)
def execBarMem (c : Fin 16) (wait : Nat) (s : State) : Host.Outcome State Fault Refusal := s.issue c (s.barrier c (fun k => k != .periph) wait)
def execBarAll (c : Fin 16) (wait : Nat) (s : State) : Host.Outcome State Fault Refusal := s.issue c (s.barrier c (fun _ => true) wait)

end Sys2Proof.Machine
end

