-- ==== Sys2Proof/Machine/CoreSys.lean ====
section
/-! DEFINITION.  The system, schedule, lock, mailbox and loop-unit instructions (R58 to R64, R67; Tables 3.13 to 3.18). -/

namespace Sys2Proof.Machine

open Sys2Proof.Reg

/-- gA := v, as an instruction's only effect on the context. -/
def setGA (a : Fin 32) (v : Word) (x : Ctx) : Ctx := x.setG a v

/-- The node of the context that executes on a core (R61, R84). -/
def State.nodeOf (s : State) (c : Fin 16) : Node := ⟨c.val, (s.core c).actNo⟩

/-! ### Table 3.13 -/

def execNop (c : Fin 16) (s : State) : Host.Outcome State Fault Refusal := s.plain c 1 fun x => x

def execTrap (c : Fin 16) (imm : BitVec 16) (s : State) : Host.Outcome State Fault Refusal :=
  s.issue c ((s.spend c 1).except c ⟨0x08, 0, false, (s.ctx c).pc + 4, zext16 imm⟩)

/-- The executing context ends: a handler in the idle context returns the core to idle, an activation ends (R58). -/
def State.yield (s : State) (c : Fin 16) : State :=
  let s := s.spend c 2
  let s :=
    match (s.core c).inIdle, (s.core c).cur with
    | false, some e => ((s.modCore c Core.leaveHandler).endAct c e).modCore c fun k => { k with guest := false }
    | _, _ =>
      let t := s.put FLAG_SUM.F (s.get FLAG_SUM.F c.val ||| (s.core c).idle.sticky) c.val
      (t.releaseAll ⟨c.val, idleAct⟩).modCore c fun k => { k.leaveHandler with inIdle := false }
  (s.settle c).takeEvent c

def execYield (c : Fin 16) (s : State) : Host.Outcome State Fault Refusal := s.issue c (s.yield c)

/-- Suspend the executing activation in a wait; the core is free for another (R78). -/
def State.suspend (s : State) (c : Fin 16) (e : Nat) (w : Wait) : State :=
  let s := s.modCore c fun k =>
    { k.modAct e fun a => { a with wait := some w, since := s.ticket } with
      cur := none, guest := false, overSlots := none, slotEnd := none }
  ({ s with ticket := s.ticket + 1 }.settle c).takeEvent c

/-- WAITSLOT (R59).  The idle context has no slot to wait for: its result is not stated. -/
def State.waitSlot (s : State) (c : Fin 16) (a : Fin 32) (target : Nat) : State :=
  if 100 ≤ target then s.retire c 2 (setGA a 0xFFFFFFFF)
  else
    match (s.core c).inIdle, (s.core c).cur with
    | false, some e => (s.spend c 2).suspend c e (.slot a target 0)
    | _, _ => s.fresh.retire c 2 (setGA a (BitVec.ofNat 32 (Config.unstated 21 [target, s.free])))

def execWaitslot (c : Fin 16) (a b : Fin 32) (s : State) : Host.Outcome State Fault Refusal :=
  s.issue c (s.waitSlot c a ((s.ctx c).getG b).toNat)

/-- SWAP (R60): the code in gA, with the request where it is accepted. -/
def State.swapCode (s : State) (c : Fin 16) : Nat :=
  if (s.core c).swapPend then 1 else if s.bankValid c.val (s.core c).other then 0 else 2

def execSwap (c : Fin 16) (a : Fin 32) (s : State) : Host.Outcome State Fault Refusal :=
  s.issue c (
    if !(s.ctx c).priv && !s.on CORE_CTL.SWAP_EN c.val then s.privilege c (wordReg 0x28 a 0 0 0x002)
    else
      let t := if s.swapCode c = 0 then s.acceptSwap c else s
      t.retire c 4 (setGA a (BitVec.ofNat 32 (s.swapCode c))))

/-- IE and EXL as XSTATUS holds them. -/
def Core.popStatus (k : Core) : Core := { k with ie := k.xstatus.getLsbD 1, exl := k.xstatus.getLsbD 2 }

/-- ERET (R67, R69): from a handler entered in the idle context, back to idle; from one entered in a suspended activation,
which then waits no longer; otherwise to EPC. -/
def State.eret (s : State) (c : Fin 16) : State :=
  let k := s.core c
  if k.inIdle then
    let s := (s.spend c 3).modCore c fun x => { x.popStatus with idle := x.idle.restore x.xstatus, inIdle := false }
    (s.settle c).takeEvent c
  else if decide (0x10000 ≤ k.epc.toNat) then s.except c ⟨0x03, 0, false, k.ctx.pc, k.epc⟩
  else
    let s := (s.spend c 3).modCore c fun x =>
      (x.modCtx fun y => { y.restore x.xstatus with pc := x.epc }).popStatus
    if k.guest then
      ((s.modCore c fun x => { x with cur := none, guest := false, overSlots := none, slotEnd := none }).settle c).takeEvent c
    else s.bound c

def execEret (c : Fin 16) (s : State) : Host.Outcome State Fault Refusal :=
  s.issue c (if (s.ctx c).priv then s.eret c else s.privilege c (wordReg 0x28 0 0 0 0x003))

/-! ### Control registers (R64, Table 3.18) -/

/-- The value of a control register.  IE, which Table 3.18 marks S inside a register readable at P, is read at either privilege
(DESIGN CHOICE, log entry 58). -/
def State.crRead (s : State) (c : Fin 16) (n : Nat) : Word :=
  let k := s.core c
  match n with
  | 0 => BitVec.ofNat 32 (c.val + 2 ^ 8 * k.bank.val + 2 ^ 9 * b2n k.swapPend)
  | 1 => BitVec.ofNat 32 (k.slot % 128 + 2 ^ 8 * k.frame)
  | 2 => BitVec.ofNat 32 s.mtc
  | 3 => k.mtcHi
  | 4 => BitVec.ofNat 32 k.cyc
  | 5 => k.cycHi
  | 6 => s.status c
  | 7 => k.evpend
  | 8 => k.evmask
  | 9 => k.vbase
  | 10 => k.xstatus
  | 11 => k.epc
  | 12 => k.ecause
  | 13 => k.eval
  | 14 => k.scratch0
  | _ => k.scratch1

/-- A read of MTC_LO or CYC_LO latches the high word. -/
def State.crLatch (s : State) (c : Fin 16) (n : Nat) : State :=
  if n = 2 then s.modCore c fun k => { k with mtcHi := BitVec.ofNat 32 (s.mtc / 2 ^ 32) }
  else if n = 4 then s.modCore c fun k => { k with cycHi := BitVec.ofNat 32 (k.cyc / 2 ^ 32) }
  else s

/-- Does Table 3.18 mark the whole register as S? -/
def crSup (n : Nat) : Bool := decide (8 ≤ n)

/-- A write of a control register by its field types; the read-only ones ignore it (R2). -/
def Core.crWrite (k : Core) (n : Nat) (sup : Bool) (v : Word) : Core :=
  match n with
  | 6 =>
    let k := k.modCtx fun x => x.writeStatus v
    if sup then { k with ie := v.getLsbD 1 } else k
  | 7 => { k with evpend := k.evpend &&& ~~~v }
  | 8 => { k with evmask := v }
  | 9 => { k with vbase := v &&& 0xFF00 }
  | 10 => { k with xstatus := v }
  | 11 => { k with epc := v &&& 0xFFFFFFFC }
  | 12 => { k with ecause := v &&& 0x1FFFF }
  | 13 => { k with eval := v }
  | 14 => { k with scratch0 := v }
  | 15 => { k with scratch1 := v }
  | _ => k

/-- The check of a control register access: ILLEGAL for a number not listed, PRIVILEGE for an S register at P (R47, R49). -/
def State.crAccess (s : State) (c : Fin 16) (n : Fin 32) (w : Word) (t : State) : Host.Outcome State Fault Refusal :=
  s.checked c (decide (n.val < 16)) w (if crSup n.val && !(s.ctx c).priv then s.privilege c w else t)

def execCrd (c : Fin 16) (a n : Fin 32) (s : State) : Host.Outcome State Fault Refusal :=
  s.crAccess c n (wordReg 0x28 a 0 n 0x010) ((s.crLatch c n.val).retire c 1 (setGA a (s.crRead c n.val)))

def execCwr (c : Fin 16) (b n : Fin 32) (s : State) : Host.Outcome State Fault Refusal :=
  s.crAccess c n (wordReg 0x28 0 b n 0x011)
    ((s.modCore c fun k => k.crWrite n.val k.ctx.priv (k.ctx.getG b)).retire c 2 fun x => x)

/-! ### Locks (R61, R84) -/

/-- The lock that a node waits for. -/
def State.waitsFor (s : State) (d : Node) : Option (Fin 256) :=
  (List.finRange 256).find? fun n => (s.locks[n.val]).waiters.contains d

/-- Does the chain of holders and waits from a holder reach node `d`?  Each node waits on at most one lock. -/
def State.reaches (s : State) (d : Node) : Nat → Node → Bool
  | 0, _ => false
  | k + 1, h =>
    h == d ||
      match s.waitsFor h with
      | some n =>
        let l := s.locks[n.val]
        if l.orphan then false else (l.holder.map fun x => s.reaches d k x).getD false
      | none => false

/-- Would a wait of node `d` on lock `n` never be granted: it closes a cycle, or another activation of the same core holds
the lock (R61, R84)? -/
def State.closes (s : State) (n : Fin 256) (d : Node) : Bool :=
  let l := s.locks[n.val]
  match l.holder with
  | some h => !l.orphan && (h.req == d.req || s.reaches d 64 h)
  | none => false

/-- The lock number of Table 3.14. -/
def State.lockNo (s : State) (c : Fin 16) (b : Fin 32) (imm : BitVec 16) : Nat := ((s.ctx c).getG b + zext16 imm).toNat

/-- Does the activation that executes hold the lock? -/
def State.holds (s : State) (c : Fin 16) (n : Fin 256) : Bool :=
  (s.locks[n.val]).holder == some (s.nodeOf c) && !(s.locks[n.val]).orphan

/-- Take a free lock. -/
def State.takeLock (s : State) (c : Fin 16) (n : Fin 256) : State := s.modLock n fun l => { l with holder := some (s.nodeOf c) }

/-- Complete a lock instruction with a status word. -/
def State.lockDone (s : State) (c : Fin 16) (n : Nat) (a : Fin 32) (status holder : Nat) : State :=
  s.retire c n (setGA a (lockStatus status holder))

/-- LOCK: granted, refused, or a wait with its edge in the graph. -/
def State.lockTake (s : State) (c : Fin 16) (a : Fin 32) (n : Nat) : State :=
  if 255 < n then s.lockDone c 6 a 0x05 0xFF
  else
    let i := Fin.ofNat 256 n
    let l := s.locks[i.val]
    if l.holder.isNone then (s.takeLock c i).lockDone c 6 a 0x00 0xFF
    else if s.holds c i then s.lockDone c 6 a 0x03 0xFF
    else if s.closes i (s.nodeOf c) then (s.count LK_STAT.DEADLOCK_CNT).lockDone c 6 a 0x02 (holderNo l.holder)
    else
      ((s.modLock i fun x => { x with waiters := x.waiters ++ [s.nodeOf c] }).spend c 6).modCore c fun k =>
        { k with lockWait := some ⟨a, n⟩ }

def State.lockTry (s : State) (c : Fin 16) (a : Fin 32) (n : Nat) : State :=
  if 255 < n then s.lockDone c 6 a 0x05 0xFF
  else
    let i := Fin.ofNat 256 n
    let l := s.locks[i.val]
    if l.holder.isNone then (s.takeLock c i).lockDone c 6 a 0x00 0xFF
    else if s.holds c i then s.lockDone c 6 a 0x03 0xFF
    else s.lockDone c 6 a 0x01 (holderNo l.holder)

def State.lockGive (s : State) (c : Fin 16) (a : Fin 32) (n : Nat) : State :=
  if 255 < n then s.lockDone c 4 a 0x05 0xFF
  else
    let i := Fin.ofNat 256 n
    if s.holds c i then (s.passLock i).lockDone c 4 a 0x00 0xFF else s.lockDone c 4 a 0x04 0xFF

/-- IMM[15:8] of a lock instruction must be 0 (Table 3.14). -/
def lockImm (imm : BitVec 16) : Bool := decide (imm.toNat < 256)

def execLock (c : Fin 16) (a b : Fin 32) (imm : BitVec 16) (s : State) : Host.Outcome State Fault Refusal :=
  s.checked c (lockImm imm) (wordImm 0x29 a b imm) (s.lockTake c a (s.lockNo c b imm))

def execTrylock (c : Fin 16) (a b : Fin 32) (imm : BitVec 16) (s : State) : Host.Outcome State Fault Refusal :=
  s.checked c (lockImm imm) (wordImm 0x2A a b imm) (s.lockTry c a (s.lockNo c b imm))

def execUnlk (c : Fin 16) (a b : Fin 32) (imm : BitVec 16) (s : State) : Host.Outcome State Fault Refusal :=
  s.checked c (lockImm imm) (wordImm 0x2B a b imm) (s.lockGive c a (s.lockNo c b imm))

/-- The lock wait limit of a core expires (R61): TIMEOUT with the holder, the request withdrawn. -/
def State.lockTimeout (s : State) (c : Fin 16) : State :=
  match (s.core c).lockWait with
  | none => s
  | some w =>
    if s.get LK_LIMIT.LIM c.val = 0 then s
    else
      let n := Fin.ofNat 256 w.lock
      ((s.withdraw n (s.nodeOf c)).count LK_STAT.TIMEOUT_CNT).endLockWait c (lockStatus 0x06 (holderNo (s.locks[n.val]).holder))

def execLockWaitTimeout (c : Fin 16) (s : State) : Host.Outcome State Fault Refusal := s.act (if s.live then s.lockTimeout c else s)

/-! ### Mailboxes (R62) -/

/-- The mailbox, the word count and the DTCM address of a mailbox instruction. -/
def mbOf (w : Word) : Fin 64 := Fin.ofNat 64 w.toNat
def mbLen (w : Word) : Nat := bits w.toNat 8 5

/-- Is the address word-aligned, with every word in DTCM? -/
def mbAddrOk (addr n : Nat) : Bool := addr % 4 == 0 && decide (0x20000 ≤ addr) && decide (addr + 4 * n ≤ 0x40000)

/-- The status of a send, in the order of R62. -/
def State.sendCode (s : State) (c : Fin 16) (m : Fin 64) (n addr : Nat) : Nat :=
  if !s.on MB_CFG.EN 0 m.val then 0x02
  else if n = 0 ∨ 16 < n ∨ s.mbMaxw m.val < n then 0x03
  else if !bit (s.get MB_PERM.SEND 0 m.val) c.val then 0x04
  else if !mbAddrOk addr n then 0x05
  else if s.mbFull m then 0x01
  else 0x00

/-- May a core receive from a mailbox: RECV names it, or any function core (Table 4.8)? -/
def State.mayReceive (s : State) (c : Fin 16) (m : Fin 64) : Bool := s.get MB_CFG.RECV 0 m.val == c.val || s.get MB_CFG.RECV 0 m.val == 0x1F

/-- The status of a receive, in the order of R62; OK stands for TRUNCATED as well. -/
def State.recvCode (s : State) (c : Fin 16) (m : Fin 64) (n addr : Nat) : Nat :=
  if !s.on MB_CFG.EN 0 m.val then 0x02
  else if n = 0 ∨ 16 < n then 0x03
  else if !s.mayReceive c m then 0x04
  else if !mbAddrOk addr n then 0x05
  else if (s.mbox[m.val]).isEmpty then 0x01
  else 0x00

/-- MSEND. -/
def State.send (s : State) (c : Fin 16) (a : Fin 32) (m : Fin 64) (n addr : Nat) : State :=
  let code := s.sendCode c m n addr
  if code = 0 then
    let t := s.pushMsg m c.val ((s.core c).dtcm.readWords (addr - 0x20000) n)
    t.retire c (8 + n) (setGA a (mbStatus 0 n (t.mbox[m.val]).length))
  else
    let t := if code = 0x01 then s.count MB_STAT.FULL_CNT 1 0 m.val else s
    t.retire c 8 (setGA a (mbStatus code 0 (s.mbox[m.val]).length))

/-- INFO of a receive that names no sender is not stated. -/
def State.recvRefused (s : State) (c : Fin 16) (code : Nat) : Word := mbStatus code 0 (Config.unstated 12 [code, s.mtc, (s.core c).cyc] % 256)

/-- The oldest message is taken into DTCM. -/
def State.receive (s : State) (c : Fin 16) (a : Fin 32) (m : Fin 64) (n addr : Nat) : State :=
  match s.mbox[m.val] with
  | g :: rest => ((s.modMbox m fun _ => rest).toDtcm c addr n g).retire c (8 + min n g.words.length) (setGA a (g.status n))
  | [] => s.retire c 8 (setGA a (s.recvRefused c 0x01))

/-- MRECV. -/
def State.recv (s : State) (c : Fin 16) (a : Fin 32) (m : Fin 64) (n addr : Nat) : State :=
  let code := s.recvCode c m n addr
  if code = 0 then s.receive c a m n addr else s.retire c 8 (setGA a (s.recvRefused c code))

/-- MRECVW: an empty mailbox suspends the activation; the idle context cannot wait and finds it EMPTY. -/
def State.recvWait (s : State) (c : Fin 16) (a : Fin 32) (m : Fin 64) (n addr : Nat) : State :=
  if s.recvCode c m n addr = 0x01 then
    match (s.core c).inIdle, (s.core c).cur with
    | false, some e => (s.spend c 8).suspend c e (.recv a m.val addr n)
    | _, _ => s.recv c a m n addr
  else s.recv c a m n addr

def execMsend (c : Fin 16) (a b d : Fin 32) (s : State) : Host.Outcome State Fault Refusal :=
  let x := s.ctx c
  s.issue c (s.send c a (mbOf (x.getG d)) (mbLen (x.getG d)) (x.getG b).toNat)

def execMrecv (c : Fin 16) (a b d : Fin 32) (s : State) : Host.Outcome State Fault Refusal :=
  let x := s.ctx c
  s.issue c (s.recv c a (mbOf (x.getG d)) (mbLen (x.getG d)) (x.getG b).toNat)

def execMrecvw (c : Fin 16) (a b d : Fin 32) (s : State) : Host.Outcome State Fault Refusal :=
  let x := s.ctx c
  s.issue c (s.recvWait c a (mbOf (x.getG d)) (mbLen (x.getG d)) (x.getG b).toNat)

/-! ### The loop unit (R63, Table 3.17) -/

def execTmark (c : Fin 16) (b : Fin 32) (imm : BitVec 16) (s : State) : Host.Outcome State Fault Refusal :=
  s.issue c ((s.trMark c imm.toNat ((s.ctx c).getG b)).retire c 2 fun x => x)

/-- The table gB[2:0]; TABLE_ABSENT where its length is 0, with EVAL naming table and copy. -/
def State.withTable (s : State) (c : Fin 16) (w : Word) (f : Fin 8 → RepTable → State) : State :=
  let t := Fin.ofNat 8 w.toNat
  let r := s.repTab c t
  if r.len = 0 then s.access c 0x08 (w &&& 0x107) else f t r

def execRtrd (c : Fin 16) (a b d : Fin 32) (s : State) : Host.Outcome State Fault Refusal :=
  let x := s.ctx c
  s.issue c (s.withTable c (x.getG b) fun _ r =>
    s.retire c 3 (setGA a (wordZ (entryOf (if (x.getG b).getLsbD 8 then r.shadow else r.active) ((x.getG d).toNat % r.len)))))

def execRtwr (c : Fin 16) (a b d : Fin 32) (s : State) : Host.Outcome State Fault Refusal :=
  let x := s.ctx c
  s.issue c (s.withTable c (x.getG b) fun t r =>
    (s.modRepTab c t fun q => { q with shadow := entrySet q.shadow ((x.getG d).toNat % r.len) (x.getG a).toNat }).retire c 2 fun y => y)

def execRttag (c : Fin 16) (a b : Fin 32) (s : State) : Host.Outcome State Fault Refusal :=
  let x := s.ctx c
  s.issue c (s.withTable c (x.getG b) fun t _ =>
    s.retire c 3 (setGA a (BitVec.ofNat 32 (s.rtTag c t ((x.getG b).getLsbD 8)))))

end Sys2Proof.Machine
end

