-- ==== Sys2Proof/Machine/DcData.lean ====
section
/-! DEFINITION.  The data of the Decanter's descriptors (R316 to R318, R320). -/

namespace Sys2Proof.Machine

open Sys2Proof.Reg

/-- The requester number of a channel (Table 16.2). -/
def dcReq (n : Fin 32) : Nat := 36 + n.val

/-- Read one unit of the channel's data: a word of the window, or a byte of memory; none: a bus error. -/
def State.dcGet (s : State) (a : Nat) : Option (Nat × State) :=
  if inPeriph a then some (s.busRead a)
  else if fabReaches a false false then some ((s.fabByte a).toNat, s)
  else none

/-- Write one unit; an access refused under R5 is a bus error (R316). -/
def State.dcPut (s : State) (n : Fin 32) (a v : Nat) : Option State :=
  if inPeriph a then s.busWrite a v ⟨dcReq n, s.on DC_CFG.PRIV n.val⟩
  else if fabReaches a true false then some (s.fabPut a (BitVec.ofNat 8 v))
  else none

/-- How a move stopped: at its end, at a difference, at a refused access (its offset and address). -/
inductive DcStop where
  | all
  | differ (ofs : Nat)
  | bad (ofs addr : Nat)
  deriving DecidableEq, Repr

/-- Bytes of a unit at an offset of a descriptor: 4 where a side of it lies in the window. -/
def DcDesc.unit (d : DcDesc) (o : Nat) : Nat :=
  if inPeriph (d.dst + o) || (d.op != 1 && inPeriph (d.src + o)) then 4 else 1

/-- `k` little-endian bytes of memory or a word of the window, as one number; none: a bus error, with its address. -/
def State.dcSide (s : State) (a : Nat) : Nat → Option (Nat × State)
  | 0 => some (0, s)
  | k + 1 =>
    if inPeriph a then s.dcGet a
    else
      match s.dcGet a with
      | none => none
      | some (v, t) =>
        match t.dcSide (a + 1) k with
        | none => none
        | some (w, u) => some (v + 256 * w, u)

/-- Write `k` bytes of a number to memory, or a word to the window. -/
def State.dcStore (s : State) (n : Fin 32) (a v : Nat) : Nat → Option State
  | 0 => some s
  | k + 1 =>
    if inPeriph a then s.dcPut n a v
    else
      match s.dcPut n a (v % 256) with
      | none => none
      | some t => t.dcStore n (a + 1) (v / 256) k

/-- The byte of a FILL at an offset of the descriptor, and the word. -/
def DcDesc.fill (d : DcDesc) (o k : Nat) : Nat := if k = 4 then d.const else bits d.const (8 * (o % 4)) 8

/-- One unit of a descriptor at offset `o`. -/
def State.dcUnit (s : State) (n : Fin 32) (d : DcDesc) (o : Nat) : State × DcStop :=
  let k := d.unit o
  if d.op = 1 then
    match s.dcStore n (d.dst + o) (d.fill o k) k with
    | some t => (t, .all)
    | none => (s, .bad o (d.dst + o))
  else
    match s.dcSide (d.src + o) k with
    | none => (s, .bad o (d.src + o))
    | some (v, t) =>
      if d.op = 0 then
        match t.dcStore n (d.dst + o) v k with
        | some u => (u, .all)
        | none => (t, .bad o (d.dst + o))
      else
        match t.dcSide (d.dst + o) k with
        | none => (t, .bad o (d.dst + o))
        | some (w, u) =>
          if v = w then (u, .all)
          else
            let j := ((List.range 4).find? fun b => bits v (8 * b) 8 != bits w (8 * b) 8).getD 0
            (u, .differ (o + j))

/-- The units of a descriptor in ascending order from `o` to below `e`; `fuel` bounds their number. -/
def State.dcMoveTo (s : State) (n : Fin 32) (d : DcDesc) (e : Nat) : Nat → Nat → State × DcStop
  | 0, _ => (s, .all)
  | fuel + 1, o =>
    if e ≤ o then (s, .all)
    else
      match s.dcUnit n d o with
      | (t, .all) => t.dcMoveTo n d e fuel (o + d.unit o)
      | r => r

/-- Move a channel's data up to offset `e`. -/
def State.dcCarry (s : State) (n : Fin 32) (d : DcDesc) (e : Nat) : State × DcStop := s.dcMoveTo n d e (e - (s.dcCh n).moved) (s.dcCh n).moved

/-- A data beat has failed: its fabric address, and the end of the descriptor (R318). -/
def State.dcFail (s : State) (n : Fin 32) (status ofs addr : Nat) : State :=
  ((s.put DC_ERR_ADDR_LO.W addr n.val).put DC_ERR_ADDR_HI.ADDR (addr / 2 ^ 32) n.val).dcBad n status ofs

/-- What a stop makes of the channel; `go` where the data have come to offset `e`. -/
def State.dcAfter (r : State × DcStop) (n : Fin 32) (go : State → State) : State :=
  match r.2 with
  | .all => go r.1
  | .differ o => r.1.dcEnd n dcMismatch o
  | .bad o a => r.1.dcFail n dcBadBus o a

/-- Bytes of one burst (R314); BURST 1 to 16. -/
def State.dcBurst (s : State) (n : Fin 32) : Nat := 64 * clampN 1 16 (s.get DC_CFG.BURST n.val)

/-- Does RATE limit the channel (R320)? -/
def State.dcLimited (s : State) (n : Fin 32) : Bool :=
  let r := s.get DC_CFG.RATE n.val
  decide (1 ≤ r) && decide (r < 100)

/-- Is a channel moving data on a mover? -/
def State.dcMoving (s : State) (n : Fin 32) : Bool := s.live && s.dcState n == dcMove && s.onMover n

/-- Cycles of the pause after a burst that has written `w` beats under a rate (R320). -/
def pauseCycles (w rate : Nat) : Nat := (w * (100 - rate) + rate - 1) / rate

/-- Until when a channel pauses after a burst from `o` to below `e`. -/
def State.dcPause (s : State) (n : Fin 32) (d : DcDesc) (o e : Nat) : Nat :=
  if s.dcLimited n && d.op != 2 then s.fabNow + pauseCycles (beatsOf (d.dst + o) (e - o)) (s.get DC_CFG.RATE n.val) else 0

/-- The data have come to offset `e`: the descriptor ends, or the channel pauses under its rate and gives up its mover. -/
def State.dcReach (s : State) (n : Fin 32) (d : DcDesc) (e : Nat) : State :=
  let t := (s.modDc n fun c => { c with moved := e, until_ := s.dcPause n d c.moved e }).put DC_REMAIN.LEN (d.len - e) n.val
  if d.len ≤ e then t.dcEnd n dcOk 0
  else ((t.put DC_STAT.STATE dcRateWait n.val).put DC_STAT.BUF 0 n.val).moverFree n

/-- The data of the descriptor are moved, or one burst of them under a rate limit (R317, R320). -/
def State.dcData (s : State) (n : Fin 32) (d : DcDesc) : State :=
  let e := if s.dcLimited n then min d.len ((s.dcCh n).moved + s.dcBurst n) else d.len
  State.dcAfter (s.dcCarry n d e) n fun t => t.dcReach n d e

def execDcDataComplete (n : Fin 32) (s : State) : Host.Outcome State Fault Refusal :=
  s.act (
    match (s.dcCh n).desc with
    | some d => if s.dcMoving n then s.dcData n d else s
    | none => s)

/-- The beat at offset `ofs` fails, on the write side or the read side; what lies before it has been moved. -/
def State.dcBeatFail (s : State) (n : Fin 32) (status ofs : Nat) (wr : Bool) : State :=
  match (s.dcCh n).desc with
  | some d =>
    if s.dcMoving n && decide ((s.dcCh n).moved ≤ ofs) && decide (ofs < d.len) then
      State.dcAfter (s.dcCarry n d ofs) n fun t => t.dcFail n status ofs ((if wr || d.op == 1 then d.dst else d.src) + ofs)
    else s
  | none => s

def execDcBeatFail (n : Fin 32) (ofs : Nat) (wr : Bool) (s : State) : Host.Outcome State Fault Refusal := s.act (s.dcBeatFail n dcBadBus ofs wr)
def execDcBeatTimeout (n : Fin 32) (ofs : Nat) (wr : Bool) (s : State) : Host.Outcome State Fault Refusal :=
  s.act (s.dcBeatFail n dcBadTimeout ofs wr)

end Sys2Proof.Machine
end

