-- ==== Sys2Proof/Machine/Update.lean ====
section
/-! DEFINITION.  The update manager (R344 to R357): transfer, verification, activation, trial and rollback, and the key. -/

namespace Sys2Proof.Machine

open Sys2Proof.Reg

/-! ### States and error codes (Tables 18.6 and 18.8) -/

def updIdle : Nat := 0
def updReceiving : Nat := 1
def updVerifying : Nat := 2
def updVerified : Nat := 3
def updActivating : Nat := 4
def updTrial : Nat := 5

def updErrNone : Nat := 0x0
def updErrMissing : Nat := 0x1
def updErrManifest : Nat := 0x2
def updErrSignature : Nat := 0x3
def updErrDigest : Nat := 0x4
def updErrKind : Nat := 0x5
def updErrFw : Nat := 0x6
def updErrSettings : Nat := 0x7
def updErrSpace : Nat := 0x8
def updErrValidate : Nat := 0x9
def updErrHold : Nat := 0xA

def kindFc : Nat := 0x01
def kindModel : Nat := 0x02
def kindPipe : Nat := 0x03
def kindTransform : Nat := 0x04
def kindSettings : Nat := 0x10
def kindSvcFw : Nat := 0x20
def kindOsvFw : Nat := 0x21

def State.updState (s : State) : Nat := s.get UPD_STAT.STATE
def State.modMgr (s : State) (f : Update → Update) : State := { s with manager := f s.manager }

/-! ### Requests over MB60, MB61 and the service port (R88, R358) -/

/-- Is a request of the update manager or the platform service served now?  In recovery only over the service port, and
only those that R357 names. -/
def State.serves (s : State) (q : SvcReq) (recovery : Bool) : Bool :=
  (s.units && s.plat.serviceUp) || (recovery && s.plat.power == .recovery && q.src == portId)

/-- A frame over the service port keeps the session open. -/
def State.portFrame (s : State) (q : SvcReq) : State :=
  if q.src = portId then s.modMgr fun m => { m with session := m.session.map fun x => { x with last := s.mtc } } else s

/-- Serve a request with its parameters that came in mailbox `m` or over the port; without the level it needs, NOT_PERMITTED. -/
def State.serve (s : State) (q : SvcReq) (m : Fin 64) (op : Nat) (params : List Nat) (write recovery : Bool) (f : State → State) :
    Host.Outcome State Fault Refusal :=
  .next (
    if !s.serves q recovery then s
    else
      let t := (s.request m op q params).portFrame q
      if t.portMay q write then f t else t.done q platCore op stNotPermitted [])

/-- The bytes of a request: in its buffer, or in its payload over the service port. -/
def State.payload (s : State) (q : SvcReq) (addr len : Nat) (data : List Nat) : Option (List Nat) :=
  if q.src = portId then some (data.map (· % 256))
  else if (List.range len).all fun k => fabReaches (addr + k) false true then some (s.fabBytes addr len)
  else none

/-! ### The staged image (R345, R350) -/

def bytesAt (bs : List Nat) (o n : Nat) : List Nat := (bs.drop o).take n
def numAt (bs : List Nat) (o n : Nat) : Nat := (bytesAt bs o n).foldr (fun b a => b + 256 * a) 0

/-- The image of `n` blocks, all present, every one but the last whole. -/
def stagedImage (st : List (Nat × List Nat)) (n : Nat) : Option (List Nat) :=
  let block := fun i => (st.find? fun b => b.1 == i).map Prod.snd
  let whole := (List.range n).all fun i => ((block i).map fun b => i + 1 == n || b.length == 65536).getD false
  if whole then some ((List.range n).flatMap fun i => (block i).getD []) else none

/-- A part entry (Table 18.2). -/
structure PartEntry where
  kind : Nat
  target : Nat
  gen : Nat
  ofs : Nat
  len : Nat
  sha : List Nat
  deriving DecidableEq, Repr

def partEntry (img : List Nat) (e : Nat) : PartEntry :=
  let o := 0x40 + 64 * e
  ⟨numAt img o 1, numAt img (o + 1) 1, numAt img (o + 2) 1, numAt img (o + 4) 4, numAt img (o + 8) 4, bytesAt img (o + 16) 32⟩

def imageParts (img : List Nat) : List PartEntry := (List.range (numAt img 0x0C 1)).map (partEntry img)

/-- MAGIC, VERSION, NPARTS and layout (R345). -/
def manifestOk (img : List Nat) : Bool :=
  let n := numAt img 0x0C 1
  let len := numAt img 0x10 4
  numAt img 0 4 == 0x4A484D46 && numAt img 4 2 == 1 && decide (1 ≤ n) && decide (n ≤ 64) && len == img.length
    && numAt img 0x14 4 == (len + 65535) / 65536 && decide (0x40 + 64 * n + 64 ≤ len)
    && (imageParts img).all fun p => p.ofs % 4096 == 0 && decide (p.ofs + p.len ≤ len)

/-- Is the kind known and the target one it may have (Table 18.3)? -/
def State.targetOk (s : State) (p : PartEntry) : Bool :=
  if p.kind = kindFc then decide (p.target < 16) && !s.paired p.target
  else if p.kind = kindModel then decide (p.target < 16)
  else if p.kind = kindPipe then decide (p.target < 4)
  else if p.kind = kindTransform then decide (p.target < 16) || p.target == 0xFF
  else if p.kind = kindSettings ∨ p.kind = kindSvcFw ∨ p.kind = kindOsvFw then p.target == 0
  else false

/-- No two entries of one kind and target. -/
def noTwice : List PartEntry → Bool
  | [] => true
  | p :: t => !t.any (fun q => q.kind == p.kind && q.target == p.target) && noTwice t

def setOf (img : List Nat) : SoftSet :=
  ⟨numAt img 8 4, numAt img 0x0E 2, (imageParts img).map fun p => ⟨p.kind, p.target, p.gen, bytesAt img p.ofs p.len⟩⟩

/-- The set that runs; in recovery none does (R347). -/
def State.runningSet (s : State) : Option SoftSet := if s.plat.power = .recovery then none else s.activeSet

def SoftSet.has (x : SoftSet) (kind : Nat) : Bool := x.parts.any fun p => p.kind == kind

/-- CLASS: FULL unless every kind lies in 0x01 to 0x04 (R346). -/
def SoftSet.isFull (x : SoftSet) : Bool := x.parts.any fun p => decide (4 < p.kind)

/-- The checks of R350 in order: the ERR code, and the set where all pass.  The signatures are judged outside. -/
def State.verifySet (s : State) (sigOk fwOk : Bool) : Nat × Option SoftSet :=
  match stagedImage s.manager.staging (max 1 (s.get UPD_TOTAL.TOTAL)) with
  | none => (updErrMissing, none)
  | some img =>
    let x := setOf img
    if !manifestOk img then (updErrManifest, none)
    else if !sigOk then (updErrSignature, none)
    else if !(imageParts img).all (fun p => sha256 (bytesAt img p.ofs p.len) == p.sha) then (updErrDigest, none)
    else if !(imageParts img).all s.targetOk || !noTwice (imageParts img) then (updErrKind, none)
    else if (x.has kindSvcFw || x.has kindOsvFw) && !fwOk then (updErrFw, none)
    else if (s.runningSet.any fun r => r.fmt != x.fmt) && !x.has kindSettings then (updErrSettings, none)
    else (updErrNone, some x)

/-- The set that an activation writes to the boot slot (R347). -/
def SoftSet.compose (x : SoftSet) (run : Option SoftSet) : SoftSet :=
  let old := (run.map SoftSet.parts).getD []
  { x with parts := x.parts ++ old.filter fun p => !x.parts.any fun q => q.kind == p.kind && q.target == p.target }

/-! ### Transfer (R344, R349) -/

/-- Does the update belong to the requester, or to none? -/
def State.ownsUpdate (s : State) (q : SvcReq) : Bool := s.manager.owner.isNone || s.manager.owner == some q.src

/-- An UPD_END whose verification is given up gets its final reply. -/
def State.endVerify (s : State) : State :=
  match s.manager.wait with
  | some w => (s.modMgr fun m => { m with wait := none }).done w.req platCore 0x0003 stBadParam [updErrNone]
  | none => s

/-- Staging erased. -/
def State.eraseStaging (s : State) : State :=
  let t := s.endVerify.modMgr fun m => { m with staging := [], staged := none }
  (((t.put UPD_BLOCKS.RECEIVED 0).put UPD_TOTAL.TOTAL 0).put SET_STAGED.W 0).put UPD_STAT.ERR updErrNone

/-- UPD_BEGIN.  Its BLOCKS has no stated effect: UPD_TOTAL and the check against SPACE are those of the manifest (R349,
Table 18.8). -/
def execUpdBegin (q : SvcReq) (size : UpdSize) (s : State) : Host.Outcome State Fault Refusal :=
  s.serve q 60 0x0001 [size.setId, size.blocks] true true fun s =>
    if !s.ownsUpdate q || s.updState == updActivating || s.updState == updTrial then s.done q platCore 0x0001 stBusy []
    else
      let t := ((s.eraseStaging.put SET_STAGED.W (size.setId % 2 ^ 32)).put UPD_STAT.STATE updReceiving).modMgr fun m => { m with owner := some q.src }
      t.done q platCore 0x0001 stOk []

/-- A block whose CRC is right is kept; block 0 shows the manifest's SET_ID and BLOCKS. -/
def State.storeBlock (s : State) (index : Nat) (bs : List Nat) : State :=
  let s := s.modMgr fun m => { m with staging := m.staging.filter (fun b => b.1 != index) ++ [(index, bs)], staged := none }
  let s := if index = 0 then (s.put SET_STAGED.W (numAt bs 8 4)).put UPD_TOTAL.TOTAL (numAt bs 0x14 4) else s
  (s.put UPD_BLOCKS.RECEIVED s.manager.staging.length).put UPD_STAT.STATE updReceiving

def execUpdBlock (q : SvcReq) (index addr len crc : Nat) (data : List Nat) (s : State) : Host.Outcome State Fault Refusal :=
  s.serve q 60 0x0002 ([index] ++ two addr ++ [len, crc]) true true fun s =>
    if !s.ownsUpdate q then s.done q platCore 0x0002 stBusy []
    else if s.updState ≠ updReceiving ∧ s.updState ≠ updVerified then s.done q platCore 0x0002 stBadParam []
    else
      match s.payload q addr len data with
      | none => s.done q platCore 0x0002 stBadParam []
      | some bs =>
        if bs.isEmpty || decide (65536 < bs.length) || decide (131072 ≤ index) || crc32c bs != crc % 2 ^ 32 then
          s.done q platCore 0x0002 stBadParam []
        else if index = 0 ∧ 131072 < numAt bs 0x14 4 then
          (s.put UPD_STAT.ERR updErrSpace).done q platCore 0x0002 stBadParam [updErrSpace]
        else ((s.modMgr fun m => { m with owner := some q.src }).storeBlock index bs).done q platCore 0x0002 stOk []

def execUpdEnd (q : SvcReq) (s : State) : Host.Outcome State Fault Refusal :=
  s.serve q 60 0x0003 [] true true fun s =>
    if !s.ownsUpdate q then s.done q platCore 0x0003 stBusy []
    else if s.updState ≠ updReceiving then s.done q platCore 0x0003 stBadParam [s.get UPD_STAT.ERR]
    else
      let t := (s.put UPD_STAT.STATE updVerifying).modMgr fun m => { m with wait := some (keepReq q) }
      t.reply q platCore 0x0003 stAccepted false []

/-- The outcome of the checks: VERIFIED with its class, or RECEIVING with ERR. -/
def State.verified (s : State) (sigOk fwOk : Bool) : State :=
  let r := s.verifySet sigOk fwOk
  let s := (s.put UPD_STAT.ERR r.1).modMgr fun m => { m with staged := r.2 }
  match r.2 with
  | some x => (s.put UPD_STAT.STATE updVerified).putB UPD_STAT.CLASS x.isFull
  | none => s.put UPD_STAT.STATE updReceiving

def execUpdVerifyDone (sigOk fwOk : Bool) (s : State) : Host.Outcome State Fault Refusal :=
  .next (
    if (s.units || s.plat.power == .recovery) && s.updState == updVerifying then
      let t := s.verified sigOk fwOk
      match s.manager.wait with
      | none => t
      | some w =>
        let u := t.modMgr fun m => { m with wait := none }
        if t.manager.staged.isSome then u.done w.req platCore 0x0003 stOk [t.get UPD_STAT.CLASS]
        else u.done w.req platCore 0x0003 stBadParam [t.get UPD_STAT.ERR]
    else s)

def execAbort (q : SvcReq) (s : State) : Host.Outcome State Fault Refusal :=
  s.serve q 60 0x0007 [] true true fun s =>
    if !s.ownsUpdate q then s.done q platCore 0x0007 stBusy []
    else if s.updState = updActivating ∨ s.updState = updTrial then s.done q platCore 0x0007 stBadParam []
    else
      let t := (s.eraseStaging.put UPD_STAT.STATE updIdle).modMgr fun m => { m with owner := none }
      t.done q platCore 0x0007 stOk []

/-! ### Placing and loading parts (R34, R347, R351) -/

/-- The words of a part. -/
def partWords (p : SetPart) : List Nat := (List.range (p.data.length / 4)).map fun k => numAt p.data (4 * k) 4

/-- Write words to the registers at ascending addresses of a range that lists them. -/
def State.writeRegs (s : State) (lo hi : Nat) (ws : List Nat) : State :=
  let as := ((List.range ((hi - lo) / 4)).map fun k => lo + 4 * k).filter fun a => !(hitsAt a).isEmpty
  (as.zip ws).foldl (fun (t : State) p => t.writePlain (hitsAt p.1) p.2 true) s

/-- The shadow set of a pipe in register order (R139). -/
def State.loadPipe (s : State) (p : Nat) (ws : List Nat) : State :=
  let base := 0x20410000 + 0x4000 * p
  let as := (List.range 0xC00).filterMap fun k =>
    if pipeShadow (4 * k) && !(hitsAt (base + 4 * k)).isEmpty then some (base + 4 * k) else none
  (as.zip ws).foldl (fun (t : State) p => t.writePlain (hitsAt p.1) p.2 true) s

/-- Put a part into main memory. -/
def State.placeAt (s : State) (addr : Nat) (p : SetPart) : State := s.fabWriteBytes addr (p.data.map (· % 256))

/-- Load one part of an IN_PLACE set into its unit's shadow; is it valid? -/
def State.loadPart (s : State) (k : Nat) (p : SetPart) : State × Bool :=
  if p.kind = kindFc then
    let c := Fin.ofNat 16 p.target
    if Config.imageOk p.data then
      let t := s.loadBank c (s.core c).other p.data
      (t, t.bankValid c.val (t.core c).other)
    else (s, false)
  else if p.kind = kindModel then
    let a := Config.partAddr s.mtc k
    (((s.placeAt a p).put MS_SH_LO.ADDR (a / 2 ^ 6) p.target).put MS_SH_HI.ADDR (a / 2 ^ 32) p.target, true)
  else if p.kind = kindPipe then (s.loadPipe p.target (partWords p), true)
  else if p.target = 0xFF then
    ((partWords p).zipIdx.foldl (fun (t : State) w => if w.2 < 4 then t.put HG_SH.W w.1 0 w.2 else t) s, true)
  else ((partWords p).zipIdx.foldl (fun (t : State) w => if w.2 < 21 then t.put TT_SH.W w.1 p.target w.2 else t) s, true)

/-- Load the parts in order; were all valid? -/
def State.loadParts (s : State) : Nat → List SetPart → State × Bool
  | _, [] => (s, true)
  | k, p :: t =>
    let r := s.loadPart k p
    let q := r.1.loadParts (k + 1) t
    (q.1, r.2 && q.2)

/-- Is the unit that a part is for free to take a switch (R351, step 1)? -/
def State.partFree (s : State) (p : SetPart) : Bool :=
  if p.kind = kindFc then !(s.core (Fin.ofNat 16 p.target)).swapPend
  else if p.kind = kindModel then !s.on MS_STAT.PEND p.target && !s.on MS_STAT.OLD_BUSY p.target
  else if p.kind = kindPipe then !s.on PIPE_CTL.TBL_SWITCH p.target
  else if p.target = 0xFF then !s.on HG_CTL.PEND
  else !s.on TT_CTL.PEND p.target

/-! ### Activation (R351, R352, R357) -/


/-- The first major-frame boundary that begins at least 10 ms from now. -/
def State.inPlaceAt (s : State) : Nat := (s.mtc + 2 * frameTicks - 1) / frameTicks * frameTicks

/-- The next major-frame boundary. -/
def State.nextFrame (s : State) : Nat := (s.mtc / frameTicks + 1) * frameTicks

/-- The final reply of ACTIVATE that refuses, with ERR. -/
def State.activateErr (s : State) (q : SvcReq) (err : Nat) : State := (s.put UPD_STAT.ERR err).done q platCore 0x0004 stBadParam [err]

/-- ACTIVATE accepted: its instant in the reply. -/
def State.activateOk (s : State) (q : SvcReq) (a : Activation) : State :=
  ((s.put UPD_STAT.STATE updActivating).modMgr fun m => { m with act := some a, owner := some q.src }).done q platCore 0x0004 stOk (two a.at_)

def State.activateSet (s : State) (q : SvcReq) (force : Bool) (x : SoftSet) : State :=
  if s.plat.power = .recovery then
    if x.parts.any fun p => p.kind == kindFc && p.target == 0 then
      ((s.put UPD_STAT.STATE updActivating).modMgr fun m => { m with copy := some (x.compose none) }).done q platCore 0x0004 stOk []
    else s.activateErr q updErrKind
  else if x.isFull then
    if s.get OSV_ABORT_TIME.AT < 30 ∧ !force then s.activateErr q updErrHold else s.activateOk q ⟨true, s.nextFrame, false⟩
  else if !x.parts.all s.partFree then s.done q platCore 0x0004 stBusy []
  else
    let r := s.loadParts 0 x.parts
    if r.2 then r.1.activateOk q ⟨false, s.inPlaceAt, false⟩ else r.1.activateErr q updErrValidate

def execActivate (q : SvcReq) (force : Bool) (s : State) : Host.Outcome State Fault Refusal :=
  s.serve q 60 0x0004 [b2n force] true true fun s =>
    if !s.ownsUpdate q then s.done q platCore 0x0004 stBusy []
    else
      match s.updState == updVerified, s.manager.staged with
      | true, some x => s.activateSet q force x
      | _, _ => s.done q platCore 0x0004 stBadParam [s.get UPD_STAT.ERR]

/-- Write the switch of one part that is no core's; is it taken? -/
def State.switchPart (s : State) (p : SetPart) : State × Bool :=
  if p.kind = kindModel then
    let t := s.modelSwap (Fin.ofNat 16 p.target)
    (t, t.get MS_STAT.ERR p.target == 0)
  else if p.kind = kindPipe then
    if s.on PIPE_CTL.TBL_SWITCH p.target then (s, false) else (s.tblSwitch (Fin.ofNat 4 p.target), true)
  else if p.kind = kindTransform then
    if p.target = 0xFF then
      let t := s.hgCommit
      (t, t.get HG_CTL.IGN == s.get HG_CTL.IGN)
    else
      let t := s.ttCommit (Fin.ofNat 16 p.target)
      (t, t.get TT_CTL.IGN p.target == s.get TT_CTL.IGN p.target)
  else (s, true)

/-- Every switch of step 4: one SWAP_SET, then the others; were all taken? -/
def State.switchAll (s : State) (x : SoftSet) : State × Bool :=
  let cores := x.parts.filter fun p => p.kind == kindFc
  let mask := cores.foldl (fun a p => a ||| 2 ^ p.target) 0
  let t := if cores.isEmpty then s else s.swapSet mask
  let ok := cores.isEmpty || t.get SWAP_STAT.RESULT == 1
  x.parts.foldl (fun (a : State × Bool) p => let r := a.1.switchPart p; (r.1, a.2 && r.2)) (t, ok)

/-- The manager writes the switches, in the major frame that ends at S (R351, step 4); one refused makes the activation a
FULL one at S. -/
def execInPlaceSwitch (s : State) : Host.Outcome State Fault Refusal :=
  s.act (
    match s.manager.act, s.manager.staged with
    | some a, some x =>
      if a.full || a.switched || decide (s.mtc + frameTicks < a.at_) || decide (a.at_ ≤ s.mtc) then s
      else
        let r := s.switchAll x
        r.1.modMgr fun m => { m with act := some ⟨!r.2, a.at_, true⟩ }
    | _, _ => s)

/-- An activation at a major-frame boundary: S of one in place whose switches were written, or the onset of a FULL one. -/
def State.activation (s : State) : State :=
  match s.manager.act, s.manager.staged with
  | some a, some x =>
    let all := x.compose s.runningSet
    if s.mtc < a.at_ then s
    else if a.full then
      ((s.count UPD_CNT.ACTIVATIONS).warmNow .activate).modMgr fun m => { m with copy := some all }
    else if a.switched then
      ((s.count UPD_CNT.ACTIVATIONS).put UPD_STAT.STATE updTrial).modMgr fun m => { m with act := none, copy := some all }
    else s
  | _, _ => s

/-- The settings that go with a copied set: its SETTINGS part, or those of the running set. -/
def State.settingsFor (s : State) (x : SoftSet) : Nat × List Nat :=
  match (s.manager.staged.bind fun y => y.parts.find? fun p => p.kind == kindSettings) with
  | some p => (x.fmt, p.data)
  | none => s.manager.settings[s.manager.slot.val]

/-- The copy of a composed set ends, and the boot record moves to its slot (R351, R352, R357). -/
def State.bootCopied (s : State) (x : SoftSet) : State :=
  let m := s.manager
  let slot : Fin 2 := if (m.slots[m.slot.val]).isSome then 1 - m.slot else m.slot
  let trial := s.updState == updTrial || s.plat.power != .run
  let t := s.modMgr fun m =>
    { m with slots := upd m.slots slot fun _ => some x, settings := upd m.settings slot fun _ => s.settingsFor x
             slot := slot, trial := trial, tries := 0, copy := none }
  if s.plat.power = .recovery then t.warmNow .activate else t

def execBootCopyDone (s : State) : Host.Outcome State Fault Refusal :=
  .next (
    match s.manager.copy with
    | some x => if s.units || s.plat.power == .recovery then s.bootCopied x else s
    | none => s)

/-! ### Trial, confirmation, rollback (R354) -/

def execConfirm (q : SvcReq) (s : State) : Host.Outcome State Fault Refusal :=
  s.serve q 60 0x0005 [] true true fun s =>
    if !s.ownsUpdate q then s.done q platCore 0x0005 stBusy []
    else if s.updState = updTrial then
      ((s.put UPD_STAT.STATE updIdle).modMgr fun m => { m with trial := false, owner := none }).done q platCore 0x0005 stOk []
    else s.done q platCore 0x0005 stBadParam []

def execRollback (q : SvcReq) (s : State) : Host.Outcome State Fault Refusal :=
  s.serve q 60 0x0006 [] true true fun s =>
    if !s.ownsUpdate q then s.done q platCore 0x0006 stBusy []
    else if s.updState = updTrial then (s.done q platCore 0x0006 stOk []).warmNow .rollback
    else s.done q platCore 0x0006 stBadParam []

/-! ### The key slot (R348) -/

def execKeySet (q : SvcReq) (addr : Nat) (data : List Nat) (s : State) : Host.Outcome State Fault Refusal :=
  s.serve q 60 0x0010 (two addr) true true fun s =>
    if s.manager.locked then s.done q platCore 0x0010 stNotPermitted []
    else
      match s.payload q addr 64 data with
      | some bs =>
        if bs.length = 64 then (s.modMgr fun m => { m with key := some bs }).done q platCore 0x0010 stOk []
        else s.done q platCore 0x0010 stBadParam []
      | none => s.done q platCore 0x0010 stBadParam []

def execKeyLock (q : SvcReq) (s : State) : Host.Outcome State Fault Refusal :=
  s.serve q 60 0x0011 [] true true fun s => (s.modMgr fun m => { m with locked := true }).done q platCore 0x0011 stOk []

end Sys2Proof.Machine
end

