-- ==== Sys2Proof/Machine/Power.lean ====
section
/-! DEFINITION.  Power states, starts, wake, the ESTOP loop, supplies and heat (R28 to R44, R357, R366 to R370). -/

namespace Sys2Proof.Machine

open Sys2Proof.Reg

def State.modPlat (s : State) (f : Platform → Platform) : State := { s with plat := f s.plat }

/-- SEQ of the last record before now. -/
def State.lastSeq (s : State) : Nat := (s.book.seq + 2 ^ 32 - 1) % 2 ^ 32

/-! ### The start from OFF (R33, Table 2.3) -/

/-- The feed rises in OFF: t0.  The levels of the strap, KEY, WAKE, the ESTOP loop and FEED_LOW as they stand. -/
def State.feedRise (s : State) (strap key wake closed low : Bool) : State :=
  let t := s.powerZero
  let t := ((((t.putB SVC_STAT.STRAP strap).putB PWR_STATE.KEY key).putB PWR_STATE.WAKE wake).putB PWR_STATE.ESTOP closed).putB
    PWR_STATE.FEED_LOW low
  let b := t.book.powerOn
  let t := { t with book := b.1, mtc := 0 }.modPlat fun p =>
    { p with keyOff := false, loopClosed := closed, loopOpening := false, estopFed := false, estopTest := false, estopPass := 0, plateHot := false }
  t.startEnter .t0 (t.startCause .powerOn) b.2

def execLogicFeedRise (strap key wake closed low : Bool) (s : State) : Host.Outcome State Fault Refusal :=
  .next (if s.plat.power = .off then s.feedRise strap key wake closed low else s)

/-- Is a start in progress at a step, with no fatal sequence running? -/
def State.atStart (s : State) (p : StartStep) : Bool := s.plat.power == .starting && s.plat.step == p && s.errs.fatal.isNone

def State.toStep (s : State) (p : StartStep) : State := s.modPlat fun x => { x with step := p }

/-- The TCXO is stable: t1, and the MTC starts at zero, and with it the slot grid (R74). -/
def execTcxoStable (s : State) : Host.Outcome State Fault Refusal :=
  .next (if s.atStart .t0 then { (s.toStep .t1).modPlat fun p => { p with frameNext := 0, slotNext := 0 } with mtc := 0 } else s)

/-- The ROM enters recovery (R357): every output is off. -/
def State.toRecovery (s : State) : State := (s.outputsDead.modPlat fun p => { p with power := .recovery }).railTrackAll

/-- The PLL is locked: t2.  The ROM checks boot image A, then B; from OFF a held strap, and at any start no valid slot,
lead to recovery. -/
def State.pllLocked (s : State) (imgA imgB : Bool) : State :=
  let keep := fun (b : Bool) (x : Option SoftSet) => if b then x else none
  let t := s.modMgr fun m => { m with slots := #v[keep imgA m.slots[0], keep imgB m.slots[1]] }
  let none_ := (t.manager.slots[0]).isNone && (t.manager.slots[1]).isNone && t.manager.copy.isNone
  if none_ || (s.plat.step == .t1 && s.on SVC_STAT.STRAP) then t.toRecovery else t.toStep .t2

def execPllLocked (imgA imgB : Bool) (s : State) : Host.Outcome State Fault Refusal :=
  .next (if s.atStart .t1 || s.atStart .t2 then s.pllLocked imgA imgB else s)

/-- The boot record at a start (R354): a rollback returns to the previous set, a start into a trial set counts in TRIES. -/
def State.bootRecord (s : State) : State :=
  let m := s.manager
  let t :=
    if s.plat.cause = .rollback then
      (if m.trial then s.modMgr fun x => { x with slot := 1 - x.slot, trial := false, tries := 0 } else s).count UPD_CNT.ROLLBACKS
    else if m.trial then s.modMgr fun x => { x with tries := min 15 (x.tries + 1) }
    else s
  if (t.manager.slots[t.manager.slot.val]).isNone && (t.manager.slots[(1 - t.manager.slot).val]).isSome then
    t.modMgr fun x => { x with slot := 1 - x.slot }
  else t

/-- A boot image is selected, DRAM trained: t3.  A start with activation first waits for its copy (R352). -/
def execBootImageSelected (s : State) : Host.Outcome State Fault Refusal :=
  .next (if s.atStart .t2 && s.manager.copy.isNone then s.bootRecord.toStep .t3 else s)

/-- Does the service firmware place a part in DRAM: MODEL, PIPE_TABLES, TRANSFORM (R34)? -/
def SetPart.placed (p : SetPart) : Bool := p.kind == kindModel || p.kind == kindPipe || p.kind == kindTransform

/-- Load bank A of each core for which the set holds an image (R34). -/
def State.loadBanks (s : State) (ps : List SetPart) : State :=
  ps.foldl (fun (t : State) p =>
    if p.kind = kindFc ∧ Config.imageOk p.data then t.loadBank (Fin.ofNat 16 p.target) 0 p.data else t) s

/-- Place the set's parts in DRAM, and list them (R347). -/
def State.placeParts (s : State) (ps : List SetPart) : State :=
  let all := (ps.filter SetPart.placed).zipIdx.map fun p => Placed.mk p.1 (Config.partAddr s.mtc p.2)
  (all.foldl (fun (t : State) p => t.placeAt p.addr p.part) s).modMgr fun m => { m with placed := all }

/-- The staged set is checked again at a start (R350, R354): TRIAL stands while the boot record says so. -/
def State.recheck (s : State) (sigOk fwOk : Bool) : State :=
  if s.manager.staging.isEmpty then s.put UPD_STAT.STATE (if s.manager.trial then updTrial else updIdle)
  else
    let t := s.verified sigOk fwOk
    if t.manager.trial then t.put UPD_STAT.STATE updTrial else t

/-- The service firmware runs: t4 (R34).  Self-test of the IMU (R123), CRC of the tag area (R340), banks, parts, the staged
set, and the release of FC0/FC1. -/
def State.firmware (s : State) (selftestFail tagBad sigOk fwOk : Bool) : State :=
  let ps := ((s.manager.slots[s.manager.slot.val]).map SoftSet.parts).getD []
  let t := (s.toStep .t4).modPlat fun p => { p with serviceUp := true }
  let t := t.putB IMU_STAT.SELFTEST_FAIL selftestFail
  let t := { t with tags := { t.tags with bad := tagBad, recs := if tagBad then [] else t.tags.recs } }
  let t := ((t.loadBanks ps).placeParts ps).recheck sigOk fwOk
  t.put CORE_CTL.RUN 1 0

def execServiceFwRunning (selftestFail tagBad sigOk fwOk : Bool) (s : State) : Host.Outcome State Fault Refusal :=
  .next (if s.atStart .t3 then s.firmware selftestFail tagBad sigOk fwOk else s)

/-- The supervisor program reaches its first instruction: t5, RUN, and SEAL clears (R42, R44). -/
def execSupervisorFirstInstr (s : State) : Host.Outcome State Fault Refusal :=
  .next (if s.atStart .t4 then (s.modPlat fun p => { p with power := .run }).put OSV_CTL.SEAL 0 else s)

/-! ### KEY and requests (R29) -/

/-- KEY drops: in RUN its event goes to MB0 and KEYOFF_LIMIT runs. -/
def execKeyOff (s : State) : Host.Outcome State Fault Refusal :=
  .next (
    let t := s.put PWR_STATE.KEY 0
    if s.plat.power = .run ∧ s.on PWR_STATE.KEY then (t.modPlat fun p => { p with keyOff := true, keyOffAt := s.mtc }).platEvent 0x0001 0 else t)

/-- KEY rises: before SHUTDOWN the module stays in RUN, also where a warm start has come between. -/
def execKeyOn (s : State) : Host.Outcome State Fault Refusal :=
  .next (
    let t := s.put PWR_STATE.KEY 1
    if s.units ∧ s.plat.keyOff then (t.modPlat fun p => { p with keyOff := false }).platEvent 0x0002 0 else t)

/-- KEYOFF_LIMIT in ticks: 1 to 600 s (Table 2.8). -/
def State.keyoffTicks (s : State) : Nat := 200000000 * clampN 1 600 (s.get KEYOFF_LIMIT.LIM)

/-- KEYOFF_LIMIT expires; an activation in progress completes first (Table 18.9). -/
def execKeyoffLimitExpiry (s : State) : Host.Outcome State Fault Refusal :=
  .next (
    if s.plat.power = .run ∧ s.plat.keyOff ∧ s.plat.keyOffAt + s.keyoffTicks ≤ s.mtc ∧ s.updState ≠ updActivating ∧ s.errs.fatal.isNone then
      s.shutdown 1
    else s)

def execRstReqWarm (pass : Nat) (rq : Req) (s : State) : Host.Outcome State Fault Refusal := .next (if rq.sup then s.rstReq 1 pass else s)
def execRstReqWatch (pass : Nat) (rq : Req) (s : State) : Host.Outcome State Fault Refusal := .next (if rq.sup then s.rstReq 2 pass else s)

/-! ### SHUTDOWN and WATCH (R28, R30, R32) -/

/-- The flush of SHUTDOWN ends: the book and the tiles are in flash, and everything that WATCH does not keep is gone. -/
def State.toWatch (s : State) : State :=
  let t := s.bookFlush.bookFlush
  let t := if t.plat.serviceUp then t.tlFlushNow else t
  let t := { t with fleet := { t.fleet with saved := t.fleet.peers } }.coldZero
  t.modPlat fun p => { p with power := .watch, usbStood := p.usb == some true, watchFrom := s.mtc, snapAt := s.mtc }

def execShutdownFlushComplete (s : State) : Host.Outcome State Fault Refusal :=
  .next (if s.plat.power = .shutdown ∧ s.errs.fatal.isNone then s.toWatch else s)

/-- A wake start by a source (R30, R32): system control at its Reset values, WAKE_SRC, the ring reloaded, t2. -/
def State.wake (s : State) (src : Nat) : State :=
  let line := if s.on WAKE_CFG.WAKE_EN then some (!s.on WAKE_CFG.WAKE_POL) else none
  let can := if s.on WAKE_CFG.CAN_EN then some (s.get WAKE_CFG.CAN_SEL) else none
  let t := ((s.watchAbandon).systemZero.put WAKE_SRC.SRC src).modPlat fun p => { p with woken := some ⟨s.mtc, line, can⟩ }
  let t := { t with book := t.book.reload, fleet := { t.fleet with watchDue := true } }
  t.startEnter .t2 (t.startCause .wake) s.lastSeq

/-- A further source of the TCXO cycle in which a wake began: WAKE_SRC shows the lowest number (R32).  The settings of
WATCH judge it, which the wake has reset. -/
def State.wakeToo (s : State) (src : Nat) (en : Woken → Bool) : State :=
  match s.plat.woken with
  | some w =>
    if s.plat.power = .starting ∧ s.plat.cause = .wake ∧ s.mtc = w.mtc ∧ en w ∧ src < s.get WAKE_SRC.SRC then s.put WAKE_SRC.SRC src else s
  | none => s

/-- KEY has stood high for 10 ms in WATCH (R30, Table 2.2). -/
def execWakeKey (s : State) : Host.Outcome State Fault Refusal :=
  .next (if s.plat.power = .watch then (if s.mtc < s.plat.watchFrom + 2000000 then s else (s.put PWR_STATE.KEY 1).wake 0) else s.wakeToo 0 fun _ => true)

/-- In WATCH with WAKE_EN the WAKE line has stood at the level of WAKE_POL and wakes (Table 2.2); elsewhere the command is a
change of the line's level, which PWR_STATE.WAKE shows. -/
def execWakeLine (s : State) : Host.Outcome State Fault Refusal :=
  .next (
    if s.plat.power = .off then s
    else
      let armed := decide (s.plat.power = .watch) && s.on WAKE_CFG.WAKE_EN
      let level := if armed then !s.on WAKE_CFG.WAKE_POL else !s.on PWR_STATE.WAKE
      let t := s.putB PWR_STATE.WAKE level
      if armed then t.wake 1
      else if s.plat.power = .watch then t
      else t.wakeToo 1 fun w => w.line == some level)

def execWakeCanFrame (n : Fin 8) (s : State) : Host.Outcome State Fault Refusal :=
  .next (
    if s.plat.power = .watch then (if s.on WAKE_CFG.CAN_EN ∧ s.get WAKE_CFG.CAN_SEL = n.val then s.wake 2 else s)
    else s.wakeToo 2 fun w => w.can == some n.val)

def execWakeServicePort (s : State) : Host.Outcome State Fault Refusal :=
  .next (
    if s.plat.power = .watch ∧ s.on WAKE_CFG.USB_EN ∧ !s.plat.usbStood then
      (s.modPlat fun p => { p with usb := some true }).wake 3
    else s)

def execServicePortAttach (device : Bool) (s : State) : Host.Outcome State Fault Refusal :=
  .next (if s.plat.power = .off then s else s.modPlat fun p => { p with usb := some device })

def execServicePortDetach (s : State) : Host.Outcome State Fault Refusal :=
  .next (s.modPlat fun p => { p with usb := none, usbStood := false })

/-- SNAP_MIN in MTC ticks: 1 to 60 minutes (Table 2.8). -/
def State.snapTicks (s : State) : Nat := clampN 1 60 (s.get WAKE_CFG.SNAP_MIN) * 60 * 200000000

/-- SNAP_MIN expires: a snapshot begins (R230). -/
def execWatchSnapshotTimer (s : State) : Host.Outcome State Fault Refusal :=
  .next (
    if s.plat.power = .watch ∧ s.on WAKE_CFG.SNAP_EN ∧ s.plat.snapAt + s.snapTicks ≤ s.mtc then
      s.modPlat fun p => { p with snapshot := true, snapAt := s.mtc }
    else s)

/-- The snapshot is solved: FIX is SPP or NONE, with the position, HU, the GNSS time and its uncertainty.  Ephemerides more than
4 hours past the last RUN solve nothing (R230). -/
def execWatchSnapshotDone (solved : Bool) (lat lon : Int) (hu time unc : Nat) (s : State) : Host.Outcome State Fault Refusal :=
  .next (
    if s.plat.power = .watch ∧ s.plat.snapshot then
      if solved && decide (s.mtc ≤ s.plat.watchFrom + 4 * 3600 * 200000000) then (s.modPlat fun p => { p with snapshot := false }).watchAdd ⟨s.mtc, 1, lat, lon, hu, time, unc⟩
      else s.watchAbandon
    else s)

/-! ### Clocks (R22) -/

/-- The PLL loses lock: a FATAL error; in recovery, recovery from t2 again, with no session (R388). -/
def execPllLockLoss (s : State) : Host.Outcome State Fault Refusal :=
  .next (
    if s.plat.power = .recovery then s.outputsDead.modMgr fun m => { m with session := none, copy := none }
    else s.errReport errPllLock 0 platNode [])

/-- The TCXO stops: every output goes off.  The manual gives no further state of the module without a clock; the model leaves power
state, MTC and units as they are (DESIGN CHOICE, log entry 57). -/
def execTcxoStop (s : State) : Host.Outcome State Fault Refusal := .next s.outputsDead

/-! ### The ends of hold (R37, R41) -/

/-- The time of a hold in ticks from the channel's onset: OSV_HOLD_TIME in ms, 10 to 2,500, or OSV_ABORT_TIME in 100 ms, 5 to
100 (R41, Table 2.8). -/
def State.holdTicks (s : State) : HoldEnd → Nat
  | .abort => 20000000 * clampN 5 100 (s.get OSV_ABORT_TIME.AT)
  | _ => 200000 * clampN 10 2500 (s.get OSV_HOLD_TIME.HT)

/-- The hold of a valve channel ends by time: it goes off.  Where the mode was rewritten to OFF or 0b11 during the hold, either
time ends it (DESIGN CHOICE, log entry 57). -/
def State.valveTimeOut (s : State) (c : Fin 32) (why : HoldEnd) (mode : Nat) : State :=
  if (s.valve c).held && s.osvVd c % 4 != mode && decide ((s.valve c).onset + s.holdTicks why ≤ s.mtc) then
    ((s.endValveHold c why).switchFast c).count OSV_STAT.TIMEOUT_CNT
  else s

/-- The hold of a load channel ends by time. -/
def State.loadTimeOut (s : State) (n : Fin 48) (why : HoldEnd) (mode : Nat) : State :=
  if (s.load n).held && s.osvLc n % 4 != mode && decide ((s.load n).onset + s.holdTicks why ≤ s.mtc) then
    ((((s.endLoadHold n why).openSwitch n .off (Config.clampEnergy n.val s.free)).modLoad n fun l => { l with cmd := .off }).fresh).count
      OSV_STAT.TIMEOUT_CNT
  else s

/-- A channel of either kind, by number: a valve channel, or a load channel. -/
def State.holdTimeOut (s : State) (load : Bool) (n : Nat) (why : HoldEnd) (mode : Nat) : State :=
  if load then (if h : n < 48 then s.loadTimeOut ⟨n, h⟩ why mode else s)
  else if h : n < 32 then s.valveTimeOut ⟨n, h⟩ why mode
  else s

def execOsvHoldTimeExpiry (load : Bool) (n : Nat) (s : State) : Host.Outcome State Fault Refusal := .next (s.holdTimeOut load n .timeout 2)
def execOsvAbortTimeExpiry (load : Bool) (n : Nat) (s : State) : Host.Outcome State Fault Refusal := .next (s.holdTimeOut load n .abort 1)

/-- A write of 1 to OSV_CTL.SEAL. -/
def execOsvSealWrite (rq : Req) (s : State) : Host.Outcome State Fault Refusal := .next (if rq.sup then s.seal else s)

/-! ### The ESTOP loop (R40, R369) -/

/-- PWR_STATE.ESTOP reads 0 while the loop is open or faulted. -/
def State.estopShow (s : State) : State := s.putB PWR_STATE.ESTOP (s.plat.loopClosed && !s.plat.estopFed)

/-- The loop opens.  Detection is masked during a test pulse, and comes with the pulse's end (R369, Table 19.14). -/
def execEstopOpen (s : State) : Host.Outcome State Fault Refusal :=
  .next (
    if s.plat.power = .off ∨ !s.plat.loopClosed then s
    else if s.plat.estopTest then s.modPlat fun p => { p with loopOpening := true }
    else ((s.modPlat fun p => { p with loopClosed := false }).estopShow).estopCut false)

/-- The loop closes; one that opened and closes within a test pulse was never seen open. -/
def execEstopClose (s : State) : Host.Outcome State Fault Refusal :=
  .next (
    if s.plat.power = .off then s
    else if s.plat.loopClosed then s.modPlat fun p => { p with loopOpening := false }
    else
      let t := (s.modPlat fun p => { p with loopClosed := true }).estopShow
      t.record .estop platNode [1, 0, 0, 0])

def execEstopTestPulse (s : State) : Host.Outcome State Fault Refusal :=
  .next (if s.plat.power = .off then s else s.modPlat fun p => { p with estopTest := true })

/-- A test pulse found the loop fed from elsewhere: the fault, and at its onset the cut. -/
def State.estopFault (s : State) : State :=
  let was := s.plat.estopFed
  let t := ((s.modPlat fun p => { p with estopFed := true, estopPass := 0 }).estopShow.supFlag SUP_FLAGS.ESTOP_FAULT).put SUP_STAT.ESTOP_FLT 1
  if was then t else t.estopCut true

/-- A test pulse passed: the third in a row ends a fault. -/
def State.estopPassed (s : State) : State :=
  let t := s.modPlat fun p => { p with estopPass := min 3 (p.estopPass + 1) }
  if s.plat.estopFed && decide (2 ≤ s.plat.estopPass) then
    (((t.modPlat fun p => { p with estopFed := false }).estopShow).put SUP_STAT.ESTOP_FLT 0).record .estop platNode [1, 0, 0, 0]
  else t

def execEstopTestPulseEnd (fed : Bool) (s : State) : Host.Outcome State Fault Refusal :=
  .next (
    if s.plat.power = .off ∨ !s.plat.estopTest then s
    else
      let t := s.modPlat fun p => { p with estopTest := false, loopOpening := false }
      let t := if s.plat.loopOpening then ((t.modPlat fun p => { p with loopClosed := false }).estopShow).estopCut false else t
      if fed then t.estopFault else t.estopPassed)

/-! ### The logic feed and the studs (R28, R366) -/

/-- The feed is lost for 1 ms: OFF, and every output off. -/
def execLogicFeedLoss (s : State) : Host.Outcome State Fault Refusal :=
  .next (s.powerZero.modPlat fun p => { p with power := .off, usb := none, usbStood := false, keyOff := false })

def execLogicFeedDip (s : State) : Host.Outcome State Fault Refusal :=
  .next (if s.plat.power = .off then s else s.count SUP_CNT.HOLDUP)

/-- A measurement of the logic feed in 0.1 V: below 9 V FEED_LOW shows, and its onset is an error. -/
def execLogicFeedLow (v : Nat) (s : State) : Host.Outcome State Fault Refusal :=
  .next (
    if s.plat.power = .off then s
    else
      let low := decide (v < 90)
      let t := (s.put SUP_LOGIC.V (min v 1023)).putB PWR_STATE.FEED_LOW low
      if low && !s.on PWR_STATE.FEED_LOW then t.errReport errFeedLow 0 platNode [] else t)

/-- Are the supplies and the heat measured: everywhere but in OFF? -/
def State.supplied (s : State) (t : State) : Host.Outcome State Fault Refusal := .next (if s.plat.power = .off then s else t)

/-- A stud stands reversed, or does no more. -/
def execStudReverse (k : Fin 4) (rev : Bool) (s : State) : Host.Outcome State Fault Refusal :=
  s.supplied (
    let t := s.putB SUP_STUD.REV rev k.val
    if rev then t.supFlag (SUP_FLAGS.STUD_REV + k.val) else t)

/-- A stud stands below 6.0 V for 10 µs; `v` in 0.1 V. -/
def execStudLow (k : Fin 4) (v : Nat) (s : State) : Host.Outcome State Fault Refusal :=
  s.supplied (
    let t := s.put SUP_STUD.V (min v 1023) k.val
    if v < 60 then t.supFlag (SUP_FLAGS.STUD_LOW + k.val) else t)

/-- A stud's current, in 0.25 A, has stood above STUD_LIM for 1 s. -/
def execStudOver (k : Fin 4) (i : Nat) (s : State) : Host.Outcome State Fault Refusal :=
  s.supplied (
    let t := s.put SUP_STUD.I (min i 1023) k.val
    if 4 * clampN 1 60 (s.get SUP_CFG.STUD_LIM) < i then t.supFlag (SUP_FLAGS.STUD_OVER + k.val) else t)

/-! ### Sensor supplies (R368) -/

/-- A supply folds back: the flag and the count. -/
def State.foldback (s : State) (k : Nat) : State :=
  ((s.put SUP_STAT.SS_ACT (s.get SUP_STAT.SS_ACT ||| 2 ^ k)).supFlag (SUP_FLAGS.SS_FAULT + k)).count SUP_CNT.SS_TRIPS

def execSensorSupplyFoldback (k : Fin 4) (s : State) : Host.Outcome State Fault Refusal :=
  .next (if s.sensorSupplyOn k.val then s.foldback k.val else s)

/-- A folded-back supply tries again: it holds, or folds back once more. -/
def execSensorSupplyRetry (k : Fin 4) (ok : Bool) (s : State) : Host.Outcome State Fault Refusal :=
  .next (
    if s.sensorSupplyOn k.val ∧ bit (s.get SUP_STAT.SS_ACT) k.val then
      if ok then s.put SUP_STAT.SS_ACT (s.get SUP_STAT.SS_ACT - 2 ^ k.val) else s.foldback k.val
    else s)

/-! ### Heat (R370) -/

/-- A measurement of the plate and of the hottest die, °C + 40. -/
def State.thermal (s : State) (plate die : Nat) : State :=
  let t := ((s.put THERM_STAT.PLATE_T plate).put THERM_STAT.DIE_T die).put THERM_STAT.PLATE_MAX (max (s.get THERM_STAT.PLATE_MAX) plate)
  let t := if s.get SUP_CFG.PLATE_WARN ≤ plate then t.supFlag SUP_FLAGS.PLATE_WARN else t
  if 125 ≤ plate ∧ !s.plat.plateHot then (t.modPlat fun p => { p with plateHot := true }).supFlag SUP_FLAGS.PLATE_HOT
  else if plate < 123 then t.modPlat fun p => { p with plateHot := false }
  else t

def execThermalMeasurement (plate die : Nat) (s : State) : Host.Outcome State Fault Refusal :=
  s.supplied (s.thermal (min plate 255) (min die 255))

end Sys2Proof.Machine
end

