-- ==== Sys2Proof/Machine/Dumps.lean ====
section
/-! DEFINITION.  The fatal dump (R333, R334, R388). -/

namespace Sys2Proof.Machine

open Sys2Proof.Reg

/-! ### What a dump holds (Table 17.4) -/

/-- The 128 words of an identity in the CORES section.  How VALID and CORE_STAT share word 0 is not stated. -/
def State.dumpCore (s : State) (c : Fin 16) : List Nat :=
  let x := s.ctx c
  let acc := fun (v : BitVec 40) => [v.toNat % 2 ^ 32, low 32 (asr v.toInt 32)]
  let gap := fun n => (List.range n).map fun k => Config.unstated 25 [c.val, k] % 2 ^ 32
  [Config.unstated 22 [b2n (s.core c).executing, s.peek (0x20100004 + 0x1000 * c.val)] % 2 ^ 32, x.pc.toNat] ++ gap 2
    ++ x.g.toList.map BitVec.toNat ++ x.f.toList.map BitVec.toNat ++ x.a.toList.flatMap acc ++ gap 4
    ++ (List.range 16).map (fun n => (s.crRead c n).toNat) ++ [s.get FLAG_SUM.F c.val * 2 ^ 8] ++ gap 47

/-- The address ranges of the REGS section: base and length in bytes. -/
def dumpRanges : List (Nat × Nat) :=
  [(0x20000000, 0x400), (0x20010000, 0x1000), (0x20030000, 0x410), (0x20040000, 0x10000), (0x20050000, 0x3000)]
    ++ (List.range 16).map (fun c => (0x20100000 + 0x1000 * c, 0x200)) ++ [(0x20800000, 0x80)]
    ++ [(0x20700000, 0x800), (0x20701000, 0x1000), (0x20710000, 0x0C00), (0x20711000, 0x300)]

/-- The REGS section: runs of BASE, COUNT and the words. -/
def State.dumpRegs (s : State) : List Nat :=
  dumpRanges.flatMap fun r => [r.1, r.2 / 4] ++ (List.range (r.2 / 4)).map fun k => s.peek (r.1 + 4 * k)

/-- The core whose DTCM is dumped: that of the DETAIL for sources 0x01 to 0x04 and 0x07, else FC0. -/
def Fatal.dtcmCore (f : Fatal) : Fin 16 := if (1 ≤ f.cause ∧ f.cause ≤ 4) ∨ f.cause = 7 then Fin.ofNat 16 f.detail else 0

/-- Records up to and with the FATAL's ERROR record, oldest first, as many as fit. -/
def State.dumpRing (s : State) (f : Fatal) : List Rec :=
  let all := s.book.ring.filter fun r => r.type != .pad && decide ((f.seq + 2 ^ 32 - r.seq) % 2 ^ 32 < 2 ^ 31)
  (backingTrim (0x1000000 - 0x124000) all).reverse

/-! ### Writing a dump (R333, R334) -/

/-- The slot that the next dump takes. -/
def State.dumpSlot (s : State) : Fin 4 :=
  let best := (List.finRange 4).foldl (fun (b : Option (Fin 4 × Nat)) k =>
    match s.errs.dumps[k.val], b with
    | some d, some x => if x.2 < d.seq then some (k, d.seq) else b
    | some d, none => some (k, d.seq)
    | none, _ => b) none
  match best with
  | some x => x.1 + 1
  | none => 0

/-- Does a service core run that can write the dump? -/
def State.svcRuns (s : State) : Bool := s.plat.serviceUp && decide (s.plat.svcStopped.length < 4)

/-- The dump of a fatal sequence, with the sections that were written. -/
def State.dumpOf (s : State) (f : Fatal) (complete : Bool) (sections : Nat) : Dump :=
  { seq := s.errs.dumpSeq + 1, fatal := f, powerUps := s.book.powerUps, complete := complete, sections := sections
    cores := (List.finRange 16).flatMap s.dumpCore, regs := s.dumpRegs, dtcm := (s.core f.dtcmCore).dtcm, ring := s.dumpRing f }

/-- The dump ends: its header is written, and the start begins; inside SHUTDOWN the flush goes on (R388). -/
def State.dumpEnd (s : State) (f : Fatal) (complete : Bool) (sections : Nat) : State :=
  let k := s.dumpSlot
  let d := s.dumpOf f complete sections
  let t := { s with errs := { s.errs with dumps := upd s.errs.dumps k fun _ => some d, dumpSeq := d.seq, dumpNew := some k } }
  if f.inShutdown then { t with errs := { t.errs with fatal := none } }
  else t.warmStart (t.startCause .fatal) f.held f.unsealed

/-- The ticks after which a dump ends wherever it stands: 250 ms (Table 17.3). -/
def dumpTicks : Nat := 50000000

/-- The dump completes within its 250 ms; with no service core only the ROM's header stands, COMPLETE = 0 and no sections. -/
def execDumpComplete (s : State) : Host.Outcome State Fault Refusal :=
  .next (
    match s.errs.fatal with
    | some f =>
      if f.mtc + dumpTicks < s.mtc then s
      else if s.svcRuns then s.dumpEnd f true 5
      else s.dumpEnd f false 0
    | none => s)

/-- 250 ms have passed: the dump ends with COMPLETE = 0, wherever it stands. -/
def execDumpTimeout (sections : Nat) (s : State) : Host.Outcome State Fault Refusal :=
  .next (
    match s.errs.fatal with
    | some f => if f.mtc + dumpTicks ≤ s.mtc then s.dumpEnd f false (if s.svcRuns then min 4 sections else 0) else s
    | none => s)

/-! ### The bytes of a slot (Tables 17.4 and 17.5) -/

def wordsBytes (ws : List Nat) : List Nat := ws.flatMap (leBytes 4)

/-- The section `k`: its offset and its bytes.  The content of SERVICE is Kolpamond's. -/
def Dump.section_ (d : Dump) (k : Nat) : Nat × List Nat :=
  match k with
  | 0 => (0x1000, wordsBytes d.cores)
  | 1 => (0x3000, (List.range 256).map fun i => Config.unstated 23 [d.seq, i] % 256)
  | 2 => (0x4000, wordsBytes d.regs)
  | 3 => (0x104000, d.dtcm.readBytes 0 0x20000)
  | _ => (0x124000, wordsBytes (d.ring.flatMap Rec.words))

/-- The two words of a level or queue entry. -/
def errEntry (e : Option Err) : List Nat :=
  match e with
  | some x => [x.src + 2 ^ 8 * x.sev + 2 ^ 16 * x.detail, x.seq]
  | none => [0, 0]

/-- A directory entry; the KIND codes are not stated. -/
def Dump.dirEntry (d : Dump) (k : Nat) : List Nat :=
  if k < d.sections then
    let x := d.section_ k
    [x.1, x.2.length, crc32c x.2, Config.unstated 24 [k] % 256]
  else [0, 0, 0, 0]

/-- The header words but the last, which is its CRC; words the layout does not name are not stated. -/
def Dump.header (d : Dump) : List Nat :=
  let f := d.fatal
  let gap := fun (at_ n : Nat) => (List.range n).map fun k => Config.unstated 25 [d.seq, at_ + k] % 2 ^ 32
  let stack := f.stack.reverse
  [0x44554D50, 1, d.seq] ++ gap 3 1 ++ [f.mtc % 2 ^ 32, f.mtc / 2 ^ 32, f.code + 2 ^ 8 * b2n d.complete + 2 ^ 9 * b2n f.second,
    f.cause + 2 ^ 16 * f.detail, f.seq, d.powerUps] ++ gap 10 6
    ++ (List.range 4).flatMap (fun i => errEntry (stack[i]?)) ++ (List.range 4).flatMap (fun i => errEntry (f.queue[i]?))
    ++ gap 32 32 ++ (List.range 5).flatMap d.dirEntry ++ gap 84 939

def Dump.headerBytes (d : Dump) : List Nat :=
  let b := wordsBytes d.header
  b ++ leBytes 4 (crc32c b)

/-- The bytes of a slot from an offset on; what no written section covers is not stated. -/
def Dump.bytes (d : Dump) (ofs n : Nat) : List Nat :=
  let secs := (0, d.headerBytes) :: (List.range d.sections).map d.section_
  (List.range n).map fun i =>
    let a := ofs + i
    match secs.find? fun x => decide (x.1 ≤ a) && decide (a < x.1 + x.2.length) with
    | some x => (x.2[a - x.1]?).getD 0
    | none => Config.unstated 25 [d.seq, a] % 256

/-! ### Requests (Table 17.9) -/

/-- The four words of a slot in DUMP_LIST. -/
def dumpRow (d : Option Dump) : List Nat :=
  match d with
  | some x => [x.seq, x.fatal.mtc % 2 ^ 32, x.fatal.mtc / 2 ^ 32, x.fatal.cause]
  | none => [0, 0, 0, 0]

/-- Words of a reply: over the port in its payload, else in the request's buffer. -/
def State.answer (s : State) (q : SvcReq) (op addr : Nat) (res bytes : List Nat) : State :=
  if q.src = portId then s.done q platCore op stOk (res ++ bytes) else (s.fabWriteBytes addr bytes).done q platCore op stOk res

def execDumpList (q : SvcReq) (addr : Nat) (s : State) : Host.Outcome State Fault Refusal :=
  s.serve q 61 0x0010 (two addr) false false fun s =>
    s.answer q 0x0010 addr [] (wordsBytes (s.errs.dumps.toList.flatMap dumpRow))

/-- The size of a dump slot. -/
def dumpSize : Nat := 0x1000000

def execDumpRead (q : SvcReq) (slot ofs len addr : Nat) (s : State) : Host.Outcome State Fault Refusal :=
  s.serve q 61 0x0011 ([slot, ofs, len] ++ two addr) false false fun s =>
    if h : slot < 4 then
      match s.errs.dumps[slot] with
      | some d =>
        let n := if dumpSize ≤ ofs then 0 else min len (dumpSize - ofs)
        let n := if q.src = portId then min n 4092 else n
        s.answer q 0x0011 addr [n] (d.bytes ofs n)
      | none => s.answer q 0x0011 addr [0] []
    else s.done q platCore 0x0011 stBadParam []

def execDumpErase (q : SvcReq) (slot : Nat) (s : State) : Host.Outcome State Fault Refusal :=
  s.serve q 61 0x0012 [slot] true false fun s =>
    if q.src = portId then s.done q platCore 0x0012 stBadOp []
    else if h : slot < 4 then
      let k : Fin 4 := ⟨slot, h⟩
      { s with errs := { s.errs with dumps := upd s.errs.dumps k fun _ => none
                                     dumpNew := if s.errs.dumpNew = some k then none else s.errs.dumpNew } }.done q platCore 0x0012 stOk []
    else s.done q platCore 0x0012 stBadParam []

end Sys2Proof.Machine
end

