-- ==== Sys2Proof/Machine/Loops.lean ====
section
/-! DEFINITION.  The samples of the control loops (R92 to R106). -/

namespace Sys2Proof.Machine

open Sys2Proof.Reg

/-- The peripheral address of an ADDR[27:2] field (R110). -/
def State.busAddr (s : State) (f : Fld) (i : Nat) (j : Nat := 0) : Nat := 0x20000000 + 4 * s.get f i j

/-- The requester of the loop unit that serves identity `c` (Table 16.2). -/
def State.loopReq (s : State) (c : Fin 16) : Nat := 20 + s.requester c

/-! ### The trigger (R92, R94, R100, R106) -/

/-- Does slot `n` select a loop (R92)? -/
def State.lpSelects (s : State) (c : Fin 16) (l : Fin 8) (n : Nat) : Bool :=
  let p := s.get LP_CFG.PHASE c.val l.val
  match s.get LP_CFG.RATE c.val l.val with
  | 0 => true
  | 1 => n % 10 == p % 10
  | _ => n == p % 100

/-- Is the loop taking samples? -/
def State.lpRuns (s : State) (c : Fin 16) (l : Fin 8) : Bool :=
  s.on LP_CFG.EN c.val l.val && s.get LP_STAT.STATE c.val l.val == loopRun && !(s.loop c l).stopped

/-- The setpoint and the feedforward of a sample (R95). -/
def State.lpSet (s : State) (c : Fin 16) (l : Fin 8) : Int :=
  if s.on LP_CFG.SP_SRC c.val l.val then s.getZ MF_OUT.SP (s.get LP_CFG.MF c.val l.val) else s.getZ LP_SP.SP c.val l.val
def State.lpFwd (s : State) (c : Fin 16) (l : Fin 8) : Int :=
  if s.on LP_CFG.FF_SRC c.val l.val then s.getZ MF_OUT.FF (s.get LP_CFG.MF c.val l.val) else s.getZ LP_FF.FF c.val l.val

/-- The trigger of one loop, at which the values that R95 reads at t1, a few ticks later, are latched (DEDUCED, log entry 60):
skipped while the last sample runs; else the exchanges due, and the sample begins. -/
def State.lpTrigger (s : State) (c : Fin 16) (l : Fin 8) : State :=
  if (s.loop c l).cur.isSome then s.lpFlag c l LP_FLAGS.SKIP
  else
    let s := (List.finRange 8).foldl (fun (t : State) (r : Fin 8) => if t.rtUser c r = some l then t.rtExchange c r else t) s
    let x := s.loop c l
    let q : LoopSample :=
      { t0 := s.mtc, swap := s.on LP_CTL.COEF_SWAP c.val l.val, load := s.on LP_CTL.INT_LOAD c.val l.val, first := x.first
        band := s.get BAND_STAT.BAND c.val, sp := s.lpSet c l, ff := s.lpFwd c l, back := none, out := none }
    (s.modLoop c l fun y => { y with cur := some q, first := false }).put LP_MTC.MTC s.mtc c.val l.val

/-- A slot starts at the loop unit of a core. -/
def State.loopsSlot (s : State) (c : Fin 16) (n : Nat) : State :=
  if s.paired c.val || (s.core c).life == .migrated then s
  else
    let s := (List.finRange 8).foldl (fun (t : State) (r : Fin 8) => if (t.rtUser c r).isNone then t.rtExchange c r else t) s
    (List.finRange 8).foldl (fun (t : State) (l : Fin 8) => if t.lpRuns c l && t.lpSelects c l n then t.lpTrigger c l else t) (s.trCtlClear c)

/-! ### The control law (R96, R97) -/

/-- A coefficient set (Table 5.7). -/
structure LoopSet where
  kp : Int
  kpSh : Nat
  ki : Int
  kiSh : Nat
  kd : Int
  kdSh : Nat
  dfc : Int
  umin : Int
  umax : Int
  imin : Int
  imax : Int
  rlim : Int
  ffk : Int
  repk : Int
  deriving DecidableEq, Repr

/-- The active set of a loop. -/
def State.loopSet (s : State) (c : Fin 16) (l : Fin 8) : LoopSet :=
  let z := fun (f : Fld) => s.getZ f c.val l.val
  let n := fun (f : Fld) => s.get f c.val l.val
  { kp := z AC_KP.K, kpSh := n AC_KP.SH, ki := z AC_KI.K, kiSh := n AC_KI.SH, kd := z AC_KD.K, kdSh := n AC_KD.SH, dfc := z AC_DF.DF
    umin := z AC_ULIM.UMIN, umax := z AC_ULIM.UMAX, imin := z AC_ILIM.IMIN, imax := z AC_ILIM.IMAX, rlim := n AC_RLIM.RLIM
    ffk := z AC_GAINS.FFK, repk := z AC_GAINS.REPK }

/-- What a sample works on: x, r, f and the table value w with what the band makes of the contribution. -/
structure LoopIn where
  x : Int
  r : Int
  f : Int
  w : Int
  off : Int → Int

/-- A product or sum held in 40 bits, and whether it left them. -/
def in40 (v : Int) : Int × Bool := (sat40 v, sat40 v != v)

/-- The terms of the law under a set: p, d, q, repv; the flag of a 40-bit overflow. -/
structure LoopTerms where
  p : Int
  d : Int
  ff : Int
  repv : Int
  ovf : Bool
  deriving DecidableEq, Repr

def loopTerms (k : LoopSet) (a : LoopIn) (e df : Int) : LoopTerms :=
  let p := in40 (k.kp * e * 2 ^ k.kpSh)
  let d := in40 (k.kd * df * 2 ^ k.kdSh)
  let ff := in40 (k.ffk * a.f)
  let rp := in40 (k.repk * a.w)
  ⟨rnd p.1 15, -(rnd d.1 15), rnd ff.1 15, a.off (rnd rp.1 15), p.2 || d.2 || ff.2 || rp.2⟩

/-- p + d + q. -/
def LoopTerms.sum (t : LoopTerms) : Int := t.p + t.d + (t.ff + t.repv)

/-- The filtered derivative before its sat16. -/
def loopDf (k : LoopSet) (x xp df : Int) : Int := df + rnd (k.dfc * (x - xp - df)) 15

/-- The integrator after its step, whether the step was skipped, and whether it left 40 bits. -/
def loopInt (k : LoopSet) (t : LoopTerms) (i e : Int) : Int × Bool × Bool :=
  let v0 := t.sum + rnd i 16
  if (k.umax < v0 ∧ 0 < e) ∨ (v0 < k.umin ∧ e < 0) then (i, true, false)
  else
    let n := in40 (i + k.ki * e * 2 ^ (k.kiSh + 1))
    (clampZ (k.imin * 2 ^ 16) (k.imax * 2 ^ 16 + 0xFFFF) n.1, false, n.2)

/-- u from v: the clamp, then the rate limit. -/
def loopOut (k : LoopSet) (v up : Int) : Int × Int :=
  let u := clampZ k.umin k.umax v
  (u, if 0 < k.rlim then clampZ (up - k.rlim) (up + k.rlim) u else u)

/-- The i that gives `v` under new terms, clamped to the new limits; whether the clamp acted (R100 step 3). -/
def loopBump (k : LoopSet) (t : LoopTerms) (v : Int) : Int × Bool :=
  let i := (v - t.sum) * 2 ^ 16
  let j := clampZ (k.imin * 2 ^ 16) (k.imax * 2 ^ 16 + 0xFFFF) i
  (j, j != i)

/-! ### Repetitive tables (R103 to R105) -/

/-- Fields of a tag word (R102). -/
def tagBand (w : Nat) : Nat := w % 4
def tagValid (w : Nat) : Bool := bit w 2
def tagRevs (w : Nat) : Nat := bits w 16 16

/-- The table value at θ (R103), and the index j; a table with LEN = 0 gives 0 (R104). -/
def State.rtLookup (s : State) (c : Fin 16) (t : Fin 8) (theta : Nat) : Int × Nat :=
  let tab := s.repTab c t
  let pos := (theta + s.get RT_ADV.ADV c.val t.val) % 65536 * tab.len
  let j := pos / 65536
  let a := entryOf tab.active j
  let b := entryOf tab.active ((j + 1) % tab.len)
  if tab.len = 0 then (0, 0)
  else (if s.on RT_CFG.INTERP c.val t.val then a + rnd ((b - a) * (pos % 65536 : Nat)) 16 else a, j)

/-- What the bands make of a contribution (R103, R104). -/
def State.rtBand (s : State) (c : Fin 16) (t : Fin 8) (band : Nat) (repv : Int) : Int :=
  let tag := s.rtTag c t
  let scaled :=
    let lim : Int := s.get RT_OB.OB_LIM c.val t.val
    clampZ (-lim) lim (rnd (repv * s.getZ RT_OB.OB_GAIN c.val t.val) 15)
  if !tagValid tag then 0
  else if tagBand tag = band then repv
  else
    match s.get RT_CFG.OB_MODE c.val t.val with
    | 1 => scaled
    | 2 => if tagBand tag + 1 = band ∨ band + 1 = tagBand tag then scaled else 0
    | _ => 0

/-- Is the tag band of a table another than the band?  A table with LEN = 0 sets no flag (R104). -/
def State.rtOff (s : State) (c : Fin 16) (t : Fin 8) (band : Nat) : Bool :=
  let tag := s.rtTag c t
  tagValid tag && tagBand tag != band && (s.repTab c t).len != 0

/-- θ has advanced by 1 to 32,767 counts since the previous sample. -/
def advanced (prev : Option Nat) (theta : Nat) : Bool :=
  match prev with
  | none => false
  | some p =>
    let d := (theta + 65536 - p) % 65536
    decide (1 ≤ d) && decide (d ≤ 32767)

/-- REVS counts a revolution: θ has passed from 32,768 or more to a value below between two samples (R105), once a slot. -/
def State.rtTurn (s : State) (c : Fin 16) (t : Fin 8) (theta : Nat) (prev : Option Nat) (t0 : Nat) : State :=
  if (prev.any fun p => decide (32768 ≤ p) && decide (theta < 32768)) && (s.repTab c t).turned != some t0 then
    let tag := s.get RT_TAG.TAG c.val t.val
    (s.put RT_TAG.TAG (tag % 65536 + 2 ^ 16 * min 65535 (tagRevs tag + 1)) c.val t.val).modRepTab c t fun r => { r with turned := some t0 }
  else s

/-- One learning step: the entry, and the band of a copy that had none (R102, R105).  The second component: the write
saturated. -/
def State.rtLearn (s : State) (c : Fin 16) (t : Fin 8) (band theta : Nat) (e : Int) (t0 : Nat) : State × Bool :=
  let tab := s.repTab c t
  let j := theta * tab.len / 65536
  let old := entryOf tab.active j
  let n := old - rnd (old * s.getZ RT_LRN.LEAK c.val t.val) 15 + rnd (s.getZ RT_LRN.LG c.val t.val * e) 15
  let tag := s.get RT_TAG.TAG c.val t.val
  let b := if tagValid tag then tagBand tag else band
  let tag' := b + 4 + 2 ^ 3 * bits tag 3 29
  let s := s.modRepTab c t fun r => { r with active := entrySet r.active j (low 16 (sat16 n)), learned := some t0 }
  let s := s.put RT_TAG.TAG tag' c.val t.val
  if sat16 n = n then (s, false) else (s.count RT_CNT.SAT 1 c.val t.val, true)

/-! ### Faults (R99) -/

def loopStale : Nat := 0
def loopSrcErr : Nat := 1
def loopOutErr : Nat := 2

/-- The word that FAULT writes. -/
def State.lpSafe (s : State) (c : Fin 16) (l : Fin 8) : Nat :=
  s.get LP_CTL.OUT_TPL c.val l.val * 2 ^ 16 + s.get LP_UINIT.U0 c.val l.val

/-- Enter FAULT. -/
def State.lpFault (s : State) (c : Fin 16) (l : Fin 8) (cause : Nat) : State :=
  let s := (s.put LP_STAT.STATE loopFault c.val l.val).raiseAt c (0x01 + l.val)
  let s := s.record .loopFault (loopNode c l) [cause, s.get LP_STAT.STALE_RUN c.val l.val, s.get LP_MTC.MTC c.val l.val]
  s.errReport errLoopFault (c.val * 8 + l.val) (loopNode c l) []

/-! ### Trace nodes (Table 5.3) -/

/-- A node value as a halfword; one outside Q15 has no stated encoding. -/
def State.halfword (s : State) (k : Nat) (v : Int) : Nat :=
  if [10, 11, 12, 14, 15].contains k ∨ (-32768 ≤ v ∧ v ≤ 32767) then low 16 v else Config.unstated 15 [k, s.free] % 65536

/-- The nodes that a mask captures, lowest first, at most 8. -/
def traceNodes (mask : Nat) : List Nat := ((List.range 16).filter fun k => bit mask k).take 8

/-- Two halfwords to a word. -/
def packHalves : List Nat → List Nat
  | [] => []
  | [a] => [a]
  | a :: b :: t => (a + 2 ^ 16 * b) :: packHalves t

/-- The SAMPLE record of a loop, and the level triggers, at t3 (R107, R108). -/
def State.lpTrace (s : State) (c : Fin 16) (l : Fin 8) (t0 : Nat) (nodes : List Int) : State :=
  let mask := s.get TR_NODES.NODES c.val l.val
  let nd := fun (k : Nat) => (nodes[k]?).getD 0
  let s :=
    if s.get TR_CFG.TLOOP c.val = l.val then
      let now := nd (s.get TR_CFG.TNODE c.val)
      let lv := s.getZ TR_LEVEL.LEVEL c.val
      let was := (s.loopU c).node
      let hit :=
        match s.get TR_CFG.TSRC c.val with
        | 2 => was.any fun w => decide (w < lv) && decide (lv ≤ now)
        | 3 => was.any fun w => decide (lv ≤ w) && decide (now < lv)
        | _ => false
      let s := s.modLoopU c fun u => { u with node := some now }
      if hit then s.trTrigger c else s
    else s
  if mask = 0 then s
  else
    let ks := traceNodes mask
    s.trWrite c fun trig seq =>
      [t0 % 2 ^ 32, 1 + 2 ^ 2 * l.val + 2 ^ 5 * ks.length + 2 ^ 9 * trig + 2 ^ 16 * seq] ++ packHalves (ks.map fun k => s.halfword k (nd k))

/-! ### One sample (R95 to R105) -/

/-- A word read for a loop: none where the read ended in an error. -/
def State.lpRead (s : State) (c : Fin 16) (a : Nat) (err : Bool) : Option Nat × State :=
  let s := s.beat a (s.loopReq c)
  if err then (none, s)
  else
    let r := s.busRead a
    (some r.1, r.2)

/-- The table that REP_MAP names for a band, when the loop reads θ: it uses the table with REP_EN, learns into it with LEARN
(R103, R105). -/
def State.lpTable (s : State) (c : Fin 16) (l : Fin 8) (band : Nat) : Option (Fin 8) :=
  let t := Fin.ofNat 8 (bits (s.get LP_CFG.REP_MAP c.val l.val) (3 * band) 3)
  if s.on LP_CFG.REP_EN c.val l.val || s.on LP_CFG.LEARN c.val l.val then some t else none

/-- U0 as an integrator value. -/
def State.lpU0 (s : State) (c : Fin 16) (l : Fin 8) : Int := s.getZ LP_UINIT.U0 c.val l.val

/-- Copy the shadow set to the active set, with COEF_GEN and the record (R100 step 2). -/
def State.lpCopySet (s : State) (c : Fin 16) (l : Fin 8) : State :=
  let base := 0x20100C00 + 0x1000 * c.val + 0x80 * l.val
  let s := ((s.copyRange (base + 0x20) (base + 0x40) 0x20).bumpMod LP_STAT.COEF_GEN c.val l.val).put LP_CTL.COEF_SWAP 0 c.val l.val
  s.record .coefSwap (loopNode c l) [s.get LP_STAT.COEF_GEN c.val l.val]

/-- What the bands do at a sample that uses a table: the off-band act and its records (R104). -/
def State.lpBandUse (s : State) (c : Fin 16) (l : Fin 8) (t : Fin 8) (band : Nat) : State :=
  let off := s.rtOff c t band
  let was := (s.loop c l).off
  let rec_ := [t.val + 2 ^ 8 * band, s.rtTag c t]
  let s :=
    if (s.repTab c t).len = 0 then s
    else if off && was == some false then s.record .offBandEnter (loopNode c l) rec_
    else if !off && was == some true then s.record .offBandExit (loopNode c l) rec_
    else s
  let s := (s.modLoop c l fun x => { x with off := if (s.repTab c t).len = 0 then x.off else some off }).put LP_STAT.TBL t.val c.val l.val
  let s := s.putB LP_STAT.OFFBAND off c.val l.val
  if off then (s.count LP_CNT.OB 1 c.val l.val).count RT_CNT.OB 1 c.val t.val else s

/-- The words that a sample has read: input, stamp, angle. -/
structure LoopRead where
  input : Nat
  stamp : Option Nat
  theta : Nat
  deriving DecidableEq, Repr

/-- Compute a sample (R96 to R105).  `early` are the flags that the reads have set. -/
def State.lpCompute (s : State) (c : Fin 16) (l : Fin 8) (q : LoopSample) (w : LoopRead) (early : Nat) : State :=
  let band := q.band
  let tab := s.lpTable c l band
  let uses := if s.on LP_CFG.REP_EN c.val l.val then tab else none
  let x := sgn 16 w.input
  let look : Int × Nat := match tab with
    | some t => s.rtLookup c t w.theta
    | none => (0, 0)
  let off := uses.any fun t => s.rtOff c t band
  let a : LoopIn := ⟨x, q.sp, q.ff, look.1, fun v => match uses with
    | some t => s.rtBand c t band v
    | none => 0⟩
  let s := match uses with
    | some t => s.lpBandUse c l t band
    | none => s.putB LP_STAT.OFFBAND false c.val l.val
  -- the set, the starting values and the terms
  let old := s.loopSet c l
  let st := s.loop c l
  let i0 := sgn 32 (s.get LP_INT.I c.val l.val)
  let u0 := s.lpU0 c l
  let e := sat16 (a.r - x)
  let s := if q.swap then s.lpCopySet c l else s
  let s := if q.load then s.put LP_CTL.INT_LOAD 0 c.val l.val else s
  let k := s.loopSet c l
  let dfRaw := if q.first then loopDf k x x 0 else loopDf old x st.xp st.df
  let df := sat16 dfRaw
  let up := if q.first then u0 else st.up
  let t := loopTerms k a e df
  let start : Int × Bool :=
    if q.first || q.load then (u0 * 2 ^ 16, false)
    else if q.swap then loopBump k t ((loopTerms old a e df).sum + rnd i0 16)
    else (i0, false)
  let n := loopInt k t start.1 e
  let v := t.sum + rnd n.1 16
  let u := loopOut k v up
  -- learning
  let mine := tab.bind fun r => if s.on LP_CFG.LEARN c.val l.val && !s.rtOff c r band && (s.repTab c r).len != 0 then some r else none
  let moved := advanced st.theta w.theta
  let learn : State × Bool := match mine with
    | some r =>
      let s := s.rtTurn c r w.theta st.theta q.t0
      if moved && (s.repTab c r).learned != some q.t0 then s.rtLearn c r band w.theta e q.t0 else (s, false)
    | none => (s, false)
  let s := learn.1
  let m := fun (b : Bool) (k : Nat) => if b then 2 ^ k else 0
  let flags := early + m (sat16 (a.r - x) != a.r - x || sat16 dfRaw != dfRaw) LP_FLAGS.ESAT + m (u.1 != v) LP_FLAGS.USAT + m n.2.1 LP_FLAGS.WINDUP
    + m (u.2 != u.1) LP_FLAGS.RATE + m (t.ovf || n.2.2) LP_FLAGS.OVF + m off LP_FLAGS.OFFBAND + m learn.2 LP_FLAGS.REPSAT
    + m (mine.isSome && !moved) LP_FLAGS.ANGLE_HOLD + m start.2 LP_FLAGS.BUMP
  -- what the sample leaves
  let word := s.get LP_CTL.OUT_TPL c.val l.val * 2 ^ 16 + low 16 u.2
  let s := s.modLoop c l fun y =>
    { y with df := df, xp := x, up := u.2, theta := if tab.isSome then some w.theta else y.theta, cur := some { q with out := some word } }
  let s := (((s.putZ LP_INT.I n.1 c.val l.val).putZ LP_U.U u.2 c.val l.val).putZ LP_U.V (sat16 v) c.val l.val).putZ LP_X.X x c.val l.val
  let s := ((s.putZ LP_X.E e c.val l.val).put LP_STAT.BAND band c.val l.val).count LP_CNT.SAMPLES 1 c.val l.val
  let s := s.lpFlags c l flags
  let absent := fun (k : Nat) => sgn 16 (Config.unstated 14 [k, s.free])
  (s.lpTrace c l q.t0
    [x, a.r, e, sat16 t.p, rnd n.1 16, sat16 t.d, t.ff, t.repv, sat16 v, u.2, if tab.isSome then (w.theta : Int) else absent 10,
     if tab.isSome then (look.2 : Int) else absent 11, (band : Int), df, match w.stamp with
      | some z => (z % 65536 : Nat)
      | none => absent 14, (flags : Int)]).fresh

/-- A sample whose reads have returned is judged and, unless it is stale under HOLD or enters FAULT, computed (R96, R99). -/
def State.lpSample (s : State) (c : Fin 16) (l : Fin 8) (q : LoopSample) (b : LoopBack) : State :=
  let stamped := s.get LP_STAMP.ADDR c.val l.val != 0
  let same := b.stamp.isSome && (s.loop c l).stamp == b.stamp && !q.first
  let s := if b.stamp.isSome then s.modLoop c l fun x => { x with stamp := b.stamp } else s
  let early := (if b.err || same then 2 ^ LP_FLAGS.STALE else 0) + (if b.err then 2 ^ LP_FLAGS.SRC_ERR else 0)
  let guess := fun (k : Nat) => Config.unstated 13 [k, s.free]
  let w : LoopRead := ⟨b.input.getD (guess 0), if stamped then some (b.stamp.getD (guess 1)) else none, b.theta.getD (guess 2) % 65536⟩
  if b.err || same then
    let run := min 255 (s.get LP_STAT.STALE_RUN c.val l.val + 1)
    let s := s.put LP_STAT.STALE_RUN run c.val l.val
    let lim := s.get LP_CTL.STALE_MAX c.val l.val
    if lim ≠ 0 ∧ lim ≤ run then
      let s := (s.lpFlags c l early).lpFault c l (if b.err then loopSrcErr else loopStale)
      s.modLoop c l fun x => { x with cur := some { q with out := some (s.lpSafe c l) } }
    else if !s.on LP_CFG.STALE_POL c.val l.val then
      (s.lpFlags c l early).modLoop c l fun x => { x with cur := none, first := x.first || q.first }
    else s.lpCompute c l q w early
  else (s.put LP_STAT.STALE_RUN 0 c.val l.val).lpCompute c l q w early

/-- Does a sample still wait to be computed that loop `l` follows: one of a lower loop of the same slot (R93)? -/
def State.lpFollows (s : State) (c : Fin 16) (l : Fin 8) (t0 : Nat) : Bool :=
  (List.finRange 8).any fun k => decide (k < l) && ((s.loop c k).cur.any fun p => p.t0 == t0 && p.out.isNone)

/-- Compute the samples whose reads have returned, in ascending loop number within a slot (R93). -/
def State.lpDrain (s : State) (c : Fin 16) : State :=
  (List.finRange 8).foldl (fun (t : State) (l : Fin 8) =>
    match (t.loop c l).cur with
    | some q =>
      match q.back with
      | some b => if q.out.isNone && !t.lpFollows c l q.t0 then t.lpSample c l q b else t
      | none => t
    | none => t) s

/-- The reads of a sample return (Table 5.1, t2).  Each operand says whether that read ended in an error. -/
def State.lpReturn (s : State) (c : Fin 16) (l : Fin 8) (inErr stErr anErr : Bool) : State :=
  match (s.loop c l).cur with
  | none => s
  | some q =>
    if q.back.isSome || q.out.isSome then s
    else
      let (i, s) := s.lpRead c (s.busAddr LP_IN.ADDR c.val l.val) inErr
      let stamped := s.get LP_STAMP.ADDR c.val l.val != 0
      let (st, s) := if stamped then s.lpRead c (s.busAddr LP_STAMP.ADDR c.val l.val) stErr else (none, s)
      let tab := s.lpTable c l q.band
      let (th, s) := match tab with
        | some t => s.lpRead c (s.busAddr RT_ANG.ADDR c.val t.val) anErr
        | none => (none, s)
      let b : LoopBack := ⟨i, st, th, inErr || (stamped && stErr) || (tab.isSome && anErr)⟩
      (s.modLoop c l fun x => { x with cur := some { q with back := some b } }).lpDrain c

def execLoopInputReturn (c : Fin 16) (l : Fin 8) (inErr stErr anErr : Bool) (s : State) : Host.Outcome State Fault Refusal :=
  .next (if s.live then s.lpReturn c l inErr stErr anErr else s)

/-! ### The output (R93, R99) -/

/-- OUT_DLY in ticks. -/
def State.lpDelay (s : State) (c : Fin 16) (l : Fin 8) : Nat := 20 * clampN 5 500 (s.get LP_CTL.OUT_DLY c.val l.val)

/-- A loop's write, at program privilege (R95): none where it ends in an error. -/
def State.lpWrite (s : State) (c : Fin 16) (l : Fin 8) (w : Nat) (err : Bool) : Option State :=
  let a := s.busAddr LP_OUT.ADDR c.val l.val
  let s := s.beat a (s.loopReq c)
  if err then none else s.busWrite a w ⟨s.loopReq c, false⟩

/-- The output of a sample is issued; `err`: its write will return a bus error. -/
def execLoopOutputIssue (c : Fin 16) (l : Fin 8) (err : Bool) (s : State) : Host.Outcome State Fault Refusal :=
  .next (
    match (s.loop c l).cur with
    | none => s
    | some q =>
      match q.out with
      | none => s
      | some w =>
        if !s.live then s
        else
          let t := if q.t0 + s.lpDelay c l < s.mtc then s.lpFlag c l LP_FLAGS.LATE else s
          let t := t.modLoop c l fun x => { x with cur := none }
          match t.lpWrite c l w err with
          | some u => u
          | none => t.modLoop c l fun x => { x with failing := true })

/-- The bus error of an output write returns: FAULT, and U0 at once; a loop already in FAULT writes nothing more. -/
def execLoopOutputBusError (c : Fin 16) (l : Fin 8) (s : State) : Host.Outcome State Fault Refusal :=
  .next (
    if s.live && (s.loop c l).failing then
      let t := (s.modLoop c l fun x => { x with failing := false }).lpFlag c l LP_FLAGS.SRC_ERR
      if t.get LP_STAT.STATE c.val l.val = loopRun then
        let t := (t.lpFault c l loopOutErr).modLoop c l fun x => { x with cur := none }
        (t.lpWrite c l (t.lpSafe c l) false).getD t
      else t
    else s)

/-! ### The band detector (R101) -/

/-- The band of a torque value. -/
def State.bandOf (s : State) (c : Fin 16) (v : Int) : Nat :=
  b2n (decide (s.getZ BAND_THR0.T1 c.val ≤ v)) + b2n (decide (s.getZ BAND_THR0.T2 c.val ≤ v)) + b2n (decide (s.getZ BAND_THR1.T3 c.val ≤ v))

/-- A change of band: CHANGES, the event, the record and the trace trigger. -/
def State.bandGo (s : State) (c : Fin 16) (band tau : Nat) : State :=
  let old := s.get BAND_STAT.BAND c.val
  if band = old then s
  else
    let s := ((s.put BAND_STAT.BAND band c.val).count BAND_STAT.CHANGES 1 c.val).raiseAt c 0x0A
    let s := s.record .band (node domPlatform c.val none8) [old + 4 * band + 2 ^ 16 * (tau % 65536)]
    if s.get TR_CFG.TSRC c.val = 4 then s.trTrigger c else s

/-- One step of the detector with a torque word. -/
def State.bandStep (s : State) (c : Fin 16) (word : Nat) : State :=
  let tau := sgn 16 word
  let band := s.get BAND_STAT.BAND c.val
  let up := s.bandOf c tau
  let dn := s.bandOf c (tau + s.getZ BAND_THR1.HYS c.val)
  let cand := if band < up then up else if dn < band then dn else band
  let count := if cand = band then 0 else if cand = (s.loopU c).last then s.get BAND_STAT.COUNT c.val + 1 else 1
  let s := (s.modLoopU c fun u => { u with last := cand }).put BAND_STAT.CAND cand c.val
  if max 1 (s.get BAND_CFG.DWELL c.val) ≤ count then (s.put BAND_STAT.COUNT 0 c.val).bandGo c cand word
  else s.put BAND_STAT.COUNT count c.val

/-- The detector of a core at a major-frame boundary; `err`: its read ends in a bus error. -/
def State.bandBoundary (s : State) (c : Fin 16) (err : Nat → Bool) : State :=
  if s.paired c.val || (s.core c).life == .migrated then s
  else if s.get BAND_SRC.ADDR c.val = 0 then s.bandGo c (s.get BAND_CFG.FIXED c.val) (Config.unstated 16 [s.free])
  else
    let a := s.busAddr BAND_SRC.ADDR c.val
    let s := s.beat a (s.loopReq c)
    if err a then s
    else
      let r := s.busRead a
      r.2.bandStep c r.1

end Sys2Proof.Machine
end

