-- ==== Sys2Proof/Machine/Sections.lean ====
section
/-! DEFINITION.  The section engine (R253 to R255). -/

namespace Sys2Proof.Machine

open Sys2Proof.Reg

def State.modSection (s : State) (k : Fin 64) (f : Section → Section) : State :=
  s.modTl fun l => { l with sections := upd l.sections k f }

/-- The samples of a length of `mm`, at 5 cm spacing about its centre. -/
def samples (mm : Nat) : List Int :=
  let n := max 1 ((mm + 49) / 50)
  (List.range n).map fun k => (2 * ((k : Nat) : Int) + 1 - n) * 25

/-- Where the reference point and the heading are at an instant, from the newest record, its velocity and the heading
rate of the last two records (R253). -/
def aheadOf (rs : List SolRec) (t : Nat) : Option (SolRec × Int × Int × Nat) :=
  match rs with
  | [] => none
  | a :: rest =>
    let d := (t : Int) - a.mtc
    let turnRate := match rest with
      | b :: _ => if a.mtc ≤ b.mtc then 0 else Config.quotZ 26 (sgn 16 ((a.heading + 65536 - b.heading) % 65536) * d) (a.mtc - b.mtc)
      | [] => 0
    some (a, a.x + Config.quotZ 26 (a.ve * d) 200000000, a.y + Config.quotZ 26 (a.vn * d) 200000000,
      low 16 (a.heading + turnRate))

/-- The cells under section `k` at an instant: one for each sample of its footprint. -/
def State.footprint (s : State) (rs : List SolRec) (k t : Nat) : List (Int × Int) :=
  match aheadOf rs t with
  | none => []
  | some (a, x, y, h) =>
    let cp := s.controlPoint
    let fx := s.getZ SC_REF.X * 10 - cp.1
    let fy := s.getZ SC_REF.Y * 10 - cp.2 + s.getZ SC_GEOM.SC_Y k * 10
    let len := isqrt (a.vn * a.vn + a.ve * a.ve).toNat / 100
    (samples len).flatMap fun f => (samples (10 * s.get SC_GEOM.SC_WIDTH k)).map fun l =>
      let d := turn h (fx + f) (fy + l)
      s.tlCell (x + d.1, y + d.2)

/-- Is a layer's tile of a cell in the DRAM cache, which holds tiles of an open field only (R244)? -/
def State.tlCached (s : State) (layer : Nat) (c : Int × Int) : Bool :=
  s.get TL_FIELD.STATE != 0 && s.trellis.cached.contains (tileOf (cellKey layer c.1 c.2))

/-- Is the cell of a sample uncovered (R253)?  None: its lookup missed the cache. -/
def State.uncovered (s : State) (c : Int × Int) : Option Bool :=
  if !cellIn c.1 c.2 then some false
  else if s.tlCached lyZone c && s.tlCached lyCover c then
    let z := s.tlWord lyZone c.1 c.2
    some ((!cellWritten z || (bit z 0 && !bit z 1)) && cellValue (s.tlWord lyCover c.1 c.2) == 0)
  else none

/-- The uncovered fraction of section `k` at an instant, as 0 to 255, with its misses counted. -/
def State.uncoveredFraction (s : State) (rs : List SolRec) (k t : Nat) : Nat × State :=
  let us := (s.footprint rs k t).map fun c => (c, s.uncovered c)
  let missed := (us.filter fun e => e.2.isNone).map Prod.fst
  let free := (us.filter fun e => e.2 == some true).length
  let u := if us.isEmpty then 0 else Config.quot 27 (255 * free) us.length
  if missed.isEmpty then (u, s)
  else
    let want := missed.flatMap fun c => [tileOf (cellKey lyZone c.1 c.2), tileOf (cellKey lyCover c.1 c.2)]
    (u, ((s.count SC_CNT.MISS missed.length).tlFlag TL_FLAGS.MISS).modTl fun l =>
      { l with load := (l.load ++ want).eraseDups })

/-- The service has loaded the tiles that lookups missed at the boundary before. -/
def State.tlLoad (s : State) : State :=
  s.modTl fun l => { l with cached := if s.get TL_FIELD.STATE = 0 then l.cached else (l.cached ++ l.load).eraseDups, load := [] }

/-- LAT_ON and LAT_OFF of a section in ticks, clamped at 2,000 ms. -/
def State.scLat (s : State) (k : Nat) (on : Bool) : Nat :=
  min 2000 (if on then s.get SC_LAT.LAT_ON k else s.get SC_LAT.LAT_OFF k) * msTicks

/-- The effective state of a section at an instant: the newest change that has taken effect (R254). -/
def State.scEffective (s : State) (k : Fin 64) (t : Nat) : Bool :=
  (((s.trellis.sections[k.val].changes).find? fun c => decide (c.1 + s.scLat k.val c.2 ≤ t)).map Prod.snd).getD false

/-- Set a section's commanded state: register bits, count, event, and the command to write at B + 300 µs. -/
def State.scSet (s : State) (k : Fin 64) (on : Bool) : State :=
  let f := if k.val < 32 then SC_STATE0.ON else SC_STATE1.ON
  let w := s.get f
  let m := 2 ^ (k.val % 32)
  let s := (s.put f (if on then w ||| m else w - (w &&& m))).putB SC_STAT.STATE on k.val
  let s := (s.count SC_CNT.SWITCHES).raise 0x2E
  s.modSection k fun x => { x with write := true, changes := ((s.mtc, on) :: x.changes).take 256 }

/-- Is the newest solution record one with a fix and within 200 ms (R254)? -/
def State.scFix (s : State) (rs : List SolRec) : Bool :=
  match rs with
  | a :: _ => a.placed && decide (s.mtc ≤ a.mtc + 200 * msTicks)
  | [] => false

/-- Is a section in use, with a width? -/
def State.scUsed (s : State) (i : Nat) : Bool := decide (i < min 64 (s.get SC_CFG.NSEC)) && s.get SC_GEOM.SC_WIDTH i != 0

/-- U_ON and U_OFF of a section in use, from a record with a fix: the state with them, and the two fractions. -/
def State.scFractions (s : State) (rs : List SolRec) (i : Nat) : State × Nat × Nat :=
  if s.scUsed i && s.scFix rs then
    let a := s.uncoveredFraction rs i (s.mtc + s.scLat i true)
    let b := a.2.uncoveredFraction rs i (s.mtc + s.scLat i false)
    ((b.2.put SC_STAT.U_ON a.1 i).put SC_STAT.U_OFF b.1 i, a.1, b.1)
  else (s, 0, 0)

/-- The decision for one section at a boundary (R254). -/
def State.scDecide (s : State) (rs : List SolRec) (k : Fin 64) : State :=
  let i := k.val
  let on := s.on SC_STAT.STATE i
  let u := s.scFractions rs i
  let fresh := s.scFix rs
  let used := s.scUsed i
  let master := s.on SC_CFG.MASTER
  let s := u.1
  let cmd :=
    if !master || !used then false
    else if !fresh then (match s.get SC_CFG.NOFIX_POL with
      | 0 => on
      | 1 => false
      | _ => true)
    else if !on then decide (s.get SC_CFG.ON_FRAC ≤ u.2.1)
    else !decide (u.2.2 < s.get SC_CFG.OFF_FRAC)
  let s := if master && used && !fresh then s.tlFlag TL_FLAGS.NOFIX else s
  let s := if cmd = on then s else s.scSet k cmd
  s.putB SC_STAT.EFF (s.scEffective k s.mtc) i

/-- Coverage of the sections that are effectively on (R255). -/
def State.scCover (s : State) (rs : List SolRec) (k : Fin 64) : State :=
  if !s.on SC_STAT.EFF k.val || s.get TL_FIELD.STATE != 1 || !s.scFix rs then s
  else
    let hu := ((rs.head?).map SolRec.hu).getD 0
    let code := s.codeAt s.mtc
    ((s.footprint rs k.val s.mtc).eraseDups).foldl (fun (t : State) (c : Int × Int) =>
      if t.newPass c.1 c.2 t.mtc then (t.tlPass c t.mtc code false true).tlStamp c.1 c.2 t.mtc hu code false
      else t.tlStamp c.1 c.2 t.mtc hu code false) s

/-- The section engine at a major-frame boundary. -/
def State.scBoundary (s : State) : State :=
  let s := s.tlLoad
  if !s.on SC_CFG.EN then s
  else
    let rs := s.solRecs
    let s := (List.finRange 64).foldl (fun (t : State) (k : Fin 64) => t.scDecide rs k) s
    if s.on TL_CTL.COV_SRC then (List.finRange 64).foldl (fun (t : State) (k : Fin 64) => t.scCover rs k) s else s

end Sys2Proof.Machine
end

