-- ==== Sys2Proof/Machine/Frame.lean ====
section
/-! DEFINITION.  The slot grid (R74): the passing of time, major-frame boundaries, slots, and the command writes of the
section engine. -/

namespace Sys2Proof.Machine

open Sys2Proof.Reg

/-! ### Time -/

/-- Slots of a major frame, and MTC ticks of a slot (R74). -/
def frameSlots : Nat := 100
def slotTicks : Nat := 20000

/-- `d` ticks pass: the MTC counts them, and CYC of every core that executes no instruction, being idle, suspended or in a wait
for a lock, counts its 4 cycles to a tick (an executing core counts the cycles of its instructions). -/
def State.passTime (s : State) (d : Nat) : State :=
  { s with
    mtc := s.mtc + d
    cores := s.cores.map fun k => if k.executing && k.lockWait.isNone && k.life == .running then k else { k with cyc := k.cyc + 4 * d } }

/-- Time passes up to an instant (none, where the instant has passed). -/
def State.passTo (s : State) (t : Nat) : State := s.passTime (t - s.mtc)

/-- The tick of an idle block: one tick of the MTC while the module runs; in WATCH the MTC runs on the standby clock
(R30), five ticks at a time; in OFF it stands. -/
def State.idleTick (s : State) : State :=
  match s.plat.power with
  | .starting | .run | .shutdown =>
    let t := s.passTime 1
    if t.live then (List.finRange 16).foldl (fun (u : State) (c : Fin 16) => u.takeEvent c) t else t
  | .recovery => s.passTime 1
  | .watch => { s with mtc := s.mtc + 5 }
  | .off => s

/-! ### Reads a unit makes at a boundary -/

/-- The reads a requester makes over the fabric: each counts as a beat, and does to its register what a read does. -/
def State.unitReads (s : State) (rq : Nat) (err : Nat → Bool) (as : List Nat) : State :=
  as.foldl (fun (t : State) a =>
    let t := t.beat a rq
    if err a then t else (t.busRead a).2) s

/-- The words the Racking Line reads at a boundary: STG_SRC of its enabled stages and RL_SPD. -/
def State.rlSources (s : State) : List Nat :=
  if !s.racking.on then []
  else
    let st := (List.range 8).filterMap fun i =>
      if i = 0 ∨ !s.on STG_CFG.EN i ∨ s.get STG_SRC.ADDR i = 0 then none else some (s.busAddr STG_SRC.ADDR i)
    st ++ (if s.get RL_SPD.ADDR = 0 then [] else [s.busAddr RL_SPD.ADDR 0])

/-- One word of the motion pair (R154): 0 where its address is 0, none where its read ends in a bus error. -/
def State.motionRead (s : State) (f : Fld) (err : Nat → Bool) : Option Int × State :=
  if s.get f = 0 then (some 0, s)
  else
    let a := s.busAddr f 0
    let s := s.beat a 82
    if err a then (none, s)
    else
      let r := s.busRead a
      (some (sgn 16 (r.1 % 2 ^ 16)), r.2)

/-- Cuvee at a boundary: what an epoch takes up where one begins, the header geometry, the motion pair (R154, R155). -/
def State.cvBoundary (s : State) (err : Nat → Bool) : State :=
  let s := if s.mtc % epochTicks = 0 then s.cvEpochBegin.cvReleaseAll else s
  let s := s.tlHgSync
  let v := s.motionRead MOTION_SPD.ADDR err
  let y := v.2.motionRead MOTION_YAW.ADDR err
  y.2.cvMotion v.1 y.1

/-- The Racking Line and the machine functions at a boundary (R172). -/
def State.rackBoundary (s : State) (err : Nat → Bool) : State :=
  let s := s.rlBoundary fun t a => if err a then none else some (t.peek a)
  (s.unitReads 85 err s.rlSources).mfBoundary

/-! ### Boundaries and slots -/

/-- The instant of the next major frame: the first k × 2,000,000 that has not passed and at which no frame has begun. -/
def State.frameDue (s : State) : Nat := max s.plat.frameNext ((s.mtc + frameTicks - 1) / frameTicks)

/-- What every unit does at a boundary, in the order of the data each needs: waits that the boundary ends, sensing and
fusion, the Racking Line, the bands, the cores, the section engine, the task controller, an activation. -/
def State.frameUnits (s : State) (err : Nat → Bool) : State :=
  let s := s.retryReplies.badOps
  let s := if s.live then (List.finRange 16).foldl (fun (t : State) (c : Fin 16) => t.recvEmpty c) s else s
  let s := (s.cvBoundary err).rackBoundary err
  let s := if s.live then
      (List.finRange 16).foldl (fun (t : State) (c : Fin 16) => t.bandBoundary c err) s |>.coresBoundary
    else s
  let s := s.scBoundary.tcBoundary
  if s.live then s.activation else s

/-- A major frame begins: time has passed to its instant. -/
def State.frameBegin (s : State) (err : Nat → Bool) : State :=
  let k := s.frameDue
  let s := (s.passTo (k * frameTicks)).modPlat fun p => { p with frameNext := k + 1 }
  s.frameUnits err

/-- Operand `errs`: the addresses whose reads by the boundary's units end in a bus error. -/
def execMajorFrameBoundary (errs : List Nat) (s : State) : Host.Outcome State Fault Refusal :=
  s.act (s.frameBegin fun a => errs.contains a)

/-- The instant of the next slot `n` of the grid, as a number of slots. -/
def State.nextSlot (s : State) (n : Nat) : Nat :=
  let m := max s.plat.slotNext ((s.mtc + slotTicks - 1) / slotTicks)
  m + (n + frameSlots - m % frameSlots) % frameSlots

/-- Slot `n` begins: the loop units latch their triggers, and every core starts or resumes. -/
def State.slotBegin (s : State) (n : Fin 100) : State :=
  let m := s.nextSlot n.val
  let s := (s.passTo (m * slotTicks)).modPlat fun p => { p with slotNext := m + 1 }
  if s.live then
    let s := (List.finRange 16).foldl (fun (t : State) (c : Fin 16) => t.loopsSlot c n.val) s
    (List.finRange 16).foldl (fun (t : State) (c : Fin 16) => t.slotCore c n.val) s
  else s

def execSlotStart (n : Fin 100) (s : State) : Host.Outcome State Fault Refusal := s.act (s.slotBegin n)

/-! ### Section commands (R254) -/

/-- A section's command is written 300 µs after the boundary at which its state changed. -/
def sectionTicks : Nat := 60000

/-- Does a command of a section wait, its 300 µs over? -/
def Section.due (x : Section) (mtc : Nat) : Bool :=
  x.write && match x.changes with
    | c :: _ => decide (c.1 + sectionTicks ≤ mtc)
    | [] => false

/-- B + 300 µs: the command of a section whose state changed is written to its channel's command register. -/
def State.sectionWrite (s : State) (k : Fin 64) : State :=
  if !(s.trellis.sections[k.val]).due s.mtc then s
  else
    let s := s.modTl fun l => { l with sections := upd l.sections k fun x => { x with write := false } }
    if !s.on SC_ADDR.EN k.val then s
    else
      let a := s.busAddr SC_ADDR.ADDR k.val
      let w := if s.on SC_STAT.STATE k.val then s.get SC_ON_WORD.W k.val else 0
      ((s.beat a 86).busWrite a w ⟨86, false⟩).getD (s.beat a 86)

def execSectionCommandWrite (k : Fin 64) (s : State) : Host.Outcome State Fault Refusal := s.act (s.sectionWrite k)

end Sys2Proof.Machine
end

