-- ==== Sys2Proof/Machine/Service.lean ====
section
/-! DEFINITION.  The service protocol (R358, R359) and the tag area (R340, R341). -/

namespace Sys2Proof.Machine

open Sys2Proof.Reg

/-! ### Sessions -/

/-- Do frames of the service port reach the module now: while the service firmware runs, or in recovery where the request is
one that recovery answers? -/
def State.svcPortUp (s : State) (recovery : Bool) : Bool :=
  (s.units && s.plat.serviceUp) || (recovery && s.plat.power == .recovery)

/-- Serve a request of the service protocol alone. -/
def State.servePort (s : State) (q : SvcReq) (op : Nat) (write recovery : Bool) (f : State → State) : Host.Outcome State Fault Refusal :=
  .next (
    if q.src ≠ portId ∨ !s.svcPortUp recovery then s
    else
      let t := s.portFrame q
      if t.portMay q write then f t else t.done q platCore op stNotPermitted [])

/-- OPEN: a session at level READ; one is open at a time.  The number of the session is not stated. -/
def execOpen (q : SvcReq) (eth : Bool) (s : State) : Host.Outcome State Fault Refusal :=
  .next (
    if q.src ≠ portId ∨ !s.svcPortUp true then s
    else if s.manager.session.isSome then s.done q platCore 0x0001 stBusy []
    else
      let t := s.modMgr fun m => { m with session := some ⟨false, eth, none, s.mtc⟩ }
      t.fresh.done q platCore 0x0001 stOk [Config.unstated 26 [s.free], 0])

/-- AUTH without a payload gives a nonce out; with a signature it raises the session to WRITE where the signature holds. -/
def State.auth (s : State) (q : SvcReq) (sig : Option Bool) : State :=
  let refuse := s.done q platCore 0x0002 stNotPermitted []
  if !s.on SVC_CTL.WRITE_EN then refuse
  else
    match s.manager.session, sig with
    | some x, none =>
      let n := fun k => Config.random (s.free + k) % 2 ^ 32
      let t := { s with free := s.free + 4 }.modMgr fun m => { m with session := some { x with nonce := some (n 0) } }
      t.done q platCore 0x0002 stOk [n 0, n 1, n 2, n 3]
    | some x, some ok =>
      if ok && x.nonce.isSome then
        (s.modMgr fun m => { m with session := some { x with write := true, nonce := none } }).done q platCore 0x0002 stOk []
      else (s.modMgr fun m => { m with session := some { x with nonce := none } }).done q platCore 0x0002 stNotPermitted []
    | none, _ => refuse

def execAuth (q : SvcReq) (sig : Option Bool) (s : State) : Host.Outcome State Fault Refusal :=
  s.servePort q 0x0002 false true fun s => s.auth q sig

/-- 60 s in ticks, after which a session without a frame ends (R358). -/
def sessionTicks : Nat := 12000000000

def execServiceSessionTimeout (s : State) : Host.Outcome State Fault Refusal :=
  .next (if s.manager.session.any fun x => decide (x.last + sessionTicks ≤ s.mtc) then s.modMgr fun m => { m with session := none } else s)

/-- SVC_CTL.WRITE_EN: cleared, a session at WRITE falls back to READ. -/
def State.writeEn (s : State) (en : Bool) : State :=
  let t := s.putB SVC_CTL.WRITE_EN en
  if en then t else t.modMgr fun m => { m with session := m.session.map fun x => { x with write := false } }

def execWriteEnWrite (en : Bool) (rq : Req) (s : State) : Host.Outcome State Fault Refusal := s.act (if rq.sup then s.writeEn en else s)

/-! ### Reads and writes (Table 18.5) -/

/-- STATUS: UPD_STAT, SET_ACTIVE, SET_STAGED, RST_CAUSE, PWR_STATE. -/
def execStatus (q : SvcReq) (s : State) : Host.Outcome State Fault Refusal :=
  s.servePort q 0x0003 false true fun s =>
    s.done q platCore 0x0003 stOk ([0x20C00000, 0x20C00008, 0x20C0000C, 0x20000014, 0x20000010].map s.peek)

/-- FACTORY_READ: the 256 bytes of the factory record, as words. -/
def execFactoryRead (q : SvcReq) (s : State) : Host.Outcome State Fault Refusal :=
  s.servePort q 0x0004 false true fun s =>
    s.done q platCore 0x0004 stOk ((List.range 64).map factoryWord)

/-- The fault detail of a register access of the service port, if any. -/
def portFault (addr n : Nat) : Option Nat :=
  if addr % 4 ≠ 0 then some 0x01 else if inPeriph addr && inPeriph (addr + 4 * n - 4) then none else some 0x03

/-- Read `n` registers as requester 87. -/
def State.portRead (s : State) (addr : Nat) : Nat → List Nat × State
  | 0 => ([], s)
  | n + 1 =>
    let r := (s.beat addr portId).busRead addr
    let t := r.2.portRead (addr + 4) n
    (r.1 :: t.1, t.2)

def execRegRead (q : SvcReq) (addr count : Nat) (s : State) : Host.Outcome State Fault Refusal :=
  s.servePort q 0x0010 false false fun s =>
    if count = 0 ∨ 1024 < count then s.done q platCore 0x0010 stBadParam []
    else
      match portFault addr count with
      | some d => s.done q platCore 0x0010 stBadParam [d]
      | none =>
        let r := s.portRead addr count
        r.2.done q platCore 0x0010 stOk r.1

/-- Write registers as requester 87 at supervisor privilege. -/
def State.portWrite (s : State) (addr : Nat) : List Nat → State
  | [] => s
  | w :: t => (((s.beat addr portId).busWrite addr (w % 2 ^ 32) ⟨portId, true⟩).getD s).portWrite (addr + 4) t

def execRegWrite (q : SvcReq) (addr : Nat) (words : List Nat) (s : State) : Host.Outcome State Fault Refusal :=
  s.servePort q 0x0011 true false fun s =>
    if words.isEmpty then s.done q platCore 0x0011 stBadParam []
    else
      match portFault addr words.length with
      | some d => s.done q platCore 0x0011 stBadParam [d]
      | none => (s.portWrite addr words).done q platCore 0x0011 stOk []

/-- CB_READ: records as CB_FETCH returns them, in the payload. -/
def execCbRead (q : SvcReq) (first count : Nat) (s : State) : Host.Outcome State Fault Refusal :=
  s.servePort q 0x0020 false false fun s =>
    let r := fetchRecs s.book.backing (first % 2 ^ 32) count 4088
    s.done q platCore 0x0020 stOk ([r.1.length, r.2] ++ r.1.flatMap Rec.words)

/-! ### The tag area (R340, R341) -/

/-- The records that a further change builds on: the newest image not yet committed. -/
def State.tagBase (s : State) : List Tag := ((s.tags.waits.getLast?).map TagWait.recs).getD s.tags.recs

/-- May the sender change the tag area: FC0, or the service port? -/
def tagSender (q : SvcReq) : Bool := q.src == 0 || q.src == portId

/-- Is it the record of a type, and of an INDEX for ISOBUS_NAME? -/
def Tag.is (t : Tag) (type index : Nat) : Bool := t.type == type && (type != tagIsoName || t.index == index)

/-- Is a value of this length one of the type (Table 17.8)? -/
def tagFits (type len : Nat) : Bool :=
  if type = 0x0001 then decide (1 ≤ len) && decide (len ≤ 32)
  else if type = tagIsoName then len == 12
  else if type = 0x0020 ∨ type = 0x0021 then len == 4
  else if type = tagFleetKey then len == 32
  else decide (0x8000 ≤ type) && decide (type < 0xFFFF) && decide (1 ≤ len) && decide (len ≤ 0xFFFF)

/-- The records with one written: in the place of the one it replaces, or at the end. -/
def tagPut (rs : List Tag) (t : Tag) : List Tag :=
  if rs.any fun x => x.is t.type t.index then rs.map fun x => if x.is t.type t.index then t else x else rs ++ [t]

/-- A change waits for its commit. -/
def State.tagWait (s : State) (q : SvcReq) (op : Nat) (rs : List Tag) (type index : Nat) : State :=
  { s with tags := { s.tags with waits := s.tags.waits ++ [⟨keepReq q, op, rs, type, index⟩] } }

def execTagWrite (q : SvcReq) (type len addr : Nat) (data : List Nat) (s : State) : Host.Outcome State Fault Refusal :=
  s.serve q 61 0x0030 ([type, len] ++ two addr) true false fun s =>
    if !tagSender q then s.done q platCore 0x0030 stNotPermitted []
    else
      match s.payload q addr len data with
      | none => s.done q platCore 0x0030 stBadParam []
      | some v =>
        let index := if type = tagIsoName then (v.head?).getD 0 else 0
        let rs := tagPut s.tagBase ⟨type, index, v⟩
        if !tagFits type v.length || decide (8192 < tagUsed rs) then s.done q platCore 0x0030 stBadParam []
        else s.tagWait q 0x0030 rs type index

def execTagDelete (q : SvcReq) (type index : Nat) (s : State) : Host.Outcome State Fault Refusal :=
  s.serve q 61 0x0031 [type, index] true false fun s =>
    if !tagSender q then s.done q platCore 0x0031 stNotPermitted []
    else if s.tagBase.any fun t => t.is type index then
      s.tagWait q 0x0031 (s.tagBase.filter fun t => !t.is type index) type (if type = tagIsoName then index else 0)
    else s.done q platCore 0x0031 stBadParam []

/-- The oldest change is committed: GEN, the record, the reply. -/
def execTagCommit (s : State) : Host.Outcome State Fault Refusal :=
  s.act (
    match s.tags.waits with
    | [] => s
    | w :: rest =>
      let gen := (s.tags.gen + 1) % 2 ^ 32
      let t := { s with tags := { recs := w.recs, gen := gen, bad := false, waits := rest } }
      let t := t.record .tagWrite platNode [w.type % 2 ^ 16 + 2 ^ 16 * b2n (w.op == 0x0031) + 2 ^ 24 * w.index, gen]
      t.done w.req.req platCore w.op stOk [gen])

end Sys2Proof.Machine
end

