-- ==== Sys2Proof/Machine/Dispatch.lean ====
section
/-! DEFINITION.  Every command to its meaning. -/

namespace Sys2Proof.Machine

def exec (i : Instr) (s : State) : Host.Outcome State Fault Refusal :=
  match i with
  | .logicFeedRise strap key wake closed low => Sys2Proof.Machine.execLogicFeedRise strap key wake closed low s
  | .logicFeedLoss => Sys2Proof.Machine.execLogicFeedLoss s
  | .logicFeedDip => Sys2Proof.Machine.execLogicFeedDip s
  | .tcxoStable => Sys2Proof.Machine.execTcxoStable s
  | .pllLocked imgA imgB => Sys2Proof.Machine.execPllLocked imgA imgB s
  | .bootImageSelected => Sys2Proof.Machine.execBootImageSelected s
  | .serviceFwRunning selftestFail tagBad sigOk fwOk => Sys2Proof.Machine.execServiceFwRunning selftestFail tagBad sigOk fwOk s
  | .supervisorFirstInstr => Sys2Proof.Machine.execSupervisorFirstInstr s
  | .keyOff => Sys2Proof.Machine.execKeyOff s
  | .keyOn => Sys2Proof.Machine.execKeyOn s
  | .keyoffLimitExpiry => Sys2Proof.Machine.execKeyoffLimitExpiry s
  | .rstReqWarm pass rq => Sys2Proof.Machine.execRstReqWarm pass rq s
  | .rstReqWatch pass rq => Sys2Proof.Machine.execRstReqWatch pass rq s
  | .shutdownFlushComplete => Sys2Proof.Machine.execShutdownFlushComplete s
  | .wakeKey => Sys2Proof.Machine.execWakeKey s
  | .wakeLine => Sys2Proof.Machine.execWakeLine s
  | .wakeCanFrame n => Sys2Proof.Machine.execWakeCanFrame n s
  | .wakeServicePort => Sys2Proof.Machine.execWakeServicePort s
  | .watchSnapshotTimer => Sys2Proof.Machine.execWatchSnapshotTimer s
  | .watchSnapshotDone solved lat lon hu time unc => Sys2Proof.Machine.execWatchSnapshotDone solved lat lon hu time unc s
  | .pllLockLoss => Sys2Proof.Machine.execPllLockLoss s
  | .tcxoStop => Sys2Proof.Machine.execTcxoStop s
  | .osvHoldTimeExpiry load n => Sys2Proof.Machine.execOsvHoldTimeExpiry load n s
  | .osvAbortTimeExpiry load n => Sys2Proof.Machine.execOsvAbortTimeExpiry load n s
  | .osvSealWrite rq => Sys2Proof.Machine.execOsvSealWrite rq s
  | .estopOpen => Sys2Proof.Machine.execEstopOpen s
  | .estopClose => Sys2Proof.Machine.execEstopClose s
  | .estopTestPulse => Sys2Proof.Machine.execEstopTestPulse s
  | .estopTestPulseEnd fed => Sys2Proof.Machine.execEstopTestPulseEnd fed s
  | .add c a b d => Sys2Proof.Machine.execAdd c a b d s
  | .sub c a b d => Sys2Proof.Machine.execSub c a b d s
  | .and c a b d => Sys2Proof.Machine.execAnd c a b d s
  | .or c a b d => Sys2Proof.Machine.execOr c a b d s
  | .xor c a b d => Sys2Proof.Machine.execXor c a b d s
  | .nor c a b d => Sys2Proof.Machine.execNor c a b d s
  | .slt c a b d => Sys2Proof.Machine.execSlt c a b d s
  | .sltu c a b d => Sys2Proof.Machine.execSltu c a b d s
  | .sll c a b d => Sys2Proof.Machine.execSll c a b d s
  | .srl c a b d => Sys2Proof.Machine.execSrl c a b d s
  | .sra c a b d => Sys2Proof.Machine.execSra c a b d s
  | .slli c a b sh => Sys2Proof.Machine.execSlli c a b sh s
  | .srli c a b sh => Sys2Proof.Machine.execSrli c a b sh s
  | .srai c a b sh => Sys2Proof.Machine.execSrai c a b sh s
  | .addv c a b d => Sys2Proof.Machine.execAddv c a b d s
  | .subv c a b d => Sys2Proof.Machine.execSubv c a b d s
  | .adds c a b d => Sys2Proof.Machine.execAdds c a b d s
  | .subs c a b d => Sys2Proof.Machine.execSubs c a b d s
  | .min c a b d => Sys2Proof.Machine.execMin c a b d s
  | .max c a b d => Sys2Proof.Machine.execMax c a b d s
  | .minu c a b d => Sys2Proof.Machine.execMinu c a b d s
  | .maxu c a b d => Sys2Proof.Machine.execMaxu c a b d s
  | .clz c a b => Sys2Proof.Machine.execClz c a b s
  | .sextb c a b => Sys2Proof.Machine.execSextb c a b s
  | .sexth c a b => Sys2Proof.Machine.execSexth c a b s
  | .addi c a b imm => Sys2Proof.Machine.execAddi c a b imm s
  | .andi c a b imm => Sys2Proof.Machine.execAndi c a b imm s
  | .ori c a b imm => Sys2Proof.Machine.execOri c a b imm s
  | .xori c a b imm => Sys2Proof.Machine.execXori c a b imm s
  | .slti c a b imm => Sys2Proof.Machine.execSlti c a b imm s
  | .sltiu c a b imm => Sys2Proof.Machine.execSltiu c a b imm s
  | .lui c a imm => Sys2Proof.Machine.execLui c a imm s
  | .mul c a b d => Sys2Proof.Machine.execMul c a b d s
  | .mulh c a b d => Sys2Proof.Machine.execMulh c a b d s
  | .mulhu c a b d => Sys2Proof.Machine.execMulhu c a b d s
  | .div c a b d => Sys2Proof.Machine.execDiv c a b d s
  | .divu c a b d => Sys2Proof.Machine.execDivu c a b d s
  | .rem c a b d => Sys2Proof.Machine.execRem c a b d s
  | .remu c a b d => Sys2Proof.Machine.execRemu c a b d s
  | .lw c a b imm env => Sys2Proof.Machine.execLw c a b imm env s
  | .lh c a b imm env => Sys2Proof.Machine.execLh c a b imm env s
  | .lhu c a b imm env => Sys2Proof.Machine.execLhu c a b imm env s
  | .lb c a b imm env => Sys2Proof.Machine.execLb c a b imm env s
  | .lbu c a b imm env => Sys2Proof.Machine.execLbu c a b imm env s
  | .sw c a b imm wait => Sys2Proof.Machine.execSw c a b imm wait s
  | .sh c a b imm wait => Sys2Proof.Machine.execSh c a b imm wait s
  | .sb c a b imm wait => Sys2Proof.Machine.execSb c a b imm wait s
  | .flw c a b imm env => Sys2Proof.Machine.execFlw c a b imm env s
  | .fsw c a b imm wait => Sys2Proof.Machine.execFsw c a b imm wait s
  | .postedStoreComplete c cls => Sys2Proof.Machine.execPostedStoreComplete c cls s
  | .postedStoreBusError c cls => Sys2Proof.Machine.execPostedStoreBusError c cls s
  | .beq c a b imm => Sys2Proof.Machine.execBeq c a b imm s
  | .bne c a b imm => Sys2Proof.Machine.execBne c a b imm s
  | .blt c a b imm => Sys2Proof.Machine.execBlt c a b imm s
  | .bge c a b imm => Sys2Proof.Machine.execBge c a b imm s
  | .bltu c a b imm => Sys2Proof.Machine.execBltu c a b imm s
  | .bgeu c a b imm => Sys2Proof.Machine.execBgeu c a b imm s
  | .j c off => Sys2Proof.Machine.execJ c off s
  | .jal c off => Sys2Proof.Machine.execJal c off s
  | .jalr c a b imm => Sys2Proof.Machine.execJalr c a b imm s
  | .fadd c a b d => Sys2Proof.Machine.execFadd c a b d s
  | .fsub c a b d => Sys2Proof.Machine.execFsub c a b d s
  | .fmul c a b d => Sys2Proof.Machine.execFmul c a b d s
  | .fdiv c a b d => Sys2Proof.Machine.execFdiv c a b d s
  | .fsqrt c a b => Sys2Proof.Machine.execFsqrt c a b s
  | .fmin c a b d => Sys2Proof.Machine.execFmin c a b d s
  | .fmax c a b d => Sys2Proof.Machine.execFmax c a b d s
  | .fabs c a b => Sys2Proof.Machine.execFabs c a b s
  | .fneg c a b => Sys2Proof.Machine.execFneg c a b s
  | .fmov c a b => Sys2Proof.Machine.execFmov c a b s
  | .feq c a b d => Sys2Proof.Machine.execFeq c a b d s
  | .flt c a b d => Sys2Proof.Machine.execFlt c a b d s
  | .fle c a b d => Sys2Proof.Machine.execFle c a b d s
  | .fcvtSW c a b => Sys2Proof.Machine.execFcvtSW c a b s
  | .fcvtWS c a b => Sys2Proof.Machine.execFcvtWS c a b s
  | .ftrcWS c a b => Sys2Proof.Machine.execFtrcWS c a b s
  | .fmvFG c a b => Sys2Proof.Machine.execFmvFG c a b s
  | .fmvGF c a b => Sys2Proof.Machine.execFmvGF c a b s
  | .fcvtSQ c a b => Sys2Proof.Machine.execFcvtSQ c a b s
  | .fcvtQS c a b => Sys2Proof.Machine.execFcvtQS c a b s
  | .fmadd c a b d e => Sys2Proof.Machine.execFmadd c a b d e s
  | .fmsub c a b d e => Sys2Proof.Machine.execFmsub c a b d e s
  | .fnmadd c a b d e => Sys2Proof.Machine.execFnmadd c a b d e s
  | .qadd15 c a b d => Sys2Proof.Machine.execQadd15 c a b d s
  | .qsub15 c a b d => Sys2Proof.Machine.execQsub15 c a b d s
  | .qmul15 c a b d => Sys2Proof.Machine.execQmul15 c a b d s
  | .qneg15 c a b => Sys2Proof.Machine.execQneg15 c a b s
  | .qabs15 c a b => Sys2Proof.Machine.execQabs15 c a b s
  | .qsat15 c a b => Sys2Proof.Machine.execQsat15 c a b s
  | .qadd31 c a b d => Sys2Proof.Machine.execQadd31 c a b d s
  | .qsub31 c a b d => Sys2Proof.Machine.execQsub31 c a b d s
  | .qmul31 c a b d => Sys2Proof.Machine.execQmul31 c a b d s
  | .qneg31 c a b => Sys2Proof.Machine.execQneg31 c a b s
  | .qabs31 c a b => Sys2Proof.Machine.execQabs31 c a b s
  | .qshl31 c a b d => Sys2Proof.Machine.execQshl31 c a b d s
  | .mac15 c a b d => Sys2Proof.Machine.execMac15 c a b d s
  | .msu15 c a b d => Sys2Proof.Machine.execMsu15 c a b d s
  | .mula15 c a b d => Sys2Proof.Machine.execMula15 c a b d s
  | .mac31 c a b d => Sys2Proof.Machine.execMac31 c a b d s
  | .msu31 c a b d => Sys2Proof.Machine.execMsu31 c a b d s
  | .mula31 c a b d => Sys2Proof.Machine.execMula31 c a b d s
  | .aclr c a => Sys2Proof.Machine.execAclr c a s
  | .ald c a b d => Sys2Proof.Machine.execAld c a b d s
  | .ardl c a b => Sys2Proof.Machine.execArdl c a b s
  | .ardh c a b => Sys2Proof.Machine.execArdh c a b s
  | .aext c a b sh => Sys2Proof.Machine.execAext c a b sh s
  | .aext15 c a b sh => Sys2Proof.Machine.execAext15 c a b sh s
  | .yield c => Sys2Proof.Machine.execYield c s
  | .waitslot c a b => Sys2Proof.Machine.execWaitslot c a b s
  | .swap c a => Sys2Proof.Machine.execSwap c a s
  | .eret c => Sys2Proof.Machine.execEret c s
  | .nop c => Sys2Proof.Machine.execNop c s
  | .barIo c wait => Sys2Proof.Machine.execBarIo c wait s
  | .barMem c wait => Sys2Proof.Machine.execBarMem c wait s
  | .barAll c wait => Sys2Proof.Machine.execBarAll c wait s
  | .crd c a n => Sys2Proof.Machine.execCrd c a n s
  | .cwr c b n => Sys2Proof.Machine.execCwr c b n s
  | .trap c imm => Sys2Proof.Machine.execTrap c imm s
  | .lock c a b imm => Sys2Proof.Machine.execLock c a b imm s
  | .trylock c a b imm => Sys2Proof.Machine.execTrylock c a b imm s
  | .unlk c a b imm => Sys2Proof.Machine.execUnlk c a b imm s
  | .lockWaitTimeout c => Sys2Proof.Machine.execLockWaitTimeout c s
  | .msend c a b d => Sys2Proof.Machine.execMsend c a b d s
  | .mrecv c a b d => Sys2Proof.Machine.execMrecv c a b d s
  | .mrecvw c a b d => Sys2Proof.Machine.execMrecvw c a b d s
  | .tmark c b imm => Sys2Proof.Machine.execTmark c b imm s
  | .rtrd c a b d => Sys2Proof.Machine.execRtrd c a b d s
  | .rtwr c a b d => Sys2Proof.Machine.execRtwr c a b d s
  | .rttag c a b => Sys2Proof.Machine.execRttag c a b s
  | .eventLine c line => Sys2Proof.Machine.execEventLine c line s
  | .lockstepMismatch pair => Sys2Proof.Machine.execLockstepMismatch pair s
  | .majorFrameBoundary errs => Sys2Proof.Machine.execMajorFrameBoundary errs s
  | .slotStart n => Sys2Proof.Machine.execSlotStart n s
  | .overrunKill c => Sys2Proof.Machine.execOverrunKill c s
  | .validate c rq => Sys2Proof.Machine.execValidate c rq s
  | .bankValidationDone c => Sys2Proof.Machine.execBankValidationDone c s
  | .invalidate c rq => Sys2Proof.Machine.execInvalidate c rq s
  | .coreRunWrite c run rq => Sys2Proof.Machine.execCoreRunWrite c run rq s
  | .coreReset c rq => Sys2Proof.Machine.execCoreReset c rq s
  | .coreResetDone c => Sys2Proof.Machine.execCoreResetDone c s
  | .swapSet mask rq => Sys2Proof.Machine.execSwapSet mask rq s
  | .lstepCfgWrite pair rq => Sys2Proof.Machine.execLstepCfgWrite pair rq s
  | .migGo core go rq => Sys2Proof.Machine.execMigGo core go rq s
  | .migrationCopyDone core itcmBad dtcmBad => Sys2Proof.Machine.execMigrationCopyDone core itcmBad dtcmBad s
  | .lkFree n rq => Sys2Proof.Machine.execLkFree n rq s
  | .mbCfgWrite m w rq => Sys2Proof.Machine.execMbCfgWrite m w rq s
  | .serviceReplyDrop index => Sys2Proof.Machine.execServiceReplyDrop index s
  | .bankLoad q core addr len => Sys2Proof.Machine.execBankLoad q core addr len s
  | .partList q addr => Sys2Proof.Machine.execPartList q addr s
  | .loopInputReturn c l inErr stErr anErr => Sys2Proof.Machine.execLoopInputReturn c l inErr stErr anErr s
  | .loopOutputIssue c l err => Sys2Proof.Machine.execLoopOutputIssue c l err s
  | .loopOutputBusError c l => Sys2Proof.Machine.execLoopOutputBusError c l s
  | .loopEnable c l en rq => Sys2Proof.Machine.execLoopEnable c l en rq s
  | .coefSwap c l rq => Sys2Proof.Machine.execCoefSwap c l rq s
  | .intLoad c l rq => Sys2Proof.Machine.execIntLoad c l rq s
  | .rtSwitch c t rq => Sys2Proof.Machine.execRtSwitch c t rq s
  | .traceArm c rq => Sys2Proof.Machine.execTraceArm c rq s
  | .traceSoft c rq => Sys2Proof.Machine.execTraceSoft c rq s
  | .traceStop c rq => Sys2Proof.Machine.execTraceStop c rq s
  | .ainConversion inputs => Sys2Proof.Machine.execAinConversion inputs s
  | .ainValueWrite slot => Sys2Proof.Machine.execAinValueWrite slot s
  | .ainEdge n lineA reverse => Sys2Proof.Machine.execAinEdge n lineA reverse s
  | .ainIndexEdge idx => Sys2Proof.Machine.execAinIndexEdge idx s
  | .ainShuntReconnect n => Sys2Proof.Machine.execAinShuntReconnect n s
  | .lsSample n x dcOut => Sys2Proof.Machine.execLsSample n x dcOut s
  | .lsBinClose n => Sys2Proof.Machine.execLsBinClose n s
  | .lsBinDeliver n => Sys2Proof.Machine.execLsBinDeliver n s
  | .lsBinRead n => Sys2Proof.Machine.execLsBinRead n s
  | .lsOpenTest n resp => Sys2Proof.Machine.execLsOpenTest n resp s
  | .lsSilentTimeout n => Sys2Proof.Machine.execLsSilentTimeout n s
  | .lsRestart n rq => Sys2Proof.Machine.execLsRestart n rq s
  | .imuOutput raw temp => Sys2Proof.Machine.execImuOutput raw temp s
  | .camCfgWrite n reg value rq => Sys2Proof.Machine.execCamCfgWrite n reg value rq s
  | .camFs n p => Sys2Proof.Machine.execCamFs n p s
  | .camLine n packet => Sys2Proof.Machine.execCamLine n packet s
  | .camFe n p => Sys2Proof.Machine.execCamFe n p s
  | .camMissingPeriod n => Sys2Proof.Machine.execCamMissingPeriod n s
  | .camDescriptorWrite n => Sys2Proof.Machine.execCamDescriptorWrite n s
  | .camStatsWrite n => Sys2Proof.Machine.execCamStatsWrite n s
  | .camLinkUp n => Sys2Proof.Machine.execCamLinkUp n s
  | .camLinkLoss n => Sys2Proof.Machine.execCamLinkLoss n s
  | .camDisableTimeout n => Sys2Proof.Machine.execCamDisableTimeout n s
  | .setGo n nw => Sys2Proof.Machine.execSetGo n nw s
  | .setWriteDone n ack => Sys2Proof.Machine.execSetWriteDone n ack s
  | .tblSwitch p rq => Sys2Proof.Machine.execTblSwitch p rq s
  | .cameraObjectArrival n fseq lost => Sys2Proof.Machine.execCameraObjectArrival n fseq lost s
  | .lidarBlockArrival n slot => Sys2Proof.Machine.execLidarBlockArrival n slot s
  | .epochReleaseTimeout => Sys2Proof.Machine.execEpochReleaseTimeout s
  | .featureExtractDone n out => Sys2Proof.Machine.execFeatureExtractDone n out s
  | .gridPublish gm => Sys2Proof.Machine.execGridPublish gm s
  | .modelSwap m rq => Sys2Proof.Machine.execModelSwap m rq s
  | .modelOldRelease m => Sys2Proof.Machine.execModelOldRelease m s
  | .ttCommit n rq => Sys2Proof.Machine.execTtCommit n rq s
  | .hgCommit rq => Sys2Proof.Machine.execHgCommit rq s
  | .cvEnable word rq => Sys2Proof.Machine.execCvEnable word rq s
  | .sensMaskWrite n word rq => Sys2Proof.Machine.execSensMaskWrite n word rq s
  | .mfOutputSwitch late => Sys2Proof.Machine.execMfOutputSwitch late s
  | .groundProfileComplete => Sys2Proof.Machine.execGroundProfileComplete s
  | .mfSpWrite m v rq => Sys2Proof.Machine.execMfSpWrite m v rq s
  | .miValWrite k word => Sys2Proof.Machine.execMiValWrite k word s
  | .trimClr m rq => Sys2Proof.Machine.execTrimClr m rq s
  | .vdOff c hold => Sys2Proof.Machine.execVdOff c hold s
  | .vdStart c hold => Sys2Proof.Machine.execVdStart c hold s
  | .vdTrim c hold => Sys2Proof.Machine.execVdTrim c hold s
  | .valveBoostEnd c => Sys2Proof.Machine.execValveBoostEnd c s
  | .valveBoostTimeout c curr => Sys2Proof.Machine.execValveBoostTimeout c curr s
  | .valvePeakEnd c => Sys2Proof.Machine.execValvePeakEnd c s
  | .valveHoldEnd c => Sys2Proof.Machine.execValveHoldEnd c s
  | .valveSwitchOffEnd c energy => Sys2Proof.Machine.execValveSwitchOffEnd c energy s
  | .boostFree b rail => Sys2Proof.Machine.execBoostFree b rail s
  | .boostWaitExpiry c => Sys2Proof.Machine.execBoostWaitExpiry c s
  | .railFail b rail => Sys2Proof.Machine.execRailFail b rail s
  | .railFailClear b rail => Sys2Proof.Machine.execRailFailClear b rail s
  | .dutyUpdate c meanSq => Sys2Proof.Machine.execDutyUpdate c meanSq s
  | .valveShort c curr => Sys2Proof.Machine.execValveShort c curr s
  | .valveOpenDetect c curr => Sys2Proof.Machine.execValveOpenDetect c curr s
  | .valveOvertemp c curr => Sys2Proof.Machine.execValveOvertemp c curr s
  | .regFail c => Sys2Proof.Machine.execRegFail c s
  | .leak c => Sys2Proof.Machine.execLeak c s
  | .bankShort b curr => Sys2Proof.Machine.execBankShort b curr s
  | .bankHot b curr temp => Sys2Proof.Machine.execBankHot b curr temp s
  | .bankFeedLow b curr low => Sys2Proof.Machine.execBankFeedLow b curr low s
  | .pgndOpen b curr => Sys2Proof.Machine.execPgndOpen b curr s
  | .vbClear b temp rq => Sys2Proof.Machine.execVbClear b temp rq s
  | .vbRst b rq => Sys2Proof.Machine.execVbRst b rq s
  | .vdFlagsRearm c word temp rq => Sys2Proof.Machine.execVdFlagsRearm c word temp rq s
  | .lcOff n energy => Sys2Proof.Machine.execLcOff n energy s
  | .lcOn n => Sys2Proof.Machine.execLcOn n s
  | .lcPwm n duty energy => Sys2Proof.Machine.execLcPwm n duty energy s
  | .inrushWindowEnd n => Sys2Proof.Machine.execInrushWindowEnd n s
  | .loadOverload n energy => Sys2Proof.Machine.execLoadOverload n energy s
  | .loadShort n hard curr energy => Sys2Proof.Machine.execLoadShort n hard curr energy s
  | .loadThermalUpdate n m power die energy => Sys2Proof.Machine.execLoadThermalUpdate n m power die energy s
  | .openOn x => Sys2Proof.Machine.execOpenOn x s
  | .openOff x => Sys2Proof.Machine.execOpenOff x s
  | .loadUv g feed => Sys2Proof.Machine.execLoadUv g feed s
  | .loadUvReturn n feed => Sys2Proof.Machine.execLoadUvReturn n feed s
  | .clampBudgetDecay => Sys2Proof.Machine.execClampBudgetDecay s
  | .grpHot g die curr => Sys2Proof.Machine.execGrpHot g die curr s
  | .lgClear g die rq => Sys2Proof.Machine.execLgClear g die rq s
  | .lgRst g rq => Sys2Proof.Machine.execLgRst g rq s
  | .lcFlagsRearm n word rq => Sys2Proof.Machine.execLcFlagsRearm n word rq s
  | .gnssDump n sums => Sys2Proof.Machine.execGnssDump n sums s
  | .gcConfigWrite n reg word rq => Sys2Proof.Machine.execGcConfigWrite n reg word rq s
  | .gcCodeAdj n word rq => Sys2Proof.Machine.execGcCodeAdj n word rq s
  | .gcCarrAdj n word rq => Sys2Proof.Machine.execGcCarrAdj n word rq s
  | .claim q first count owner => Sys2Proof.Machine.execClaim q first count owner s
  | .release q first count => Sys2Proof.Machine.execRelease q first count s
  | .solCfg q rate log2n ring point => Sys2Proof.Machine.execSolCfg q rate log2n ring point s
  | .antCfg q a b hdgEn => Sys2Proof.Machine.execAntCfg q a b hdgEn s
  | .rtcmIn q src addr len => Sys2Proof.Machine.execRtcmIn q src addr len s
  | .rtkCfg q prio srcTmo corrMax drMax => Sys2Proof.Machine.execRtkCfg q prio srcTmo corrMax drMax s
  | .snap q len dest addr => Sys2Proof.Machine.execSnap q len dest addr s
  | .watchLog q addr => Sys2Proof.Machine.execWatchLog q addr s
  | .solutionRecord mtc v => Sys2Proof.Machine.execSolutionRecord mtc v s
  | .drMaxExpiry => Sys2Proof.Machine.execDrMaxExpiry s
  | .rtkSourceTimeout => Sys2Proof.Machine.execRtkSourceTimeout s
  | .antOpen a => Sys2Proof.Machine.execAntOpen a s
  | .antShort a => Sys2Proof.Machine.execAntShort a s
  | .jam stream gain => Sys2Proof.Machine.execJam stream gain s
  | .qualifyingTimeSolution time u0 y leap => Sys2Proof.Machine.execQualifyingTimeSolution time u0 y leap s
  | .lossTExpiry => Sys2Proof.Machine.execLossTExpiry s
  | .holdoverLimitExpiry => Sys2Proof.Machine.execHoldoverLimitExpiry s
  | .timeStep => Sys2Proof.Machine.execTimeStep s
  | .slewEnd => Sys2Proof.Machine.execSlewEnd s
  | .tuNowLatch => Sys2Proof.Machine.execTuNowLatch s
  | .convLatch => Sys2Proof.Machine.execConvLatch s
  | .timePulseEdge p frac => Sys2Proof.Machine.execTimePulseEdge p frac s
  | .tpConfigWrite p dly word id sup => Sys2Proof.Machine.execTpConfigWrite p dly word id sup s
  | .stripPlace => Sys2Proof.Machine.execStripPlace s
  | .stripPlaceTimeout => Sys2Proof.Machine.execStripPlaceTimeout s
  | .gridPlace => Sys2Proof.Machine.execGridPlace s
  | .revisionApply => Sys2Proof.Machine.execRevisionApply s
  | .sectionCommandWrite k => Sys2Proof.Machine.execSectionCommandWrite k s
  | .tileFlushTimer => Sys2Proof.Machine.execTileFlushTimer s
  | .tileFlushComplete => Sys2Proof.Machine.execTileFlushComplete s
  | .fieldDrainTimeout => Sys2Proof.Machine.execFieldDrainTimeout s
  | .fleetTileMerge => Sys2Proof.Machine.execFleetTileMerge s
  | .coverTileOffer => Sys2Proof.Machine.execCoverTileOffer s
  | .openField q id create edge layers lat lon height => Sys2Proof.Machine.execOpenField q id create edge layers lat lon height s
  | .closeField q => Sys2Proof.Machine.execCloseField q s
  | .listFields q addr => Sys2Proof.Machine.execListFields q addr s
  | .deleteField q id => Sys2Proof.Machine.execDeleteField q id s
  | .readCells q layer i0 j0 i1 j1 addr => Sys2Proof.Machine.execReadCells q layer i0 j0 i1 j1 addr s
  | .writeCells q layer i0 j0 i1 j1 addr => Sys2Proof.Machine.execWriteCells q layer i0 j0 i1 j1 addr s
  | .exportField q id dry addr limit => Sys2Proof.Machine.execExportField q id dry addr limit s
  | .flush q => Sys2Proof.Machine.execFlush q s
  | .canFrameReceived n f => Sys2Proof.Machine.execCanFrameReceived n f s
  | .rxwWord0Read n w => Sys2Proof.Machine.execRxwWord0Read n w s
  | .rxwLastwRead n w => Sys2Proof.Machine.execRxwLastwRead n w s
  | .rxwSelWrite n w v rq => Sys2Proof.Machine.execRxwSelWrite n w v rq s
  | .rxwRel n w rq => Sys2Proof.Machine.execRxwRel n w rq s
  | .rxwConsume n w rq => Sys2Proof.Machine.execRxwConsume n w rq s
  | .txwWrite n word v rq => Sys2Proof.Machine.execTxwWrite n word v rq s
  | .canTxReq n mask rq => Sys2Proof.Machine.execCanTxReq n mask rq s
  | .canTxCancel n mask rq => Sys2Proof.Machine.execCanTxCancel n mask rq s
  | .canTxStartOfFrame n won tdcv => Sys2Proof.Machine.execCanTxStartOfFrame n won tdcv s
  | .canTxComplete n ok => Sys2Proof.Machine.execCanTxComplete n ok s
  | .canTxevPop n => Sys2Proof.Machine.execCanTxevPop n s
  | .canBusError n kind tx inc => Sys2Proof.Machine.execCanBusError n kind tx inc s
  | .canBusOffRecovered n => Sys2Proof.Machine.execCanBusOffRecovered n s
  | .recover n rq => Sys2Proof.Machine.execRecover n rq s
  | .canInitWrite n init rq => Sys2Proof.Machine.execCanInitWrite n init rq s
  | .canIntegrationDone n => Sys2Proof.Machine.execCanIntegrationDone n s
  | .canRst n rq => Sys2Proof.Machine.execCanRst n rq s
  | .netOpen q can kind rate notify leave => Sys2Proof.Machine.execNetOpen q can kind rate notify leave s
  | .netClose q net => Sys2Proof.Machine.execNetClose q net s
  | .cfAdd q net record addr => Sys2Proof.Machine.execCfAdd q net record addr s
  | .addressClaimDone k cf => Sys2Proof.Machine.execAddressClaimDone k cf s
  | .pgnSub q net pgn source addr size => Sys2Proof.Machine.execPgnSub q net pgn source addr size s
  | .pgnSend q net cf out => Sys2Proof.Machine.execPgnSend q net cf out s
  | .vtPool q net cf addr len label => Sys2Proof.Machine.execVtPool q net cf addr len label s
  | .tcMap q net name pairs => Sys2Proof.Machine.execTcMap q net name pairs s
  | .netList q net addr => Sys2Proof.Machine.execNetList q net addr s
  | .cfLeaveTimeout k name => Sys2Proof.Machine.execCfLeaveTimeout k name s
  | .tcSetpointRefresh k => Sys2Proof.Machine.execTcSetpointRefresh k s
  | .ethFrameReceived p d fcsBad stamp => Sys2Proof.Machine.execEthFrameReceived p d fcsBad stamp s
  | .ethLinkLoss p => Sys2Proof.Machine.execEthLinkLoss p s
  | .ptpSyncTimer => Sys2Proof.Machine.execPtpSyncTimer s
  | .ptpPdelayTimer p ns => Sys2Proof.Machine.execPtpPdelayTimer p ns s
  | .blkTmoExpiry k => Sys2Proof.Machine.execBlkTmoExpiry k s
  | .lidarBlockWrite k => Sys2Proof.Machine.execLidarBlockWrite k s
  | .hqTxWr q v rq => Sys2Proof.Machine.execHqTxWr q v rq s
  | .hqTxSent q => Sys2Proof.Machine.execHqTxSent q s
  | .jfxHello h fleet cls field => Sys2Proof.Machine.execJfxHello h fleet cls field s
  | .jfxChallenge h na => Sys2Proof.Machine.execJfxChallenge h na s
  | .jfxResponse h na => Sys2Proof.Machine.execJfxResponse h na s
  | .jfxBye h => Sys2Proof.Machine.execJfxBye h s
  | .jfxState h fields => Sys2Proof.Machine.execJfxState h fields s
  | .jfxTile h f => Sys2Proof.Machine.execJfxTile h f s
  | .jfxUnloadReq h no fields => Sys2Proof.Machine.execJfxUnloadReq h no fields s
  | .jfxUnloadOffer h no fields => Sys2Proof.Machine.execJfxUnloadOffer h no fields s
  | .jfxUnloadAccept h no fields => Sys2Proof.Machine.execJfxUnloadAccept h no fields s
  | .jfxUnloadState h no fields => Sys2Proof.Machine.execJfxUnloadState h no fields s
  | .jfxUnloadEnd h no => Sys2Proof.Machine.execJfxUnloadEnd h no s
  | .jfxRtcm h src hop bytes => Sys2Proof.Machine.execJfxRtcm h src hop bytes s
  | .jfxSnap h => Sys2Proof.Machine.execJfxSnap h s
  | .jfxWatchPos h => Sys2Proof.Machine.execJfxWatchPos h s
  | .jfxUser h bytes => Sys2Proof.Machine.execJfxUser h bytes s
  | .jfxAck h seq => Sys2Proof.Machine.execJfxAck h seq s
  | .jfxHelloTimer => Sys2Proof.Machine.execJfxHelloTimer s
  | .jfxStateTimer => Sys2Proof.Machine.execJfxStateTimer s
  | .jfxAdmissionTimeout id => Sys2Proof.Machine.execJfxAdmissionTimeout id s
  | .jfxBlockExpiry id => Sys2Proof.Machine.execJfxBlockExpiry id s
  | .jfxPeerAgeOut id => Sys2Proof.Machine.execJfxPeerAgeOut id s
  | .jfxUnloadLost no => Sys2Proof.Machine.execJfxUnloadLost no s
  | .jfxTileReassemblyTimeout sender tileSeq => Sys2Proof.Machine.execJfxTileReassemblyTimeout sender tileSeq s
  | .jfxSnapWindowTimeout => Sys2Proof.Machine.execJfxSnapWindowTimeout s
  | .jfxStart q cls notify helloT ageT => Sys2Proof.Machine.execJfxStart q cls notify helloT ageT s
  | .jfxStop q => Sys2Proof.Machine.execJfxStop q s
  | .peerList q addr => Sys2Proof.Machine.execPeerList q addr s
  | .peerBlock q id block => Sys2Proof.Machine.execPeerBlock q id block s
  | .sendUser q dest len addr ackreq => Sys2Proof.Machine.execSendUser q dest len addr ackreq s
  | .unloadReq q no fields => Sys2Proof.Machine.execUnloadReq q no fields s
  | .unloadOffer q no fields => Sys2Proof.Machine.execUnloadOffer q no fields s
  | .unloadAccept q no member fields => Sys2Proof.Machine.execUnloadAccept q no member fields s
  | .unloadState q no fields => Sys2Proof.Machine.execUnloadState q no fields s
  | .unloadEnd q no => Sys2Proof.Machine.execUnloadEnd q no s
  | .rtcmRelay q en hopMax => Sys2Proof.Machine.execRtcmRelay q en hopMax s
  | .serverSet q id => Sys2Proof.Machine.execServerSet q id s
  | .creditWindow => Sys2Proof.Machine.execCreditWindow s
  | .reqPrioWrite r prio rq => Sys2Proof.Machine.execReqPrioWrite r prio rq s
  | .fabricRevoke p owner waiting beats => Sys2Proof.Machine.execFabricRevoke p owner waiting beats s
  | .dcStart n rq => Sys2Proof.Machine.execDcStart n rq s
  | .dcStop n rq => Sys2Proof.Machine.execDcStop n rq s
  | .dcClear n rq => Sys2Proof.Machine.execDcClear n rq s
  | .dcDoorbell n rq => Sys2Proof.Machine.execDcDoorbell n rq s
  | .dcDescriptorFetched n ok => Sys2Proof.Machine.execDcDescriptorFetched n ok s
  | .dcDataComplete n => Sys2Proof.Machine.execDcDataComplete n s
  | .dcWritebackDone n ok => Sys2Proof.Machine.execDcWritebackDone n ok s
  | .dcBeatFail n ofs wr => Sys2Proof.Machine.execDcBeatFail n ofs wr s
  | .dcBeatTimeout n ofs wr => Sys2Proof.Machine.execDcBeatTimeout n ofs wr s
  | .dcRatePauseEnd n => Sys2Proof.Machine.execDcRatePauseEnd n s
  | .dcHiPreempt n => Sys2Proof.Machine.execDcHiPreempt n s
  | .dcEnableWrite n w rq => Sys2Proof.Machine.execDcEnableWrite n w rq s
  | .errorReport src detail nd items => Sys2Proof.Machine.execErrorReport src detail nd items s
  | .errDone seq rq => Sys2Proof.Machine.execErrDone seq rq s
  | .errRaise sev detail rq => Sys2Proof.Machine.execErrRaise sev detail rq s
  | .errArmWrite word rq => Sys2Proof.Machine.execErrArmWrite word rq s
  | .handleTmo level => Sys2Proof.Machine.execHandleTmo level s
  | .dumpComplete => Sys2Proof.Machine.execDumpComplete s
  | .dumpTimeout sections => Sys2Proof.Machine.execDumpTimeout sections s
  | .cbFlushTick => Sys2Proof.Machine.execCbFlushTick s
  | .dumpList q addr => Sys2Proof.Machine.execDumpList q addr s
  | .dumpRead q slot ofs len addr => Sys2Proof.Machine.execDumpRead q slot ofs len addr s
  | .dumpErase q slot => Sys2Proof.Machine.execDumpErase q slot s
  | .cbFetch q first count addr limit => Sys2Proof.Machine.execCbFetch q first count addr limit s
  | .tagWrite q type len addr data => Sys2Proof.Machine.execTagWrite q type len addr data s
  | .tagDelete q type index => Sys2Proof.Machine.execTagDelete q type index s
  | .tagCommit => Sys2Proof.Machine.execTagCommit s
  | .updBegin q size => Sys2Proof.Machine.execUpdBegin q size s
  | .updBlock q index addr len crc data => Sys2Proof.Machine.execUpdBlock q index addr len crc data s
  | .updEnd q => Sys2Proof.Machine.execUpdEnd q s
  | .updVerifyDone sigOk fwOk => Sys2Proof.Machine.execUpdVerifyDone sigOk fwOk s
  | .activate q force => Sys2Proof.Machine.execActivate q force s
  | .inPlaceSwitch => Sys2Proof.Machine.execInPlaceSwitch s
  | .bootCopyDone => Sys2Proof.Machine.execBootCopyDone s
  | .confirm q => Sys2Proof.Machine.execConfirm q s
  | .rollback q => Sys2Proof.Machine.execRollback q s
  | .abort q => Sys2Proof.Machine.execAbort q s
  | .keySet q addr data => Sys2Proof.Machine.execKeySet q addr data s
  | .keyLock q => Sys2Proof.Machine.execKeyLock q s
  | .svcOpen q eth => Sys2Proof.Machine.execOpen q eth s
  | .auth q sig => Sys2Proof.Machine.execAuth q sig s
  | .status q => Sys2Proof.Machine.execStatus q s
  | .factoryRead q => Sys2Proof.Machine.execFactoryRead q s
  | .regRead q addr count => Sys2Proof.Machine.execRegRead q addr count s
  | .regWrite q addr words => Sys2Proof.Machine.execRegWrite q addr words s
  | .cbRead q first count => Sys2Proof.Machine.execCbRead q first count s
  | .serviceSessionTimeout => Sys2Proof.Machine.execServiceSessionTimeout s
  | .writeEnWrite en rq => Sys2Proof.Machine.execWriteEnWrite en rq s
  | .servicePortAttach device => Sys2Proof.Machine.execServicePortAttach device s
  | .studReverse k rev => Sys2Proof.Machine.execStudReverse k rev s
  | .studLow k v => Sys2Proof.Machine.execStudLow k v s
  | .studOver k curr => Sys2Proof.Machine.execStudOver k curr s
  | .sensorSupplyFoldback k => Sys2Proof.Machine.execSensorSupplyFoldback k s
  | .sensorSupplyRetry k ok => Sys2Proof.Machine.execSensorSupplyRetry k ok s
  | .thermalMeasurement plate die => Sys2Proof.Machine.execThermalMeasurement plate die s
  | .registerWrite addr value rq => Sys2Proof.Machine.execRegisterWrite addr value rq s
  | .logicFeedLow v => Sys2Proof.Machine.execLogicFeedLow v s
  | .snapCaptureDone samples => Sys2Proof.Machine.execSnapCaptureDone samples s
  | .valveChopPeriod c mean res => Sys2Proof.Machine.execValveChopPeriod c mean res s
  | .loadPwmPeriod n => Sys2Proof.Machine.execLoadPwmPeriod n s
  | .gnssPromptEpoch n samples => Sys2Proof.Machine.execGnssPromptEpoch n samples s
  | .ethLinkUp p sqi => Sys2Proof.Machine.execEthLinkUp p sqi s
  | .macEntryAgeOut vid mac => Sys2Proof.Machine.execMacEntryAgeOut vid mac s
  | .servicePortDetach => Sys2Proof.Machine.execServicePortDetach s
  | .timePulseTrailingEdge p => Sys2Proof.Machine.execTimePulseTrailingEdge p s

end Sys2Proof.Machine
end

