-- ==== Sys2Proof/Machine/Step.lean ====
section
/-! DEFINITION.  One step of the block: the command at the front of its queue; on an empty queue, one tick of time. -/

namespace Sys2Proof.Machine

/-- The block takes the command at the front and does what it does; with no command, a tick passes (log entry 3). -/
def step (s : State) : Host.Outcome State Fault Refusal :=
  match s.pending with
  | [] => .next s.idleTick
  | c :: rest => exec c { s with pending := rest }

/-- The command that a word spells, at the front of the queue; the command table gives no row any bits, so no word spells one. -/
def State.withFetchWord (s : State) (nbits w : Nat) : State :=
  match decodeTableWord nbits w with
  | some c => { s with pending := c :: s.pending }
  | none => s

end Sys2Proof.Machine
end

