-- ==== Sys2Proof/Machine/Words.lean ====
section
/-! DEFINITION.  A function core and the words of its program (R48, R49): the word at the PC of the context in which it executes,
and what a word does. -/

namespace Sys2Proof.Machine

/-- The word of ITCM at the core's PC. -/
def State.wordAtPc (s : State) (c : Fin 16) : Word := BitVec.ofNat 32 ((s.core c).itcm.readN ((s.ctx c).pc.toNat % 0x10000) 4)

/-- A core executes a word: the command that it spells, and ILLEGAL where it spells none (R49, Table 3.19). -/
def State.execWord (s : State) (c : Fin 16) (env : Env) (w : Word) : Host.Outcome State Fault Refusal :=
  match decodeWord c env w with
  | some i => exec i s
  | none => s.issue c (s.illegal c w)

/-- A core executes the word at its PC. -/
def State.execAtPc (s : State) (c : Fin 16) (env : Env) : Host.Outcome State Fault Refusal := s.execWord c env (s.wordAtPc c)

end Sys2Proof.Machine
end

