-- ==== Sys2Proof/Safety.lean ====
section
/-! DEFINITION.  What counts as a safe state of the module, in the terms the statements use. -/

namespace Sys2Proof.Machine

/-- No valve channel is energised or waits to be, and no load channel is on or waits to return. -/
def State.outputsOff (s : State) : Prop := (∀ v ∈ s.valves, v.live = false) ∧ ∀ l ∈ s.loads, l.live = false

/-- Every byte memory of the module is in its canonical form. -/
def State.memWf (s : State) : Prop :=
  s.sram.wf = true ∧ s.dram.wf = true ∧ ∀ k ∈ s.cores, k.itcm.wf = true ∧ k.dtcm.wf = true

/-- The keys of a register map rise strictly. -/
def regRising (m : RegMap) : Prop := m.Pairwise fun a b => a.1 < b.1

/-- The core executes its next instruction with nothing to take in its place or after it: no bus error of a posted store
(R65), no SLOT_END (R79), no enabled event line (R69), and the program counter in ITCM (R55). -/
def State.calm (s : State) (c : Fin 16) : Bool :=
  s.coreRuns c && (s.core c).busErr.isEmpty && (s.core c).slotEnd.isNone && (s.core c).line.isNone
    && decide ((s.ctx c).pc.toNat < 0x10000)

/-- Does another instruction follow in ITCM (R55)? -/
def State.room (s : State) (c : Fin 16) : Bool := decide ((s.ctx c).pc.toNat < 0xFFFC)

/-- The core executes in a context that exists: the idle context, or that of the activation it names. -/
def State.hasContext (s : State) (c : Fin 16) : Prop :=
  (s.core c).inIdle = true ∨ ∃ e a, (s.core c).cur = some e ∧ (s.core c).act e = some a

/-- What an instruction that ends normally does: its effect on the context, the next address, its cycles; nothing else. -/
def State.did (s : State) (c : Fin 16) (n : Nat) (f : Ctx → Ctx) : State :=
  (s.spend c n).modCtx c fun x => (f x).next

/-- What a control transfer that is taken does. -/
def State.went (s : State) (c : Fin 16) (n : Nat) (target : Word) (f : Ctx → Ctx) : State :=
  (s.spend c n).modCtx c fun x => { f x with pc := target }

/-- May a control transfer go to an address (R55)? -/
def inItcm (target : Word) : Bool := decide (target.toNat < 0x10000) && target.toNat % 4 == 0

/-- Do the fields of an instruction command name what the tables list: f registers 0 to 15, accumulators 0 to 3, control
registers 0 to 15, a lock increment of 0 to 255 (R45, R49, Tables 3.2, 3.15 and 3.18)?  A field of 32 general registers always
does. -/
def fieldsOk : Instr → Bool
  | .fadd _ a b d | .fsub _ a b d | .fmul _ a b d | .fdiv _ a b d | .fmin _ a b d | .fmax _ a b d => okF a && okF b && okF d
  | .fsqrt _ a b | .fabs _ a b | .fneg _ a b | .fmov _ a b => okF a && okF b
  | .feq _ _ b d | .flt _ _ b d | .fle _ _ b d => okF b && okF d
  | .fcvtWS _ _ b | .ftrcWS _ _ b | .fmvGF _ _ b | .fcvtQS _ _ b => okF b
  | .fcvtSW _ a _ | .fmvFG _ a _ | .fcvtSQ _ a _ => okF a
  | .fmadd _ a b d e | .fmsub _ a b d e | .fnmadd _ a b d e => okF a && okF b && okF d && okF e
  | .flw _ a _ _ _ | .fsw _ a _ _ _ => okF a
  | .mac15 _ a _ _ | .msu15 _ a _ _ | .mula15 _ a _ _ | .mac31 _ a _ _ | .msu31 _ a _ _ | .mula31 _ a _ _ => okA a
  | .aclr _ a | .ald _ a _ _ => okA a
  | .ardl _ _ b | .ardh _ _ b | .aext _ _ b _ | .aext15 _ _ b _ => okA b
  | .crd _ _ n | .cwr _ _ n => decide (n.val < 16)
  | .lock _ _ _ imm | .trylock _ _ _ imm | .unlk _ _ _ imm => lockImm imm
  | _ => true

/-- Does a float result with these flags leave FLOAT alone (R65)? -/
def State.untrapped (s : State) (c : Fin 16) (m : Nat) : Bool := !((s.ctx c).ftrap && (bit m 16 || bit m 17))

/-- The outputs are off wherever Table 2.1 says that no unit runs and no start is in progress. -/
def State.safe (s : State) : Prop :=
  match s.plat.power with
  | .off | .watch | .shutdown | .recovery => s.outputsOff
  | .starting | .run => True

end Sys2Proof.Machine
end

