-- ==== Sys2Proof/WellFormed.lean ====
section
/-! DEFINITION.  Well-formed commands: every operand fits the width that the specification gives the value it stands for.
Operands whose type already bounds them (a core, a channel, a register field) need no check.  The meanings are total:
a term that is not well-formed is not a command of the module, and no statement asks about it but for all. -/

namespace Sys2Proof

/-! ### Widths -/

def w8 (n : Nat) : Bool := decide (n < 2 ^ 8)
def w32 (n : Nat) : Bool := decide (n < 2 ^ 32)
def w64 (n : Nat) : Bool := decide (n < 2 ^ 64)

/-- A fabric address (R23, R25): 40 bits. -/
def a40 (n : Nat) : Bool := decide (n < 2 ^ 40)

def i64 (v : Int) : Bool := decide (-2 ^ 63 ≤ v) && decide (v < 2 ^ 63)

/-! ### Operands -/

/-- A fabric requester of Table 16.2. -/
def Req.wf (r : Req) : Bool := decide (r.id < 88)

def Env.wf (e : Env) : Bool := w32 e.wait

/-- A request (R88, Table 4.5): its sender a core or the service port, its reply mailbox, its tag. -/
def SvcReq.wf (q : SvcReq) : Bool := decide (q.src < 88) && decide (q.mb < 64) && w32 q.tag

def AinIn.wf (x : AinIn) : Bool := w32 x.code

/-- A CSI-2 long packet: virtual channel and data type, 16-bit pixel codes (R128). -/
def CamPacket.wf (p : CamPacket) : Bool := decide (p.vc < 16) && decide (p.dt < 64) && p.codes.all fun x => decide (x < 2 ^ 16)

def FeatCell.wf (x : FeatCell) : Bool := w32 x.u && w32 x.v && x.out.all i64
def GridOut.wf (x : GridOut) : Bool := w32 x.cell && x.out.all i64

def Solution.wf (v : Solution) : Bool :=
  w32 v.fix && w32 v.hdgSrc && w32 v.nsat && w32 v.corrAge && i64 v.lat && i64 v.lon && i64 v.height && w32 v.hu && w32 v.vu
    && i64 v.vn && i64 v.ve && w32 v.heading && w32 v.hdgU && i64 v.fieldX && i64 v.fieldY

def Xyz.wf (p : Xyz) : Bool := i64 p.x && i64 p.y && i64 p.z

/-- A CAN frame (R266): an identifier of 11 or 29 bits, at most 64 bytes. -/
def CanFrame.wf (f : CanFrame) : Bool :=
  decide (f.id < if f.ide then 2 ^ 29 else 2 ^ 11) && decide (f.dlc < 16) && decide (f.data.length ≤ 64) && f.data.all w8 && w64 f.start

def PgnOut.wf (o : PgnOut) : Bool := w32 o.pgn && w32 o.dest && w32 o.prio && w32 o.len && a40 o.addr

/-- A JFX header (Table 15.3): words of 32 bits. -/
def JfxHead.wf (h : JfxHead) : Bool := w32 h.sender && w32 h.session && w32 h.seq && w32 h.dest

def TileFrag.wf (t : TileFrag) : Bool :=
  w32 t.field && i64 t.lat && i64 t.lon && w32 t.edge && i64 t.i && i64 t.j && w32 t.tileSeq && w32 t.frag && w32 t.nfrag
    && t.runs.all fun r => w32 r.1 && w32 r.2.1 && w32 r.2.2

def LoadMeas.wf (m : LoadMeas) : Bool := w32 m.curr && w32 m.vout && w32 m.feed

/-! ### Commands -/

def Instr.wellFormed (i : Instr) : Bool :=
  match i with
  | .rstReqWarm pass rq => w32 pass && rq.wf
  | .rstReqWatch pass rq => w32 pass && rq.wf
  | .watchSnapshotDone _ lat lon hu time unc => i64 lat && i64 lon && w32 hu && w32 time && w32 unc
  | .osvHoldTimeExpiry _ n => w32 n
  | .osvAbortTimeExpiry _ n => w32 n
  | .osvSealWrite rq => rq.wf
  | .lw _ _ _ _ env => env.wf
  | .lh _ _ _ _ env => env.wf
  | .lhu _ _ _ _ env => env.wf
  | .lb _ _ _ _ env => env.wf
  | .lbu _ _ _ _ env => env.wf
  | .sw _ _ _ _ wait => w32 wait
  | .sh _ _ _ _ wait => w32 wait
  | .sb _ _ _ _ wait => w32 wait
  | .flw _ _ _ _ env => env.wf
  | .fsw _ _ _ _ wait => w32 wait
  | .barIo _ wait => w32 wait
  | .barMem _ wait => w32 wait
  | .barAll _ wait => w32 wait
  | .majorFrameBoundary errs => errs.all a40
  | .validate _ rq => rq.wf
  | .invalidate _ rq => rq.wf
  | .coreRunWrite _ _ rq => rq.wf
  | .coreReset _ rq => rq.wf
  | .swapSet mask rq => w32 mask && rq.wf
  | .lstepCfgWrite pair rq => w32 pair && rq.wf
  | .migGo _ _ rq => rq.wf
  | .migrationCopyDone _ _ dtcmBad => dtcmBad.all w32
  | .lkFree _ rq => rq.wf
  | .mbCfgWrite _ w rq => w32 w && rq.wf
  | .serviceReplyDrop index => w32 index
  | .bankLoad q core addr len => q.wf && w32 core && a40 addr && w32 len
  | .partList q addr => q.wf && a40 addr
  | .loopEnable _ _ _ rq => rq.wf
  | .coefSwap _ _ rq => rq.wf
  | .intLoad _ _ rq => rq.wf
  | .rtSwitch _ _ rq => rq.wf
  | .traceArm _ rq => rq.wf
  | .traceSoft _ rq => rq.wf
  | .traceStop _ rq => rq.wf
  | .ainConversion inputs => inputs.all AinIn.wf
  | .ainValueWrite slot => w32 slot
  | .lsSample _ x _ => i64 x
  | .lsOpenTest _ resp => w32 resp
  | .lsRestart _ rq => rq.wf
  | .imuOutput raw temp => raw.all i64 && i64 temp
  | .camCfgWrite _ _ value rq => w32 value && rq.wf
  | .camFs _ p => w32 p.vc
  | .camLine _ packet => packet.wf
  | .camFe _ p => w32 p.vc
  | .setGo _ nw => w32 nw
  | .tblSwitch _ rq => rq.wf
  | .cameraObjectArrival _ fseq _ => w32 fseq
  | .lidarBlockArrival _ slot => w32 slot
  | .featureExtractDone _ out => out.all FeatCell.wf
  | .gridPublish gm => gm.all GridOut.wf
  | .modelSwap _ rq => rq.wf
  | .ttCommit _ rq => rq.wf
  | .hgCommit rq => rq.wf
  | .cvEnable word rq => w32 word && rq.wf
  | .sensMaskWrite _ word rq => w32 word && rq.wf
  | .mfSpWrite _ v rq => w32 v && rq.wf
  | .miValWrite _ word => w32 word
  | .trimClr _ rq => rq.wf
  | .vdOff _ hold => w32 hold
  | .vdStart _ hold => w32 hold
  | .vdTrim _ hold => w32 hold
  | .valveBoostTimeout _ curr => w32 curr
  | .valveSwitchOffEnd _ energy => w64 energy
  | .boostFree _ rail => w32 rail
  | .railFail _ rail => w32 rail
  | .railFailClear _ rail => w32 rail
  | .dutyUpdate _ meanSq => w64 meanSq
  | .valveShort _ curr => w32 curr
  | .valveOpenDetect _ curr => w32 curr
  | .valveOvertemp _ curr => w32 curr
  | .bankShort _ curr => w32 curr
  | .bankHot _ curr temp => w32 curr && w32 temp
  | .bankFeedLow _ curr _ => w32 curr
  | .pgndOpen _ curr => w32 curr
  | .vbClear _ temp rq => i64 temp && rq.wf
  | .vbRst _ rq => rq.wf
  | .vdFlagsRearm _ word temp rq => w32 word && w32 temp && rq.wf
  | .lcOff _ energy => w64 energy
  | .lcPwm _ duty energy => w32 duty && w64 energy
  | .loadOverload _ energy => w64 energy
  | .loadShort _ _ curr energy => w32 curr && w64 energy
  | .loadThermalUpdate _ m power die energy => m.wf && w32 power && i64 die && w64 energy
  | .openOn x => x.m.wf
  | .openOff x => x.m.wf
  | .loadUv _ feed => w32 feed
  | .loadUvReturn _ feed => w32 feed
  | .grpHot _ die curr => i64 die && w32 curr
  | .lgClear _ die rq => i64 die && rq.wf
  | .lgRst _ rq => rq.wf
  | .lcFlagsRearm _ word rq => w32 word && rq.wf
  | .gnssDump _ sums => sums.all i64
  | .gcConfigWrite _ _ word rq => w32 word && rq.wf
  | .gcCodeAdj _ word rq => w32 word && rq.wf
  | .gcCarrAdj _ word rq => w32 word && rq.wf
  | .claim q first count owner => q.wf && w32 first && w32 count && w32 owner
  | .release q first count => q.wf && w32 first && w32 count
  | .solCfg q rate log2n ring point => q.wf && w32 rate && w32 log2n && w32 ring && point.wf
  | .antCfg q a b _ => q.wf && a.wf && b.wf
  | .rtcmIn q src addr len => q.wf && w32 src && a40 addr && w32 len
  | .rtkCfg q prio srcTmo corrMax drMax => q.wf && w32 prio && w32 srcTmo && w32 corrMax && w32 drMax
  | .snap q len dest addr => q.wf && w32 len && w32 dest && a40 addr
  | .watchLog q addr => q.wf && a40 addr
  | .solutionRecord mtc v => w64 mtc && v.wf
  | .jam _ gain => w32 gain.now && w32 gain.clear
  | .qualifyingTimeSolution time u0 y leap => i64 time && w64 u0 && i64 y && leap.all w64
  | .tpConfigWrite _ _ word id sup => w32 word && (Req.mk id sup).wf
  | .openField q id _ edge layers lat lon height => q.wf && w32 id && w32 edge && w32 layers && i64 lat && i64 lon && i64 height
  | .closeField q => q.wf
  | .listFields q addr => q.wf && a40 addr
  | .deleteField q id => q.wf && w32 id
  | .readCells q layer i0 j0 i1 j1 addr => q.wf && w32 layer && i64 i0 && i64 j0 && i64 i1 && i64 j1 && a40 addr
  | .writeCells q layer i0 j0 i1 j1 addr => q.wf && w32 layer && i64 i0 && i64 j0 && i64 i1 && i64 j1 && a40 addr
  | .exportField q id dry addr limit => q.wf && w32 id && w32 dry && a40 addr && w32 limit
  | .flush q => q.wf
  | .canFrameReceived _ f => f.wf
  | .rxwSelWrite _ _ v rq => w32 v && rq.wf
  | .rxwRel _ _ rq => rq.wf
  | .rxwConsume _ _ rq => rq.wf
  | .txwWrite _ _ v rq => w32 v && rq.wf
  | .canTxReq _ mask rq => w32 mask && rq.wf
  | .canTxCancel _ mask rq => w32 mask && rq.wf
  | .canTxStartOfFrame _ won tdcv => won.all w64 && w32 tdcv
  | .canBusError _ _ _ inc => w32 inc
  | .recover _ rq => rq.wf
  | .canInitWrite _ _ rq => rq.wf
  | .canRst _ rq => rq.wf
  | .netOpen q can kind rate notify leave => q.wf && w32 can && w32 kind && w32 rate && w32 notify && w32 leave
  | .netClose q net => q.wf && w32 net
  | .cfAdd q net record addr => q.wf && w32 net && w32 record && a40 addr
  | .pgnSub q net pgn source addr size => q.wf && w32 net && w32 pgn && w32 source && a40 addr && w32 size
  | .pgnSend q net cf out => q.wf && w32 net && w32 cf && out.wf
  | .vtPool q net cf addr len label => q.wf && w32 net && w32 cf && a40 addr && w32 len && label.all w8
  | .tcMap q net name pairs => q.wf && w32 net && w64 name && (pairs.all fun p => w32 p.1 && w32 p.2)
  | .netList q net addr => q.wf && w32 net && a40 addr
  | .cfLeaveTimeout _ name => w64 name
  | .ethFrameReceived _ d _ stamp => d.all w8 && w64 stamp
  | .ptpPdelayTimer _ ns => w32 ns
  | .hqTxWr _ v rq => w32 v && rq.wf
  | .jfxHello h fleet cls field => h.wf && w32 fleet && w32 cls && w32 field
  | .jfxChallenge h na => h.wf && w64 na
  | .jfxResponse h na => h.wf && w64 na
  | .jfxBye h => h.wf
  | .jfxState h fields => h.wf && fields.all w32
  | .jfxTile h f => h.wf && f.wf
  | .jfxUnloadReq h no fields => h.wf && w32 no && fields.all w32
  | .jfxUnloadOffer h no fields => h.wf && w32 no && fields.all w32
  | .jfxUnloadAccept h no fields => h.wf && w32 no && fields.all w32
  | .jfxUnloadState h no fields => h.wf && w32 no && fields.all w32
  | .jfxUnloadEnd h no => h.wf && w32 no
  | .jfxRtcm h src hop bytes => h.wf && w32 src && w32 hop && bytes.all w8
  | .jfxSnap h => h.wf
  | .jfxWatchPos h => h.wf
  | .jfxUser h bytes => h.wf && bytes.all w8
  | .jfxAck h seq => h.wf && w32 seq
  | .jfxAdmissionTimeout id => w32 id
  | .jfxBlockExpiry id => w32 id
  | .jfxPeerAgeOut id => w32 id
  | .jfxUnloadLost no => w32 no
  | .jfxTileReassemblyTimeout sender tileSeq => w32 sender && w32 tileSeq
  | .jfxStart q cls notify helloT ageT => q.wf && w32 cls && w32 notify && w32 helloT && w32 ageT
  | .jfxStop q => q.wf
  | .peerList q addr => q.wf && a40 addr
  | .peerBlock q id _ => q.wf && w32 id
  | .sendUser q dest len addr _ => q.wf && w32 dest && w32 len && a40 addr
  | .unloadReq q no fields => q.wf && w32 no && fields.all w32
  | .unloadOffer q no fields => q.wf && w32 no && fields.all w32
  | .unloadAccept q no member fields => q.wf && w32 no && w32 member && fields.all w32
  | .unloadState q no fields => q.wf && w32 no && fields.all w32
  | .unloadEnd q no => q.wf && w32 no
  | .rtcmRelay q _ hopMax => q.wf && w32 hopMax
  | .serverSet q id => q.wf && w32 id
  | .reqPrioWrite _ prio rq => w32 prio && rq.wf
  | .fabricRevoke _ _ _ beats => w32 beats
  | .dcStart _ rq => rq.wf
  | .dcStop _ rq => rq.wf
  | .dcClear _ rq => rq.wf
  | .dcDoorbell _ rq => rq.wf
  | .dcBeatFail _ ofs _ => w32 ofs
  | .dcBeatTimeout _ ofs _ => w32 ofs
  | .dcEnableWrite _ w rq => w32 w && rq.wf
  | .errorReport src detail nd items => w32 src && w32 detail && w32 nd && items.all w32
  | .errDone seq rq => w32 seq && rq.wf
  | .errRaise sev detail rq => w32 sev && w32 detail && rq.wf
  | .errArmWrite word rq => w32 word && rq.wf
  | .dumpTimeout sections => w32 sections
  | .dumpList q addr => q.wf && a40 addr
  | .dumpRead q slot ofs len addr => q.wf && w32 slot && w32 ofs && w32 len && a40 addr
  | .dumpErase q slot => q.wf && w32 slot
  | .cbFetch q first count addr limit => q.wf && w32 first && w32 count && a40 addr && w32 limit
  | .tagWrite q type len addr data => q.wf && w32 type && w32 len && a40 addr && data.all w8
  | .tagDelete q type index => q.wf && w32 type && w32 index
  | .updBegin q size => q.wf && w32 size.setId && w32 size.blocks
  | .updBlock q index addr len crc data => q.wf && w32 index && a40 addr && w32 len && w32 crc && data.all w8
  | .updEnd q => q.wf
  | .activate q _ => q.wf
  | .confirm q => q.wf
  | .rollback q => q.wf
  | .abort q => q.wf
  | .keySet q addr data => q.wf && a40 addr && data.all w8
  | .keyLock q => q.wf
  | .svcOpen q _ => q.wf
  | .auth q _ => q.wf
  | .status q => q.wf
  | .factoryRead q => q.wf
  | .regRead q addr count => q.wf && a40 addr && w32 count
  | .regWrite q addr words => q.wf && a40 addr && words.all w32
  | .cbRead q first count => q.wf && w32 first && w32 count
  | .writeEnWrite _ rq => rq.wf
  | .studLow _ v => w32 v
  | .studOver _ curr => w32 curr
  | .thermalMeasurement plate die => w32 plate && w32 die
  | .registerWrite addr value rq => a40 addr && w32 value && rq.wf
  | .logicFeedLow v => w32 v
  | .snapCaptureDone samples => samples.all w32
  | .valveChopPeriod _ mean res => w32 mean && res.all w64
  | .gnssPromptEpoch _ samples => w32 samples
  | .macEntryAgeOut vid mac => w32 vid && w64 mac
  | .logicFeedRise _ _ _ _ _ | .logicFeedLoss | .logicFeedDip | .tcxoStable | .pllLocked _ _ | .bootImageSelected
  | .serviceFwRunning _ _ _ _ | .supervisorFirstInstr | .keyOff | .keyOn | .keyoffLimitExpiry | .shutdownFlushComplete
  | .wakeKey | .wakeLine | .wakeCanFrame _ | .wakeServicePort | .watchSnapshotTimer | .pllLockLoss | .tcxoStop
  | .estopOpen | .estopClose | .estopTestPulse | .estopTestPulseEnd _ | .add _ _ _ _ | .sub _ _ _ _ | .and _ _ _ _
  | .or _ _ _ _ | .xor _ _ _ _ | .nor _ _ _ _ | .slt _ _ _ _ | .sltu _ _ _ _ | .sll _ _ _ _ | .srl _ _ _ _
  | .sra _ _ _ _ | .slli _ _ _ _ | .srli _ _ _ _ | .srai _ _ _ _ | .addv _ _ _ _ | .subv _ _ _ _ | .adds _ _ _ _
  | .subs _ _ _ _ | .min _ _ _ _ | .max _ _ _ _ | .minu _ _ _ _ | .maxu _ _ _ _ | .clz _ _ _ | .sextb _ _ _
  | .sexth _ _ _ | .addi _ _ _ _ | .andi _ _ _ _ | .ori _ _ _ _ | .xori _ _ _ _ | .slti _ _ _ _ | .sltiu _ _ _ _
  | .lui _ _ _ | .mul _ _ _ _ | .mulh _ _ _ _ | .mulhu _ _ _ _ | .div _ _ _ _ | .divu _ _ _ _ | .rem _ _ _ _
  | .remu _ _ _ _ | .postedStoreComplete _ _ | .postedStoreBusError _ _ | .beq _ _ _ _ | .bne _ _ _ _ | .blt _ _ _ _
  | .bge _ _ _ _ | .bltu _ _ _ _ | .bgeu _ _ _ _ | .j _ _ | .jal _ _ | .jalr _ _ _ _ | .fadd _ _ _ _ | .fsub _ _ _ _
  | .fmul _ _ _ _ | .fdiv _ _ _ _ | .fsqrt _ _ _ | .fmin _ _ _ _ | .fmax _ _ _ _ | .fabs _ _ _ | .fneg _ _ _
  | .fmov _ _ _ | .feq _ _ _ _ | .flt _ _ _ _ | .fle _ _ _ _ | .fcvtSW _ _ _ | .fcvtWS _ _ _ | .ftrcWS _ _ _
  | .fmvFG _ _ _ | .fmvGF _ _ _ | .fcvtSQ _ _ _ | .fcvtQS _ _ _ | .fmadd _ _ _ _ _ | .fmsub _ _ _ _ _
  | .fnmadd _ _ _ _ _ | .qadd15 _ _ _ _ | .qsub15 _ _ _ _ | .qmul15 _ _ _ _ | .qneg15 _ _ _ | .qabs15 _ _ _
  | .qsat15 _ _ _ | .qadd31 _ _ _ _ | .qsub31 _ _ _ _ | .qmul31 _ _ _ _ | .qneg31 _ _ _ | .qabs31 _ _ _
  | .qshl31 _ _ _ _ | .mac15 _ _ _ _ | .msu15 _ _ _ _ | .mula15 _ _ _ _ | .mac31 _ _ _ _ | .msu31 _ _ _ _
  | .mula31 _ _ _ _ | .aclr _ _ | .ald _ _ _ _ | .ardl _ _ _ | .ardh _ _ _ | .aext _ _ _ _ | .aext15 _ _ _ _ | .yield _
  | .waitslot _ _ _ | .swap _ _ | .eret _ | .nop _ | .crd _ _ _ | .cwr _ _ _ | .trap _ _ | .lock _ _ _ _
  | .trylock _ _ _ _ | .unlk _ _ _ _ | .lockWaitTimeout _ | .msend _ _ _ _ | .mrecv _ _ _ _ | .mrecvw _ _ _ _
  | .tmark _ _ _ | .rtrd _ _ _ _ | .rtwr _ _ _ _ | .rttag _ _ _ | .eventLine _ _ | .lockstepMismatch _ | .slotStart _
  | .overrunKill _ | .bankValidationDone _ | .coreResetDone _ | .loopInputReturn _ _ _ _ _ | .loopOutputIssue _ _ _
  | .loopOutputBusError _ _ | .ainEdge _ _ _ | .ainIndexEdge _ | .ainShuntReconnect _ | .lsBinClose _ | .lsBinDeliver _
  | .lsBinRead _ | .lsSilentTimeout _ | .camMissingPeriod _ | .camDescriptorWrite _ | .camStatsWrite _ | .camLinkUp _
  | .camLinkLoss _ | .camDisableTimeout _ | .setWriteDone _ _ | .epochReleaseTimeout | .modelOldRelease _
  | .mfOutputSwitch _ | .groundProfileComplete | .valveBoostEnd _ | .valvePeakEnd _ | .valveHoldEnd _
  | .boostWaitExpiry _ | .regFail _ | .leak _ | .lcOn _ | .inrushWindowEnd _ | .clampBudgetDecay | .drMaxExpiry
  | .rtkSourceTimeout | .antOpen _ | .antShort _ | .lossTExpiry | .holdoverLimitExpiry | .timeStep | .slewEnd
  | .tuNowLatch | .convLatch | .timePulseEdge _ _ | .stripPlace | .stripPlaceTimeout | .gridPlace | .revisionApply
  | .sectionCommandWrite _ | .tileFlushTimer | .tileFlushComplete | .fieldDrainTimeout | .fleetTileMerge
  | .coverTileOffer | .rxwWord0Read _ _ | .rxwLastwRead _ _ | .canTxComplete _ _ | .canTxevPop _
  | .canBusOffRecovered _ | .canIntegrationDone _ | .addressClaimDone _ _ | .tcSetpointRefresh _ | .ethLinkLoss _
  | .ptpSyncTimer | .blkTmoExpiry _ | .lidarBlockWrite _ | .hqTxSent _ | .jfxHelloTimer | .jfxStateTimer
  | .jfxSnapWindowTimeout | .creditWindow | .dcDescriptorFetched _ _ | .dcDataComplete _ | .dcWritebackDone _ _
  | .dcRatePauseEnd _ | .dcHiPreempt _ | .handleTmo _ | .dumpComplete | .cbFlushTick | .tagCommit | .updVerifyDone _ _
  | .inPlaceSwitch | .bootCopyDone | .serviceSessionTimeout | .servicePortAttach _ | .studReverse _ _
  | .sensorSupplyFoldback _ | .sensorSupplyRetry _ _ | .loadPwmPeriod _ | .ethLinkUp _ _ | .servicePortDetach
  | .timePulseTrailingEdge _ => true

end Sys2Proof
end

