-- ==== Sys2Proof/Certificates/Slice0/Obligations.lean ====
section
/-! DEFINITION.  The statements for the provers.  Each says which rules and tables of the specification it formalises; one that rests
on a choice of the model names the log entry. -/

open Sys2Proof Sys2Proof.Machine Sys2Proof.Reg

/-- Commands are taken one at a time, first in, first out (the block's queue, log entry 3). -/
def Obligations.StepTakesTheFrontCommand : Prop :=
  ∀ (c : Instr) (s : State), step { s with pending := c :: s.pending } = exec c s

/-- The model's choice of log entry 3: a tick is what a step does when no command waits. -/
def Obligations.EmptyQueueLetsATickPass : Prop :=
  ∀ s : State, s.pending = [] →
    step s = .next s.idleTick ∧ s.idleTick.pending = [] ∧
      (s.plat.power = .run → s.idleTick.mtc = s.mtc + 1)

/-- R6, R31, R33 and R34 on the state after a power-on reset. -/
def Obligations.ResetLeavesTheModuleAtT0 : Prop :=
  State.reset.plat.power = .starting ∧ State.reset.plat.step = .t0 ∧ State.reset.mtc = 0 ∧ State.reset.errs.fatal = none ∧
    State.reset.pending = [] ∧ State.reset.outputsOff ∧ State.reset.memWf ∧
    (∀ c : Fin 16, State.reset.core c = Core.zero) ∧ Core.zero.life = .halted ∧ Core.zero.ctx.priv = true ∧
    Core.zero.itcm = [] ∧ Core.zero.dtcm = [] ∧
    (∀ (f : Fld) (i j k : Nat), f.key i j k ≠ CB_CNT.RECORDS.key 0 0 0 → State.reset.get f i j k = f.reset i j k)

/-- Table 2.3, instant by instant. It states that exec answers a next state, under conditions on the state and the operands alone, for each of these constructors of Instr: logicFeedRise, logicFeedLoss, logicFeedDip, tcxoStable, pllLocked, bootImageSelected, serviceFwRunning, supervisorFirstInstr. -/
def Obligations.FeedAndStartSequence : Prop :=
  (∀ (s : State) (strap key wake closed low : Bool), s.plat.power = .off →
      ∃ t, exec (.logicFeedRise strap key wake closed low) s = .next t ∧ t = s.feedRise strap key wake closed low ∧
        t.plat.power = .starting ∧ t.plat.step = .t0 ∧ t.mtc = 0 ∧ t.dram = []) ∧
    (∀ s : State, ∃ t, exec .logicFeedLoss s = .next t ∧ t.plat.power = .off ∧ t.dram = [] ∧ t.plat.usb = none) ∧
    (∀ s : State, s.plat.power ≠ .off → exec .logicFeedDip s = .next (s.count SUP_CNT.HOLDUP)) ∧
    (∀ s : State, s.atStart .t0 = true →
      ∃ t, exec .tcxoStable s = .next t ∧ t.plat.step = .t1 ∧ t.mtc = 0 ∧ t.regs = s.regs ∧ t.cores = s.cores) ∧
    (∀ (s : State) (a b : Bool), s.atStart .t1 = true → s.on SVC_STAT.STRAP = false → s.manager.copy.isSome = true →
      ∃ t, exec (.pllLocked a b) s = .next t ∧ t.plat.step = .t2 ∧ t.plat.power = .starting ∧ t.regs = s.regs) ∧
    (∀ (s : State) (a b : Bool), s.atStart .t1 = true → s.on SVC_STAT.STRAP = true →
      ∃ t, exec (.pllLocked a b) s = .next t ∧ t.plat.power = .recovery) ∧
    (∀ s : State, s.atStart .t2 = true → s.manager.copy = none →
      exec .bootImageSelected s = .next (s.bootRecord.toStep .t3) ∧ (s.bootRecord.toStep .t3).plat.step = .t3) ∧
    (∀ (s : State) (a b d e : Bool), s.atStart .t3 = true →
      exec (.serviceFwRunning a b d e) s = .next (s.firmware a b d e)) ∧
    (∀ s : State, s.atStart .t4 = true →
      ∃ t, exec .supervisorFirstInstr s = .next t ∧ t.plat.power = .run ∧ (regRising s.regs → t.on OSV_CTL.SEAL = false) ∧ t.cores = s.cores)

/-- Tables 2.1 and 2.2. It states that exec answers a next state, under conditions on the state and the operands alone, for each of these constructors of Instr: keyOff, keyOn, keyoffLimitExpiry, rstReqWarm, rstReqWatch, shutdownFlushComplete, wakeKey, wakeLine, wakeCanFrame, wakeServicePort, watchSnapshotTimer, watchSnapshotDone. -/
def Obligations.KeyShutdownAndWatch : Prop :=
  (∀ s : State, s.plat.power = .run → s.on PWR_STATE.KEY = true →
      exec .keyOff s = .next (((s.put PWR_STATE.KEY 0).modPlat fun p => { p with keyOff := true, keyOffAt := s.mtc }).platEvent 0x0001 0)) ∧
    (∀ s : State, s.units = true → s.plat.keyOff = true →
      exec .keyOn s = .next (((s.put PWR_STATE.KEY 1).modPlat fun p => { p with keyOff := false }).platEvent 0x0002 0)) ∧
    (∀ s : State, s.plat.power = .run → s.plat.keyOff = true →
      s.plat.keyOffAt + 200000000 * clampN 1 600 (s.get KEYOFF_LIMIT.LIM) ≤ s.mtc → s.updState ≠ updActivating → s.errs.fatal = none →
      ∃ t, exec .keyoffLimitExpiry s = .next t ∧ t.plat.power = .shutdown ∧ t = s.shutdown 1) ∧
    (∀ (s : State) (rq : Req), rq.sup = true → s.plat.power = .run → s.errs.fatal = none →
      exec (.rstReqWarm 0x6B0D rq) s = .next (s.warmNow .supReq)) ∧
    (∀ (s : State) (rq : Req), rq.sup = true → s.plat.power = .run → s.errs.fatal = none →
      exec (.rstReqWatch 0x6B0D rq) s = .next (s.shutdown 0)) ∧
    (∀ s : State, s.plat.power = .shutdown → s.errs.fatal = none →
      ∃ t, exec .shutdownFlushComplete s = .next t ∧ t.plat.power = .watch) ∧
    (∀ s : State, s.plat.power = .watch → s.plat.watchFrom + 2000000 ≤ s.mtc → exec .wakeKey s = .next ((s.put PWR_STATE.KEY 1).wake 0)) ∧
    (∀ s : State, s.plat.power = .watch → s.on WAKE_CFG.WAKE_EN = true →
      exec .wakeLine s = .next ((s.put PWR_STATE.WAKE (b2n (!s.on WAKE_CFG.WAKE_POL))).wake 1)) ∧
    (∀ s : State, s.plat.power = .watch → s.on WAKE_CFG.WAKE_EN = false → exec .wakeLine s = .next (s.put PWR_STATE.WAKE (b2n (!s.on PWR_STATE.WAKE)))) ∧
    (∀ s : State, s.plat.power = .run → exec .wakeLine s = .next ((s.put PWR_STATE.WAKE (b2n (!s.on PWR_STATE.WAKE))))) ∧
    (∀ (s : State) (n : Fin 8), s.plat.power = .watch → s.on WAKE_CFG.CAN_EN = true → s.get WAKE_CFG.CAN_SEL = n.val →
      exec (.wakeCanFrame n) s = .next (s.wake 2)) ∧
    (∀ s : State, s.plat.power = .watch → s.on WAKE_CFG.USB_EN = true → s.plat.usbStood = false →
      exec .wakeServicePort s = .next ((s.modPlat fun p => { p with usb := some true }).wake 3)) ∧
    (∀ s : State, s.plat.power = .watch → s.on WAKE_CFG.SNAP_EN = true →
      s.plat.snapAt + 200000000 * (60 * clampN 1 60 (s.get WAKE_CFG.SNAP_MIN)) ≤ s.mtc →
      exec .watchSnapshotTimer s = .next (s.modPlat fun p => { p with snapshot := true, snapAt := s.mtc })) ∧
    (∀ (s : State) (lat lon : Int) (hu time unc : Nat), s.plat.power = .watch → s.plat.snapshot = true →
      s.mtc ≤ s.plat.watchFrom + 4 * 3600 * 200000000 →
      exec (.watchSnapshotDone true lat lon hu time unc) s =
        .next ((s.modPlat fun p => { p with snapshot := false }).watchAdd ⟨s.mtc, 1, lat, lon, hu, time, unc⟩))

/-- R33 and Table 2.4 for a start from WATCH. -/
def Obligations.WakingEntersStarting : Prop :=
  ∀ (s : State) (src : Nat), src < 4 → 
    (s.wake src).plat.power = .starting ∧ (s.wake src).plat.step = .t2 ∧ (s.wake src).plat.cause = .wake ∧
      (s.wake src).mtc = s.mtc ∧ (s.wake src).dram = s.dram ∧ (regRising s.regs → (s.wake src).get WAKE_SRC.SRC = src)

/-- Table 2.5 and the ESTOP rules. It states that exec answers a next state, under conditions on the state and the operands alone, for each of these constructors of Instr: pllLockLoss, tcxoStop, osvHoldTimeExpiry, osvAbortTimeExpiry, osvSealWrite, estopOpen, estopClose, estopTestPulse, estopTestPulseEnd. -/
def Obligations.ClocksHoldAndEstop : Prop :=
  (∀ s : State, s.plat.power ≠ .recovery → exec .pllLockLoss s = .next (s.errReport errPllLock 0 platNode [])) ∧
    (∀ s : State, exec .tcxoStop s = .next s.outputsDead ∧ s.outputsDead.outputsOff) ∧
    (∀ (s : State) (c : Fin 32), (s.valve c).held = true → s.osvVd c % 4 ≠ 2 →
      (s.valve c).onset + 200000 * clampN 10 2500 (s.get OSV_HOLD_TIME.HT) ≤ s.mtc →
      exec (.osvHoldTimeExpiry false c.val) s =
        .next (((s.endValveHold c .timeout).switchFast c).count OSV_STAT.TIMEOUT_CNT)) ∧
    (∀ (s : State) (c : Fin 32), (s.valve c).held = true → s.osvVd c % 4 ≠ 1 →
      (s.valve c).onset + 20000000 * clampN 5 100 (s.get OSV_ABORT_TIME.AT) ≤ s.mtc →
      exec (.osvAbortTimeExpiry false c.val) s =
        .next (((s.endValveHold c .abort).switchFast c).count OSV_STAT.TIMEOUT_CNT)) ∧
    (∀ (s : State) (rq : Req), rq.sup = true → s.badMode = false → exec (.osvSealWrite rq) s = .next (s.put OSV_CTL.SEAL 1)) ∧
    (∀ (s : State) (rq : Req), rq.sup = true → s.badMode = true → exec (.osvSealWrite rq) s = .next (s.put OSV_CTL.SEAL_REF 1)) ∧
    (∀ s : State, s.plat.power ≠ .off → s.plat.loopClosed = true → s.plat.estopTest = false →
      exec .estopOpen s = .next (((s.modPlat fun p => { p with loopClosed := false }).putB PWR_STATE.ESTOP false).estopCut false)) ∧
    (∀ s : State, s.plat.power ≠ .off → s.plat.loopClosed = false →
      ∃ t, exec .estopClose s = .next t ∧ t.plat.loopClosed = true ∧ t.valves = s.valves ∧ t.loads = s.loads) ∧
    (∀ s : State, s.plat.power ≠ .off → exec .estopTestPulse s = .next (s.modPlat fun p => { p with estopTest := true })) ∧
    (∀ s : State, s.plat.power ≠ .off → s.plat.estopTest = true → s.plat.loopOpening = false →
      exec (.estopTestPulseEnd true) s = .next ((s.modPlat fun p => { p with estopTest := false, loopOpening := false }).estopFault)) ∧
    (∀ s : State, s.plat.power ≠ .off → s.plat.estopTest = true → s.plat.loopOpening = false → s.plat.estopFed = false →
      exec (.estopTestPulseEnd false) s =
        .next (s.modPlat fun p => { p with estopTest := false, loopOpening := false, estopPass := min 3 (p.estopPass + 1) }))

/-- R50 and R57 for the register forms. It states that exec answers a next state, under conditions on the state and the operands alone, for each of these constructors of Instr: add, sub, and, or, xor, nor, slt, sltu, sll, srl, sra, slli, srli, srai, adds, subs, min, max, minu, maxu, clz, sextb, sexth, nop. -/
def Obligations.IntegerRegisterForms : Prop :=
  (∀ (s : State) (c : Fin 16) (a b d : Fin 32), s.calm c = true → s.room c = true → 
      exec (.add c a b d) s = .next (s.did c 1 fun x => x.setG a (x.getG b + x.getG d))) ∧
    (∀ (s : State) (c : Fin 16) (a b d : Fin 32), s.calm c = true → s.room c = true → 
      exec (.sub c a b d) s = .next (s.did c 1 fun x => x.setG a (x.getG b - x.getG d))) ∧
    (∀ (s : State) (c : Fin 16) (a b d : Fin 32), s.calm c = true → s.room c = true → 
      exec (.and c a b d) s = .next (s.did c 1 fun x => x.setG a (x.getG b &&& x.getG d))) ∧
    (∀ (s : State) (c : Fin 16) (a b d : Fin 32), s.calm c = true → s.room c = true → 
      exec (.or c a b d) s = .next (s.did c 1 fun x => x.setG a (x.getG b ||| x.getG d))) ∧
    (∀ (s : State) (c : Fin 16) (a b d : Fin 32), s.calm c = true → s.room c = true → 
      exec (.xor c a b d) s = .next (s.did c 1 fun x => x.setG a (x.getG b ^^^ x.getG d))) ∧
    (∀ (s : State) (c : Fin 16) (a b d : Fin 32), s.calm c = true → s.room c = true → 
      exec (.nor c a b d) s = .next (s.did c 1 fun x => x.setG a (~~~(x.getG b ||| x.getG d)))) ∧
    (∀ (s : State) (c : Fin 16) (a b d : Fin 32), s.calm c = true → s.room c = true → 
      exec (.slt c a b d) s = .next (s.did c 1 fun x => x.setG a (if (x.getG b).slt (x.getG d) then 1 else 0))) ∧
    (∀ (s : State) (c : Fin 16) (a b d : Fin 32), s.calm c = true → s.room c = true → 
      exec (.sltu c a b d) s = .next (s.did c 1 fun x => x.setG a (if (x.getG b).ult (x.getG d) then 1 else 0))) ∧
    (∀ (s : State) (c : Fin 16) (a b d : Fin 32), s.calm c = true → s.room c = true → 
      exec (.sll c a b d) s = .next (s.did c 1 fun x => x.setG a (x.getG b <<< ((x.getG d).toNat % 32)))) ∧
    (∀ (s : State) (c : Fin 16) (a b d : Fin 32), s.calm c = true → s.room c = true → 
      exec (.srl c a b d) s = .next (s.did c 1 fun x => x.setG a (x.getG b >>> ((x.getG d).toNat % 32)))) ∧
    (∀ (s : State) (c : Fin 16) (a b d : Fin 32), s.calm c = true → s.room c = true → 
      exec (.sra c a b d) s = .next (s.did c 1 fun x => x.setG a ((x.getG b).sshiftRight ((x.getG d).toNat % 32)))) ∧
    (∀ (s : State) (c : Fin 16) (a b sh : Fin 32), s.calm c = true → s.room c = true → 
      exec (.slli c a b sh) s = .next (s.did c 1 fun x => x.setG a (x.getG b <<< sh.val))) ∧
    (∀ (s : State) (c : Fin 16) (a b sh : Fin 32), s.calm c = true → s.room c = true → 
      exec (.srli c a b sh) s = .next (s.did c 1 fun x => x.setG a (x.getG b >>> sh.val))) ∧
    (∀ (s : State) (c : Fin 16) (a b sh : Fin 32), s.calm c = true → s.room c = true → 
      exec (.srai c a b sh) s = .next (s.did c 1 fun x => x.setG a ((x.getG b).sshiftRight sh.val))) ∧
    (∀ (s : State) (c : Fin 16) (a b d : Fin 32), s.calm c = true → s.room c = true → 
      exec (.adds c a b d) s = .next (s.did c 1 fun x => let r := satWord ((x.getG b).toInt + (x.getG d).toInt); (x.setG a r.1).raised r.2)) ∧
    (∀ (s : State) (c : Fin 16) (a b d : Fin 32), s.calm c = true → s.room c = true → 
      exec (.subs c a b d) s = .next (s.did c 1 fun x => let r := satWord ((x.getG b).toInt - (x.getG d).toInt); (x.setG a r.1).raised r.2)) ∧
    (∀ (s : State) (c : Fin 16) (a b d : Fin 32), s.calm c = true → s.room c = true → 
      exec (.min c a b d) s = .next (s.did c 1 fun x => x.setG a (if (x.getG b).slt (x.getG d) then x.getG b else x.getG d))) ∧
    (∀ (s : State) (c : Fin 16) (a b d : Fin 32), s.calm c = true → s.room c = true → 
      exec (.max c a b d) s = .next (s.did c 1 fun x => x.setG a (if (x.getG b).slt (x.getG d) then x.getG d else x.getG b))) ∧
    (∀ (s : State) (c : Fin 16) (a b d : Fin 32), s.calm c = true → s.room c = true → 
      exec (.minu c a b d) s = .next (s.did c 1 fun x => x.setG a (if (x.getG b).ult (x.getG d) then x.getG b else x.getG d))) ∧
    (∀ (s : State) (c : Fin 16) (a b d : Fin 32), s.calm c = true → s.room c = true → 
      exec (.maxu c a b d) s = .next (s.did c 1 fun x => x.setG a (if (x.getG b).ult (x.getG d) then x.getG d else x.getG b))) ∧
    (∀ (s : State) (c : Fin 16) (a b : Fin 32), s.calm c = true → s.room c = true → 
      exec (.clz c a b) s = .next (s.did c 1 fun x => x.setG a (clz (x.getG b)))) ∧
    (∀ (s : State) (c : Fin 16) (a b : Fin 32), s.calm c = true → s.room c = true → 
      exec (.sextb c a b) s = .next (s.did c 1 fun x => x.setG a (((x.getG b).truncate 8).signExtend 32))) ∧
    (∀ (s : State) (c : Fin 16) (a b : Fin 32), s.calm c = true → s.room c = true → 
      exec (.sexth c a b) s = .next (s.did c 1 fun x => x.setG a (((x.getG b).truncate 16).signExtend 32))) ∧
    (∀ (s : State) (c : Fin 16) , s.calm c = true → s.room c = true → 
      exec (.nop c ) s = .next (s.did c 1 fun x => x))

/-- R65's OVERFLOW beside the results of R50. It states that exec answers a next state, under conditions on the state and the operands alone, for each of these constructors of Instr: addv, subv. -/
def Obligations.AddvAndSubv : Prop :=
  (∀ (s : State) (c : Fin 16) (a b d : Fin 32), s.calm c = true → s.room c = true →
      (let v := ((s.ctx c).getG b).toInt + ((s.ctx c).getG d).toInt
       ((s.ctx c).otrap = false ∨ sat32 v = v) →
        exec (.addv c a b d) s =
          .next (s.did c 1 fun x => (x.setG a (x.getG b + x.getG d)).raised (if sat32 v = v then 0 else 512)))) ∧
    (∀ (s : State) (c : Fin 16) (a b d : Fin 32), s.calm c = true → s.room c = true →
      (let v := ((s.ctx c).getG b).toInt - ((s.ctx c).getG d).toInt
       ((s.ctx c).otrap = false ∨ sat32 v = v) →
        exec (.subv c a b d) s =
          .next (s.did c 1 fun x => (x.setG a (x.getG b - x.getG d)).raised (if sat32 v = v then 0 else 512)))) ∧
    (∀ (s : State) (c : Fin 16) (a b d : Fin 32), s.calm c = true → (s.ctx c).otrap = true → (s.core c).exl = false →
      (let v := ((s.ctx c).getG b).toInt + ((s.ctx c).getG d).toInt
       sat32 v ≠ v →
        exec (.addv c a b d) s = .next ((s.modCtx c fun y => { y with ovf := true }).modCore c fun k =>
          k.enter ((s.modCtx c fun y => { y with ovf := true }).status c) ⟨0x06, 0, false, (s.ctx c).pc, 0⟩)))

/-- R50 for the immediate forms and the multiplies. It states that exec answers a next state, under conditions on the state and the operands alone, for each of these constructors of Instr: addi, andi, ori, xori, slti, sltiu, lui, mul, mulh, mulhu. -/
def Obligations.ImmediateAndMultiplyForms : Prop :=
  (∀ (s : State) (c : Fin 16) (a b : Fin 32) (imm : BitVec 16), s.calm c = true → s.room c = true → 
      exec (.addi c a b imm) s = .next (s.did c 1 fun x => x.setG a (x.getG b + imm.signExtend 32))) ∧
    (∀ (s : State) (c : Fin 16) (a b : Fin 32) (imm : BitVec 16), s.calm c = true → s.room c = true → 
      exec (.andi c a b imm) s = .next (s.did c 1 fun x => x.setG a (x.getG b &&& imm.zeroExtend 32))) ∧
    (∀ (s : State) (c : Fin 16) (a b : Fin 32) (imm : BitVec 16), s.calm c = true → s.room c = true → 
      exec (.ori c a b imm) s = .next (s.did c 1 fun x => x.setG a (x.getG b ||| imm.zeroExtend 32))) ∧
    (∀ (s : State) (c : Fin 16) (a b : Fin 32) (imm : BitVec 16), s.calm c = true → s.room c = true → 
      exec (.xori c a b imm) s = .next (s.did c 1 fun x => x.setG a (x.getG b ^^^ imm.zeroExtend 32))) ∧
    (∀ (s : State) (c : Fin 16) (a b : Fin 32) (imm : BitVec 16), s.calm c = true → s.room c = true → 
      exec (.slti c a b imm) s = .next (s.did c 1 fun x => x.setG a (if (x.getG b).slt (imm.signExtend 32) then 1 else 0))) ∧
    (∀ (s : State) (c : Fin 16) (a b : Fin 32) (imm : BitVec 16), s.calm c = true → s.room c = true → 
      exec (.sltiu c a b imm) s = .next (s.did c 1 fun x => x.setG a (if (x.getG b).ult (imm.signExtend 32) then 1 else 0))) ∧
    (∀ (s : State) (c : Fin 16) (a : Fin 32) (imm : BitVec 16), s.calm c = true → s.room c = true → 
      exec (.lui c a imm) s = .next (s.did c 1 fun x => x.setG a (imm.zeroExtend 32 <<< 16))) ∧
    (∀ (s : State) (c : Fin 16) (a b d : Fin 32), s.calm c = true → s.room c = true → 
      exec (.mul c a b d) s = .next (s.did c 2 fun x => x.setG a (x.getG b * x.getG d))) ∧
    (∀ (s : State) (c : Fin 16) (a b d : Fin 32), s.calm c = true → s.room c = true → 
      exec (.mulh c a b d) s = .next (s.did c 2 fun x => x.setG a (BitVec.ofInt 32 ((x.getG b).toInt * (x.getG d).toInt / 2 ^ 32)))) ∧
    (∀ (s : State) (c : Fin 16) (a b d : Fin 32), s.calm c = true → s.room c = true → 
      exec (.mulhu c a b d) s = .next (s.did c 2 fun x => x.setG a (BitVec.ofNat 32 ((x.getG b).toNat * (x.getG d).toNat / 2 ^ 32))))

/-- R51. It states that exec answers a next state, under conditions on the state and the operands alone, for each of these constructors of Instr: div, divu, rem, remu. -/
def Obligations.DivisionTakes18Cycles : Prop :=
  (∀ (s : State) (c : Fin 16) (a b d : Fin 32), s.calm c = true → s.room c = true →
      (let x := (s.ctx c).getG b
       let y := (s.ctx c).getG d
       let q : Word := if y = 0 then (if x.toInt < 0 then 0x80000000 else 0x7FFFFFFF)
         else if x.toInt = -2147483648 ∧ y.toInt = -1 then 0x7FFFFFFF else BitVec.ofInt 32 (Int.tdiv x.toInt y.toInt)
       let r : Word := if y = 0 then x else if x.toInt = -2147483648 ∧ y.toInt = -1 then 0 else BitVec.ofInt 32 (Int.tmod x.toInt y.toInt)
       let qu : Word := if y = 0 then 0xFFFFFFFF else BitVec.ofNat 32 (x.toNat / y.toNat)
       let ru : Word := if y = 0 then x else BitVec.ofNat 32 (x.toNat % y.toNat)
       let bad := decide (y = 0) || (decide (x.toInt = -2147483648) && decide (y.toInt = -1))
       exec (.div c a b d) s = .next (s.did c 18 fun z => { z.setG a q with ovf := z.ovf || bad }) ∧
       exec (.rem c a b d) s = .next (s.did c 18 fun z => { z.setG a r with ovf := z.ovf || bad }) ∧
       exec (.divu c a b d) s = .next (s.did c 18 fun z => { z.setG a qu with ovf := z.ovf || decide (y = 0) }) ∧
       exec (.remu c a b d) s = .next (s.did c 18 fun z => { z.setG a ru with ovf := z.ovf || decide (y = 0) }))) ∧
    (∀ (s : State) (c : Fin 16) (n : Nat) (f : Ctx → Ctx), ((s.did c n f).core c).cyc = (s.core c).cyc + n)

/-- R53 for loads from every region. It states that exec answers a next state, under conditions on the state and the operands alone, for each of these constructors of Instr: lw, lh, lhu, lb, lbu, flw. -/
def Obligations.LoadsFromTheDtcm : Prop :=
  (∀ (s : State) (c : Fin 16) (a b : Fin 32) (imm : BitVec 16) (wait : Nat) (fx : Bool), s.calm c = true → s.room c = true → ((s.ctx c).ea b imm).toNat % 4 = 0 → 
      0x20000 ≤ ((s.ctx c).ea b imm).toNat → ((s.ctx c).ea b imm).toNat < 0x40000 → 
      exec (.lw c a b imm ⟨wait, false, fx⟩) s =
        .next ((s.fixedTcm c fx).did c 2 fun x => x.setG a (BitVec.ofNat 32 ((s.core c).dtcm.readN (((s.ctx c).ea b imm).toNat - 0x20000) 4)))) ∧
    (∀ (s : State) (c : Fin 16) (a b : Fin 32) (imm : BitVec 16) (wait : Nat) (fx : Bool), s.calm c = true → s.room c = true → ((s.ctx c).ea b imm).toNat % 2 = 0 → 
      0x20000 ≤ ((s.ctx c).ea b imm).toNat → ((s.ctx c).ea b imm).toNat < 0x40000 → 
      exec (.lh c a b imm ⟨wait, false, fx⟩) s =
        .next ((s.fixedTcm c fx).did c 2 fun x => x.setG a ((BitVec.ofNat 16 ((s.core c).dtcm.readN (((s.ctx c).ea b imm).toNat - 0x20000) 2)).signExtend 32))) ∧
    (∀ (s : State) (c : Fin 16) (a b : Fin 32) (imm : BitVec 16) (wait : Nat) (fx : Bool), s.calm c = true → s.room c = true → ((s.ctx c).ea b imm).toNat % 2 = 0 → 
      0x20000 ≤ ((s.ctx c).ea b imm).toNat → ((s.ctx c).ea b imm).toNat < 0x40000 → 
      exec (.lhu c a b imm ⟨wait, false, fx⟩) s =
        .next ((s.fixedTcm c fx).did c 2 fun x => x.setG a (BitVec.ofNat 32 ((s.core c).dtcm.readN (((s.ctx c).ea b imm).toNat - 0x20000) 2)))) ∧
    (∀ (s : State) (c : Fin 16) (a b : Fin 32) (imm : BitVec 16) (wait : Nat) (fx : Bool), s.calm c = true → s.room c = true → 
      0x20000 ≤ ((s.ctx c).ea b imm).toNat → ((s.ctx c).ea b imm).toNat < 0x40000 → 
      exec (.lb c a b imm ⟨wait, false, fx⟩) s =
        .next ((s.fixedTcm c fx).did c 2 fun x => x.setG a ((BitVec.ofNat 8 ((s.core c).dtcm.readN (((s.ctx c).ea b imm).toNat - 0x20000) 1)).signExtend 32))) ∧
    (∀ (s : State) (c : Fin 16) (a b : Fin 32) (imm : BitVec 16) (wait : Nat) (fx : Bool), s.calm c = true → s.room c = true → 
      0x20000 ≤ ((s.ctx c).ea b imm).toNat → ((s.ctx c).ea b imm).toNat < 0x40000 → 
      exec (.lbu c a b imm ⟨wait, false, fx⟩) s =
        .next ((s.fixedTcm c fx).did c 2 fun x => x.setG a (BitVec.ofNat 32 ((s.core c).dtcm.readN (((s.ctx c).ea b imm).toNat - 0x20000) 1)))) ∧
    (∀ (s : State) (c : Fin 16) (a b : Fin 32) (imm : BitVec 16) (wait : Nat) (fx : Bool), s.calm c = true → s.room c = true → a.val < 16 → ((s.ctx c).ea b imm).toNat % 4 = 0 → 
      0x20000 ≤ ((s.ctx c).ea b imm).toNat → ((s.ctx c).ea b imm).toNat < 0x40000 → 
      exec (.flw c a b imm ⟨wait, false, fx⟩) s =
        .next ((s.fixedTcm c fx).did c 2 fun x => x.setF a (BitVec.ofNat 32 ((s.core c).dtcm.readN (((s.ctx c).ea b imm).toNat - 0x20000) 4)))) ∧
    (∀ (s : State) (c : Fin 16) (a b : Fin 32) (imm : BitVec 16) (wait x : Nat) (fx : Bool), s.calm c = true → s.room c = true → ((s.ctx c).ea b imm).toNat % 4 = 0 → x = ((s.ctx c).ea b imm).toNat → x < 0x10000 →
      exec (.lw c a b imm ⟨wait, false, fx⟩) s = .next ((s.fixedTcm c fx).did c 2 fun x => x.setG a (BitVec.ofNat 32 ((s.core c).itcm.readN ((s.ctx c).ea b imm).toNat 4)))) ∧
    (∀ (s : State) (c : Fin 16) (a b : Fin 32) (imm : BitVec 16) (wait x : Nat) (fx : Bool), s.calm c = true → s.room c = true → ((s.ctx c).ea b imm).toNat % 2 = 0 → x = ((s.ctx c).ea b imm).toNat → x < 0x10000 →
      exec (.lh c a b imm ⟨wait, false, fx⟩) s = .next ((s.fixedTcm c fx).did c 2 fun x => x.setG a ((BitVec.ofNat 16 ((s.core c).itcm.readN ((s.ctx c).ea b imm).toNat 2)).signExtend 32))) ∧
    (∀ (s : State) (c : Fin 16) (a b : Fin 32) (imm : BitVec 16) (wait x : Nat) (fx : Bool), s.calm c = true → s.room c = true → ((s.ctx c).ea b imm).toNat % 2 = 0 → x = ((s.ctx c).ea b imm).toNat → x < 0x10000 →
      exec (.lhu c a b imm ⟨wait, false, fx⟩) s = .next ((s.fixedTcm c fx).did c 2 fun x => x.setG a (BitVec.ofNat 32 ((s.core c).itcm.readN ((s.ctx c).ea b imm).toNat 2)))) ∧
    (∀ (s : State) (c : Fin 16) (a b : Fin 32) (imm : BitVec 16) (wait x : Nat) (fx : Bool), s.calm c = true → s.room c = true → ((s.ctx c).ea b imm).toNat % 1 = 0 → x = ((s.ctx c).ea b imm).toNat → x < 0x10000 →
      exec (.lb c a b imm ⟨wait, false, fx⟩) s = .next ((s.fixedTcm c fx).did c 2 fun x => x.setG a ((BitVec.ofNat 8 ((s.core c).itcm.readN ((s.ctx c).ea b imm).toNat 1)).signExtend 32))) ∧
    (∀ (s : State) (c : Fin 16) (a b : Fin 32) (imm : BitVec 16) (wait x : Nat) (fx : Bool), s.calm c = true → s.room c = true → ((s.ctx c).ea b imm).toNat % 1 = 0 → x = ((s.ctx c).ea b imm).toNat → x < 0x10000 →
      exec (.lbu c a b imm ⟨wait, false, fx⟩) s = .next ((s.fixedTcm c fx).did c 2 fun x => x.setG a (BitVec.ofNat 32 ((s.core c).itcm.readN ((s.ctx c).ea b imm).toNat 1)))) ∧
    (∀ (s : State) (c : Fin 16) (a b : Fin 32) (imm : BitVec 16) (wait x : Nat) (fx : Bool), s.calm c = true → a.val < 16 → s.room c = true → ((s.ctx c).ea b imm).toNat % 4 = 0 → x = ((s.ctx c).ea b imm).toNat → x < 0x10000 →
      exec (.flw c a b imm ⟨wait, false, fx⟩) s = .next ((s.fixedTcm c fx).did c 2 fun x => x.setF a (BitVec.ofNat 32 ((s.core c).itcm.readN ((s.ctx c).ea b imm).toNat 4)))) ∧
    (∀ (s : State) (c : Fin 16) (a b : Fin 32) (imm : BitVec 16) (wait x : Nat) (fx : Bool), s.calm c = true → s.place c (s.ctx c).priv ((s.ctx c).ea b imm).toNat 4 false = .inl (.sram x) →
      (let t := (s.drain c fun k => k == .sram).beat x (s.requester c)
       t.coreRuns c = true → exec (.lw c a b imm ⟨wait, false, fx⟩) s = .next (t.retire c (10 + wait) fun y => y.setG a (BitVec.ofNat 32 (t.fabN x 4))))) ∧
    (∀ (s : State) (c : Fin 16) (a b : Fin 32) (imm : BitVec 16) (wait x : Nat) (fx : Bool), s.calm c = true → s.place c (s.ctx c).priv ((s.ctx c).ea b imm).toNat 2 false = .inl (.sram x) →
      (let t := (s.drain c fun k => k == .sram).beat x (s.requester c)
       t.coreRuns c = true → exec (.lh c a b imm ⟨wait, false, fx⟩) s = .next (t.retire c (10 + wait) fun y => y.setG a ((BitVec.ofNat 16 (t.fabN x 2)).signExtend 32)))) ∧
    (∀ (s : State) (c : Fin 16) (a b : Fin 32) (imm : BitVec 16) (wait x : Nat) (fx : Bool), s.calm c = true → s.place c (s.ctx c).priv ((s.ctx c).ea b imm).toNat 2 false = .inl (.sram x) →
      (let t := (s.drain c fun k => k == .sram).beat x (s.requester c)
       t.coreRuns c = true → exec (.lhu c a b imm ⟨wait, false, fx⟩) s = .next (t.retire c (10 + wait) fun y => y.setG a (BitVec.ofNat 32 (t.fabN x 2))))) ∧
    (∀ (s : State) (c : Fin 16) (a b : Fin 32) (imm : BitVec 16) (wait x : Nat) (fx : Bool), s.calm c = true → s.place c (s.ctx c).priv ((s.ctx c).ea b imm).toNat 1 false = .inl (.sram x) →
      (let t := (s.drain c fun k => k == .sram).beat x (s.requester c)
       t.coreRuns c = true → exec (.lb c a b imm ⟨wait, false, fx⟩) s = .next (t.retire c (10 + wait) fun y => y.setG a ((BitVec.ofNat 8 (t.fabN x 1)).signExtend 32)))) ∧
    (∀ (s : State) (c : Fin 16) (a b : Fin 32) (imm : BitVec 16) (wait x : Nat) (fx : Bool), s.calm c = true → s.place c (s.ctx c).priv ((s.ctx c).ea b imm).toNat 1 false = .inl (.sram x) →
      (let t := (s.drain c fun k => k == .sram).beat x (s.requester c)
       t.coreRuns c = true → exec (.lbu c a b imm ⟨wait, false, fx⟩) s = .next (t.retire c (10 + wait) fun y => y.setG a (BitVec.ofNat 32 (t.fabN x 1))))) ∧
    (∀ (s : State) (c : Fin 16) (a b : Fin 32) (imm : BitVec 16) (wait x : Nat) (fx : Bool), s.calm c = true → a.val < 16 → s.place c (s.ctx c).priv ((s.ctx c).ea b imm).toNat 4 false = .inl (.sram x) →
      (let t := (s.drain c fun k => k == .sram).beat x (s.requester c)
       t.coreRuns c = true → exec (.flw c a b imm ⟨wait, false, fx⟩) s = .next (t.retire c (10 + wait) fun y => y.setF a (BitVec.ofNat 32 (t.fabN x 4))))) ∧
    (∀ (s : State) (c : Fin 16) (a b : Fin 32) (imm : BitVec 16) (wait x : Nat) (fx : Bool), s.calm c = true → s.place c (s.ctx c).priv ((s.ctx c).ea b imm).toNat 4 false = .inl (.dram x) →
      (let t := (s.drain c fun k => k == .dram).beat x (s.requester c)
       (t.fixedDram c fx).coreRuns c = true → exec (.lw c a b imm ⟨wait, false, fx⟩) s = .next ((t.fixedDram c fx).retire c (56 + wait) fun y => y.setG a (BitVec.ofNat 32 (t.fabN x 4))))) ∧
    (∀ (s : State) (c : Fin 16) (a b : Fin 32) (imm : BitVec 16) (wait x : Nat) (fx : Bool), s.calm c = true → s.place c (s.ctx c).priv ((s.ctx c).ea b imm).toNat 2 false = .inl (.dram x) →
      (let t := (s.drain c fun k => k == .dram).beat x (s.requester c)
       (t.fixedDram c fx).coreRuns c = true → exec (.lh c a b imm ⟨wait, false, fx⟩) s = .next ((t.fixedDram c fx).retire c (56 + wait) fun y => y.setG a ((BitVec.ofNat 16 (t.fabN x 2)).signExtend 32)))) ∧
    (∀ (s : State) (c : Fin 16) (a b : Fin 32) (imm : BitVec 16) (wait x : Nat) (fx : Bool), s.calm c = true → s.place c (s.ctx c).priv ((s.ctx c).ea b imm).toNat 2 false = .inl (.dram x) →
      (let t := (s.drain c fun k => k == .dram).beat x (s.requester c)
       (t.fixedDram c fx).coreRuns c = true → exec (.lhu c a b imm ⟨wait, false, fx⟩) s = .next ((t.fixedDram c fx).retire c (56 + wait) fun y => y.setG a (BitVec.ofNat 32 (t.fabN x 2))))) ∧
    (∀ (s : State) (c : Fin 16) (a b : Fin 32) (imm : BitVec 16) (wait x : Nat) (fx : Bool), s.calm c = true → s.place c (s.ctx c).priv ((s.ctx c).ea b imm).toNat 1 false = .inl (.dram x) →
      (let t := (s.drain c fun k => k == .dram).beat x (s.requester c)
       (t.fixedDram c fx).coreRuns c = true → exec (.lb c a b imm ⟨wait, false, fx⟩) s = .next ((t.fixedDram c fx).retire c (56 + wait) fun y => y.setG a ((BitVec.ofNat 8 (t.fabN x 1)).signExtend 32)))) ∧
    (∀ (s : State) (c : Fin 16) (a b : Fin 32) (imm : BitVec 16) (wait x : Nat) (fx : Bool), s.calm c = true → s.place c (s.ctx c).priv ((s.ctx c).ea b imm).toNat 1 false = .inl (.dram x) →
      (let t := (s.drain c fun k => k == .dram).beat x (s.requester c)
       (t.fixedDram c fx).coreRuns c = true → exec (.lbu c a b imm ⟨wait, false, fx⟩) s = .next ((t.fixedDram c fx).retire c (56 + wait) fun y => y.setG a (BitVec.ofNat 32 (t.fabN x 1))))) ∧
    (∀ (s : State) (c : Fin 16) (a b : Fin 32) (imm : BitVec 16) (wait x : Nat) (fx : Bool), s.calm c = true → a.val < 16 → s.place c (s.ctx c).priv ((s.ctx c).ea b imm).toNat 4 false = .inl (.dram x) →
      (let t := (s.drain c fun k => k == .dram).beat x (s.requester c)
       (t.fixedDram c fx).coreRuns c = true → exec (.flw c a b imm ⟨wait, false, fx⟩) s = .next ((t.fixedDram c fx).retire c (56 + wait) fun y => y.setF a (BitVec.ofNat 32 (t.fabN x 4))))) ∧
    (∀ (s : State) (c : Fin 16) (a b : Fin 32) (imm : BitVec 16) (wait x : Nat) (fx : Bool), s.calm c = true → s.place c (s.ctx c).priv ((s.ctx c).ea b imm).toNat 4 false = .inl (.periph x) →
      (let t := (s.drain c fun k => k == .periph).beat x (s.requester c)
       (t.busRead x).2.coreRuns c = true → exec (.lw c a b imm ⟨wait, false, fx⟩) s = .next ((t.busRead x).2.retire c (14 + wait) fun y => y.setG a (BitVec.ofNat 32 ((t.busRead x).1))))) ∧
    (∀ (s : State) (c : Fin 16) (a b : Fin 32) (imm : BitVec 16) (wait x : Nat) (fx : Bool), s.calm c = true → a.val < 16 → s.place c (s.ctx c).priv ((s.ctx c).ea b imm).toNat 4 false = .inl (.periph x) →
      (let t := (s.drain c fun k => k == .periph).beat x (s.requester c)
       (t.busRead x).2.coreRuns c = true → exec (.flw c a b imm ⟨wait, false, fx⟩) s = .next ((t.busRead x).2.retire c (14 + wait) fun y => y.setF a (BitVec.ofNat 32 ((t.busRead x).1)))))

/-- R53 for stores to every region. It states that exec answers a next state, under conditions on the state and the operands alone, for each of these constructors of Instr: sw, sh, sb, fsw. -/
def Obligations.StoresToTheDtcm : Prop :=
  (∀ (s : State) (c : Fin 16) (a b : Fin 32) (imm : BitVec 16) (wait : Nat), s.calm c = true → s.room c = true → ((s.ctx c).ea b imm).toNat % 4 = 0 → 
      0x20000 ≤ ((s.ctx c).ea b imm).toNat → ((s.ctx c).ea b imm).toNat < 0x40000 → 
      exec (.sw c a b imm wait) s = .next ((s.modCore c fun k =>
        { k with dtcm := k.dtcm.writeN (((s.ctx c).ea b imm).toNat - 0x20000) 4 (((s.ctx c).getG a).toNat % 2 ^ 32) }).did c 1 fun x => x)) ∧
    (∀ (s : State) (c : Fin 16) (a b : Fin 32) (imm : BitVec 16) (wait : Nat), s.calm c = true → s.room c = true → ((s.ctx c).ea b imm).toNat % 2 = 0 → 
      0x20000 ≤ ((s.ctx c).ea b imm).toNat → ((s.ctx c).ea b imm).toNat < 0x40000 → 
      exec (.sh c a b imm wait) s = .next ((s.modCore c fun k =>
        { k with dtcm := k.dtcm.writeN (((s.ctx c).ea b imm).toNat - 0x20000) 2 (((s.ctx c).getG a).toNat % 2 ^ 16) }).did c 1 fun x => x)) ∧
    (∀ (s : State) (c : Fin 16) (a b : Fin 32) (imm : BitVec 16) (wait : Nat), s.calm c = true → s.room c = true → 
      0x20000 ≤ ((s.ctx c).ea b imm).toNat → ((s.ctx c).ea b imm).toNat < 0x40000 → 
      exec (.sb c a b imm wait) s = .next ((s.modCore c fun k =>
        { k with dtcm := k.dtcm.writeN (((s.ctx c).ea b imm).toNat - 0x20000) 1 (((s.ctx c).getG a).toNat % 2 ^ 8) }).did c 1 fun x => x)) ∧
    (∀ (s : State) (c : Fin 16) (a b : Fin 32) (imm : BitVec 16) (wait : Nat), s.calm c = true → s.room c = true → a.val < 16 → ((s.ctx c).ea b imm).toNat % 4 = 0 → 
      0x20000 ≤ ((s.ctx c).ea b imm).toNat → ((s.ctx c).ea b imm).toNat < 0x40000 → 
      exec (.fsw c a b imm wait) s = .next ((s.modCore c fun k =>
        { k with dtcm := k.dtcm.writeN (((s.ctx c).ea b imm).toNat - 0x20000) 4 (((s.ctx c).getF a).toNat % 2 ^ 32) }).did c 1 fun x => x)) ∧
    (∀ (s : State) (c : Fin 16) (a b : Fin 32) (imm : BitVec 16) (wait : Nat) (p : Place), s.calm c = true → s.place c (s.ctx c).priv ((s.ctx c).ea b imm).toNat 4 true = .inl p →
      (let t := s.storeTo c p ((s.ctx c).ea b imm) 4 (((s.ctx c).getG a).toNat % 2 ^ 32) wait
       t.coreRuns c = true → exec (.sw c a b imm wait) s = .next (t.retire c 1 fun y => y))) ∧
    (∀ (s : State) (c : Fin 16) (a b : Fin 32) (imm : BitVec 16) (wait : Nat) (p : Place), s.calm c = true → s.place c (s.ctx c).priv ((s.ctx c).ea b imm).toNat 2 true = .inl p →
      (let t := s.storeTo c p ((s.ctx c).ea b imm) 2 (((s.ctx c).getG a).toNat % 2 ^ 16) wait
       t.coreRuns c = true → exec (.sh c a b imm wait) s = .next (t.retire c 1 fun y => y))) ∧
    (∀ (s : State) (c : Fin 16) (a b : Fin 32) (imm : BitVec 16) (wait : Nat) (p : Place), s.calm c = true → s.place c (s.ctx c).priv ((s.ctx c).ea b imm).toNat 1 true = .inl p →
      (let t := s.storeTo c p ((s.ctx c).ea b imm) 1 (((s.ctx c).getG a).toNat % 2 ^ 8) wait
       t.coreRuns c = true → exec (.sb c a b imm wait) s = .next (t.retire c 1 fun y => y))) ∧
    (∀ (s : State) (c : Fin 16) (a b : Fin 32) (imm : BitVec 16) (wait : Nat) (p : Place), s.calm c = true → a.val < 16 → s.place c (s.ctx c).priv ((s.ctx c).ea b imm).toNat 4 true = .inl p →
      (let t := s.storeTo c p ((s.ctx c).ea b imm) 4 (((s.ctx c).getF a).toNat % 2 ^ 32) wait
       t.coreRuns c = true → exec (.fsw c a b imm wait) s = .next (t.retire c 1 fun y => y))) ∧
    (∀ (s : State) (c : Fin 16) (x w v wait : Nat) (ea : Word), (s.core c).posted.length < 8 →
      s.storeTo c (.sram x) ea w v wait = s.modPosted c fun l => l ++ [⟨.sram, x, ea, w, v, (s.ctx c).priv⟩]) ∧
    (∀ (s : State) (c : Fin 16) (x w v wait : Nat) (ea : Word), (s.core c).posted.length < 8 →
      s.storeTo c (.dram x) ea w v wait = s.modPosted c fun l => l ++ [⟨.dram, x, ea, w, v, (s.ctx c).priv⟩]) ∧
    (∀ (s : State) (c : Fin 16) (x w v wait : Nat) (ea : Word), (s.core c).posted.length < 8 →
      s.storeTo c (.periph x) ea w v wait = s.modPosted c fun l => l ++ [⟨.periph, x, ea, w, v, (s.ctx c).priv⟩]) ∧
    (∀ (s : State) (c : Fin 16) (x w v wait : Nat) (ea : Word), s.storeTo c (.itcm x) ea w v wait = s.itcmStore c x w v)

/-- The frame of the storing forms. -/
def Obligations.StoresLeaveOtherBytes : Prop :=
  ∀ (s : State) (c : Fin 16) (a b : Fin 32) (imm : BitVec 16) (wait : Nat), s.calm c = true → s.room c = true →
    0x20000 ≤ ((s.ctx c).ea b imm).toNat → ((s.ctx c).ea b imm).toNat < 0x40000 → 
    ∀ (i : Instr) (w v : Nat),
      (i = .sw c a b imm wait ∧ w = 4 ∧ v = ((s.ctx c).getG a).toNat) ∨ (i = .sh c a b imm wait ∧ w = 2 ∧ v = ((s.ctx c).getG a).toNat) ∨
        (i = .sb c a b imm wait ∧ w = 1 ∧ v = ((s.ctx c).getG a).toNat) ∨
        (i = .fsw c a b imm wait ∧ a.val < 16 ∧ w = 4 ∧ v = ((s.ctx c).getF a).toNat) →
      ((s.ctx c).ea b imm).toNat % w = 0 →
      ∃ t, exec i s = .next t ∧ (t.core c).dtcm.readN (((s.ctx c).ea b imm).toNat - 0x20000) w = v % 2 ^ (8 * w) ∧
        (∀ x, x < ((s.ctx c).ea b imm).toNat - 0x20000 ∨ ((s.ctx c).ea b imm).toNat - 0x20000 + w ≤ x → (t.core c).dtcm.byte x = (s.core c).dtcm.byte x) ∧
        (∀ e : Fin 16, e ≠ c → t.core e = s.core e) ∧ { t with cores := s.cores } = s ∧ (t.core c).itcm = (s.core c).itcm ∧
        (t.core c).cyc = (s.core c).cyc + 1 ∧ (t.core c).epc = (s.core c).epc ∧ (t.core c).xstatus = (s.core c).xstatus ∧
        (t.core c).ecause = (s.core c).ecause ∧ (t.core c).eval = (s.core c).eval ∧ (t.core c).evpend = (s.core c).evpend ∧
        (t.core c).ie = (s.core c).ie ∧ (t.core c).exl = (s.core c).exl ∧ (s.hasContext c → t.ctx c = (s.ctx c).next)

/-- R54 with the ACCESS details, R45 and R49 with ILLEGAL. -/
def Obligations.AccessAndIllegalRules : Prop :=
  (∀ (s : State) (c : Fin 16) (a b : Fin 32) (imm : BitVec 16) (env : Env) (d : Nat), s.calm c = true → (s.core c).exl = false → 
      s.place c (s.ctx c).priv ((s.ctx c).ea b imm).toNat 4 false = .inr d → exec (.lw c a b imm env) s = .next (s.modCore c fun k => k.enter (s.status c) ⟨0x04, d, false, (s.ctx c).pc, (s.ctx c).ea b imm⟩)) ∧
    (∀ (s : State) (c : Fin 16) (a b : Fin 32) (imm : BitVec 16) (env : Env) (d : Nat), s.calm c = true → (s.core c).exl = false → 
      s.place c (s.ctx c).priv ((s.ctx c).ea b imm).toNat 2 false = .inr d → exec (.lh c a b imm env) s = .next (s.modCore c fun k => k.enter (s.status c) ⟨0x04, d, false, (s.ctx c).pc, (s.ctx c).ea b imm⟩)) ∧
    (∀ (s : State) (c : Fin 16) (a b : Fin 32) (imm : BitVec 16) (env : Env) (d : Nat), s.calm c = true → (s.core c).exl = false → 
      s.place c (s.ctx c).priv ((s.ctx c).ea b imm).toNat 2 false = .inr d → exec (.lhu c a b imm env) s = .next (s.modCore c fun k => k.enter (s.status c) ⟨0x04, d, false, (s.ctx c).pc, (s.ctx c).ea b imm⟩)) ∧
    (∀ (s : State) (c : Fin 16) (a b : Fin 32) (imm : BitVec 16) (env : Env) (d : Nat), s.calm c = true → (s.core c).exl = false → 
      s.place c (s.ctx c).priv ((s.ctx c).ea b imm).toNat 1 false = .inr d → exec (.lb c a b imm env) s = .next (s.modCore c fun k => k.enter (s.status c) ⟨0x04, d, false, (s.ctx c).pc, (s.ctx c).ea b imm⟩)) ∧
    (∀ (s : State) (c : Fin 16) (a b : Fin 32) (imm : BitVec 16) (env : Env) (d : Nat), s.calm c = true → (s.core c).exl = false → 
      s.place c (s.ctx c).priv ((s.ctx c).ea b imm).toNat 1 false = .inr d → exec (.lbu c a b imm env) s = .next (s.modCore c fun k => k.enter (s.status c) ⟨0x04, d, false, (s.ctx c).pc, (s.ctx c).ea b imm⟩)) ∧
    (∀ (s : State) (c : Fin 16) (a b : Fin 32) (imm : BitVec 16) (env : Env) (d : Nat), s.calm c = true → (s.core c).exl = false → a.val < 16 → 
      s.place c (s.ctx c).priv ((s.ctx c).ea b imm).toNat 4 false = .inr d → exec (.flw c a b imm env) s = .next (s.modCore c fun k => k.enter (s.status c) ⟨0x04, d, false, (s.ctx c).pc, (s.ctx c).ea b imm⟩)) ∧
    (∀ (s : State) (c : Fin 16) (a b : Fin 32) (imm : BitVec 16) (wait d : Nat), s.calm c = true → (s.core c).exl = false → 
      s.place c (s.ctx c).priv ((s.ctx c).ea b imm).toNat 4 true = .inr d → exec (.sw c a b imm wait) s = .next (s.modCore c fun k => k.enter (s.status c) ⟨0x04, d, false, (s.ctx c).pc, (s.ctx c).ea b imm⟩)) ∧
    (∀ (s : State) (c : Fin 16) (a b : Fin 32) (imm : BitVec 16) (wait d : Nat), s.calm c = true → (s.core c).exl = false → 
      s.place c (s.ctx c).priv ((s.ctx c).ea b imm).toNat 2 true = .inr d → exec (.sh c a b imm wait) s = .next (s.modCore c fun k => k.enter (s.status c) ⟨0x04, d, false, (s.ctx c).pc, (s.ctx c).ea b imm⟩)) ∧
    (∀ (s : State) (c : Fin 16) (a b : Fin 32) (imm : BitVec 16) (wait d : Nat), s.calm c = true → (s.core c).exl = false → 
      s.place c (s.ctx c).priv ((s.ctx c).ea b imm).toNat 1 true = .inr d → exec (.sb c a b imm wait) s = .next (s.modCore c fun k => k.enter (s.status c) ⟨0x04, d, false, (s.ctx c).pc, (s.ctx c).ea b imm⟩)) ∧
    (∀ (s : State) (c : Fin 16) (a b : Fin 32) (imm : BitVec 16) (wait d : Nat), s.calm c = true → (s.core c).exl = false → a.val < 16 → 
      s.place c (s.ctx c).priv ((s.ctx c).ea b imm).toNat 4 true = .inr d → exec (.fsw c a b imm wait) s = .next (s.modCore c fun k => k.enter (s.status c) ⟨0x04, d, false, (s.ctx c).pc, (s.ctx c).ea b imm⟩)) ∧
    (∀ (s : State) (c : Fin 16) (sup store : Bool) (ea w : Nat), ea % w ≠ 0 → s.place c sup ea w store = .inr 0x01) ∧
    (∀ (s : State) (c : Fin 16) (sup store : Bool) (ea w : Nat), ea % w = 0 → 0x80000000 ≤ ea → s.place c sup ea w store = .inr 0x03) ∧
    (∀ (s : State) (c : Fin 16) (ea w : Nat), ea % w = 0 → ea < 0x10000 → s.place c false ea w true = .inr 0x04) ∧
    (∀ (s : State) (c : Fin 16) (sup store : Bool) (ea w : Nat), ea % w = 0 → inPeriph ea = true → w ≠ 4 → s.place c sup ea w store = .inr 0x02) ∧
    (∀ (s : State) (c : Fin 16) (sup store : Bool) (ea w : Nat), ea % w = 0 → 0x40000000 ≤ ea → ea < 0x80000000 → s.on DWIN.EN c.val (ea / 2 ^ 28 % 4) = false → s.place c sup ea w store = .inr 0x05) ∧
    (∀ (s : State) (i : Instr) (c : Fin 16) (e : Env) (w : Word), encode i = some (c, e, w) → s.calm c = true → (s.core c).exl = false → fieldsOk i = false →
      exec i s = .next (s.modCore c fun k => k.enter (s.status c) ⟨0x01, 0, false, (s.ctx c).pc, w⟩)) ∧
    (∀ (s : State) (c : Fin 16) (e : Env) (w : Word), decodeWord c e w = none → s.calm c = true → (s.core c).exl = false →
      s.execWord c e w = .next (s.modCore c fun k => k.enter (s.status c) ⟨0x01, 0, false, (s.ctx c).pc, w⟩)) ∧
    (∀ (s : State) (c : Fin 16) (e : Env) (w : Word) (i : Instr), decodeWord c e w = some i → s.execWord c e w = exec i s) ∧
    (∀ (c : Fin 16) (e : Env), decodeWord c e 0 = none)

/-- R53 and R65. It states that exec answers a next state, under conditions on the state and the operands alone, for each of these constructors of Instr: postedStoreComplete, postedStoreBusError. -/
def Obligations.PostedStores : Prop :=
  (∀ (s : State) (c : Fin 16) (cls : Sys2Proof.Class) (p : Posted), s.units = true → s.oldest c cls = some p →
      exec (.postedStoreComplete c cls) s = .next ((s.modPosted c (dropFirst cls)).perform c p)) ∧
    (∀ (s : State) (c : Fin 16) (cls : Sys2Proof.Class) (p : Posted), s.units = true → s.oldest c cls = some p →
      (let v := s.modPosted c (dropFirst cls)
       let u := if cls = .dram then v.reportDram c p.addr else v
       let w := u.modCore c fun k => { k with busErr := k.busErr ++ [p.ea] }
       (u.core c).life = .running → exec (.postedStoreBusError c cls) s = .next (if w.coreRuns c then w.takeCause c else w)))

/-- R55 for branches. It states that exec answers a next state, under conditions on the state and the operands alone, for each of these constructors of Instr: beq, bne, blt, bge, bltu, bgeu. -/
def Obligations.Branches : Prop :=
  (∀ (s : State) (c : Fin 16) (a b : Fin 32) (imm : BitVec 16), s.calm c = true → ((s.ctx c).getG a) = ((s.ctx c).getG b) →
      inItcm ((s.ctx c).pc + imm.signExtend 32 * 4) = true →
      exec (.beq c a b imm) s = .next (s.went c 2 ((s.ctx c).pc + imm.signExtend 32 * 4) fun x => x)) ∧
    (∀ (s : State) (c : Fin 16) (a b : Fin 32) (imm : BitVec 16), s.calm c = true → s.room c = true → ¬(((s.ctx c).getG a) = ((s.ctx c).getG b)) →
      exec (.beq c a b imm) s = .next (s.did c 1 fun x => x)) ∧
    (∀ (s : State) (c : Fin 16) (a b : Fin 32) (imm : BitVec 16), s.calm c = true → ((s.ctx c).getG a) ≠ ((s.ctx c).getG b) →
      inItcm ((s.ctx c).pc + imm.signExtend 32 * 4) = true →
      exec (.bne c a b imm) s = .next (s.went c 2 ((s.ctx c).pc + imm.signExtend 32 * 4) fun x => x)) ∧
    (∀ (s : State) (c : Fin 16) (a b : Fin 32) (imm : BitVec 16), s.calm c = true → s.room c = true → ¬(((s.ctx c).getG a) ≠ ((s.ctx c).getG b)) →
      exec (.bne c a b imm) s = .next (s.did c 1 fun x => x)) ∧
    (∀ (s : State) (c : Fin 16) (a b : Fin 32) (imm : BitVec 16), s.calm c = true → ((s.ctx c).getG a).toInt < ((s.ctx c).getG b).toInt →
      inItcm ((s.ctx c).pc + imm.signExtend 32 * 4) = true →
      exec (.blt c a b imm) s = .next (s.went c 2 ((s.ctx c).pc + imm.signExtend 32 * 4) fun x => x)) ∧
    (∀ (s : State) (c : Fin 16) (a b : Fin 32) (imm : BitVec 16), s.calm c = true → s.room c = true → ¬(((s.ctx c).getG a).toInt < ((s.ctx c).getG b).toInt) →
      exec (.blt c a b imm) s = .next (s.did c 1 fun x => x)) ∧
    (∀ (s : State) (c : Fin 16) (a b : Fin 32) (imm : BitVec 16), s.calm c = true → ((s.ctx c).getG b).toInt ≤ ((s.ctx c).getG a).toInt →
      inItcm ((s.ctx c).pc + imm.signExtend 32 * 4) = true →
      exec (.bge c a b imm) s = .next (s.went c 2 ((s.ctx c).pc + imm.signExtend 32 * 4) fun x => x)) ∧
    (∀ (s : State) (c : Fin 16) (a b : Fin 32) (imm : BitVec 16), s.calm c = true → s.room c = true → ¬(((s.ctx c).getG b).toInt ≤ ((s.ctx c).getG a).toInt) →
      exec (.bge c a b imm) s = .next (s.did c 1 fun x => x)) ∧
    (∀ (s : State) (c : Fin 16) (a b : Fin 32) (imm : BitVec 16), s.calm c = true → ((s.ctx c).getG a).toNat < ((s.ctx c).getG b).toNat →
      inItcm ((s.ctx c).pc + imm.signExtend 32 * 4) = true →
      exec (.bltu c a b imm) s = .next (s.went c 2 ((s.ctx c).pc + imm.signExtend 32 * 4) fun x => x)) ∧
    (∀ (s : State) (c : Fin 16) (a b : Fin 32) (imm : BitVec 16), s.calm c = true → s.room c = true → ¬(((s.ctx c).getG a).toNat < ((s.ctx c).getG b).toNat) →
      exec (.bltu c a b imm) s = .next (s.did c 1 fun x => x)) ∧
    (∀ (s : State) (c : Fin 16) (a b : Fin 32) (imm : BitVec 16), s.calm c = true → ((s.ctx c).getG b).toNat ≤ ((s.ctx c).getG a).toNat →
      inItcm ((s.ctx c).pc + imm.signExtend 32 * 4) = true →
      exec (.bgeu c a b imm) s = .next (s.went c 2 ((s.ctx c).pc + imm.signExtend 32 * 4) fun x => x)) ∧
    (∀ (s : State) (c : Fin 16) (a b : Fin 32) (imm : BitVec 16), s.calm c = true → s.room c = true → ¬(((s.ctx c).getG b).toNat ≤ ((s.ctx c).getG a).toNat) →
      exec (.bgeu c a b imm) s = .next (s.did c 1 fun x => x))

/-- R55; every instruction that ends normally ends by State.retire. It states that exec answers a next state, under conditions on the state and the operands alone, for each of these constructors of Instr: j, jal, jalr, eret. -/
def Obligations.ControlTransfers : Prop :=
  (∀ (s : State) (c : Fin 16) (off : BitVec 26), s.calm c = true → inItcm (jumpTarget (s.ctx c).pc off) = true →
      exec (.j c off) s = .next (s.went c 2 (jumpTarget (s.ctx c).pc off) fun x => x) ∧
      exec (.jal c off) s = .next (s.went c 2 (jumpTarget (s.ctx c).pc off) fun x => x.setG 31 (x.pc + 4))) ∧
    (∀ (s : State) (c : Fin 16) (a b : Fin 32) (imm : BitVec 16), s.calm c = true → inItcm ((s.ctx c).getG b + imm.signExtend 32) = true →
      exec (.jalr c a b imm) s = .next (s.went c 3 ((s.ctx c).getG b + imm.signExtend 32) fun x => x.setG a (x.pc + 4))) ∧
    (∀ (s : State) (c : Fin 16) (a b : Fin 32) (imm : BitVec 16), s.calm c = true → (s.core c).exl = false →
      inItcm ((s.ctx c).getG b + imm.signExtend 32) = false →
      exec (.jalr c a b imm) s = .next (s.modCore c fun k => k.enter (s.status c) ⟨0x03, 0, false, (s.ctx c).pc, (s.ctx c).getG b + imm.signExtend 32⟩)) ∧
    (∀ (s : State) (c : Fin 16) (off : BitVec 26), s.calm c = true → (s.core c).exl = false → inItcm (jumpTarget (s.ctx c).pc off) = false →
      exec (.j c off) s = .next (s.modCore c fun k => k.enter (s.status c) ⟨0x03, 0, false, (s.ctx c).pc, jumpTarget (s.ctx c).pc off⟩) ∧
      exec (.jal c off) s = .next (s.modCore c fun k => k.enter (s.status c) ⟨0x03, 0, false, (s.ctx c).pc, jumpTarget (s.ctx c).pc off⟩)) ∧
    (∀ (s : State) (c : Fin 16) (a b : Fin 32) (imm : BitVec 16), s.calm c = true → (s.core c).exl = false → ((s.ctx c).getG a) = ((s.ctx c).getG b) →
      inItcm ((s.ctx c).pc + imm.signExtend 32 * 4) = false →
      exec (.beq c a b imm) s = .next (s.modCore c fun k => k.enter (s.status c) ⟨0x03, 0, false, (s.ctx c).pc, (s.ctx c).pc + imm.signExtend 32 * 4⟩)) ∧
    (∀ (s : State) (c : Fin 16) (a b : Fin 32) (imm : BitVec 16), s.calm c = true → (s.core c).exl = false → ((s.ctx c).getG a) ≠ ((s.ctx c).getG b) →
      inItcm ((s.ctx c).pc + imm.signExtend 32 * 4) = false →
      exec (.bne c a b imm) s = .next (s.modCore c fun k => k.enter (s.status c) ⟨0x03, 0, false, (s.ctx c).pc, (s.ctx c).pc + imm.signExtend 32 * 4⟩)) ∧
    (∀ (s : State) (c : Fin 16) (a b : Fin 32) (imm : BitVec 16), s.calm c = true → (s.core c).exl = false → ((s.ctx c).getG a).toInt < ((s.ctx c).getG b).toInt →
      inItcm ((s.ctx c).pc + imm.signExtend 32 * 4) = false →
      exec (.blt c a b imm) s = .next (s.modCore c fun k => k.enter (s.status c) ⟨0x03, 0, false, (s.ctx c).pc, (s.ctx c).pc + imm.signExtend 32 * 4⟩)) ∧
    (∀ (s : State) (c : Fin 16) (a b : Fin 32) (imm : BitVec 16), s.calm c = true → (s.core c).exl = false → ((s.ctx c).getG b).toInt ≤ ((s.ctx c).getG a).toInt →
      inItcm ((s.ctx c).pc + imm.signExtend 32 * 4) = false →
      exec (.bge c a b imm) s = .next (s.modCore c fun k => k.enter (s.status c) ⟨0x03, 0, false, (s.ctx c).pc, (s.ctx c).pc + imm.signExtend 32 * 4⟩)) ∧
    (∀ (s : State) (c : Fin 16) (a b : Fin 32) (imm : BitVec 16), s.calm c = true → (s.core c).exl = false → ((s.ctx c).getG a).toNat < ((s.ctx c).getG b).toNat →
      inItcm ((s.ctx c).pc + imm.signExtend 32 * 4) = false →
      exec (.bltu c a b imm) s = .next (s.modCore c fun k => k.enter (s.status c) ⟨0x03, 0, false, (s.ctx c).pc, (s.ctx c).pc + imm.signExtend 32 * 4⟩)) ∧
    (∀ (s : State) (c : Fin 16) (a b : Fin 32) (imm : BitVec 16), s.calm c = true → (s.core c).exl = false → ((s.ctx c).getG b).toNat ≤ ((s.ctx c).getG a).toNat →
      inItcm ((s.ctx c).pc + imm.signExtend 32 * 4) = false →
      exec (.bgeu c a b imm) s = .next (s.modCore c fun k => k.enter (s.status c) ⟨0x03, 0, false, (s.ctx c).pc, (s.ctx c).pc + imm.signExtend 32 * 4⟩)) ∧
    (∀ (s : State) (c : Fin 16), s.calm c = true → (s.ctx c).priv = true → (s.core c).inIdle = false → 0x10000 ≤ (s.core c).epc.toNat →
      exec (.eret c) s = .next (s.except c ⟨0x03, 0, false, (s.ctx c).pc, (s.core c).epc⟩)) ∧
    (∀ (s : State) (c : Fin 16) (n : Nat) (f : Ctx → Ctx), s.calm c = true → s.hasContext c → (s.core c).exl = false → (∀ x, (f x).pc = x.pc) → (s.ctx c).pc = 0xFFFC →
      (let t := s.did c n f
       s.retire c n f = (t.modCtx c fun x => { x with pc := 0xFFFC }).modCore c fun k =>
         k.enter ((t.modCtx c fun x => { x with pc := 0xFFFC }).status c) ⟨0x03, 0, false, 0xFFFC, 0x10000⟩)) ∧
    (∀ (s : State) (c : Fin 16) (a b d : Fin 32), s.calm c = true → exec (.add c a b d) s = .next (s.retire c 1 fun x => x.setG a (x.getG b + x.getG d))) ∧
    (∀ (pc : Word) (off : BitVec 26), jumpTarget pc off = pc + off.signExtend 32 * 4)

/-- R56's arithmetic. It states that exec answers a next state, under conditions on the state and the operands alone, for each of these constructors of Instr: fadd, fsub, fmul, fdiv, fsqrt, fmin, fmax, feq, flt, fle, fmadd, fmsub, fnmadd. -/
def Obligations.FloatArithmetic : Prop :=
  (∀ (s : State) (c : Fin 16) (a b d : Fin 32), s.calm c = true → s.room c = true → a.val < 16 → b.val < 16 → d.val < 16 → s.untrapped c (let x := s.ctx c; fAdd (fOf (x.getF b)) (fOf (x.getF d))).2 = true →
      exec (.fadd c a b d) s = .next (s.did c 3 fun x => let r := fAdd (fOf (x.getF b)) (fOf (x.getF d)); (x.setF a r.1).raised r.2)) ∧
    (∀ (s : State) (c : Fin 16) (a b d : Fin 32), s.calm c = true → s.room c = true → a.val < 16 → b.val < 16 → d.val < 16 → s.untrapped c (let x := s.ctx c; fAdd (fOf (x.getF b)) (fOf (x.getF d)).neg).2 = true →
      exec (.fsub c a b d) s = .next (s.did c 3 fun x => let r := fAdd (fOf (x.getF b)) (fOf (x.getF d)).neg; (x.setF a r.1).raised r.2)) ∧
    (∀ (s : State) (c : Fin 16) (a b d : Fin 32), s.calm c = true → s.room c = true → a.val < 16 → b.val < 16 → d.val < 16 → s.untrapped c (let x := s.ctx c; fMul (fOf (x.getF b)) (fOf (x.getF d))).2 = true →
      exec (.fmul c a b d) s = .next (s.did c 3 fun x => let r := fMul (fOf (x.getF b)) (fOf (x.getF d)); (x.setF a r.1).raised r.2)) ∧
    (∀ (s : State) (c : Fin 16) (a b d : Fin 32), s.calm c = true → s.room c = true → a.val < 16 → b.val < 16 → d.val < 16 → s.untrapped c (let x := s.ctx c; fDiv (fOf (x.getF b)) (fOf (x.getF d))).2 = true →
      exec (.fdiv c a b d) s = .next (s.did c 14 fun x => let r := fDiv (fOf (x.getF b)) (fOf (x.getF d)); (x.setF a r.1).raised r.2)) ∧
    (∀ (s : State) (c : Fin 16) (a b : Fin 32), s.calm c = true → s.room c = true → a.val < 16 → b.val < 16 → s.untrapped c (let x := s.ctx c; fSqrt (fOf (x.getF b))).2 = true →
      exec (.fsqrt c a b) s = .next (s.did c 14 fun x => let r := fSqrt (fOf (x.getF b)); (x.setF a r.1).raised r.2)) ∧
    (∀ (s : State) (c : Fin 16) (a b d : Fin 32), s.calm c = true → s.room c = true → a.val < 16 → b.val < 16 → d.val < 16 → s.untrapped c (let x := s.ctx c; fMinMax false (x.getF b) (x.getF d)).2 = true →
      exec (.fmin c a b d) s = .next (s.did c 1 fun x => let r := fMinMax false (x.getF b) (x.getF d); (x.setF a r.1).raised r.2)) ∧
    (∀ (s : State) (c : Fin 16) (a b d : Fin 32), s.calm c = true → s.room c = true → a.val < 16 → b.val < 16 → d.val < 16 → s.untrapped c (let x := s.ctx c; fMinMax true (x.getF b) (x.getF d)).2 = true →
      exec (.fmax c a b d) s = .next (s.did c 1 fun x => let r := fMinMax true (x.getF b) (x.getF d); (x.setF a r.1).raised r.2)) ∧
    (∀ (s : State) (c : Fin 16) (a b d : Fin 32), s.calm c = true → s.room c = true → b.val < 16 → d.val < 16 → s.untrapped c (fEq (fOf ((s.ctx c).getF b)) (fOf ((s.ctx c).getF d))).2 = true →
      exec (.feq c a b d) s = .next (s.did c 1 fun x => (x.setG a (BitVec.ofNat 32 (fEq (fOf (x.getF b)) (fOf (x.getF d))).1)).raised (fEq (fOf (x.getF b)) (fOf (x.getF d))).2)) ∧
    (∀ (s : State) (c : Fin 16) (a b d : Fin 32), s.calm c = true → s.room c = true → b.val < 16 → d.val < 16 → s.untrapped c (fLt (fOf ((s.ctx c).getF b)) (fOf ((s.ctx c).getF d))).2 = true →
      exec (.flt c a b d) s = .next (s.did c 1 fun x => (x.setG a (BitVec.ofNat 32 (fLt (fOf (x.getF b)) (fOf (x.getF d))).1)).raised (fLt (fOf (x.getF b)) (fOf (x.getF d))).2)) ∧
    (∀ (s : State) (c : Fin 16) (a b d : Fin 32), s.calm c = true → s.room c = true → b.val < 16 → d.val < 16 → s.untrapped c (fLe (fOf ((s.ctx c).getF b)) (fOf ((s.ctx c).getF d))).2 = true →
      exec (.fle c a b d) s = .next (s.did c 1 fun x => (x.setG a (BitVec.ofNat 32 (fLe (fOf (x.getF b)) (fOf (x.getF d))).1)).raised (fLe (fOf (x.getF b)) (fOf (x.getF d))).2)) ∧
    (∀ (s : State) (c : Fin 16) (a b d e : Fin 32), s.calm c = true → s.room c = true → a.val < 16 → b.val < 16 → d.val < 16 → e.val < 16 → s.untrapped c (let x := s.ctx c; fMulAdd (fOf (x.getF b)) (fOf (x.getF d)) (fOf (x.getF e))).2 = true →
      exec (.fmadd c a b d e) s = .next (s.did c 4 fun x => let r := fMulAdd (fOf (x.getF b)) (fOf (x.getF d)) (fOf (x.getF e)); (x.setF a r.1).raised r.2)) ∧
    (∀ (s : State) (c : Fin 16) (a b d e : Fin 32), s.calm c = true → s.room c = true → a.val < 16 → b.val < 16 → d.val < 16 → e.val < 16 → s.untrapped c (let x := s.ctx c; fMulAdd (fOf (x.getF b)) (fOf (x.getF d)) (fOf (x.getF e)).neg).2 = true →
      exec (.fmsub c a b d e) s = .next (s.did c 4 fun x => let r := fMulAdd (fOf (x.getF b)) (fOf (x.getF d)) (fOf (x.getF e)).neg; (x.setF a r.1).raised r.2)) ∧
    (∀ (s : State) (c : Fin 16) (a b d e : Fin 32), s.calm c = true → s.room c = true → a.val < 16 → b.val < 16 → d.val < 16 → e.val < 16 → s.untrapped c (let x := s.ctx c; fNegResult (fMulAdd (fOf (x.getF b)) (fOf (x.getF d)) (fOf (x.getF e)))).2 = true →
      exec (.fnmadd c a b d e) s = .next (s.did c 4 fun x => let r := fNegResult (fMulAdd (fOf (x.getF b)) (fOf (x.getF d)) (fOf (x.getF e))); (x.setF a r.1).raised r.2))

/-- R56's moves and conversions. It states that exec answers a next state, under conditions on the state and the operands alone, for each of these constructors of Instr: fabs, fneg, fmov, fcvtSW, fcvtWS, ftrcWS, fmvFG, fmvGF, fcvtSQ, fcvtQS. -/
def Obligations.FloatMovesAndConversions : Prop :=
  (∀ (s : State) (c : Fin 16) (a b : Fin 32), s.calm c = true → s.room c = true → a.val < 16 → b.val < 16 →
      exec (.fabs c a b) s = .next (s.did c 1 fun x => x.setF a ((x.getF b) &&& 0x7FFFFFFF))) ∧
    (∀ (s : State) (c : Fin 16) (a b : Fin 32), s.calm c = true → s.room c = true → a.val < 16 → b.val < 16 →
      exec (.fneg c a b) s = .next (s.did c 1 fun x => x.setF a ((x.getF b) ^^^ 0x80000000))) ∧
    (∀ (s : State) (c : Fin 16) (a b : Fin 32), s.calm c = true → s.room c = true → a.val < 16 → b.val < 16 →
      exec (.fmov c a b) s = .next (s.did c 1 fun x => x.setF a (x.getF b))) ∧
    (∀ (s : State) (c : Fin 16) (a b : Fin 32), s.calm c = true → s.room c = true → a.val < 16 →
      exec (.fmvFG c a b) s = .next (s.did c 1 fun x => x.setF a (x.getG b))) ∧
    (∀ (s : State) (c : Fin 16) (a b : Fin 32), s.calm c = true → s.room c = true → b.val < 16 →
      exec (.fmvGF c a b) s = .next (s.did c 1 fun x => x.setG a (x.getF b))) ∧
    (∀ (s : State) (c : Fin 16) (a b : Fin 32), s.calm c = true → s.room c = true → a.val < 16 → s.untrapped c (fFromInt ((s.ctx c).getG b) 0).2 = true →
      exec (.fcvtSW c a b) s = .next (s.did c 2 fun x => let r := fFromInt (x.getG b) 0; (x.setF a r.1).raised r.2)) ∧
    (∀ (s : State) (c : Fin 16) (a b : Fin 32), s.calm c = true → s.room c = true → a.val < 16 → s.untrapped c (fFromInt ((s.ctx c).getG b) (-31)).2 = true →
      exec (.fcvtSQ c a b) s = .next (s.did c 2 fun x => let r := fFromInt (x.getG b) (-31); (x.setF a r.1).raised r.2)) ∧
    (∀ (s : State) (c : Fin 16) (a b : Fin 32), s.calm c = true → s.room c = true → b.val < 16 → s.untrapped c (fToInt false (fOf ((s.ctx c).getF b))).2 = true →
      exec (.fcvtWS c a b) s = .next (s.did c 2 fun x => let r := fToInt false (fOf (x.getF b)); (x.setG a r.1).raised r.2)) ∧
    (∀ (s : State) (c : Fin 16) (a b : Fin 32), s.calm c = true → s.room c = true → b.val < 16 → s.untrapped c (fToInt true (fOf ((s.ctx c).getF b))).2 = true →
      exec (.ftrcWS c a b) s = .next (s.did c 2 fun x => let r := fToInt true (fOf (x.getF b)); (x.setG a r.1).raised r.2)) ∧
    (∀ (s : State) (c : Fin 16) (a b : Fin 32), s.calm c = true → s.room c = true → b.val < 16 → s.untrapped c (fToQ (fOf ((s.ctx c).getF b))).2 = true →
      exec (.fcvtQS c a b) s = .next (s.did c 2 fun x => let r := fToQ (fOf (x.getF b)); (x.setG a r.1).raised r.2))

/-- R57. It states that exec answers a next state, under conditions on the state and the operands alone, for each of these constructors of Instr: qadd15, qsub15, qmul15, qneg15, qabs15, qsat15, qadd31, qsub31, qmul31, qneg31, qabs31, qshl31. -/
def Obligations.FixedPointForms : Prop :=
  (∀ (s : State) (c : Fin 16) (a b d : Fin 32), s.calm c = true → s.room c = true → 
      exec (.qadd15 c a b d) s = .next (s.did c 1 fun x => let r := satHalf (q15 (x.getG b) + q15 (x.getG d)); (x.setG a r.1).raised r.2)) ∧
    (∀ (s : State) (c : Fin 16) (a b d : Fin 32), s.calm c = true → s.room c = true → 
      exec (.qsub15 c a b d) s = .next (s.did c 1 fun x => let r := satHalf (q15 (x.getG b) - q15 (x.getG d)); (x.setG a r.1).raised r.2)) ∧
    (∀ (s : State) (c : Fin 16) (a b d : Fin 32), s.calm c = true → s.room c = true → 
      exec (.qmul15 c a b d) s = .next (s.did c 2 fun x => let r := satHalf (rnd (q15 (x.getG b) * q15 (x.getG d)) 15); (x.setG a r.1).raised r.2)) ∧
    (∀ (s : State) (c : Fin 16) (a b : Fin 32), s.calm c = true → s.room c = true → 
      exec (.qneg15 c a b) s = .next (s.did c 1 fun x => let r := satHalf (-q15 (x.getG b)); (x.setG a r.1).raised r.2)) ∧
    (∀ (s : State) (c : Fin 16) (a b : Fin 32), s.calm c = true → s.room c = true → 
      exec (.qabs15 c a b) s = .next (s.did c 1 fun x => let r := satHalf (q15 (x.getG b)).natAbs; (x.setG a r.1).raised r.2)) ∧
    (∀ (s : State) (c : Fin 16) (a b : Fin 32), s.calm c = true → s.room c = true → 
      exec (.qsat15 c a b) s = .next (s.did c 1 fun x => let r := satHalf (x.getG b).toInt; (x.setG a r.1).raised r.2)) ∧
    (∀ (s : State) (c : Fin 16) (a b d : Fin 32), s.calm c = true → s.room c = true → 
      exec (.qadd31 c a b d) s = .next (s.did c 1 fun x => let r := satWord ((x.getG b).toInt + (x.getG d).toInt); (x.setG a r.1).raised r.2)) ∧
    (∀ (s : State) (c : Fin 16) (a b d : Fin 32), s.calm c = true → s.room c = true → 
      exec (.qsub31 c a b d) s = .next (s.did c 1 fun x => let r := satWord ((x.getG b).toInt - (x.getG d).toInt); (x.setG a r.1).raised r.2)) ∧
    (∀ (s : State) (c : Fin 16) (a b d : Fin 32), s.calm c = true → s.room c = true → 
      exec (.qmul31 c a b d) s = .next (s.did c 3 fun x => let r := satWord (rnd ((x.getG b).toInt * (x.getG d).toInt) 31); (x.setG a r.1).raised r.2)) ∧
    (∀ (s : State) (c : Fin 16) (a b : Fin 32), s.calm c = true → s.room c = true → 
      exec (.qneg31 c a b) s = .next (s.did c 1 fun x => let r := satWord (-(x.getG b).toInt); (x.setG a r.1).raised r.2)) ∧
    (∀ (s : State) (c : Fin 16) (a b : Fin 32), s.calm c = true → s.room c = true → 
      exec (.qabs31 c a b) s = .next (s.did c 1 fun x => let r := satWord (x.getG b).toInt.natAbs; (x.setG a r.1).raised r.2)) ∧
    (∀ (s : State) (c : Fin 16) (a b d : Fin 32), s.calm c = true → s.room c = true → 
      exec (.qshl31 c a b d) s = .next (s.did c 1 fun x => let r := satWord ((x.getG b).toInt * 2 ^ ((x.getG d).toNat % 32)); (x.setG a r.1).raised r.2)) ∧
    (∀ v : Int, (satHalf v).1 = BitVec.ofInt 32 (max (-32768) (min 32767 v)) ∧ (satHalf v).2 = (if -32768 ≤ v ∧ v ≤ 32767 then 0 else 256)) ∧
    (∀ v : Int, (satWord v).1 = BitVec.ofInt 32 (max (-2147483648) (min 2147483647 v)) ∧
      (satWord v).2 = (if -2147483648 ≤ v ∧ v ≤ 2147483647 then 0 else 256)) ∧
    (∀ (v : Int) (n : Nat), rnd v n = if n = 0 then v else (v + 2 ^ (n - 1)) / 2 ^ n)

/-- R57 for accumulators. It states that exec answers a next state, under conditions on the state and the operands alone, for each of these constructors of Instr: mac15, msu15, mula15, mac31, msu31, mula31, aclr, ald, ardl, ardh, aext, aext15. -/
def Obligations.AccumulatorForms : Prop :=
  (∀ (s : State) (c : Fin 16) (a b d : Fin 32), s.calm c = true → s.room c = true → a.val < 4 →
      exec (.mac15 c a b d) s = .next (s.did c 1 fun x => let r := accWord ((x.getA a).toInt + prod15 (x.getG b) (x.getG d)); (x.setA a r.1).raised r.2)) ∧
    (∀ (s : State) (c : Fin 16) (a b d : Fin 32), s.calm c = true → s.room c = true → a.val < 4 →
      exec (.msu15 c a b d) s = .next (s.did c 1 fun x => let r := accWord ((x.getA a).toInt - prod15 (x.getG b) (x.getG d)); (x.setA a r.1).raised r.2)) ∧
    (∀ (s : State) (c : Fin 16) (a b d : Fin 32), s.calm c = true → s.room c = true → a.val < 4 →
      exec (.mula15 c a b d) s = .next (s.did c 1 fun x => let r := accWord (prod15 (x.getG b) (x.getG d)); (x.setA a r.1).raised r.2)) ∧
    (∀ (s : State) (c : Fin 16) (a b d : Fin 32), s.calm c = true → s.room c = true → a.val < 4 →
      exec (.mac31 c a b d) s = .next (s.did c 2 fun x => let r := accWord ((x.getA a).toInt + prod31 (x.getG b) (x.getG d)); (x.setA a r.1).raised r.2)) ∧
    (∀ (s : State) (c : Fin 16) (a b d : Fin 32), s.calm c = true → s.room c = true → a.val < 4 →
      exec (.msu31 c a b d) s = .next (s.did c 2 fun x => let r := accWord ((x.getA a).toInt - prod31 (x.getG b) (x.getG d)); (x.setA a r.1).raised r.2)) ∧
    (∀ (s : State) (c : Fin 16) (a b d : Fin 32), s.calm c = true → s.room c = true → a.val < 4 →
      exec (.mula31 c a b d) s = .next (s.did c 2 fun x => let r := accWord (prod31 (x.getG b) (x.getG d)); (x.setA a r.1).raised r.2)) ∧
    (∀ (s : State) (c : Fin 16) (a : Fin 32), s.calm c = true → s.room c = true → a.val < 4 →
      exec (.aclr c a) s = .next (s.did c 1 fun x => x.setA a 0)) ∧
    (∀ (s : State) (c : Fin 16) (a b d : Fin 32), s.calm c = true → s.room c = true → a.val < 4 →
      exec (.ald c a b d) s = .next (s.did c 1 fun x => x.setA a (((x.getG d).truncate 8 : BitVec 8) ++ x.getG b))) ∧
    (∀ (s : State) (c : Fin 16) (a b : Fin 32), s.calm c = true → s.room c = true → b.val < 4 →
      exec (.ardl c a b) s = .next (s.did c 1 fun x => x.setG a ((x.getA b).truncate 32))) ∧
    (∀ (s : State) (c : Fin 16) (a b : Fin 32), s.calm c = true → s.room c = true → b.val < 4 →
      exec (.ardh c a b) s = .next (s.did c 1 fun x => x.setG a (((x.getA b).extractLsb' 32 8).signExtend 32))) ∧
    (∀ (s : State) (c : Fin 16) (a b sh : Fin 32), s.calm c = true → s.room c = true → b.val < 4 →
      exec (.aext c a b sh) s = .next (s.did c 2 fun x => let r := satWord (rnd (x.getA b).toInt sh.val); (x.setG a r.1).raised r.2)) ∧
    (∀ (s : State) (c : Fin 16) (a b sh : Fin 32), s.calm c = true → s.room c = true → b.val < 4 →
      exec (.aext15 c a b sh) s = .next (s.did c 2 fun x => let r := satHalf (rnd (x.getA b).toInt sh.val); (x.setG a r.1).raised r.2))

/-- R58, R59, R60, R64, R65 and R70. It states that exec answers a next state, under conditions on the state and the operands alone, for each of these constructors of Instr: yield, waitslot, swap, barIo, barMem, barAll, crd, cwr, trap. -/
def Obligations.SystemForms : Prop :=
  (∀ (s : State) (c : Fin 16) (imm : BitVec 16), s.calm c = true → (s.core c).exl = false →
      exec (.trap c imm) s = .next ((s.spend c 1).modCore c fun k =>
        k.enter (s.status c) ⟨0x08, 0, false, (s.ctx c).pc + 4, imm.zeroExtend 32⟩)) ∧
    (∀ (s : State) (c : Fin 16), s.calm c = true → exec (.yield c) s = .next (s.yield c)) ∧
    (∀ (s : State) (c : Fin 16) (a b : Fin 32), s.calm c = true → s.room c = true → 100 ≤ ((s.ctx c).getG b).toNat →
      exec (.waitslot c a b) s = .next (s.did c 2 fun x => x.setG a 0xFFFFFFFF)) ∧
    (∀ (s : State) (c : Fin 16) (a b : Fin 32) (e : Nat), s.calm c = true → ((s.ctx c).getG b).toNat < 100 → (s.core c).inIdle = false →
      (s.core c).cur = some e →
      exec (.waitslot c a b) s = .next ((s.spend c 2).suspend c e (.slot a ((s.ctx c).getG b).toNat 0))) ∧
    (∀ (s : State) (c : Fin 16) (a : Fin 32), s.calm c = true → s.room c = true → ((s.ctx c).priv || s.on CORE_CTL.SWAP_EN c.val) = true →
      exec (.swap c a) s = .next ((if s.swapCode c = 0 then s.acceptSwap c else s).did c 4 fun x => x.setG a (BitVec.ofNat 32 (s.swapCode c)))) ∧
    (∀ (s : State) (c : Fin 16) (a n : Fin 32), s.calm c = true → s.room c = true → n.val < 16 → (crSup n.val = false ∨ (s.ctx c).priv = true) →
      exec (.crd c a n) s = .next ((s.crLatch c n.val).did c 1 fun x => x.setG a (s.crRead c n.val))) ∧
    (∀ (s : State) (c : Fin 16) (b n : Fin 32), s.calm c = true → s.room c = true → n.val < 16 → (crSup n.val = false ∨ (s.ctx c).priv = true) →
      ((s.core c).crWrite n.val (s.ctx c).priv ((s.ctx c).getG b)).line = none →
      exec (.cwr c b n) s =
        .next ((s.modCore c fun k => k.crWrite n.val (s.ctx c).priv ((s.ctx c).getG b)).did c 2 fun x => x)) ∧
    (∀ (s : State) (c : Fin 16) (wait : Nat), s.calm c = true → s.room c = true → (s.core c).posted = [] →
      exec (.barIo c wait) s = .next (s.did c (1 + wait) fun x => x)) ∧
    (∀ (s : State) (c : Fin 16) (wait : Nat), s.calm c = true → s.room c = true → (s.core c).posted = [] →
      exec (.barMem c wait) s = .next (s.did c (1 + wait) fun x => x)) ∧
    (∀ (s : State) (c : Fin 16) (wait : Nat), s.calm c = true → s.room c = true → (s.core c).posted = [] →
      exec (.barAll c wait) s = .next (s.did c (1 + wait) fun x => x)) ∧
    (∀ (s : State) (c : Fin 16) (wait : Nat), s.calm c = true → (s.drain c (fun k => k == .periph)).coreRuns c = true →
      exec (.barIo c wait) s = .next ((s.drain c (fun k => k == .periph)).retire c (1 + wait) fun x => x)) ∧
    (∀ (s : State) (c : Fin 16) (wait : Nat), s.calm c = true → (s.drain c (fun k => k != .periph)).coreRuns c = true →
      exec (.barMem c wait) s = .next ((s.drain c (fun k => k != .periph)).retire c (1 + wait) fun x => x)) ∧
    (∀ (s : State) (c : Fin 16) (wait : Nat), s.calm c = true → (s.drain c (fun _ => true)).coreRuns c = true →
      exec (.barAll c wait) s = .next ((s.drain c (fun _ => true)).retire c (1 + wait) fun x => x))

/-- R66 and R68. -/
def Obligations.ExceptionEntry : Prop :=
  (∀ (k : Core) (st : Word) (e : Exc),
      (k.enter st e).xstatus = st ∧ (k.enter st e).epc = e.epc ∧ (k.enter st e).ecause = e.cause ∧ (k.enter st e).eval = e.eval ∧
      (k.enter st e).ie = false ∧ (k.enter st e).exl = true ∧ (k.enter st e).cyc = k.cyc + 4 ∧
      (k.enter st e).itcm = k.itcm ∧ (k.enter st e).dtcm = k.dtcm ∧ (k.enter st e).evpend = k.evpend ∧ (k.enter st e).evmask = k.evmask) ∧
    (∀ (s : State) (c : Fin 16) (st : Word) (e : Exc), s.hasContext c →
      ((s.core c).enter st e).ctx = { s.ctx c with priv := true, pc := (s.core c).vbase + (if e.code = 0x10 then 0x80 else 0) }) ∧
    (∀ (s : State) (c : Fin 16) (e : Exc), (s.core c).exl = false → s.except c e = s.modCore c fun k => k.enter (s.status c) e) ∧
    (∀ (s : State) (c : Fin 16) (e : Exc), (s.core c).exl = true → s.except c e = s.doubleFault c e)

/-- R47; the instruction word stands in EVAL, with the control registers of Table 3.18 marked S from number 8 on. -/
def Obligations.PrivilegeChecks : Prop :=
  (∀ (s : State) (c : Fin 16), s.calm c = true → (s.core c).exl = false → (s.ctx c).priv = false →
      exec (.eret c) s = .next (s.modCore c fun k => k.enter (s.status c) ⟨0x02, 0, false, (s.ctx c).pc, 0xA0000003⟩)) ∧
    (∀ (s : State) (c : Fin 16) (a n : Fin 32), s.calm c = true → (s.core c).exl = false → (s.ctx c).priv = false → n.val < 16 → crSup n.val = true →
      exec (.crd c a n) s =
        .next (s.modCore c fun k => k.enter (s.status c) ⟨0x02, 0, false, (s.ctx c).pc, wordReg 0x28 a 0 n 0x010⟩)) ∧
    (∀ (s : State) (c : Fin 16) (b n : Fin 32), s.calm c = true → (s.core c).exl = false → (s.ctx c).priv = false → n.val < 16 → crSup n.val = true →
      exec (.cwr c b n) s =
        .next (s.modCore c fun k => k.enter (s.status c) ⟨0x02, 0, false, (s.ctx c).pc, wordReg 0x28 0 b n 0x011⟩)) ∧
    (∀ (s : State) (c : Fin 16) (a : Fin 32), s.calm c = true → (s.core c).exl = false → (s.ctx c).priv = false → s.on CORE_CTL.SWAP_EN c.val = false →
      exec (.swap c a) s =
        .next (s.modCore c fun k => k.enter (s.status c) ⟨0x02, 0, false, (s.ctx c).pc, wordReg 0x28 a 0 0 0x002⟩)) ∧
    (∀ (s : State) (c : Fin 16), s.calm c = true → (s.ctx c).priv = true → (s.core c).inIdle = false → (s.core c).epc.toNat < 0x10000 →
      (let t := (s.spend c 3).modCore c fun x => (x.modCtx fun y => { y.restore x.xstatus with pc := x.epc }).popStatus
       exec (.eret c) s = .next (if (s.core c).guest then
         ((t.modCore c fun x => { x with cur := none, guest := false, overSlots := none, slotEnd := none }).settle c).takeEvent c
       else t.bound c))) ∧
    (∀ (s : State) (c : Fin 16), s.calm c = true → (s.ctx c).priv = true → (s.core c).inIdle = true →
      exec (.eret c) s = .next ((((s.spend c 3).modCore c fun x =>
        { x.popStatus with idle := x.idle.restore x.xstatus, inIdle := false }).settle c).takeEvent c)) ∧
    (∀ (x : Ctx) (w : Word), (x.restore w).priv = w.getLsbD 0) ∧
    (∀ (s : State) (c : Fin 16) (st : Word) (e : Exc), s.hasContext c → ((s.core c).enter st e).ctx.priv = true) ∧
    (∀ (s : State) (c : Fin 16), (s.status c).getLsbD 0 = (s.ctx c).priv) ∧
    (∀ n : Nat, n < 16 → (crSup n = true ↔ 8 ≤ n))

/-- R61 and R62. It states that exec answers a next state, under conditions on the state and the operands alone, for each of these constructors of Instr: lock, trylock, unlk, lockWaitTimeout, msend, mrecv, mrecvw. -/
def Obligations.LocksAndMailboxes : Prop :=
  (∀ (s : State) (c : Fin 16) (a b : Fin 32) (imm : BitVec 16), s.calm c = true → s.room c = true → imm.toNat < 256 → s.lockNo c b imm < 256 →
      (s.locks[s.lockNo c b imm % 256]).holder = none →
      exec (.lock c a b imm) s =
        .next ((s.takeLock c (Fin.ofNat 256 (s.lockNo c b imm))).did c 6 fun x => x.setG a (lockStatus 0x00 0xFF))) ∧
    (∀ (s : State) (c : Fin 16) (a b : Fin 32) (imm : BitVec 16), s.calm c = true → s.room c = true → imm.toNat < 256 → s.lockNo c b imm < 256 →
      (s.locks[s.lockNo c b imm % 256]).holder = none →
      exec (.trylock c a b imm) s =
        .next ((s.takeLock c (Fin.ofNat 256 (s.lockNo c b imm))).did c 6 fun x => x.setG a (lockStatus 0x00 0xFF))) ∧
    (∀ (s : State) (c : Fin 16) (a b : Fin 32) (imm : BitVec 16), s.calm c = true → s.room c = true → imm.toNat < 256 → 255 < s.lockNo c b imm →
      exec (.unlk c a b imm) s = .next (s.did c 4 fun x => x.setG a (lockStatus 0x05 0xFF))) ∧
    (∀ (s : State) (c : Fin 16) (a b : Fin 32) (imm : BitVec 16), s.calm c = true → imm.toNat < 256 → s.lockNo c b imm < 256 →
      s.holds c (Fin.ofNat 256 (s.lockNo c b imm)) = true →
      exec (.unlk c a b imm) s =
        .next ((s.passLock (Fin.ofNat 256 (s.lockNo c b imm))).retire c 4 fun x => x.setG a (lockStatus 0x00 0xFF))) ∧
    (∀ (s : State) (c : Fin 16) (a b d : Fin 32), s.calm c = true →
      (let m := mbOf ((s.ctx c).getG d)
       let n := mbLen ((s.ctx c).getG d)
       let addr := ((s.ctx c).getG b).toNat
       s.sendCode c m n addr = 0 →
       let t := s.pushMsg m c.val ((s.core c).dtcm.readWords (addr - 0x20000) n)
       exec (.msend c a b d) s = .next (t.retire c (8 + n) fun x => x.setG a (mbStatus 0 n (t.mbox[m.val]).length)))) ∧
    (∀ (s : State) (c : Fin 16) (a b d : Fin 32) (g : Msg) (rest : List Msg), s.calm c = true →
      (let m := mbOf ((s.ctx c).getG d)
       let n := mbLen ((s.ctx c).getG d)
       let addr := ((s.ctx c).getG b).toNat
       s.recvCode c m n addr = 0 → s.mbox[m.val] = g :: rest →
       let t := ((s.modMbox m fun _ => rest).toDtcm c addr n g).retire c (8 + min n g.words.length) fun x => x.setG a (g.status n)
       exec (.mrecv c a b d) s = .next t ∧ exec (.mrecvw c a b d) s = .next t)) ∧
    (∀ (s : State) (c : Fin 16) (lw : LockWait), s.units = true → s.live = true → (s.core c).lockWait = some lw → s.get LK_LIMIT.LIM c.val ≠ 0 →
      (let n := Fin.ofNat 256 lw.lock
       exec (.lockWaitTimeout c) s = .next (((s.withdraw n (s.nodeOf c)).count LK_STAT.TIMEOUT_CNT).endLockWait c
         (lockStatus 0x06 (holderNo (s.locks[n.val]).holder)))))

/-- R63 and R107. It states that exec answers a next state, under conditions on the state and the operands alone, for each of these constructors of Instr: tmark, rtrd, rtwr, rttag. -/
def Obligations.LoopUnitInstructions : Prop :=
  (∀ (s : State) (c : Fin 16) (b : Fin 32) (imm : BitVec 16), s.calm c = true → s.room c = true → imm.toNat < 32768 → s.trWriting c = false →
      exec (.tmark c b imm) s = .next ((s.count TR_LOST.MARK_LOST 1 c.val).did c 2 fun x => x)) ∧
    (∀ (s : State) (c : Fin 16) (b : Fin 32) (imm : BitVec 16), s.calm c = true →
      (let t := s.trMark c imm.toNat ((s.ctx c).getG b)
       t.calm c = true → t.room c = true → exec (.tmark c b imm) s = .next (t.did c 2 fun x => x))) ∧
    (∀ (s : State) (c : Fin 16) (a b d : Fin 32), s.calm c = true → s.room c = true →
      (let w := (s.ctx c).getG b
       let r := s.repTab c (Fin.ofNat 8 w.toNat)
       r.len ≠ 0 →
       exec (.rtrd c a b d) s = .next (s.did c 3 fun x =>
         x.setG a (wordZ (entryOf (if w.getLsbD 8 then r.shadow else r.active) (((s.ctx c).getG d).toNat % r.len)))))) ∧
    (∀ (s : State) (c : Fin 16) (a b d : Fin 32), s.calm c = true → s.room c = true →
      (let t := Fin.ofNat 8 ((s.ctx c).getG b).toNat
       (s.repTab c t).len ≠ 0 →
       exec (.rtwr c a b d) s = .next ((s.modRepTab c t fun q =>
         { q with shadow := entrySet q.shadow (((s.ctx c).getG d).toNat % (s.repTab c t).len) ((s.ctx c).getG a).toNat }).did c 2 fun x => x))) ∧
    (∀ (s : State) (c : Fin 16) (a b : Fin 32), s.calm c = true → s.room c = true →
      (let w := (s.ctx c).getG b
       let t := Fin.ofNat 8 w.toNat
       (s.repTab c t).len ≠ 0 →
       exec (.rttag c a b) s = .next (s.did c 3 fun x =>
         x.setG a (BitVec.ofNat 32 (s.rtTag c t (w.getLsbD 8))))))

/-- The frame of R49, with R46's g0. -/
def Obligations.CoreInstructionFrame : Prop :=
  (∀ (s : State) (c : Fin 16) (n : Nat) (f : Ctx → Ctx), (∀ e : Fin 16, e ≠ c → (s.did c n f).core e = s.core e) ∧
      { s.did c n f with cores := s.cores } = s) ∧
    (∀ (s : State) (c : Fin 16) (n : Nat) (f : Ctx → Ctx), s.hasContext c →
      (s.did c n f).ctx c = (f (s.ctx c)).next ∧ (f (s.ctx c)).next = { f (s.ctx c) with pc := (f (s.ctx c)).pc + 4 }) ∧
    (∀ (s : State) (c : Fin 16) (n : Nat) (f : Ctx → Ctx), ((s.did c n f).core c).cyc = (s.core c).cyc + n ∧ ((s.did c n f).core c).itcm = (s.core c).itcm ∧
      ((s.did c n f).core c).dtcm = (s.core c).dtcm ∧ ((s.did c n f).core c).xstatus = (s.core c).xstatus ∧
      ((s.did c n f).core c).epc = (s.core c).epc ∧ ((s.did c n f).core c).evpend = (s.core c).evpend) ∧
    (∀ (s : State) (c : Fin 16) (n : Nat) (w : Word) (f : Ctx → Ctx), { s.went c n w f with cores := s.cores } = s ∧
      ∀ e : Fin 16, e ≠ c → (s.went c n w f).core e = s.core e) ∧
    (∀ (x : Ctx) (a b : Fin 32) (v : Word), (x.setG a v).getG b = (if b = a ∧ a ≠ 0 then v else x.getG b) ∧ (x.setG 0 v) = x ∧ x.getG 0 = 0) ∧
    (∀ (x : Ctx) (a : Fin 32) (v : Word), (x.setG a v).f = x.f ∧ (x.setG a v).a = x.a ∧ (x.setG a v).pc = x.pc ∧ (x.setG a v).priv = x.priv ∧
      (x.setG a v).sat = x.sat ∧ (x.setG a v).ovf = x.ovf)

/-- R69, R73, R76, R79 and R81. It states that exec answers a next state, under conditions on the state and the operands alone, for each of these constructors of Instr: eventLine, lockstepMismatch, majorFrameBoundary, slotStart, overrunKill, bankValidationDone, coreResetDone. -/
def Obligations.CoresEventsAndLockstep : Prop :=
  (∀ (s : State) (c : Fin 16) (line : Fin 32), s.live = true → s.paired c.val = false → (s.core c).executing = false → 
      exec (.eventLine c line) s = .next ((s.modCore c fun k => k.pend (2 ^ line.val)).takeEvent c)) ∧
    (∀ (s : State) (pair : Fin 8), s.units = true → s.live = true → s.lockstep (2 * pair.val) = true → (s.core ⟨2 * pair.val, by omega⟩).life = .running → 
      exec (.lockstepMismatch pair) s = .next ((s.errReport errLockstep pair.val (coreNode (2 * pair.val)) []).coreFail ⟨2 * pair.val, by omega⟩ errLockstep)) ∧
    (∀ (s : State) (c : Fin 16), s.units = true → s.live = true → 
      exec (.overrunKill c) s = .next (s.overrunKill c)) ∧
    (∀ (s : State) (c : Fin 16) (b : Fin 2), s.units = true → (s.core c).validating = some b → 
      exec (.bankValidationDone c) s = .next ((s.modCore c fun k => { k with validating := none }).validateBank c.val b.val)) ∧
    (∀ (s : State) (c : Fin 16), s.units = true → (s.core c).resetting = true → 
      exec (.coreResetDone c) s = .next (s.modCore c fun k => { k with resetting := false, life := .halted })) ∧
    (∀ (s : State) (errs : List Nat), s.units = true → 
      exec (.majorFrameBoundary errs) s = .next (s.frameBegin fun a => errs.contains a)) ∧
    (∀ (s : State) (n : Fin 100), s.units = true → 
      exec (.slotStart n) s = .next (s.slotBegin n))

/-- R5 and the rules of the commands. It states that exec answers a next state, under conditions on the state and the operands alone, for each of these constructors of Instr: validate, invalidate, coreRunWrite, coreReset, swapSet, lstepCfgWrite, migGo, migrationCopyDone, lkFree, mbCfgWrite, serviceReplyDrop, bankLoad, partList. -/
def Obligations.SupervisorCommandsOfCores : Prop :=
  (∀ (s : State) (c : Fin 16) (rq : Req), s.units = true → rq.sup = true → 
      exec (.validate c rq) s = .next (s.validate c)) ∧
    (∀ (s : State) (c : Fin 16) (rq : Req), s.units = true → rq.sup = true → 
      exec (.invalidate c rq) s = .next (s.invalidate c)) ∧
    (∀ (s : State) (c : Fin 16) (run : Bool) (rq : Req), s.units = true → rq.sup = true → s.controls c = true → 
      exec (.coreRunWrite c run rq) s = .next (s.put CORE_CTL.RUN (b2n run) c.val)) ∧
    (∀ (s : State) (c : Fin 16) (rq : Req), s.units = true → rq.sup = true → 
      exec (.coreReset c rq) s = .next (s.coreReset c)) ∧
    (∀ (s : State) (mask : Nat) (rq : Req), s.units = true → rq.sup = true → 
      exec (.swapSet mask rq) s = .next (s.swapSet mask)) ∧
    (∀ (s : State) (pair : Nat) (rq : Req), s.units = true → rq.sup = true → 
      exec (.lstepCfgWrite pair rq) s = .next (s.lstepWrite pair)) ∧
    (∀ (s : State) (core : Fin 16) (go : Bool) (rq : Req), s.units = true → rq.sup = true → go = true → 
      exec (.migGo core go rq) s = .next (s.migGo core)) ∧
    (∀ (s : State) (n : Fin 256) (rq : Req), s.units = true → rq.sup = true → 
      exec (.lkFree n rq) s = .next (s.lkFree n)) ∧
    (∀ (s : State) (m : Fin 64) (w : Nat) (rq : Req), s.units = true → rq.sup = true → 
      exec (.mbCfgWrite m w rq) s = .next (s.mbCfg m w)) ∧
    (∀ (s : State) (c : Fin 16) (run : Bool) (mask pair w : Nat) (n : Fin 256) (m : Fin 64) (rq : Req), rq.sup = false →
      exec (.validate c rq) s = .next s ∧ exec (.invalidate c rq) s = .next s ∧ exec (.coreRunWrite c run rq) s = .next s ∧
      exec (.coreReset c rq) s = .next s ∧ exec (.swapSet mask rq) s = .next s ∧ exec (.lstepCfgWrite pair rq) s = .next s ∧
      exec (.migGo c run rq) s = .next s ∧ exec (.lkFree n rq) s = .next s ∧ exec (.mbCfgWrite m w rq) s = .next s) ∧
    (∀ (s : State) (core : Fin 16) (itcmBad : Bool) (dtcmBad : List Nat), s.units = true → (s.plat.migrations.find? fun m => m.core == core && m.copied.isNone).isSome = true → itcmBad = true → 
      exec (.migrationCopyDone core itcmBad dtcmBad) s = .next ({ s with plat := { s.plat with migrations := s.plat.migrations.filter fun m => m.core != core } }.migBusy.migFail core 3)) ∧
    (∀ (s : State) (core : Fin 16) (itcmBad : Bool) (dtcmBad : List Nat), s.units = true → (s.plat.migrations.find? fun m => m.core == core && m.copied.isNone).isSome = true → itcmBad = false → 
      exec (.migrationCopyDone core itcmBad dtcmBad) s = .next ({ (s.put MIG_STAT.DTCM_BAD (min 4095 dtcmBad.length)) with
        plat := { s.plat with migrations := s.plat.migrations.map fun (m : Migration) =>
          if m.core = core then { m with copied := some (s.copyOf core dtcmBad) } else m } }.migBusy)) ∧
    (∀ (s : State) (index : Nat), s.units = true → (∃ r, s.plat.replies[index]? = some r ∧ 4 ≤ r.tries) → 
      exec (.serviceReplyDrop index) s = .next (match s.plat.replies[index]? with
        | some r => { s with plat := { s.plat with replies := s.plat.replies.eraseIdx index } }.record .mbDrop (node domPlatform r.mb none8)
            [r.core, (r.words[0]?).getD 0, (r.words[1]?).getD 0]
        | none => s)) ∧
    (∀ (s : State) (q : SvcReq) (core addr len : Nat), s.units = true → s.plat.serviceUp = true → 16 ≤ core → 
      (let t := s.request 61 0x0001 q [core, addr % 2 ^ 32, addr / 2 ^ 32, len]
       exec (.bankLoad q core addr len) s = .next (t.done q platCore 0x0001 stBadParam []))) ∧
    (∀ (s : State) (q : SvcReq) (addr : Nat), s.units = true → s.plat.serviceUp = true → 
      (let t := s.request 61 0x0002 q [addr % 2 ^ 32, addr / 2 ^ 32]
       exec (.partList q addr) s = .next ((t.fabWrite addr (t.manager.placed.flatMap fun p =>
        [p.part.kind + 2 ^ 8 * p.part.target + 2 ^ 16 * p.part.gen, p.addr % 2 ^ 32, p.addr / 2 ^ 32, p.part.data.length])).done q platCore 0x0002 stOk
        [t.manager.placed.length]))) ∧
    (∀ (s : State) (q : SvcReq) (c : Fin 16) (addr len : Nat), s.units = true → s.plat.serviceUp = true →
      (let t := s.request 61 0x0001 q [c.val, addr % 2 ^ 32, addr / 2 ^ 32, len]
       t.controls c = true → (∀ k < len, fabReaches (addr + k) false true = true) → t.frozen c = false →
       exec (.bankLoad q c.val addr len) s = .next (if Config.imageOk (t.fabBytes addr len) then
           (t.loadBank c (t.core c).other (t.fabBytes addr len)).done q platCore 0x0001 stOk [(t.loadBank c (t.core c).other (t.fabBytes addr len)).bankCtl c.val]
         else t.done q platCore 0x0001 stBadParam [])))

/-- Chapter 5's events. It states that exec answers a next state, under conditions on the state and the operands alone, for each of these constructors of Instr: loopInputReturn, loopOutputIssue, loopOutputBusError, loopEnable, coefSwap, intLoad, rtSwitch, traceArm, traceSoft, traceStop. -/
def Obligations.LoopsAndTrace : Prop :=
  (∀ (s : State) (c : Fin 16) (l : Fin 8) (inErr stErr anErr : Bool), s.live = true → 
      exec (.loopInputReturn c l inErr stErr anErr) s = .next (s.lpReturn c l inErr stErr anErr)) ∧
    (∀ (s : State) (c : Fin 16) (l : Fin 8) (err : Bool), (s.loop c l).cur = none → 
      exec (.loopOutputIssue c l err) s = .next (s)) ∧
    (∀ (s : State) (c : Fin 16) (l : Fin 8) (err : Bool) (q : LoopSample) (w : Nat) (u : State), (s.loop c l).cur = some q → q.out = some w → s.live = true →
      s.mtc ≤ q.t0 + s.lpDelay c l → (s.modLoop c l fun x => { x with cur := none }).lpWrite c l w err = some u →
      exec (.loopOutputIssue c l err) s = .next u) ∧
    (∀ (s : State) (c : Fin 16) (l : Fin 8), s.live = true → (s.loop c l).failing = true → 
      (let t := (s.modLoop c l fun x => { x with failing := false }).lpFlag c l LP_FLAGS.SRC_ERR
       t.get LP_STAT.STATE c.val l.val ≠ loopRun →
       exec (.loopOutputBusError c l) s = .next (t))) ∧
    (∀ (s : State) (c : Fin 16) (l : Fin 8) (en : Bool) (rq : Req), s.units = true → rq.sup = true → s.controls c = true → 
      exec (.loopEnable c l en rq) s = .next (s.lpEnable c l en)) ∧
    (∀ (s : State) (c : Fin 16) (l : Fin 8) (rq : Req), s.units = true → rq.sup = true → s.controls c = true → 
      exec (.coefSwap c l rq) s = .next (s.put LP_CTL.COEF_SWAP 1 c.val l.val)) ∧
    (∀ (s : State) (c : Fin 16) (l : Fin 8) (rq : Req), s.units = true → rq.sup = true → s.controls c = true → 
      exec (.intLoad c l rq) s = .next (s.put LP_CTL.INT_LOAD 1 c.val l.val)) ∧
    (∀ (s : State) (c : Fin 16) (t : Fin 8) (rq : Req), s.units = true → rq.sup = true → s.controls c = true → 
      exec (.rtSwitch c t rq) s = .next (s.put RT_CFG.SWITCH 1 c.val t.val)) ∧
    (∀ (s : State) (c : Fin 16) (rq : Req), s.units = true → rq.sup = true → s.controls c = true → 
      exec (.traceArm c rq) s = .next (s.trCtl c 1)) ∧
    (∀ (s : State) (c : Fin 16) (rq : Req), s.units = true → rq.sup = true → s.controls c = true → 
      exec (.traceSoft c rq) s = .next (s.trCtl c 2)) ∧
    (∀ (s : State) (c : Fin 16) (rq : Req), s.units = true → rq.sup = true → s.controls c = true → 
      exec (.traceStop c rq) s = .next (s.trCtl c 4))

/-- R113, R116 and R117. It states that exec answers a next state, under conditions on the state and the operands alone, for each of these constructors of Instr: ainConversion, ainValueWrite, ainEdge, ainIndexEdge, ainShuntReconnect. -/
def Obligations.AnalogueInputs : Prop :=
  (∀ (s : State) (xs : List AinIn), s.units = true → 
      exec (.ainConversion xs) s = .next ((List.finRange 40).foldl (fun t n => t.ainConvert n ((xs[n.val]?).getD ⟨0, false, false, false⟩)) s)) ∧
    (∀ (s : State) (slot : Nat), s.units = true → 
      exec (.ainValueWrite slot) s = .next ((List.finRange 40).foldl (fun t n =>
        match (t.ain[n.val]).out with
        | some o => (t.modAin n fun a => { a with out := none }).ainWrite n slot o
        | none => t) s)) ∧
    (∀ (s : State) (n : Fin 40) (lineA reverse : Bool), s.units = true → s.ainMode n.val = 4 → (s.ain[n.val]).cnt + 1 < s.ainRev n.val → 
      exec (.ainEdge n lineA reverse) s = .next (s.modAin n fun a =>
        { a with cnt := a.cnt + 1, edges := if lineA then s.mtc :: a.edges.take 15 else a.edges,
                 sinceTmo := if lineA then (if ((s.ain[n.val]).edges.head?).any fun e => decide (s.ainTmo n.val ≤ s.mtc - e) then 1 else a.sinceTmo + 1) else a.sinceTmo,
                 sinceIdx := a.sinceIdx + 1, reverse := false })) ∧
    (∀ (s : State) (idx : Fin 40), s.units = true → s.ainMode idx.val ≠ 4 → 
      exec (.ainIndexEdge idx) s = .next (s)) ∧
    (∀ (s : State) (idx : Fin 40), s.units = true → s.ainMode idx.val = 4 → (∀ n : Fin 40, s.get AIN_CFG.IDX_CH n.val ≠ idx.val) → 
      ∃ t, exec (.ainIndexEdge idx) s = .next t ∧ t = s) ∧
    (∀ (s : State) (n : Fin 40), s.units = true → 
      exec (.ainShuntReconnect n) s = .next (s.modAin n fun a => { a with shuntOff := false })) ∧
    (∀ (s : State) (idx : Fin 40), s.units = true → s.ainMode idx.val = 4 → 
      exec (.ainIndexEdge idx) s = .next ((List.finRange 40).foldl (fun t n =>
        let m := t.ainMode n.val
        if (m = 4 ∨ m = 5) ∧ t.get AIN_CFG.IDX_CH n.val = idx.val then
          let bad := t.on AIN_STAT.SYNC n.val && (t.ain[n.val]).sinceIdx != t.ainRev n.val
          let t := if bad then (t.count AIN_CNT.SYNC_ERR 1 n.val).ainSyncLost n
                   else if (t.ain[n.val]).faults[5].active then t.ainFault n 5 false else t
          let t := t.modAin n fun a => { a with cnt := 0, sinceIdx := 0 }
          (t.putB AIN_STAT.SYNC true n.val).bumpMod AIN_ANG.REVS n.val
        else t) s))

/-- R120 to R123. It states that exec answers a next state, under conditions on the state and the operands alone, for each of these constructors of Instr: lsSample, lsBinClose, lsBinDeliver, lsBinRead, lsOpenTest, lsSilentTimeout, lsRestart, imuOutput. -/
def Obligations.LossPlatesAndImu : Prop :=
  (∀ (s : State) (n : Fin 16) (x : Int) (dcOut : Bool), s.units = true → s.on LS_CFG.EN n.val = false → 
      exec (.lsSample n x dcOut) s = .next (s)) ∧
    (∀ (s : State) (n : Fin 16) (x : Int), s.units = true → s.on LS_CFG.EN n.val = true → (s.ls[n.val]).restart = false → (s.ls[n.val]).bins ≠ [] →
      (s.ls[n.val]).st = .idle → (s.ls[n.val]).pulse ≤ s.mtc → (s.ls[n.val]).clipRun = 0 →
      (let env := (s.lsInput n x).2.natAbs
       s.get LS_THR.ON n.val ≤ env → env < s.get LS_CLIP.CLIP n.val →
        ∃ t, exec (.lsSample n x false) s = .next t ∧ (t.ls[n.val]).st = .inside ∧ (t.ls[n.val]).peak = env ∧ (t.ls[n.val]).n = 1 ∧
          (t.ls[n.val]).start = s.mtc - 2400 ∧ (t.ls[n.val]).hp = (s.lsInput n x).1 ∧
          t.regs = (((s.lsFaultEnd n 1).lsFaultEnd n 2).lsFaultEnd n 3).regs)) ∧
    (∀ (s : State) (n : Fin 16), s.units = true → s.on LS_CFG.EN n.val = true → 
      exec (.lsBinClose n) s = .next (let t := s.modLs n fun l => { l with bins := l.bins.map fun b => { b with closed := true } }
        (t.bumpMod LS_SEQ.BSEQ n.val).lsOpenBin n (((t.ls[n.val]).bins.getLast?.map LsBin.stop).getD t.mtc))) ∧
    (∀ (s : State) (n : Fin 16) (b : LsBin) (rest : List LsBin), s.units = true → (s.ls[n.val]).bins = b :: rest → b.closed = true →
      b.stop ≤ s.mtc - 2400 → ((s.ls[n.val]).st ≠ .inside ∨ (s.ls[n.val]).start < b.start ∨ b.stop ≤ (s.ls[n.val]).start) →
      exec (.lsBinDeliver n) s = .next ((s.modLs n fun l => { l with bins := rest }).lsDeliver n b)) ∧
    (∀ (s : State) (n : Fin 16), s.units = true → 
      exec (.lsBinRead n) s = .next (s.lsPop n)) ∧
    (∀ (s : State) (n : Fin 16) (resp : Nat), s.units = true → s.on LS_CFG.EN n.val = true → (s.ls[n.val]).st ≠ .idle → 
      exec (.lsOpenTest n resp) s = .next (s.modLs n fun l => { l with test := some resp })) ∧
    (∀ (s : State) (n : Fin 16) (resp : Nat), s.units = true → s.on LS_CFG.EN n.val = true → (s.ls[n.val]).st = .idle → 
      exec (.lsOpenTest n resp) s = .next ((s.modLs n fun l => { l with test := some resp }).lsTest n resp)) ∧
    (∀ (s : State) (n : Fin 16), s.units = true → s.on LS_CFG.EN n.val = true → s.get LS_TIME.SILENT_T n.val ≠ 0 → (s.ls[n.val]).heard + 200000000 * s.get LS_TIME.SILENT_T n.val ≤ s.mtc → 
      exec (.lsSilentTimeout n) s = .next (s.lsFault n 3)) ∧
    (∀ (s : State) (n : Fin 16) (rq : Req), s.units = true → rq.sup = true → 
      exec (.lsRestart n rq) s = .next (s.modLs n fun l => { l with restart := true })) ∧
    (∀ (s : State) (raw : List Int) (temp : Int), s.units = true → s.on IMU_CFG.EN = false → 
      exec (.imuOutput raw temp) s = .next (s)) ∧
    (∀ (s : State) (raw : List Int) (temp : Int), s.units = true → s.on IMU_CFG.EN = true → 
      ∃ t, exec (.imuOutput raw temp) s = .next t ∧ (∀ k : Fin 6, (t.imu.last[k.val] = (([s.imuRow 0 (sat16 ((raw[0]?).getD 0)) (sat16 ((raw[1]?).getD 0)) (sat16 ((raw[2]?).getD 0)),
        s.imuRow 1 (sat16 ((raw[0]?).getD 0)) (sat16 ((raw[1]?).getD 0)) (sat16 ((raw[2]?).getD 0)),
        s.imuRow 2 (sat16 ((raw[0]?).getD 0)) (sat16 ((raw[1]?).getD 0)) (sat16 ((raw[2]?).getD 0)),
        s.imuRow 0 (sat16 ((raw[3]?).getD 0)) (sat16 ((raw[4]?).getD 0)) (sat16 ((raw[5]?).getD 0)),
        s.imuRow 1 (sat16 ((raw[3]?).getD 0)) (sat16 ((raw[4]?).getD 0)) (sat16 ((raw[5]?).getD 0)),
        s.imuRow 2 (sat16 ((raw[3]?).getD 0)) (sat16 ((raw[4]?).getD 0)) (sat16 ((raw[5]?).getD 0))] : List Int)[k.val]?).getD 0)))

/-- Chapter 7's events. It states that exec answers a next state, under conditions on the state and the operands alone, for each of these constructors of Instr: camCfgWrite, camFs, camLine, camFe, camMissingPeriod, camDescriptorWrite, camStatsWrite, camLinkUp, camLinkLoss, camDisableTimeout, setGo, setWriteDone, tblSwitch. -/
def Obligations.CameraPorts : Prop :=
  (∀ (s : State) (n : Fin 10) (reg : Fin 3) (value : Nat) (rq : Req), s.units = true → rq.sup = true → 
      exec (.camCfgWrite n reg value rq) s = .next ((s.camCfgWrite n reg value).cvReleaseAll)) ∧
    (∀ (s : State) (n : Fin 10) (vc : Nat), s.units = true → (s.cams[n.val]).receiving = true → (s.cams[n.val]).closing = false →
      camExposure (s.get CAM_CFG.VCBASE n.val) (s.camNexp n.val) vc = some 0 → (s.cams[n.val]).frame = none → (s.cams[n.val]).st ≠ .dropout →
      exec (.camFs n ⟨vc, false, false⟩) s = .next (s.camOpen n)) ∧
    (∀ (s : State) (n : Fin 10) (p : CamPacket) (f : CamFrame), s.units = true → (s.cams[n.val]).frame = some f → p.eccCorr = false → p.eccBad = true →
      exec (.camLine n p) s = .next ((s.count CAM_LINK.LINK_ERR 1 n.val).camClose n false false true false)) ∧
    (∀ (s : State) (n : Fin 10) (p : CamPacket) (f : CamFrame), s.units = true → (s.cams[n.val]).frame = some f → p.eccCorr = false → p.eccBad = false →
      p.overrun = false → p.crcErr = false → camExposure f.cfg.vcbase f.cfg.nexp p.vc = some 0 → p.dt = f.cfg.dt → camDtKnown p.dt = true → p.dt ≠ 0x12 →
      p.codes.length = f.cfg.width → ((f.lines[0]?).getD []).length < f.cfg.height →
      ∃ t, exec (.camLine n p) s = .next t ∧ t.regs = s.regs ∧ (t.cams[n.val]).frame =
        some { f with lines := f.lines.modify 0 fun ls => p.codes :: ls, starts := p.lineStart.getD s.mtc :: f.starts }) ∧
    (∀ (s : State) (n : Fin 10) (vc k : Nat) (f : CamFrame), s.units = true → (s.cams[n.val]).frame = some f → camExposure f.cfg.vcbase f.cfg.nexp vc = some k →
      f.feSeen ||| 2 ^ k = 2 ^ f.cfg.nexp - 1 →
      exec (.camFe n ⟨vc, false, false⟩) s = .next ((s.modCam n fun c => { c with frame := c.frame.map fun g => { g with feSeen := f.feSeen ||| 2 ^ k } }).camClose n
        false false false false)) ∧
    (∀ (s : State) (n : Fin 10), s.units = true → (s.cams[n.val]).receiving = true → (s.cams[n.val]).frame = none →
      (s.cams[n.val]).missRun + 1 < s.get CAM_TOL.MISS_LIMIT n.val →
      exec (.camMissingPeriod n) s = .next (((s.camFlag n CAM_FLAGS.MISSING).count CAM_CNT2.MISSING 1 n.val).modCam n fun c =>
        { c with missRun := c.missRun + 1 })) ∧
    (∀ (s : State) (n : Fin 10) (d : CamClosed) (rest : List CamClosed), s.units = true → (s.cams[n.val]).closed = d :: rest → d.headDone = true →
      exec (.camDescriptorWrite n) s = .next (((s.modCam n fun c => { c with closed := rest }).fabWrite (d.descAddr + 4) (d.desc.drop 1)).fabWrite d.descAddr
        (d.desc.take 1))) ∧
    (∀ (s : State) (n : Fin 10) (d : CamClosed) (rest : List CamClosed), s.units = true → (s.cams[n.val]).closed = d :: rest → d.headDone = false →
      exec (.camStatsWrite n) s = .next (((s.modCam n fun c => { c with closed := c.closed.modify 0 fun d => { d with headDone := true } }).fabWrite
        (d.statAddr + 4) (d.head.drop 1)).fabWrite d.statAddr (d.head.take 1))) ∧
    (∀ (s : State) (n : Fin 10), s.units = true → (s.cams[n.val]).st ≠ .linkWait → 
      exec (.camLinkUp n) s = .next (s.putB CAM_LINK.LINK_UP true n.val)) ∧
    (∀ (s : State) (n : Fin 10), s.units = true → (s.cams[n.val]).st = .linkWait → (s.cams[n.val]).lastSet = none → (s.cams[n.val]).send = none → 
      exec (.camLinkUp n) s = .next (((s.putB CAM_LINK.LINK_UP true n.val).modCam n fun c =>
        { c with lastFs := none, missRun := 0, good := 0 }).camGo n .admitting)) ∧
    (∀ (s : State) (n : Fin 10), s.units = true →
      (let t := ((((s.putB CAM_LINK.LINK_UP false n.val).camFlag n CAM_FLAGS.LINK_LOSS).count CAM_LINK.LINK_ERR 1 n.val).camClose n false true false false)
       (t.cams[n.val]).send = none → ((t.camMayClose n).cams[n.val]).st = .off →
        exec (.camLinkLoss n) s = .next (t.camMayClose n)) ∧
      (let t := ((((s.putB CAM_LINK.LINK_UP false n.val).camFlag n CAM_FLAGS.LINK_LOSS).count CAM_LINK.LINK_ERR 1 n.val).camClose n false true false false)
       (t.cams[n.val]).send = none → ((t.camMayClose n).cams[n.val]).st ≠ .off →
        exec (.camLinkLoss n) s = .next (((t.camMayClose n).modCam n fun c => { c with lastFs := none, missRun := 0, good := 0 }).camGo n .linkWait))) ∧
    (∀ (s : State) (n : Fin 10), s.units = true → (s.cams[n.val]).closing = true → 
      exec (.camDisableTimeout n) s = .next ((s.camClose n false false false true).camMayClose n)) ∧
    (∀ (s : State) (n : Fin 10) (nw : Nat), s.units = true → 
      exec (.setGo n nw) s = .next (s.camSetGo n nw)) ∧
    (∀ (s : State) (n : Fin 10) (d : CamSend), s.units = true → (s.cams[n.val]).send = some d → d.waitFe = false → d.sent + 1 < d.writes.length →
      exec (.setWriteDone n true) s = .next (s.modCam n fun c => { c with send := some { d with sent := d.sent + 1 } })) ∧
    (∀ (s : State) (p : Fin 4) (rq : Req), s.units = true → rq.sup = true → 
      exec (.tblSwitch p rq) s = .next (s.tblSwitch p))

/-- Chapter 8's events. It states that exec answers a next state, under conditions on the state and the operands alone, for each of these constructors of Instr: cameraObjectArrival, lidarBlockArrival, epochReleaseTimeout, featureExtractDone, gridPublish, modelSwap, modelOldRelease, ttCommit, hgCommit, cvEnable, sensMaskWrite. -/
def Obligations.FusionCommands : Prop :=
  (∀ (s : State) (n : Fin 16) (fseq : Nat) (lost : Bool), s.units = true → s.sensTakes n.val 1 = false → 
      exec (.cameraObjectArrival n fseq lost) s = .next (s)) ∧
    (∀ (s : State) (n : Fin 16) (fseq : Nat) (lost : Bool), s.units = true → s.sensTakes n.val 1 = true → lost = true → (s.cuvee.sensors[n.val]).seen ≠ some fseq → ((s.fabWords (s.addr40 DESC_BASE_LO.ADDR DESC_BASE_HI.ADDR (s.get SENS_CFG.SRC n.val) + 32 * (fseq % 64)) 8)[0]?).getD 0 % 2 ^ 16 = fseq → bit (((s.fabWords (s.addr40 DESC_BASE_LO.ADDR DESC_BASE_HI.ADDR (s.get SENS_CFG.SRC n.val) + 32 * (fseq % 64)) 8)[0]?).getD 0 / 2 ^ 16) 6 = false → 
      ∃ t, exec (.cameraObjectArrival n fseq lost) s = .next t ∧ t.regs = (s.count SENS_CNT2.LOST 1 n.val).regs ∧ t.cuvee.pub = s.cuvee.pub ∧ t.cuvee.grid = s.cuvee.grid) ∧
    (∀ (s : State) (n : Fin 16) (slot : Nat), s.units = true → s.sensTakes n.val 2 = true → bit (s.fabN (s.addr40 STR_RING_LO.ADDR STR_RING_HI.ADDR (s.get SENS_CFG.STREAM n.val) + slot % 16 * 0x40000) 4) 19 = true → 
      exec (.lidarBlockArrival n slot) s = .next (s)) ∧
    (∀ (s : State) (n : Fin 16) (slot : Nat), s.units = true → s.sensTakes n.val 2 = true → 
      ∃ t, exec (.lidarBlockArrival n slot) s = .next t ∧ t.valves = s.valves) ∧
    (∀ (s : State), s.units = true → s.on CV_CTL.EN = true → epochStart (s.cuvee.next + 1) + s.waitLimit ≤ s.mtc → 
      exec .epochReleaseTimeout s = .next ((s.cvRelease true).cvReleaseAll)) ∧
    (∀ (s : State) (n : Fin 16) (out : List FeatCell), s.units = true → s.extractNext n.val = none → (s.cuvee.late.find? fun o => o.sensor == n.val) = none → 
      exec (.featureExtractDone n out) s = .next (s)) ∧
    (∀ (s : State) (n : Fin 16) (out : List FeatCell) (e : CvEpoch) (o : CvObj), s.units = true → s.extractNext n.val = some e →
      (e.objs.find? fun o => o.waits n.val) = some o → o.points = [] →
      exec (.featureExtractDone n out) s = .next ((s.unhold o).modCv fun c => c.modEpoch e.k fun e => { e with objs := finishFirst n.val out e.objs })) ∧
    (∀ (s : State) (n : Fin 16) (out : List FeatCell) (e : CvEpoch) (o : CvObj), s.units = true → s.extractNext n.val = some e →
      (e.objs.find? fun o => o.waits n.val) = some o → o.points ≠ [] →
      exec (.featureExtractDone n out) s = .next (s.modCv fun c => c.modEpoch e.k fun x =>
        { x with objs := finishRaster n.val out x.objs, rasters := x.rasters ++ [(n.val, s.raster (e.objs.filter fun o => o.sensor == n.val && o.usable))] })) ∧
    (∀ (s : State) (gm : List GridOut) (e : CvEpoch) (rest : List CvEpoch) (r : Nat), s.units = true → s.cuvee.epochs = e :: rest → e.released = some r →
      e.objs.all CvObj.done = true → exec (.gridPublish gm) s = .next (s.cvPublish e r gm)) ∧
    (∀ (s : State) (m : Fin 16) (rq : Req), s.units = true → rq.sup = true → 
      exec (.modelSwap m rq) s = .next (s.modelSwap m)) ∧
    (∀ (s : State) (m : Fin 16), s.units = true → s.on MS_STAT.OLD_BUSY m.val = true → s.on MS_STAT.PEND m.val = false → s.epochsOver (s.get MS_FROM.EPOCH m.val) = true → 
      exec (.modelOldRelease m) s = .next (((s.putB MS_STAT.OLD_BUSY false m.val).modCv fun c => { c with models := upd c.models m fun vs => vs.take 1 }).cvUsed)) ∧
    (∀ (s : State) (n : Fin 16) (rq : Req), s.units = true → rq.sup = true → 
      exec (.ttCommit n rq) s = .next (s.ttCommit n)) ∧
    (∀ (s : State) (rq : Req), s.units = true → rq.sup = true → 
      exec (.hgCommit rq) s = .next (s.hgCommit)) ∧
    (∀ (s : State) (word : Nat) (rq : Req), s.units = true → rq.sup = true → 
      exec (.cvEnable word rq) s = .next (s.cvCtlWrite word)) ∧
    (∀ (s : State) (n : Fin 16) (word : Nat) (rq : Req), s.units = true → rq.sup = true → 
      exec (.sensMaskWrite n word rq) s = .next (s.sensCfgWrite n word)) ∧
    (∀ (s : State) (n : Fin 16) (fseq : Nat), s.units = true → s.sensTakes n.val 1 = true → (s.cuvee.sensors[n.val]).seen ≠ some fseq →
      (let p := s.get SENS_CFG.SRC n.val
       let w := fun k => ((s.fabWords (s.addr40 DESC_BASE_LO.ADDR DESC_BASE_HI.ADDR p + 32 * (fseq % 64)) 8)[k]?).getD 0
       let fl := w 0 / 2 ^ 16
       let t := s.modSens n fun d => { d with seen := some fseq }
       w 0 % 2 ^ 16 = fseq → bit fl 6 = false → s.on CAM_FRAME.WACT p = false →
       exec (.cameraObjectArrival n fseq false) s = .next (t.cvTake n
         { t.newObject n (w 1 + 2 ^ 32 * w 2) with
           width := t.get CAM_SIZE.WIDTH p, height := t.get CAM_SIZE.HEIGHT p, scale := 2 ^ min 2 (t.get OUT_CFG.SCALE p), valid := bits (w 3) 0 12
           lineT := bits (w 7) 0 16, frameGen := bits (w 4) 0 8, tblGen := bits (w 4) 16 8
           flags := b2n (bit fl 0) + 2 * b2n (bit fl 1) + 4 * b2n (bit fl 2) + 8 * b2n (bit fl 3) + 16 * b2n (bit fl 4) + 32 * b2n (bit fl 8) + 64 * b2n (bit fl 9)
           hold := some (p, bits (w 4) 12 4), usable := decide (0 < bits (w 3) 0 12) }))) ∧
    (∀ (s : State) (n : Fin 16) (slot : Nat), s.units = true → s.sensTakes n.val 2 = true →
      (let k := s.get SENS_CFG.STREAM n.val
       let a := s.addr40 STR_RING_LO.ADDR STR_RING_HI.ADDR k + slot % 16 * 0x40000
       k < 16 → s.get STR_CFG.PORT k = s.get SENS_CFG.SRC n.val → bit (s.fabN a 4) 19 = false →
       exec (.lidarBlockArrival n slot) s = .next (s.cvTake n
         { s.newObject n (s.fabN (a + 8) 8) with
           points := (List.range (min (s.fabN (a + 0x10) 4) 21840)).map fun i => s.blockPoint a i, usable := decide (0 < s.fabN (a + 0x10) 4) })))

/-- Chapter 9's events. It states that exec answers a next state, under conditions on the state and the operands alone, for each of these constructors of Instr: mfOutputSwitch, groundProfileComplete, mfSpWrite, miValWrite, trimClr. -/
def Obligations.RackingLineCommands : Prop :=
  (∀ (s : State) (late : Bool), s.units = true → 
      exec (.mfOutputSwitch late) s = .next (let t := if late then (s.rlFlag RL_FLAGS.LATE).count RL_CNT1.LATE else s
        let t := (List.finRange 32).foldl (fun (t : State) (m : Fin 32) =>
          (t.putZ MF_OUT.SP (t.racking.mf[m.val]).sp m.val).putZ MF_OUT.FF (t.racking.mf[m.val]).ff m.val) t
        let t := t.racking.taps.zipIdx.foldl (fun t p =>
          ((t.put TAP_OUT.VAL p.1.val p.2).put TAP_OUT.COVER p.1.cover p.2).put TAP_INFO.F p.1.info p.2) t
        t.racking.ready.foldl (fun t w => t.writeStrip w) (t.modRl fun r => { r with ready := [] }))) ∧
    (∀ (s : State), s.units = true → s.cuvee.pub = none → 
      exec .groundProfileComplete s = .next (s.modRl fun r => { r with profile := none })) ∧
    (∀ (s : State) (p : CvPub) (ch : Nat) (c : Int), s.units = true → s.cuvee.pub = some p → s.role 0 = some ch → s.on GRID_STAT.VALID = true →
      s.travelAt p.tref = some c →
      exec .groundProfileComplete s = .next (s.modRl fun r =>
        { r with profile := some ⟨p.epoch, p.acq, p.tref, p.hgGen, c, (List.range 200).map fun i => s.profileRow (headerColumns ((p.hgWords[3]?).getD 0)) ch i⟩ })) ∧
    (∀ (s : State) (m : Fin 32) (v : Nat) (rq : Req), s.units = true → 
      exec (.mfSpWrite m v rq) s = .next (s.mfSpWrite m.val v (s.asIdentity rq))) ∧
    (∀ (s : State) (k : Fin 8) (word : Nat), s.units = true → 
      exec (.miValWrite k word) s = .next (s.miValWrite k word)) ∧
    (∀ (s : State) (m : Fin 32) (rq : Req), s.units = true → rq.sup = true → 
      exec (.trimClr m rq) s = .next (s.putB MF_CTL.TRIM_CLR true m.val))

/-- R192 to R201. It states that exec answers a next state, under conditions on the state and the operands alone, for each of these constructors of Instr: vdOff, vdStart, vdTrim, valveBoostEnd, valveBoostTimeout, valvePeakEnd, valveHoldEnd, valveSwitchOffEnd, boostFree, boostWaitExpiry, railFail, railFailClear, valveChopPeriod. -/
def Obligations.ValveCommands : Prop :=
  (∀ (s : State) (c : Fin 32) (hold : Nat), s.units = true → 
      exec (.vdOff c hold) s = .next (s.vdCmd c 0 hold)) ∧
    (∀ (s : State) (c : Fin 32) (hold : Nat), s.units = true → 
      exec (.vdStart c hold) s = .next (s.vdCmd c 1 hold)) ∧
    (∀ (s : State) (c : Fin 32) (hold : Nat), s.units = true → 
      exec (.vdTrim c hold) s = .next (s.vdCmd c 2 hold)) ∧
    (∀ (s : State) (c : Fin 32), s.units = true → (s.valve c).phase = .boost → 
      exec (.valveBoostEnd c) s = .next (s.enterPeak c)) ∧
    (∀ (s : State) (c : Fin 32), s.units = true → (s.valve c).phase = .peak → (s.valve c).since + 2000 * (s.valve c).prof.pT ≤ s.mtc → 
      exec (.valvePeakEnd c) s = .next (s.enterHold c)) ∧
    (∀ (s : State) (c : Fin 32) (curr : Nat), s.units = true → (s.valve c).phase = .boost → (s.valve c).since + 200 * (s.valve c).prof.bT ≤ s.mtc → 
      exec (.valveBoostTimeout c curr) s = .next (let t := s.vdFlag c VD_FLAGS.BOOST_SHORT
        if 10 * curr < (s.valve c).prof.bI then (t.vdFlag c VD_FLAGS.OPEN).protect c 0x2 curr else t.enterPeak c)) ∧
    (∀ (s : State) (c : Fin 32), s.units = true → (s.valve c).phase = .hold → (s.valve c).held = false → (s.valve c).prof.hT ≠ 0 → (s.valve c).since + 200000 * (s.valve c).prof.hT ≤ s.mtc → 
      exec (.valveHoldEnd c) s = .next (s.beginDecay c (s.valve c).prof.soffH)) ∧
    (∀ (s : State) (c : Fin 32) (e : Nat), s.units = true → (s.valve c).phase = .swoff → (s.valve c).decay ≠ 2 → 
      exec (.valveSwitchOffEnd c e) s = .next (s.modValve c fun v => { v with phase := .off })) ∧
    (∀ (s : State) (c : Fin 32) (e : Nat), s.units = true → (s.valve c).phase = .swoff → (s.valve c).decay = 2 → 
      exec (.valveSwitchOffEnd c e) s = .next ((s.modValve c fun v => { v with phase := .off }).clampAdd c e)) ∧
    (∀ (s : State) (b : Fin 8) (rail d : Nat) (w : VWait) (rest : List Nat), s.units = true → (s.railSet b rail).boostFree b = true →
      ((s.railSet b rail).bank b).order = d :: rest → ((s.railSet b rail).valve (Fin.ofNat 32 d)).wait = some w → w.deferred = false →
      exec (.boostFree b rail) s = .next ((s.railSet b rail).runProfile (Fin.ofNat 32 d) w.level false false)) ∧
    (∀ (s : State) (c : Fin 32) (w : VWait), s.units = true → (s.valve c).wait = some w → w.deferred = false → s.mtc ≥ w.since + 200 * w.limit → w.policy = 0 →
      exec (.boostWaitExpiry c) s = .next (s.modValve c fun v => { v with wait := some { w with deferred := true } })) ∧
    (∀ (s : State) (c : Fin 32) (w : VWait), s.units = true → (s.valve c).wait = some w → w.deferred = false → s.mtc ≥ w.since + 200 * w.limit → w.policy = 1 →
      exec (.boostWaitExpiry c) s = .next (s.skipBoost c w.level)) ∧
    (∀ (s : State) (b : Fin 8) (rail : Nat), s.units = true → 
      (let t := s.railSet b rail
       (t.bank b).railFail = false → (t.bank b).waitAt.any (fun w => decide (w + 4000000 ≤ t.mtc)) = true → (t.bank b).order = [] →
       exec (.railFail b rail) s = .next (((t.modBank b fun k => { k with railFail := true }).vbFlag b VB_FLAGS.RAIL_FAIL).record .valveRail (bankNode b) [1 + 2 ^ 8 * rail]))) ∧
    (∀ (s : State) (b : Fin 8) (rail : Nat), s.units = true → 
      (let t := s.railSet b rail
       (t.bank b).railFail = true → t.railReady b = true →
       exec (.railFailClear b rail) s = .next ((t.modBank b fun k => { k with railFail := false }).record .valveRail (bankNode b) [2 ^ 8 * rail]))) ∧
    (∀ (s : State) (c : Fin 32) (mean : Nat) (res : Option Nat), s.units = true → (s.valve c).prof.chopAt c s.mtc = true → (s.valve c).phase = .peak → 
      exec (.valveChopPeriod c mean res) s = .next (s.put VD_I.I (min mean 0xFFFF) c.val)) ∧
    (∀ (s : State) (c : Fin 32) (mean : Nat) (res : Option Nat), s.units = true → (s.valve c).prof.chopAt c s.mtc = false → 
      exec (.valveChopPeriod c mean res) s = .next (s)) ∧
    (∀ (s : State) (c : Fin 32) (mean : Nat) (res : Option Nat), s.units = true → (s.valve c).prof.chopAt c s.mtc = true → (s.valve c).phase = .hold → 
      exec (.valveChopPeriod c mean res) s = .next (((((s.put VD_I.I (min mean 0xFFFF) c.val).put VD_I.RES ((res.map fun r => min r 0xFFFE).getD 0xFFFF) c.val).modValve c fun v =>
        { v with astray := if res.isSome && (s.valve c).outside mean then some (v.astray.getD s.mtc) else none }).takeTarget c)))

/-- R198 to R201 and R364. It states that exec answers a next state, under conditions on the state and the operands alone, for each of these constructors of Instr: dutyUpdate, valveShort, valveOpenDetect, valveOvertemp, regFail, leak, bankShort, bankHot, bankFeedLow, pgndOpen, vbClear, vbRst, vdFlagsRearm. -/
def Obligations.ValveProtections : Prop :=
  (∀ (s : State) (c : Fin 32) (curr : Nat), s.units = true → 28000 < curr → 
      exec (.valveShort c curr) s = .next (((s.vdFlag c VD_FLAGS.SHORT).protect c 0x1 curr).modValve c fun v => { v with lockShort := true })) ∧
    (∀ (s : State) (c : Fin 32) (curr : Nat), s.units = true → (s.valve c).phase = .peak ∨ (s.valve c).phase = .hold → (Frac.int (20 * curr : Nat)).lt (s.valve c).aim = true → 
      exec (.valveOpenDetect c curr) s = .next ((s.vdFlag c VD_FLAGS.OPEN).protect c 0x2 curr)) ∧
    (∀ (s : State) (c : Fin 32) (curr : Nat), s.units = true → 
      exec (.valveOvertemp c curr) s = .next (((s.vdFlag c VD_FLAGS.OVERTEMP).protect c 0x3 curr).modValve c fun v => { v with lockTemp := true })) ∧
    (∀ (s : State) (c : Fin 32), s.units = true → (s.valve c).phase = .hold → (s.valve c).astray.any (fun t => decide (t + 4000000 ≤ s.mtc)) = true → 
      exec (.regFail c) s = .next (s.vdFlag c VD_FLAGS.REG_FAIL)) ∧
    (∀ (s : State) (c : Fin 32), s.units = true → (s.valve c).phase = .off → s.othersOn c = true → 
      exec (.leak c) s = .next (s.vdFlag c VD_FLAGS.LEAK)) ∧
    (∀ (s : State) (b : Fin 8) (curr : Nat), s.units = true → 45000 < curr → 
      exec (.bankShort b curr) s = .next (((s.vbFlag b VB_FLAGS.BANK_SHORT).protectBank b 0x4 curr true).modBank b fun k => { k with short := true })) ∧
    (∀ (s : State) (b : Fin 8) (curr temp : Nat), s.units = true → 170 < temp → 
      exec (.bankHot b curr temp) s = .next ((((s.put VB_STAT1.TEMP (min (temp + 40) 255) b.val).vbFlag b VB_FLAGS.BANK_HOT).protectBank b 0x5 curr true).modBank b fun k => { k with hot := true })) ∧
    (∀ (s : State) (b : Fin 8) (curr : Nat) (low : Bool), s.units = true → low = true → 
      exec (.bankFeedLow b curr low) s = .next (((s.modBank b fun k => { k with feedLow := true }).railTrack b).bankFeed b 0x6 curr)) ∧
    (∀ (s : State) (b : Fin 8) (curr : Nat) (low : Bool), s.units = true → low = false → s.on SUP_STUD.REV (b.val / 2) = false → 
      exec (.bankFeedLow b curr low) s = .next ((s.modBank b fun k => { k with feedLow := false }).railTrack b)) ∧
    (∀ (s : State) (b : Fin 8) (curr : Nat), s.units = true → 
      exec (.pgndOpen b curr) s = .next ((s.flag SUP_FLAGS.F SUP_EVMASK.F SUP_FLAGS.PGND_OPEN 0x0F).bankFeed b 0x7 curr)) ∧
    (∀ (s : State) (b : Fin 8) (temp : Int) (rq : Req), s.units = true → rq.sup = true → 
      exec (.vbClear b temp rq) s = .next ((s.put VB_STAT1.TEMP (min (temp + 40).toNat 255) b.val).vbClear b temp)) ∧
    (∀ (s : State) (b : Fin 8) (rq : Req), s.units = true → rq.sup = true → 
      exec (.vbRst b rq) s = .next (s.vbReset b)) ∧
    (∀ (s : State) (c : Fin 32) (word temp : Nat) (rq : Req), s.units = true → rq.sup = true → 
      exec (.vdFlagsRearm c word temp rq) s = .next (s.vdRearm c word temp)) ∧
    (∀ (s : State) (c : Fin 32) (m : Nat), s.units = true → (s.valve c).energised = false → s.on VD_STAT.DUTY_ACT c.val = false → regRising s.regs → 
      ∃ t, exec (.dutyUpdate c m) s = .next t ∧ t.loads = s.loads ∧ (t.valve c).q = (s.valve c).q.add (((Frac.int m).sub (s.valve c).q).divN (10 * (s.valve c).prof.win)) ∧ (t.valve c).phase = (s.valve c).phase)

/-- R206 to R214. It states that exec answers a next state, under conditions on the state and the operands alone, for each of these constructors of Instr: lcOff, lcOn, lcPwm, inrushWindowEnd, loadOverload, loadShort, loadThermalUpdate, openOn, openOff, loadUv, loadUvReturn, clampBudgetDecay, grpHot, lgClear, lgRst, lcFlagsRearm, loadPwmPeriod. -/
def Obligations.LoadCommands : Prop :=
  (∀ (s : State) (n : Fin 48) (e : Nat), s.units = true → 
      exec (.lcOff n e) s = .next (s.lcCmd n 0 0 e)) ∧
    (∀ (s : State) (n : Fin 48), s.units = true → 
      exec (.lcOn n) s = .next (s.lcCmd n 1 0 0)) ∧
    (∀ (s : State) (n : Fin 48) (duty e : Nat), s.units = true → 
      exec (.lcPwm n duty e) s = .next (s.lcCmd n 2 duty e)) ∧
    (∀ (s : State) (n : Fin 48), s.units = true → s.on LC_STAT.INRUSH n.val = true → (s.load n).winAt + 200000 * s.inrushMs n ≤ s.mtc → 
      exec (.inrushWindowEnd n) s = .next (let t := s.putB LC_STAT.INRUSH false n.val
        t.carry n (t.get LC_I.I n.val))) ∧
    (∀ (s : State) (n : Fin 48) (e : Nat), s.units = true → (s.load n).isOn = true → (s.load n).limAt.any (fun t => decide (t + 200000 * s.limTms n ≤ s.mtc)) = true → 
      exec (.loadOverload n e) s = .next ((s.lcFlag n LC_FLAGS.OVERLOAD).loadTrip n .off e)) ∧
    (∀ (s : State) (n : Fin 48) (hard : Bool) (curr e : Nat), s.units = true → (s.load n).isOn = true → (hard = true → hardTrip n < curr) → (hard = false → 100 * s.limitInForce n ≤ curr) → 
      exec (.loadShort n hard curr e) s = .next (let t := s.lcFlag n LC_FLAGS.SHORT
        ((t.loadProt (loadNode n) (if hard then 0x2 else 0x1) curr (s.on LC_STAT.INRUSH n.val)).loadTrip n .off e).setLoad n fun l => { l with lockShort := true })) ∧
    (∀ (s : State) (x : LoadAt), s.units = true → 
      (let t := s.senses x.n x.m
       (t.load x.n).isOn = true → x.m.curr < t.openThreshold x.n →
       exec (.openOn x) s = .next (t.lcFlag x.n LC_FLAGS.OPEN_ON))) ∧
    (∀ (s : State) (x : LoadAt), s.units = true → 
      (let t := s.senses x.n x.m
       (t.load x.n).isOn = false → t.on LC_CFG.OFF_DIAG x.n.val = true → 6 * x.m.feed < x.m.vout →
       exec (.openOff x) s = .next (t.lcFlag x.n LC_FLAGS.OPEN_OFF))) ∧
    (∀ (s : State) (n : Fin 48) (m : LoadMeas) (p : Nat) (die : Int) (e : Nat), s.units = true → (s.load n).st = .off → (s.load n).lockShort = false → s.mtc < 10000 → 
      ∃ t, exec (.loadThermalUpdate n m p die e) s = .next t ∧ (t.load n).theta = (s.load n).theta.add (((Frac.of (p * (if heavy n then 2 else 5)) 100).sub (s.load n).theta).divN (if heavy n then 200 else 100)) ∧
        (t.load n).st = .off ∧ t.valves = s.valves) ∧
    (∀ (s : State) (g : Fin 12) (feed : Nat), s.units = true → s.on SUP_STUD.REV (lgStudReset g.val) = false → (s.put LG_STAT.FEED_V (min feed 1023) g.val).uvOff g.val ≤ feed → 
      exec (.loadUv g feed) s = .next (s.put LG_STAT.FEED_V (min feed 1023) g.val)) ∧
    (∀ (s : State) (g : Fin 12) (feed : Nat), s.units = true → (∀ n ∈ loadsOf g, (s.load n).isOn = false) → 
      ∃ t, exec (.loadUv g feed) s = .next t ∧ t.loads = s.loads ∧ t.valves = s.valves) ∧
    (∀ (s : State) (n : Fin 48) (feed : Nat), s.units = true → s.on SUP_STUD.REV (lgStudReset (n.val / 4)) = false → (s.load n).st = .uvWait → (s.load n).locked = false →
      (let u := s.put LG_STAT.FEED_V (min feed 1023) (n.val / 4)
       (s.load n).offAt + 200000 * (u.uvDly (n.val / 4) + 2 * (n.val % 4)) ≤ s.mtc → u.uvOff (n.val / 4) + u.uvHys (n.val / 4) ≤ feed →
        exec (.loadUvReturn n feed) s = .next (((u.putB LG_STAT.UV_ACT false (n.val / 4)).count LC_CNT1.UV_RESTARTS 1 n.val).loadReturn n true))) ∧
    (∀ (s : State), s.units = true → 
      ∃ t, exec .clampBudgetDecay s = .next t ∧ t.valves = s.valves ∧ t.regs = s.regs) ∧
    (∀ (s : State) (g : Fin 12) (die : Int) (curr : Nat), s.units = true → die < 170 → 
      exec (.grpHot g die curr) s = .next (s.put LG_STAT.DIE_T (tempReg die) g.val)) ∧
    (∀ (s : State) (g : Fin 12) (die : Int) (rq : Req), s.units = true → rq.sup = true → 
      exec (.lgClear g die rq) s = .next ((s.put LG_STAT.DIE_T (tempReg die) g.val).lgClear g die)) ∧
    (∀ (s : State) (g : Fin 12) (rq : Req), s.units = true → rq.sup = true → 
      exec (.lgRst g rq) s = .next (s.lgReset g)) ∧
    (∀ (s : State) (n : Fin 48) (word : Nat) (rq : Req), s.units = true → rq.sup = true → 
      exec (.lcFlagsRearm n word rq) s = .next (s.lcRearm n word)) ∧
    (∀ (s : State) (n : Fin 48) (d : Nat), s.units = true → (s.load n).st = .pwm → (s.load n).cmd = .pwm d →
      200000000 ≤ (s.mtc - (s.load n).perAt) * s.pwmHz n →
      exec (.loadPwmPeriod n) s = .next (s.modLoad n fun l => { l with duty := d, perAt := s.mtc })) ∧
    (∀ (s : State) (g : Fin 12) (feed : Nat), s.units = true → s.on SUP_STUD.REV (lgStudReset g.val) = false →
      (let t := s.put LG_STAT.FEED_V (min feed 1023) g.val
       let u := ((t.putB LG_STAT.UV_ACT true g.val).lgFlag g LG_FLAGS.UV).count LG_CNT.UV_EVENTS 1 g.val
       let mask := (loadsOf g).foldl (fun m n => m + (if (u.load n).isOn then 2 ^ (n.val % 4) else 0)) 0
       feed < t.uvOff g.val →
       exec (.loadUv g feed) s = .next ((loadsOf g).foldl (fun t n =>
         if (t.load n).isOn then
           ((t.lcFlag n LC_FLAGS.UV).loadTrip n (if (t.load n).held then .off else .uvWait) (Config.clampEnergy n.val t.free)).fresh
         else t) (u.record .loadUv (groupNode g) [feed % 1024 + 2 ^ 16 * mask])))) ∧
    (∀ (s : State) (g : Fin 12) (die : Int) (curr : Nat), s.units = true → 170 ≤ die → 
      exec (.grpHot g die curr) s = .next ((loadsOf g).foldl (fun t n =>
        (((t.lcFlag n LC_FLAGS.GRP_HOT).loadTrip n .off (Config.clampEnergy n.val t.free)).setLoad n fun l => { l with lockHot := true }).fresh)
        ((((s.put LG_STAT.DIE_T (tempReg die) g.val).lgFlag g LG_FLAGS.GRP_HOT).count LG_CNT.HOT 1 g.val).loadProt (groupNode g) 0x4 curr false))) ∧
    (∀ (s : State) (n : Fin 48), s.units = true →
      (let e := (s.load n).acc.sub (Frac.of (s.get LC_CE.CE_BUDGET n.val) (10 * max 1 (s.get LC_CE.CE_WIN n.val)))
       ∃ t, exec .clampBudgetDecay s = .next t ∧ (t.load n).acc = (if e.lt (Frac.int 0) then Frac.int 0 else e) ∧ (t.load n).st = (s.load n).st ∧
         t.regs = s.regs))

/-- R220 to R223 and R240. It states that exec answers a next state, under conditions on the state and the operands alone, for each of these constructors of Instr: gnssDump, gcConfigWrite, gcCodeAdj, gcCarrAdj, solutionRecord, drMaxExpiry, rtkSourceTimeout, antOpen, antShort, jam, snapCaptureDone, gnssPromptEpoch. -/
def Obligations.GnssChannels : Prop :=
  (∀ (s : State) (n : Fin 96) (sums : List Int), s.units = true → (s.gc[n.val]).due = none → 
      exec (.gnssDump n sums) s = .next (s)) ∧
    (∀ (s : State) (n : Fin 96) (sums : List Int) (d : GcDue), s.units = true → (s.gc[n.val]).due = some d →
      (let t := ((((((s.modGc n fun g => { g with due := none }).put GC_CODE_PH.CHIP d.chip n.val).put GC_CODE_PH.FRAC d.frac n.val).putZ GC_CARR_CYC.W (asr d.carr 32) n.val).putZ
        GC_CARR_FR.W d.carr n.val).put64 GC_DUMP_MTC_LO.MTC d.mtc n.val)
       t.gcOwner n.val = 16 → exec (.gnssDump n sums) s = .next ((t.count GC_CNT.DUMPS 1 n.val).claimStep n))) ∧
    (∀ (s : State) (n : Fin 96) (reg : Fin 4) (word : Nat) (rq : Req), s.units = true → 
      exec (.gcConfigWrite n reg word rq) s = .next (s.gcWrite n reg word (s.served rq.id))) ∧
    (∀ (s : State) (n : Fin 96) (word : Nat) (rq : Req), s.units = true → 
      exec (.gcCodeAdj n word rq) s = .next (s.gcCodeAdj n word (s.served rq.id))) ∧
    (∀ (s : State) (n : Fin 96) (word : Nat) (rq : Req), s.units = true → 
      exec (.gcCarrAdj n word rq) s = .next (s.gcCarrAdj n word (s.served rq.id))) ∧
    (∀ (s : State) (n : Fin 96) (samples : Nat), s.units = true → (s.gc[n.val]).force.en = true → (s.gcForce n.val).2 = false → 
      ∃ t, exec (.gnssPromptEpoch n samples) s = .next t ∧ t.regs = s.regs ∧ (t.gc[n.val]).codeAdj = 0 ∧ (t.gc[n.val]).carrAdj = 0 ∧ (t.gc[n.val]).force = (s.gcForce n.val).1 ∧
        (t.gc[n.val]).carr = (s.gc[n.val]).carr + (s.gc[n.val]).force.carrFrq * samples + (s.gc[n.val]).carrAdj) ∧
    (∀ (s : State) (a : Fin 2), s.units = true → s.bias a.val = true → 
      exec (.antOpen a) s = .next ((s.putB (if a = 0 then GF_STAT.OPEN0 else GF_STAT.OPEN1) true).sticky GF_FLAGS.F GF_FLAGS.ANT_OPEN)) ∧
    (∀ (s : State) (a : Fin 2), s.units = true → s.bias a.val = true → 
      exec (.antShort a) s = .next (((s.putB (if a = 0 then GF_STAT.SHORT0 else GF_STAT.SHORT1) true).sticky GF_FLAGS.F GF_FLAGS.ANT_SHORT).modPos fun p => { p with cut := p.cut.set a.val true })) ∧
    (∀ (s : State) (stream : Fin 4) (gain : AgcGain), s.units = true → stream = 2 → gain.now + (s.put GF_AGC.S2 gain.now).get GF_CFG.JAM_THR < gain.clear → 
      exec (.jam stream gain) s = .next ((s.put GF_AGC.S2 gain.now).sticky GF_FLAGS.F GF_FLAGS.JAM)) ∧
    (∀ (s : State), s.units = true → s.pos.drFrom.any (fun t => decide (t + 200000000 * s.pos.drMax ≤ s.mtc)) = true → 
      exec .drMaxExpiry s = .next (s.modPos fun p => { p with drOver := true })) ∧
    (∀ (s : State), s.units = true → 
      exec .rtkSourceTimeout s = .next (s.rtkSelect)) ∧
    (∀ (s : State) (mtc : Nat) (v : Solution), s.units = true → s.pos.sol = none → 
      exec (.solutionRecord mtc v) s = .next (s)) ∧
    (∀ (s : State) (mtc : Nat) (v : Solution) (cfg : SolCfg), s.units = true → s.pos.sol = some cfg → mtc % solPeriod cfg.rate = 0 → mtc ≤ s.mtc → v.fix = 0 →
      (s.get GF_SOL.SEQ + 1) % 2 ^ cfg.log2n = s.get GF_SOL_RD.IDX % 2 ^ cfg.log2n →
      exec (.solutionRecord mtc v) s = .next (s.fresh.count GF_CNT.SOL_DROP)) ∧
    (∀ (s : State) (samples : List Nat), s.units = true → 
      exec (.snapCaptureDone samples) s = .next ((s.snapCaptured samples).snapStart)) ∧
    (∀ (s : State) (n : Fin 96) (sums : List Int) (d : GcDue), s.units = true → (s.gc[n.val]).due = some d →
      (let t := ((((((s.modGc n fun g => { g with due := none }).put GC_CODE_PH.CHIP d.chip n.val).put GC_CODE_PH.FRAC d.frac n.val).putZ GC_CARR_CYC.W (asr d.carr 32) n.val).putZ
         GC_CARR_FR.W d.carr n.val).put64 GC_DUMP_MTC_LO.MTC d.mtc n.val)
       let size := 2 ^ clampN 6 14 (t.get GF_DUMP_CFG.LOG2N)
       let wr := t.get GF_DUMP_WR.IDX
       let a := t.addr40 GF_DUMP_BASE_LO.ADDR GF_DUMP_BASE_HI.ADDR + 128 * wr
       let w := dumpWords t.pos.dumpSeq n.val d sums
       let u := (((((t.fabWrite (a + 4) (w.drop 1)).fabWrite a (w.take 1)).put GF_DUMP_WR.IDX ((wr + 1) % size)).modPos fun p =>
         { p with dumpSeq := p.dumpSeq + 1 }).count GC_CNT.DUMPS 1 n.val)
       t.gcOwner n.val ≠ 16 → (wr + 1) % size ≠ t.get GF_DUMP_RD.IDX % size →
       exec (.gnssDump n sums) s = .next (if (u.gc[n.val]).force.dumpEv then u.raise 0x3C else u))) ∧
    (∀ (s : State) (mtc : Nat) (v : Solution) (cfg : SolCfg), s.units = true → s.pos.sol = some cfg → mtc % solPeriod cfg.rate = 0 → mtc ≤ s.mtc →
      s.mtc ≤ mtc + solLimit cfg.rate → v.fix = 1 →
      (let t := (s.modPos fun p => { p with drOver := false, drFrom := none }).fresh
       let seq := s.get GF_SOL.SEQ + 1
       let a := cfg.ring + 64 * (seq % 2 ^ cfg.log2n)
       let w3 := 1 + 2 ^ 4 * t.codeAt mtc + 2 ^ 8 * s.headingSource v + 2 ^ 10 * min v.nsat 63 + 2 ^ 16 * min v.corrAge 65535
       seq % 2 ^ cfg.log2n ≠ s.get GF_SOL_RD.IDX % 2 ^ cfg.log2n →
       exec (.solutionRecord mtc v) s = .next
         ((((t.fabWrite (a + 4) (two mtc ++ [w3] ++ s.solBody v ++ [0, 0])).fabWrite a [seq % 2 ^ 32]).put GF_SOL.SEQ seq).raise 0x3D)))

/-- R225 to R230; the entries of the watch log are laid out by a free function (the spec gives them no layout). It states that exec answers a next state, under conditions on the state and the operands alone, for each of these constructors of Instr: claim, release, solCfg, antCfg, rtcmIn, rtkCfg, snap, watchLog. -/
def Obligations.PositioningService : Prop :=
  (∀ (s : State) (q : SvcReq) (first count owner : Nat), s.units = true → s.plat.serviceUp = true → count = 0 ∨ 48 < count ∨ 96 < first + count ∨ 16 ≤ owner → 
      (let t := s.request 56 0x0001 q [first, count, owner]
       exec (.claim q first count owner) s = .next (t.done q posCore 0x0001 stBadParam []))) ∧
    (∀ (s : State) (q : SvcReq) (first count owner : Nat), s.units = true → s.plat.serviceUp = true → 0 < count → count ≤ 48 → first + count ≤ 96 → owner < 16 → 
      (let t := s.request 56 0x0001 q [first, count, owner]
       ((List.range 96).filter t.claimed).length + count ≤ 48 → (∀ k < count, t.claimed (first + k) = false) → (∀ k : Fin 96, (t.gc[k.val]).force.en = false) →
       exec (.claim q first count owner) s = .next ((((List.range count).map fun k => first + k).foldl (fun t k => t.gcGive (Fin.ofNat 96 k) owner) t).done q posCore 0x0001 stOk []))) ∧
    (∀ (s : State) (q : SvcReq) (first count : Nat), s.units = true → s.plat.serviceUp = true → 
      (let t := s.request 56 0x0002 q [first, count]
       exec (.release q first count) s = .next (((((List.range count).map fun k => first + k).filter fun k => decide (k < 96) && t.gcOwner k != 16).foldl
        (fun u k => u.gcGive (Fin.ofNat 96 k) 16) t).done q posCore 0x0002 stOk []))) ∧
    (∀ (s : State) (q : SvcReq) (rate log2n ring : Nat) (point : Xyz), s.units = true → s.plat.serviceUp = true → 
      (let t := s.request 56 0x0010 q ([rate + 2 ^ 8 * log2n] ++ two ring ++ [point.x, point.y, point.z].map (low 32))
       exec (.solCfg q rate log2n ring point) s = .next ((t.modPos fun p => { p with sol := some ⟨rate % 4, clampN 4 12 log2n, ring, point.x, point.y, point.z⟩ }).done q posCore 0x0010 stOk []))) ∧
    (∀ (s : State) (q : SvcReq) (a b : Xyz) (hdgEn : Bool), s.units = true → s.plat.serviceUp = true → hdgEn = false → 
      (let t := s.request 56 0x0011 q ([a.x, a.y, a.z, b.x, b.y, b.z].map (low 32) ++ [b2n hdgEn])
       exec (.antCfg q a b hdgEn) s = .next ((t.modPos fun p => { p with ant := ⟨[a.x, a.y, a.z, b.x, b.y, b.z], false⟩ }).done q posCore 0x0011 stOk []))) ∧
    (∀ (s : State) (q : SvcReq) (a b : Xyz) (hdgEn : Bool), s.units = true → s.plat.serviceUp = true → hdgEn = true → (a.x - b.x) * (a.x - b.x) + (a.y - b.y) * (a.y - b.y) + (a.z - b.z) * (a.z - b.z) < 250000 → 
      (let t := s.request 56 0x0011 q ([a.x, a.y, a.z, b.x, b.y, b.z].map (low 32) ++ [b2n hdgEn])
       exec (.antCfg q a b hdgEn) s = .next (t.done q posCore 0x0011 stBadParam []))) ∧
    (∀ (s : State) (q : SvcReq) (src addr len : Nat), s.units = true → s.plat.serviceUp = true → rtcmInOk src len = false → 
      exec (.rtcmIn q src addr len) s = .next (s.rtcmIn q src addr len)) ∧
    (∀ (s : State) (q : SvcReq) (prio srcTmo corrMax drMax : Nat), s.units = true → s.plat.serviceUp = true → 
      (let t := s.request 56 0x0021 q ([prio, srcTmo + 2 ^ 8 * corrMax + 2 ^ 16 * drMax])
       exec (.rtkCfg q prio srcTmo corrMax drMax) s = .next ((t.modPos fun p => { p with prio := [prio % 4, prio / 4 % 4, prio / 16 % 4], srcTmo := srcTmo % 256, corrMax := corrMax % 256, drMax := drMax % 256 }).rtkSelect.done q posCore 0x0021 stOk []))) ∧
    (∀ (s : State) (q : SvcReq) (len dest addr : Nat), s.units = true → s.plat.serviceUp = true → 
      (let t := s.request 56 0x0030 q ([len, dest] ++ two addr)
       t.pos.snap.isSome = true →
       exec (.snap q len dest addr) s = .next (t.done q posCore 0x0030 stBusy []))) ∧
    (∀ (s : State) (q : SvcReq) (len dest addr : Nat), s.units = true → s.plat.serviceUp = true → 2 ≤ len → len ≤ 32 → dest ≤ 1 → 
      (let t := s.request 56 0x0030 q ([len, dest] ++ two addr)
       t.pos.snap = none →
       exec (.snap q len dest addr) s = .next ((t.modPos fun p => { p with snap := some ⟨keepReq q, len, dest, addr, t.mtc⟩ }).reply q posCore 0x0030 stAccepted false []))) ∧
    (∀ (s : State) (q : SvcReq) (addr : Nat), s.units = true → s.plat.serviceUp = true → 
      (let t := s.request 56 0x0031 q (two addr)
       exec (.watchLog q addr) s = .next ((t.fabWrite addr (t.pos.watch.reverse.flatMap fun e =>
        ((Config.watchEntry e.mtc e.fix e.lat e.lon e.hu e.time e.unc) ++ List.replicate 8 0).take 8)).done q posCore 0x0031 stOk [t.pos.watch.length]))) ∧
    (∀ (s : State) (q : SvcReq) (src addr len : Nat), s.units = true → s.plat.serviceUp = true → rtcmInOk src len = true →
      (let t := s.request 56 0x0020 q ([src] ++ two addr ++ [len])
       let u := (t.rtcmFrom src (t.fabBytes addr len)).done q posCore 0x0020 stOk []
       let r := u.rtcmNew u.memberId (s.fabBytes addr len)
       ((u.fleet.on = false ∨ u.fleet.relay = false) → exec (.rtcmIn q src addr len) s = .next u) ∧
       (u.fleet.on = true → u.fleet.relay = true → r.1 ≠ [] →
         exec (.rtcmIn q src addr len) s = .next (r.2.jfxSend 0x40 allMembers false ([u.memberId, 1] ++ r.1.flatten)))))

/-- R231 to R237. It states that exec answers a next state, under conditions on the state and the operands alone, for each of these constructors of Instr: qualifyingTimeSolution, lossTExpiry, holdoverLimitExpiry, timeStep, slewEnd, tuNowLatch, convLatch, timePulseEdge, tpConfigWrite, timePulseTrailingEdge. -/
def Obligations.TimeUnitCommands : Prop :=
  (∀ (s : State) (time : Int) (u0 : Nat) (y : Int) (leap : Option Nat), s.units = true → 
      exec (.qualifyingTimeSolution time u0 y leap) s = .next (s.timeSolution time u0 y leap)) ∧
    (∀ (s : State), s.units = true → s.time.st = .locked → s.time.last + 200000000 * s.lossT ≤ s.mtc → 
      exec .lossTExpiry s = .next ((s.put TU_STAT.LOCK_RUN 0).tuGo (if s.get TU_HOLD.HOLDOVER_LIMIT = 0 then .free else .holdover))) ∧
    (∀ (s : State), s.units = true → s.time.st ≠ .locked → 
      exec .lossTExpiry s = .next (s)) ∧
    (∀ (s : State), s.units = true → s.time.st = .holdover → s.time.step = none → s.time.last + 200000000 * s.holdoverLimit ≤ s.mtc → 
      exec .holdoverLimitExpiry s = .next (s.tuGo .free)) ∧
    (∀ (s : State) (phi : Int), s.units = true → s.time.step = some phi → s.tnow.stepDue phi s.mtc = true →
      ∃ t, exec .timeStep s = .next t ∧ t.time.step = none ∧ t.time.slew = 0 ∧ t.time.convMtc = s.mtc ∧ t.time.stepAt = s.mtc ∧
        t.time.convT = s.tnow.at s.mtc + phi) ∧
    (∀ (s : State), s.units = true → s.time.step = none → 
      exec .timeStep s = .next (s)) ∧
    (∀ (s : State), s.units = true → s.time.slew ≠ 0 → 
      exec .slewEnd s = .next (s.tuShow)) ∧
    (∀ (s : State), s.units = true → 
      exec .tuNowLatch s = .next (s.tuLatch)) ∧
    (∀ (s : State), s.units = true → 
      exec .convLatch s = .next (s.convLatch)) ∧
    (∀ (s : State) (p : Fin 2) (frac : Fin 50), s.units = true → s.tpActive p.val = false → 
      exec (.timePulseEdge p frac) s = .next (s)) ∧
    (∀ (s : State) (p : Fin 2) (frac : Fin 50) (e : Int × Int), s.units = true → s.tpActive p.val = true →
      s.tpEdgeIn p (s.tpForce p s.mtc).1 (s.tpForce p s.mtc).2.1 s.mtc (s.mtc + 1) = some e → e.2 = 50 * s.mtc + frac.val →
      ∃ t, exec (.timePulseEdge p frac) s = .next t ∧ (t.time.out[p.val]).high = true ∧ (t.time.out[p.val]).last = some e.1 ∧ t.time.st = s.time.st ∧ t.valves = s.valves) ∧
    (∀ (s : State) (p : Fin 2), s.units = true → (s.time.out[p.val]).fall ≤ s.mtc → 
      exec (.timePulseTrailingEdge p) s = .next (s.modTp p fun o => { o with high := false })) ∧
    (∀ (s : State) (p : Fin 2) (dly : Bool) (word id : Nat) (sup : Bool), s.units = true → sup = true → dly = true → 
      exec (.tpConfigWrite p dly word id sup) s = .next (s.tpChanged (s.put TP_DLY.CABLE_DLY word p.val) p))

/-- R247 to R258. It states that exec answers a next state, under conditions on the state and the operands alone, for each of these constructors of Instr: stripPlace, stripPlaceTimeout, gridPlace, revisionApply, sectionCommandWrite, tileFlushTimer, tileFlushComplete, fieldDrainTimeout, fleetTileMerge, coverTileOffer. -/
def Obligations.TrellisCommands : Prop :=
  (∀ (s : State), s.units = true → s.on TL_CTL.EN = false → 
      exec .stripPlace s = .next (s)) ∧
    (∀ s : State, s.units = true → s.on TL_CTL.EN = true → s.plat.serviceUp = true → (s.readStrips 32768).trellis.strips = [] →
      exec .stripPlace s = .next (s.readStrips 32768).trimStrips) ∧
    (∀ (s : State), s.units = true → s.on TL_CTL.EN = true → s.plat.serviceUp = true → s.racking.written + runTicks ≤ s.mtc → 
      exec .stripPlaceTimeout s = .next ((s.readStrips 32768).placeAll.modTl fun l => { l with strips := [] })) ∧
    (∀ (s : State), s.units = true → s.cuvee.pub = none → 
      exec .gridPlace s = .next (s)) ∧
    (∀ (s : State), s.units = true → s.on TL_CTL.EN = false → 
      exec .gridPlace s = .next (s)) ∧
    (∀ (s : State) (p : CvPub), s.units = true → s.cuvee.pub = some p → s.on TL_CTL.EN = true → s.get TL_FIELD.STATE = 1 → s.plat.serviceUp = true → s.cuvee.grid = [] →
      exec .gridPlace s = .next s) ∧
    (∀ (s : State), s.units = true → s.cuvee.revs = [] → 
      exec .revisionApply s = .next (s)) ∧
    (∀ (s : State) (o : CvObj) (rest : List CvObj), s.units = true → s.cuvee.revs = o :: rest → s.on TL_CTL.EN = false →
      exec .revisionApply s = .next (s.modCv fun c => { c with revs := rest })) ∧
    (∀ (s : State) (k : Fin 64), s.units = true → 
      exec (.sectionCommandWrite k) s = .next (s.sectionWrite k)) ∧
    (∀ (s : State), s.units = true → s.trellis.flush = none → s.get TL_FIELD.STATE ≠ 0 → 
      exec .tileFlushTimer s = .next (s.tlStartFlush)) ∧
    (∀ (s : State) (x : TlFlush), s.units = true → s.trellis.flush = some x → s.flushTicks < s.mtc - x.start →
      exec .tileFlushTimer s = .next (s.tlFlag TL_FLAGS.FLUSH_LATE)) ∧
    (∀ (s : State), s.units = true → 
      exec .tileFlushComplete s = .next (s.tlEndFlush)) ∧
    (∀ (s : State) (c : Nat), s.units = true → s.trellis.closed = some c → s.get TL_FIELD.STATE = 2 → c + drainTicks ≤ s.mtc →
      exec .fieldDrainTimeout s = .next s.placeAll.tlEndDrain) ∧
    (∀ (s : State) (t : PeerTile) (rest : List PeerTile), s.units = true → s.trellis.peer = t :: rest → s.on TL_CTL.FLEET_EN = false →
      exec .fleetTileMerge s = .next (s.modTl fun l => { l with peer := rest })) ∧
    (∀ (s : State), s.units = true → s.trellis.cover = [] → 
      exec .coverTileOffer s = .next (s)) ∧
    (∀ (s : State), s.units = true → s.on TL_CTL.FLEET_EN = true → s.fleet.on = true → s.trellis.cover ≠ [] → s.get TL_FIELD.STATE ≠ 0 → s.trellis.offered = none →
      exec .coverTileOffer s = .next (s.trellis.cover.foldl (fun (t : State) (k : Nat) => t.offerTile k) (s.modTl fun l => { l with cover := [], offered := some s.mtc }))) ∧
    (∀ (s : State) (r last : TlStrip), s.units = true → s.on TL_CTL.EN = true → s.plat.serviceUp = true →
      (let t := s.readStrips 32768
       (t.trellis.strips.filter fun r => !r.placed).getLast? = some r → t.trellis.strips.head? = some last → r.no + 8 ≤ last.no →
       exec .stripPlace s = .next (t.placeStrip r).trimStrips)) ∧
    (∀ (s : State) (p : CvPub) (sol : SolRec), s.units = true → s.cuvee.pub = some p → (s.solRecs.find? fun r => r.mtc == p.tref && r.placed) = some sol →
      s.on TL_CTL.EN = true → s.get TL_FIELD.STATE = 1 → s.plat.serviceUp = true →
      (let good := s.cuvee.grid.filter fun e => decide (e.1 < 400 * clampN 1 200 (s.get TL_PASS.ROWS)) && decide (s.get TL_PASS.C_MIN ≤ e.2.conf)
       let placed := good.map fun e => (s.gridCellAt sol p.hgWords e.1, e.2)
       exec .gridPlace s = .next ((placed.map Prod.fst).eraseDups.foldl (fun (t : State) (c : Int × Int) =>
         let here := (placed.filter fun e => e.1 == c).map Prod.snd
         let tot := (here.map GridCell.conf).sum
         gridLayers.foldl (fun (t : State) (g : Nat × Nat × Nat) =>
           match t.role g.2.1 with
           | none => t
           | some ch =>
             let v := if tot = 0 then Config.unstated 4 [here.length]
               else (Config.quotZ 24 (here.map fun x => (x.conf : Int) * (x.feats[ch]?).getD 0).sum tot).toNat
             t.tlSet g.1 c.1 c.2 (cellWord (t.tlWord g.1 c.1 c.2) (setByte (cellValue (t.tlWord g.1 c.1 c.2)) g.2.2 v) (s.codeAt p.tref) false false)) t) s))) ∧
    (∀ (s : State) (o : CvObj) (rest : List CvObj) (sol : SolRec), s.units = true → s.cuvee.revs = o :: rest → s.on TL_CTL.EN = true →
      s.on TL_CTL.REV_EN = true → s.get TL_FIELD.STATE = 1 → s.plat.serviceUp = true →
      (let u := s.modCv fun c => { c with revs := rest }
       let tref := epochStart (o.epoch + 1)
       let hg := ((tableAt u.cuvee.hg o.epoch).map CvTable.words).getD []
       let placed := (sensorCells (u.get SENS_STAT.HEALTH o.sensor) [o]).map fun p => (u.gridCellAt sol hg p.cell, p)
       let cells := (placed.map Prod.fst).eraseDups
       let t := cells.foldl (fun (t : State) (c : Int × Int) =>
         t.reviseCell c ((placed.filter fun e => e.1 == c).map Prod.snd) (Config.quot 25 (o.arrival - tref) msTicks)) u
       (u.solRecs.find? fun r => r.mtc == tref && r.placed) = some sol →
       exec .revisionApply s = .next (if cells.any u.tlRevisable then t.count TL_CNT1.REV_APPLIED else t))) ∧
    (∀ (s : State) (p : PeerTile) (rest : List PeerTile) (f : TlField), s.units = true → s.trellis.peer = p :: rest → s.on TL_CTL.FLEET_EN = true →
      (s.trellis.fields.find? fun f => f.id == p.field && f.lat == p.lat && f.lon == p.lon && f.edge == p.edge) = some f → bit f.layers lyCover = true →
      s.get TL_FIELD.STATE ≠ 0 → f.id = s.get TL_FIELD_ID.ID → s.trellis.tiles.contains p.tile = true →
      ∃ t, exec .fleetTileMerge s = .next t ∧ t.trellis.peer = rest ∧ t.trellis.cells = mergeTile s.trellis.cells p ∧ t.trellis.tiles = s.trellis.tiles ∧
        t.regs = (s.count TL_CNT2.FLEET_MERGED).regs)

/-- R257. It states that exec answers a next state, under conditions on the state and the operands alone, for each of these constructors of Instr: openField, closeField, listFields, deleteField, readCells, writeCells, exportField, flush. -/
def Obligations.TrellisService : Prop :=
  (∀ (s : State) (q : SvcReq) (id : Nat) (create : Bool) (edge layers : Nat) (lat lon height : Int), s.units = true → s.plat.serviceUp = true → 
      (let t := s.request tlBox 0x0001 q ([id, b2n create + 16 * (edge % 16) + 65536 * (layers % 65536)] ++ two (low 64 lat) ++ two (low 64 lon) ++ [low 32 height])
       t.get TL_FIELD.STATE = 1 → t.get TL_FIELD_ID.ID ≠ id →
       exec (.openField q id create edge layers lat lon height) s = .next (t.done q tlCore 0x0001 stBusy []))) ∧
    (∀ (s : State) (q : SvcReq) (id : Nat) (create : Bool) (edge layers : Nat) (lat lon height : Int), s.units = true → s.plat.serviceUp = true → create = true → 
      (let t := s.request tlBox 0x0001 q ([id, b2n create + 16 * (edge % 16) + 65536 * (layers % 65536)] ++ two (low 64 lat) ++ two (low 64 lon) ++ [low 32 height])
       t.get TL_FIELD.STATE = 0 → (t.trellis.fields.find? fun f => f.id == id) = none → (t.tlEndDrain.tlFlushNow.trellis.fields.find? fun f => f.id == id) = none →
       exec (.openField q id create edge layers lat lon height) s = .next (let u := t.tlEndDrain.tlFlushNow.tlOpenField ⟨id, edge % 16, layers % 65536, lat, lon, height, [], [], []⟩
        u.done q tlCore 0x0001 stOk [u.get TL_FIELD.SESSION]))) ∧
    (∀ (s : State) (q : SvcReq), s.units = true → s.plat.serviceUp = true → 
      (let t := s.request tlBox 0x0002 q
       t.get TL_FIELD.STATE = 0 →
       exec (.closeField q) s = .next (t.done q tlCore 0x0002 stOk []))) ∧
    (∀ (s : State) (q : SvcReq), s.units = true → s.plat.serviceUp = true → 
      (let t := s.request tlBox 0x0002 q
       t.get TL_FIELD.STATE = 1 →
       exec (.closeField q) s = .next (((t.put TL_FIELD.STATE 2).modTl fun l => { l with closed := some t.mtc, closing := l.closing ++ [keepReq q] }).reply q tlCore 0x0002 stAccepted false []))) ∧
    (∀ (s : State) (q : SvcReq) (addr : Nat), s.units = true → s.plat.serviceUp = true → 
      (let t := s.request tlBox 0x0003 q (two addr)
       exec (.listFields q addr) s = .next ((t.fabWrite addr (t.trellis.fields.flatMap TlField.entry)).done q tlCore 0x0003 stOk [t.trellis.fields.length]))) ∧
    (∀ (s : State) (q : SvcReq) (id : Nat), s.units = true → s.plat.serviceUp = true → 
      (let t := s.request tlBox 0x0004 q [id]
       t.get TL_FIELD.STATE = 0 → (t.trellis.fields.any fun f => f.id == id) = true →
       exec (.deleteField q id) s = .next ((t.modTl fun l => { l with fields := l.fields.filter fun f => f.id != id }).tlUsed.done q tlCore 0x0004 stOk []))) ∧
    (∀ (s : State) (q : SvcReq) (id : Nat), s.units = true → s.plat.serviceUp = true → 
      (let t := s.request tlBox 0x0004 q [id]
       (t.trellis.fields.any fun f => f.id == id) = false →
       exec (.deleteField q id) s = .next (t.done q tlCore 0x0004 stBadParam []))) ∧
    (∀ (s : State) (q : SvcReq) (layer : Nat) (i0 j0 i1 j1 : Int) (addr : Nat), s.units = true → s.plat.serviceUp = true → layer < 16 → cellIn i0 j0 = true → cellIn i1 j1 = true → 
      (let t := s.request tlBox 0x0020 q ([layer] ++ [i0, j0, i1, j1].map (low 32) ++ two addr)
       t.get TL_FIELD.STATE ≠ 0 →
       exec (.readCells q layer i0 j0 i1 j1 addr) s = .next ((t.fabWrite addr ((rectCells i0 j0 i1 j1).map fun c => t.tlWord layer c.1 c.2)).done q tlCore 0x0020 stOk [(rectCells i0 j0 i1 j1).length]))) ∧
    (∀ (s : State) (q : SvcReq) (layer : Nat) (i0 j0 i1 j1 : Int) (addr : Nat), s.units = true → s.plat.serviceUp = true → layer < 12 ∨ 16 ≤ layer → 
      (let t := s.request tlBox 0x0021 q ([layer] ++ [i0, j0, i1, j1].map (low 32) ++ two addr)
       exec (.writeCells q layer i0 j0 i1 j1 addr) s = .next (t.done q tlCore 0x0021 stBadParam []))) ∧
    (∀ (s : State) (q : SvcReq) (layer : Nat) (i0 j0 i1 j1 : Int) (addr : Nat), s.units = true → s.plat.serviceUp = true → 12 ≤ layer → layer < 16 → cellIn i0 j0 = true → cellIn i1 j1 = true → 
      (let t := s.request tlBox 0x0021 q ([layer] ++ [i0, j0, i1, j1].map (low 32) ++ two addr)
       t.get TL_FIELD.STATE ≠ 0 →
       exec (.writeCells q layer i0 j0 i1 j1 addr) s = .next ((((rectCells i0 j0 i1 j1).zip (t.fabWords addr (rectCells i0 j0 i1 j1).length)).foldl (fun (u : State) (e : (Int × Int) × Nat) =>
        u.tlSet layer e.1.1 e.1.2 (cellWord (u.tlWord layer e.1.1 e.1.2) e.2 (t.codeAt t.mtc) false false)) t).done q tlCore 0x0021 stOk []))) ∧
    (∀ (s : State) (q : SvcReq) (id dry addr limit : Nat), s.units = true → s.plat.serviceUp = true → 
      (let t := s.request tlBox 0x0030 q ([id, dry] ++ two addr ++ [limit])
       (t.trellis.fields.find? fun f => f.id == id) = none →
       exec (.exportField q id dry addr limit) s = .next (t.done q tlCore 0x0030 stBadParam []))) ∧
    (∀ (s : State) (q : SvcReq), s.units = true → s.plat.serviceUp = true → 
      (let t := s.request tlBox 0x0040 q
       exec (.flush q) s = .next ((t.modTl fun l => { l with waiting := l.waiting ++ [(keepReq q, 0x0040)] }).tlStartFlush.reply q tlCore 0x0040 stAccepted false []))) ∧
    (∀ (s : State) (q : SvcReq) (id dry addr limit : Nat) (f : TlField), s.units = true → s.plat.serviceUp = true →
      (let t := s.request tlBox 0x0030 q ([id, dry] ++ two addr ++ [limit])
       let x := t.tlExport f (if t.get TL_FIELD.STATE != 0 && f.id == t.get TL_FIELD_ID.ID then t.trellis.cells else f.cells) dry
       (t.trellis.fields.find? fun f => f.id == id) = some f → x.1.length ≤ limit →
       exec (.exportField q id dry addr limit) s = .next ((t.fabWriteBytes addr x.1).done q tlCore 0x0030 stOk [x.1.length, x.2.1, x.2.2])))

/-- R264 to R274. It states that exec answers a next state, under conditions on the state and the operands alone, for each of these constructors of Instr: canFrameReceived, rxwWord0Read, rxwLastwRead, rxwSelWrite, rxwRel, rxwConsume, txwWrite, canTxReq, canTxCancel, canTxStartOfFrame, canTxComplete, canTxevPop, canBusError, canBusOffRecovered, recover, canInitWrite, canIntegrationDone, canRst. -/
def Obligations.CanControllers : Prop :=
  (∀ (s : State) (n : Fin 8) (f : CanFrame), s.units = true → (s.canFrame n f).netOn n = none → 
      exec (.canFrameReceived n f) s = .next (s.canFrame n f)) ∧
    (∀ (s : State) (n : Fin 8) (f : CanFrame), s.units = true → 2 ≤ s.get CAN_STAT.STATE n.val → 
      exec (.canFrameReceived n f) s = .next (s.canFrame n f)) ∧
    (∀ (s : State) (n : Fin 8) (w : Fin 2), s.units = true → 
      exec (.rxwWord0Read n w) s = .next (s.rxwLock n w)) ∧
    (∀ (s : State) (n : Fin 8) (w : Fin 2), s.units = true → 
      exec (.rxwLastwRead n w) s = .next (s.rxwConsume n w)) ∧
    (∀ (s : State) (n : Fin 8) (w : Fin 2) (v : Nat) (rq : Req), s.units = true → 
      exec (.rxwSelWrite n w v rq) s = .next (s.rxwSelect n w v (s.served rq.id))) ∧
    (∀ (s : State) (n : Fin 8) (w : Fin 2) (rq : Req), s.units = true → 
      exec (.rxwRel n w rq) s = .next (s.rxwRel n w 1 (s.served rq.id))) ∧
    (∀ (s : State) (n : Fin 8) (w : Fin 2) (rq : Req), s.units = true → 
      exec (.rxwConsume n w rq) s = .next (s.rxwRel n w 2 (s.served rq.id))) ∧
    (∀ (s : State) (n : Fin 8) (word : Fin 20) (v : Nat) (rq : Req), s.units = true → 
      exec (.txwWrite n word v rq) s = .next (s.txwWrite n word v (s.served rq.id))) ∧
    (∀ (s : State) (n : Fin 8) (mask : Nat) (rq : Req), s.units = true → 
      exec (.canTxReq n mask rq) s = .next (s.txRequest n mask (s.served rq.id))) ∧
    (∀ (s : State) (n : Fin 8) (mask : Nat) (rq : Req), s.units = true → 
      exec (.canTxCancel n mask rq) s = .next (s.txCancel n mask (s.served rq.id))) ∧
    (∀ (s : State) (n : Fin 8) (won : Option Nat) (tdcv : Nat) (k : Fin 32), s.units = true → s.canSends n.val = true → (s.can[n.val]).attempt = none → s.txChoose n = some k →
      s.on CAN_TDC.TDC_EN n.val = false →
      exec (.canTxStartOfFrame n won tdcv) s = .next ((s.modCan n fun c => { c with attempt := some ⟨k, s.mtc, won⟩ }).put CAN_STAT.ACT 2 n.val)) ∧
    (∀ (s : State) (n : Fin 8) (ok : Bool), s.units = true → 
      exec (.canTxComplete n ok) s = .next ((s.txEnd n ok).netSync n)) ∧
    (∀ (s : State) (n : Fin 8), s.units = true → 
      exec (.canTxevPop n) s = .next (s.txEvPop n)) ∧
    (∀ (s : State) (n : Fin 8) (kind : CanError) (tx : Bool) (inc : Nat), s.units = true → 
      exec (.canBusError n kind tx inc) s = .next ((s.canError n kind tx inc).netSync n)) ∧
    (∀ (s : State) (n : Fin 8), s.units = true → s.get CAN_STAT.STATE n.val = canBusOff → (s.on CAN_CTL.BO_AUTO n.val = true ∨ (s.can[n.val]).recover = true) → 
      exec (.canBusOffRecovered n) s = .next (((s.modCan n fun c => { c with txErr := 0, rxErr := 0, recover := false }).canCounters n).canGo n canActive)) ∧
    (∀ (s : State) (n : Fin 8) (rq : Req), s.units = true → rq.sup = true → 
      exec (.recover n rq) s = .next (s.canRecover n)) ∧
    (∀ (s : State) (n : Fin 8) (init : Bool) (rq : Req), s.units = true → rq.sup = true → 
      exec (.canInitWrite n init rq) s = .next (s.canInitWrite n init)) ∧
    (∀ (s : State) (n : Fin 8), s.units = true → s.get CAN_STAT.ACT n.val = 3 → 
      exec (.canIntegrationDone n) s = .next ((s.put CAN_STAT.ACT 0 n.val).canGo n (s.can[n.val]).level)) ∧
    (∀ (s : State) (n : Fin 8) (rq : Req), s.units = true → rq.sup = true → 
      exec (.canRst n rq) s = .next (s.canRstNet n))

/-- R276 to R280; the result word of a refused PGN_SEND is free (the spec gives none). It states that exec answers a next state, under conditions on the state and the operands alone, for each of these constructors of Instr: netOpen, netClose, cfAdd, addressClaimDone, pgnSub, pgnSend, vtPool, tcMap, netList, cfLeaveTimeout, tcSetpointRefresh. -/
def Obligations.IsobusService : Prop :=
  (∀ (s : State) (q : SvcReq) (can kind rate notify leave : Nat), s.units = true → s.plat.serviceUp = true → 
      (let t := s.request netBox 0x0001 q [can, kind + 2 ^ 8 * rate, notify, leave]
       ((List.finRange 4).find? fun k => (t.nets[k.val]).isNone) = none →
       exec (.netOpen q can kind rate notify leave) s = .next (t.done q netCore 0x0001 stBadParam []))) ∧
    (∀ (s : State) (q : SvcReq) (can kind rate notify leave : Nat), s.units = true → s.plat.serviceUp = true → 8 ≤ can → 
      (let t := s.request netBox 0x0001 q [can, kind + 2 ^ 8 * rate, notify, leave]
       exec (.netOpen q can kind rate notify leave) s = .next (t.done q netCore 0x0001 stBadParam []))) ∧
    (∀ (s : State) (q : SvcReq) (net : Nat), s.units = true → s.plat.serviceUp = true → 4 ≤ net → 
      (let t := s.request netBox 0x0002 q [net]
       exec (.netClose q net) s = .next (t.done q netCore 0x0002 stBadParam []))) ∧
    (∀ (s : State) (q : SvcReq) (net record addr : Nat), s.units = true → s.plat.serviceUp = true → 4 ≤ net → 
      (let t := s.request netBox 0x0010 q [net, record, addr]
       exec (.cfAdd q net record addr) s = .next (t.done q netCore 0x0010 stBadParam []))) ∧
    (∀ (s : State) (k cf : Fin 4), s.units = true → ((s.nets[k.val]).bind fun x => x.cfs[cf.val]?) = none → 
      exec (.addressClaimDone k cf) s = .next (s)) ∧
    (∀ (s : State) (k cf : Fin 4) (c : IntCf) (w : SvcWait), s.units = true → ((s.nets[k.val]).bind fun x => x.cfs[cf.val]?) = some c → c.held = false → c.claimed + claimTicks ≤ s.mtc → c.req = some w →
      exec (.addressClaimDone k cf) s = .next ((s.modNet k fun x => { x with cfs := x.cfs.set cf.val { c with held := true, req := none } }).netReply w 0x0010 stOk [c.addr])) ∧
    (∀ (s : State) (q : SvcReq) (net : Fin 4) (pgn source addr size : Nat), s.units = true → s.plat.serviceUp = true →
      (let t := s.request netBox 0x0020 q ([net.val, pgn, source] ++ two addr ++ [size])
       (t.nets[net.val]).isSome = true →
       exec (.pgnSub q net.val pgn source addr size) s =
         .next ((t.modNet net fun x => { x with subs := x.subs ++ [⟨pgn % 2 ^ 18, source % 256, addr, size⟩] }).done q netCore 0x0020 stOk []))) ∧
    (∀ (s : State) (q : SvcReq) (net cf : Nat) (out : PgnOut), s.units = true → s.plat.serviceUp = true → 4 ≤ net → 
      ∃ t, exec (.pgnSend q net cf out) s = .next t ∧ t = (s.request netBox 0x0021 q ([net, cf, out.pgn, out.dest, out.prio, out.len] ++ two out.addr)).done q netCore 0x0021 stBadParam [Config.unstated 7 [net, cf]]) ∧
    (∀ (s : State) (q : SvcReq) (net cf addr len : Nat) (label : List Nat), s.units = true → s.plat.serviceUp = true → 4 ≤ net → 
      (let t := s.request netBox 0x0030 q ([net, cf] ++ two addr ++ [len, dataWord label 0, dataWord label 1])
       exec (.vtPool q net cf addr len label) s = .next (t.done q netCore 0x0030 stBadParam []))) ∧
    (∀ (s : State) (q : SvcReq) (net name : Nat) (pairs : List (Nat × Nat)), s.units = true → s.plat.serviceUp = true → 4 ≤ net → 
      (let t := s.request netBox 0x0040 q (net :: two name)
       exec (.tcMap q net name pairs) s = .next (t.done q netCore 0x0040 stBadParam []))) ∧
    (∀ (s : State) (q : SvcReq) (k : Fin 4) (name : Nat) (pairs : List (Nat × Nat)) (x : Net), s.units = true → s.plat.serviceUp = true →
      (let t := s.request netBox 0x0040 q (k.val :: two name)
       t.nets[k.val] = some x → x.maps = [] → pairs.length ≤ 8 → (pairs.any fun p => decide (64 ≤ p.2)) = false →
       exec (.tcMap q k.val name pairs) s = .next ((t.modNet k fun y => { y with maps := (y.maps.filter fun e => e.name != name) ++ [⟨name, pairs, none⟩] }).done
         q netCore 0x0040 stOk []))) ∧
    (∀ (s : State) (q : SvcReq) (net addr : Nat), s.units = true → s.plat.serviceUp = true → 4 ≤ net → 
      (let t := s.request netBox 0x0050 q (net :: two addr)
       exec (.netList q net addr) s = .next (t.done q netCore 0x0050 stBadParam []))) ∧
    (∀ (s : State) (k : Fin 4) (name : Nat), s.units = true → s.cfSilent k name = true → 
      exec (.cfLeaveTimeout k name) s = .next (s.cfAbsent k name)) ∧
    (∀ (s : State) (k : Fin 4), s.units = true → s.plat.serviceUp = true → 
      exec (.tcSetpointRefresh k) s = .next (s.tcSend k true)) ∧
    (∀ (s : State) (q : SvcReq) (n : Fin 8) (kind rate notify leave : Nat) (k : Fin 4), s.units = true → s.plat.serviceUp = true →
      (let t := s.request netBox 0x0001 q [n.val, kind + 2 ^ 8 * rate, notify, leave]
       ((List.finRange 4).find? fun k => (t.nets[k.val]).isNone) = some k → kind ≤ 1 → rate ≤ 1 → 0 < leave → leave ≤ 30 → t.on CAN_CTL.INIT n.val = true →
       ∃ u, exec (.netOpen q n.val kind rate notify leave) s = .next (u.done q netCore 0x0001 stOk [k.val]) ∧
         u = ({ t with nets := t.nets.set k.val (some ⟨n, kind == 1, kind == 1 && rate == 1, notify % 64, leave, [], [], 0, [], [], [], [], [], none, []⟩) k.isLt } : State).netHold
           n (kind == 1 && rate == 1))) ∧
    (∀ (s : State) (q : SvcReq) (k : Fin 4), s.units = true → s.plat.serviceUp = true →
      (let t := s.request netBox 0x0002 q [k.val]
       (t.nets[k.val]).isSome = true → exec (.netClose q k.val) s = .next ((t.netClose k).done q netCore 0x0002 stOk []))) ∧
    (∀ (s : State) (q : SvcReq) (k : Fin 4) (record addr : Nat) (x : Net) (r : Tag), s.units = true → s.plat.serviceUp = true →
      (let t := s.request netBox 0x0010 q [k.val, record, addr]
       let name := leNat ((r.value.drop 4).take 8)
       t.nets[k.val] = some x → (t.tags.recs.find? fun t => t.type == 0x0010 && t.index == record) = some r → x.cfs.length < 4 →
       exec (.cfAdd q k.val record addr) s = .next ((((t.modNet k fun y => { y with cfs := y.cfs ++ [⟨record, name, addr % 256, false, t.mtc, some (keepReq q)⟩] }).netClaim
         k (addr % 256) name).reply q netCore 0x0010 stAccepted false [])))) ∧
    (∀ (s : State) (q : SvcReq) (k cf : Fin 4) (out : PgnOut) (c : IntCf), s.units = true → s.plat.serviceUp = true →
      (let t := s.request netBox 0x0021 q ([k.val, cf.val, out.pgn, out.dest, out.prio, out.len] ++ two out.addr)
       let d := t.fabBytes out.addr out.len
       let u := t.reply q netCore 0x0021 stAccepted false []
       ((t.nets[k.val]).bind fun x => x.cfs[cf.val]?) = some c → c.held = true →
       (out.len ≤ 8 → exec (.pgnSend q k.val cf.val out) s = .next (u.netSend k out.prio out.pgn out.dest c.addr d (some (keepReq q, 0x0021)))) ∧
       (8 < out.len → exec (.pgnSend q k.val cf.val out) s = .next (u.tpStart k c.addr out.dest out.pgn out.prio d (some (keepReq q, 0x0021)))))) ∧
    (∀ (s : State) (q : SvcReq) (k cf : Fin 4) (addr len v : Nat) (label : List Nat) (x : Net) (c : IntCf), s.units = true → s.plat.serviceUp = true →
      (let t := s.request netBox 0x0030 q ([k.val, cf.val] ++ two addr ++ [len, dataWord label 0, dataWord label 1])
       t.nets[k.val] = some x → x.cfs[cf.val]? = some c → x.vtAddr = some v → x.vt = none →
       exec (.vtPool q k.val cf.val addr len label) s = .next (((t.modNet k fun y => { y with vt := some ⟨cf.val, 0, label.take 7, keepReq q⟩ }).reply
         q netCore 0x0030 stAccepted false []).tpStart k c.addr v pgnToVt 5
           (0x11 :: (t.modNet k fun y => { y with vt := some ⟨cf.val, 0, label.take 7, keepReq q⟩ }).fabBytes addr len) none))) ∧
    (∀ (s : State) (q : SvcReq) (k : Fin 4) (addr : Nat) (x : Net), s.units = true → s.plat.serviceUp = true →
      (let t := s.request netBox 0x0050 q (k.val :: two addr)
       let pad := fun (l : List Nat) => (l ++ List.replicate 8 0).take 8
       t.nets[k.val] = some x →
       exec (.netList q k.val addr) s = .next ((t.fabWrite addr (pad (Config.listWords 0 [x.ext.length, x.untracked]) ++
         x.ext.flatMap fun e => pad (Config.listWords 1 [e.name, e.addr, b2n e.present]))).done q netCore 0x0050 stOk [x.ext.length])))

/-- R283 to R290. It states that exec answers a next state, under conditions on the state and the operands alone, for each of these constructors of Instr: ethFrameReceived, ethLinkLoss, ptpSyncTimer, ptpPdelayTimer, blkTmoExpiry, lidarBlockWrite, hqTxWr, hqTxSent, ethLinkUp, macEntryAgeOut. -/
def Obligations.EthernetCommands : Prop :=
  (∀ (s : State) (p : Fin 10) (d : List Nat) (fcsBad : Bool) (stamp : Nat), s.units = true → fcsBad = true → bit (s.ethCfgAt p.val stamp) 0 = true → 
      exec (.ethFrameReceived p d fcsBad stamp) s = .next ((s.count ETH_CNT1.FCS 1 p.val).ethFlag p.val ETH_FLAGS.FCS)) ∧
    (∀ (s : State) (p : Fin 10) (d : List Nat) (fcsBad : Bool) (stamp : Nat), s.units = true → s.ethTakes p.val (s.ethCfgAt p.val stamp) = true → fcsBad = false → 1518 < d.length → 
      exec (.ethFrameReceived p d fcsBad stamp) s = .next ((s.count ETH_CNT1.OVERSIZE 1 p.val).ethFlag p.val ETH_FLAGS.OVERSIZE)) ∧
    (∀ (s : State) (p : Fin 10) (d : List Nat) (fcsBad : Bool) (stamp : Nat), s.units = true → s.ethTakes p.val (s.ethCfgAt p.val stamp) = true → fcsBad = false → d.length ≤ 1518 → ethPtp d = false → 
      exec (.ethFrameReceived p d fcsBad stamp) s = .next ((s.count ETH_CNT0.RX 1 p.val).ethSwitch p.val (bits (s.ethCfgAt p.val stamp) 4 12) d stamp)) ∧
    (∀ (s : State) (p : Fin 10) (d : List Nat) (fcsBad : Bool) (stamp : Nat), s.units = true → s.ethTakes p.val (s.ethCfgAt p.val stamp) = true → fcsBad = false → d.length ≤ 1518 → ethPtp d = true → 
      exec (.ethFrameReceived p d fcsBad stamp) s = .next (((s.count ETH_CNT0.RX 1 p.val).count ETH_CNT3.PTP_FOREIGN 1 p.val).ethFlag p.val ETH_FLAGS.PTP_FOREIGN)) ∧
    (∀ (s : State) (p : Fin 10), s.units = true → 
      exec (.ethLinkLoss p) s = .next (s.linkLoss p)) ∧
    (∀ (s : State) (p : Fin 10) (sqi : Fin 8), s.units = true → s.on ETH_CFG.EN p.val = true → 
      exec (.ethLinkUp p sqi) s = .next ((s.putB ETH_STAT.LINK true p.val).put ETH_STAT.SQI sqi.val p.val)) ∧
    (∀ (s : State) (vid mac : Nat), s.units = true → 
      exec (.macEntryAgeOut vid mac) s = .next (let t := s.modSw fun w =>
          { w with macs := w.macs.filter fun e => !(e.vid == vid && e.mac == mac && decide (e.last + max 1 (s.get SW_CFG.MAC_AGE) * 200000000 ≤ s.mtc)) }
        t.put SW_STAT.MACS t.switch.macs.length)) ∧
    (∀ (s : State), s.units = true → s.syncDue = true → clockClass s.time.st = none → 
      ∃ t, exec .ptpSyncTimer s = .next t ∧ t.switch.sync = [(1, ((5 * s.mtc : Nat) : Int), 0)]) ∧
    (∀ (s : State) (p : Fin 10) (ns : Nat), s.units = true → s.on ETH_CFG.PTP_EN p.val = true → s.portUp p.val = true → s.pdelayDue p = true → 
      exec (.ptpPdelayTimer p ns) s = .next ((s.put ETH_STAT.PDELAY ns p.val).modSw fun w => { w with pdelay := upd w.pdelay p fun _ => some s.mtc })) ∧
    (∀ (s : State) (k : Fin 16), s.units = true → (s.switch.strs[k.val]).cur.any (fun b => decide (b.mtc + s.blkTmo k.val ≤ s.mtc)) = true → 
      exec (.blkTmoExpiry k) s = .next (s.strClose k none)) ∧
    (∀ (s : State) (k : Fin 16), s.units = true → (s.switch.strs[k.val]).closed = [] → 
      exec (.lidarBlockWrite k) s = .next (s)) ∧
    (∀ (s : State) (k : Fin 16), s.units = true → (s.switch.strs[k.val]).closed ≠ [] → 
      ∃ t, exec (.lidarBlockWrite k) s = .next t ∧ (t.switch.strs[k.val]).closed = ((s.switch.strs[k.val]).closed).drop 1 ∧ t.valves = s.valves) ∧
    (∀ (s : State) (q : Fin 2) (v : Nat) (rq : Req), s.units = true → 
      exec (.hqTxWr q v rq) s = .next (s.hqTxWrite q v (s.served rq.id))) ∧
    (∀ (s : State) (q : Fin 2), s.units = true → s.get HQ_TX_RD.IDX q.val % s.hqSize q.val = s.get HQ_TX_WR.IDX q.val % s.hqSize q.val → 
      exec (.hqTxSent q) s = .next (s)) ∧
    (∀ (s : State) (q : Fin 2), s.units = true →
      (let rd := s.get HQ_TX_RD.IDX q.val % s.hqSize q.val
       let a := s.addr40 HQ_TX_LO.ADDR HQ_TX_HI.ADDR q.val + 2048 * rd
       rd ≠ s.get HQ_TX_WR.IDX q.val % s.hqSize q.val → bits (s.fabN a 4) 0 12 < 60 →
       exec (.hqTxSent q) s = .next (((s.fabWrite a [s.fabN a 4 % 2 ^ 31]).count HQ_CNT.TX_SKIP 1 q.val).put HQ_TX_RD.IDX ((rd + 1) % s.hqSize q.val) q.val))) ∧
    (∀ (s : State) (q : Fin 2), s.units = true →
      (let rd := s.get HQ_TX_RD.IDX q.val % s.hqSize q.val
       let a := s.addr40 HQ_TX_LO.ADDR HQ_TX_HI.ADDR q.val + 2048 * rd
       let w0 := s.fabN a 4
       let d := s.fabBytes (a + 16) (bits w0 0 12)
       let u := if bits w0 12 4 = 0xF then s.ethSwitch 10 1 d s.mtc else s.egressFrame (bits w0 12 4) d
       rd ≠ s.get HQ_TX_WR.IDX q.val % s.hqSize q.val → 60 ≤ bits w0 0 12 → bits w0 0 12 ≤ 1518 →
       exec (.hqTxSent q) s = .next ((u.fabWrite a ((w0 % 2 ^ 31) :: two s.mtc)).put HQ_TX_RD.IDX ((rd + 1) % s.hqSize q.val) q.val)))

/-- R291 to R298; the challenge's number is a free value. It states that exec answers a next state, under conditions on the state and the operands alone, for each of these constructors of Instr: jfxHello, jfxChallenge, jfxResponse, jfxBye, jfxState, jfxTile, jfxUnloadReq, jfxUnloadOffer, jfxUnloadAccept, jfxUnloadState, jfxUnloadEnd, jfxRtcm, jfxSnap, jfxWatchPos, jfxUser, jfxAck. -/
def Obligations.FleetMessages : Prop :=
  (∀ (s : State) (h : JfxHead), s.units = true → (s.jfxTake h).2 = false →
      exec (.jfxBye h) s = .next (s.jfxTake h).1 ∧ exec (.jfxSnap h) s = .next (s.jfxTake h).1 ∧ exec (.jfxUser h []) s = .next (s.jfxTake h).1) ∧
    (∀ (s : State) (h : JfxHead), s.units = true → 
      (let r := s.jfxTake h
       let t := r.1
       r.2 = true →
       exec (.jfxBye h) s = .next (t.peerLeave h.sender))) ∧
    (∀ (s : State) (h : JfxHead), s.units = true → 
      (let r := s.jfxTake h
       let t := r.1
       r.2 = true →
       exec (.jfxSnap h) s = .next (t))) ∧
    (∀ (s : State) (h : JfxHead), s.units = true → 
      (let r := s.jfxTake h
       let t := r.1
       r.2 = true →
       exec (.jfxWatchPos h) s = .next (t))) ∧
    (∀ (s : State) (h : JfxHead) (fields : List Nat), s.units = true → 
      (let r := s.jfxTake h
       let t := r.1
       r.2 = true →
       exec (.jfxState h fields) s = .next (t.jfxNotify ([stateCode, h.sender] ++ two t.mtc ++ fields)))) ∧
    (∀ (s : State) (h : JfxHead) (bytes : List Nat), s.units = true → 
      (let r := s.jfxTake h
       let t := r.1
       r.2 = true →
       exec (.jfxUser h bytes) s = .next (t.jfxNotify ([0x0082, h.sender] ++ two t.mtc ++ [bytes.length] ++ (List.range ((bytes.length + 3) / 4)).map fun k => leField bytes (4 * k) 4)))) ∧
    (∀ (s : State) (h : JfxHead) (no : Nat) (fields : List Nat), s.units = true → 
      (let r := s.jfxTake h
       let t := r.1
       r.2 = true →
       exec (.jfxUnloadReq h no fields) s = .next ((t.setDialog ⟨no, some h.sender, t.mtc⟩).unloadEvt no 0x30 h.sender fields))) ∧
    (∀ (s : State) (h : JfxHead) (no : Nat) (fields : List Nat), s.units = true → 
      (let r := s.jfxTake h
       let t := r.1
       r.2 = true → (t.dialog no).isSome = true →
       exec (.jfxUnloadOffer h no fields) s = .next (t.unloadEvt no 0x31 h.sender fields))) ∧
    (∀ (s : State) (h : JfxHead) (no : Nat) (fields : List Nat), s.units = true → 
      (let r := s.jfxTake h
       let t := r.1
       r.2 = true → (t.dialog no).isSome = true →
       exec (.jfxUnloadAccept h no fields) s = .next ((t.setDialog ⟨no, some h.sender, t.mtc⟩).unloadEvt no 0x32 h.sender fields))) ∧
    (∀ (s : State) (h : JfxHead) (no : Nat) (fields : List Nat), s.units = true → 
      (let r := s.jfxTake h
       let t := r.1
       r.2 = true → (t.dialog no) = none →
       exec (.jfxUnloadState h no fields) s = .next (t))) ∧
    (∀ (s : State) (h : JfxHead) (no : Nat), s.units = true → 
      (let r := s.jfxTake h
       let t := r.1
       r.2 = true → (t.dialog no) = none →
       exec (.jfxUnloadEnd h no) s = .next (t))) ∧
    (∀ (s : State) (h : JfxHead) (no : Nat) (fields : List Nat) (d : Dialog), s.units = true →
      (let r := s.jfxTake h
       let t := r.1
       r.2 = true → t.dialog no = some d → d.peer = some h.sender →
       exec (.jfxUnloadState h no fields) s = .next ((t.setDialog { d with last := t.mtc }).unloadEvt no 0x33 h.sender fields) ∧
       exec (.jfxUnloadEnd h no) s = .next (t.dialogEnd d unloadEnd))) ∧
    (∀ (s : State) (h : JfxHead) (src hop : Nat) (bytes : List Nat), s.units = true →
      (let r := s.jfxTake h
       let m := r.1.rtcmNew src bytes
       let u := m.1.foldl (fun (u : State) (f : List Nat) => u.rtcmFrom 1 f) m.2
       r.2 = true →
       (u.fleet.hopMax ≤ hop → exec (.jfxRtcm h src hop bytes) s = .next u) ∧
       (u.fleet.relay = true → hop < u.fleet.hopMax → m.1 ≠ [] →
         exec (.jfxRtcm h src hop bytes) s = .next (u.jfxSend 0x40 allMembers false ([src, hop + 1] ++ m.1.flatten))))) ∧
    (∀ (s : State) (h : JfxHead) (seq : Nat), s.units = true →
      (let r := s.jfxTake h
       let t := r.1
       let u := (t.fleet.acks.filter fun e => e.1 == seq).foldl (fun (u : State) (e : Nat × SvcWait) => u.done e.2.req jfxCore 0x0020 stOk [])
         (t.modFleet fun f => { f with acks := f.acks.filter fun e => e.1 != seq })
       r.2 = true → u.fleet.snap = none → exec (.jfxAck h seq) s = .next u)) ∧
    (∀ (s : State) (h : JfxHead) (f : TileFrag), s.units = true →
      (let r := s.jfxTake h
       r.2 = true → r.1.fleet.parts = [] → 1 < f.nfrag →
       ∃ t, exec (.jfxTile h f) s = .next t ∧ t.fleet.parts = [⟨h.sender, r.1.mtc, [f]⟩] ∧ t.valves = r.1.valves ∧ t.trellis = r.1.trellis)) ∧
    (∀ (s : State) (h : JfxHead) (fleet cls field na : Nat), s.units = true → (s.jfxEnter h).2 = false →
      exec (.jfxHello h fleet cls field) s = .next (s.jfxEnter h).1 ∧ exec (.jfxChallenge h na) s = .next (s.jfxEnter h).1 ∧
        exec (.jfxResponse h na) s = .next (s.jfxEnter h).1) ∧
    (∀ (s : State) (h : JfxHead) (na : Nat), s.units = true → (s.jfxEnter h).2 = true →
      exec (.jfxChallenge h na) s =
        .next ((s.jfxEnter h).1.fresh.jfxSend 0x03 h.sender false (two na ++ two (Config.random (s.jfxEnter h).1.free % 2 ^ 64)))) ∧
    (∀ (s : State) (h : JfxHead) (na : Nat) (a : Admit), s.units = true → (s.jfxEnter h).2 = true → (s.jfxEnter h).1.jfxShut h.sender = false →
      (s.jfxEnter h).1.fleet.admits.find? (fun a => a.id == h.sender && a.na == na && decide ((s.jfxEnter h).1.mtc ≤ a.at_ + admitTicks)) = some a →
      (((s.jfxEnter h).1.modFleet fun f => { f with admits := f.admits.filter fun x => x.id != h.sender }).jfxPeer h.sender).isSome = true →
      exec (.jfxResponse h na) s = .next (((s.jfxEnter h).1.modFleet fun f => { f with admits := f.admits.filter fun x => x.id != h.sender }).jfxAdmit
        ⟨h.sender, a.cls, a.field, true, h.session, h.seq, 1, (s.jfxEnter h).1.mtc⟩)) ∧
    (∀ (s : State) (h : JfxHead) (cls field : Nat) (p : Peer), s.units = true → (s.jfxEnter h).2 = true → (s.jfxEnter h).1.jfxShut h.sender = false →
      (s.jfxEnter h).1.jfxPeer h.sender = some p → p.session = h.session →
      exec (.jfxHello h (s.jfxEnter h).1.fleetId cls field) s =
        .next ((s.jfxEnter h).1.modPeer h.sender fun q => { q with field := field, cls := cls })) ∧
    (∀ (s : State) (h : JfxHead) (cls field : Nat), s.units = true →
      (let t := (s.jfxEnter h).1
       let na := Config.random t.free % 2 ^ 64
       (s.jfxEnter h).2 = true → t.jfxShut h.sender = false → t.jfxPeer h.sender = none →
       exec (.jfxHello h t.fleetId cls field) s = .next ((t.fresh.modFleet fun f =>
         { f with admits := ⟨h.sender, h.session, cls, field, na, t.mtc⟩ :: f.admits.filter fun a => a.id != h.sender }).jfxSend 0x02 h.sender false (two na))))

/-- R291 to R299; the session number and the list entries' layout are free values. It states that exec answers a next state, under conditions on the state and the operands alone, for each of these constructors of Instr: jfxHelloTimer, jfxStateTimer, jfxAdmissionTimeout, jfxBlockExpiry, jfxPeerAgeOut, jfxUnloadLost, jfxTileReassemblyTimeout, jfxSnapWindowTimeout, jfxStart, jfxStop, peerList, peerBlock, sendUser, unloadReq, unloadOffer, unloadAccept, unloadState, unloadEnd, rtcmRelay, serverSet. -/
def Obligations.FleetServiceAndTimers : Prop :=
  (∀ (s : State), s.units = true → s.fleet.on = true → s.plat.serviceUp = true → since s.fleet.helloAt (s.fleet.helloT * secTicks) s.mtc = true → 
      exec .jfxHelloTimer s = .next ((s.modFleet fun f => { f with helloAt := some s.mtc }).jfxSend 0x01 allMembers false [s.fleetId, s.fleet.cls, if s.get TL_FIELD.STATE = 0 then 0 else s.get TL_FIELD_ID.ID])) ∧
    (∀ (s : State), s.units = true → s.fleet.on = false → 
      exec .jfxStateTimer s = .next (s)) ∧
    (∀ (s : State), s.units = true → s.fleet.on = true → s.plat.serviceUp = true → since s.fleet.stateAt secTicks s.mtc = true → 
      ∃ t, exec .jfxStateTimer s = .next t ∧ t.fleet.stateAt = some s.mtc ∧ t.fleet.peers = s.fleet.peers ∧ t.valves = s.valves) ∧
    (∀ (s : State) (id : Nat), s.units = true → (s.fleet.admits.any fun a => a.id == id && decide (a.at_ + admitTicks ≤ s.mtc)) = false → 
      exec (.jfxAdmissionTimeout id) s = .next (s)) ∧
    (∀ (s : State) (id : Nat), s.units = true → (s.fleet.admits.any fun a => a.id == id && decide (a.at_ + admitTicks ≤ s.mtc)) = true → 
      ∃ t, exec (.jfxAdmissionTimeout id) s = .next t ∧ t.fleet.admits = (s.fleet.admits.filter fun a => a.id != id) ∧ t.regs = s.regs) ∧
    (∀ (s : State) (id : Nat), s.units = true → 
      exec (.jfxBlockExpiry id) s = .next (s.modFleet fun f => { f with banned := f.banned.filter fun e => !(e.1 == id && decide (e.2 ≤ s.mtc)) })) ∧
    (∀ (s : State) (id : Nat), s.units = true → (s.jfxPeer id).any (fun p => decide (p.last + s.fleet.ageT * secTicks ≤ s.mtc)) = true → 
      exec (.jfxPeerAgeOut id) s = .next (s.peerLeave id)) ∧
    (∀ (s : State) (id : Nat), s.units = true → s.jfxPeer id = none → 
      exec (.jfxPeerAgeOut id) s = .next (s)) ∧
    (∀ (s : State) (no : Nat) (d : Dialog), s.units = true → s.dialog no = some d → d.last + 3 * secTicks ≤ s.mtc → exec (.jfxUnloadLost no) s = .next (s.dialogEnd d unloadLost)) ∧
    (∀ (s : State) (p : TilePart) (b : TileFrag) (r : List TileFrag), s.units = true → s.fleet.parts = [p] → p.frags = b :: r → p.at_ + tileTicks ≤ s.mtc →
      exec (.jfxTileReassemblyTimeout p.sender b.tileSeq) s = .next ((s.modFleet fun f => { f with parts := [] }).count SW_JFX1.TILE_DROP 1)) ∧
    (∀ (s : State) (x : SnapTx), s.units = true → s.fleet.snap = some x → x.tries < 3 →
      exec .jfxSnapWindowTimeout s = .next (s.snapSend { x with tries := x.tries + 1 })) ∧
    (∀ (s : State) (q : SvcReq) (cls notify helloT ageT : Nat), s.units = true → s.plat.serviceUp = true → helloT = 0 ∨ 10 < helloT ∨ ageT < 3 ∨ 120 < ageT → 
      (let t := s.request jfxBox 0x0001 q [cls, notify, helloT, ageT]
       exec (.jfxStart q cls notify helloT ageT) s = .next (t.done q jfxCore 0x0001 stBadParam []))) ∧
    (∀ (s : State) (q : SvcReq) (cls notify helloT ageT : Nat), s.units = true → s.plat.serviceUp = true → 0 < helloT → helloT ≤ 10 → 3 ≤ ageT → ageT ≤ 120 → 
      (let t := s.request jfxBox 0x0001 q [cls, notify, helloT, ageT]
       (t.tagWord 0x0020).isSome = true → (t.tagWord 0x0021).isSome = true → (t.tagWord 0x0022).isSome = true → t.get SW_CFG.JFX_VID ≠ 0 →
       exec (.jfxStart q cls notify helloT ageT) s = .next ((t.fresh.modFleet fun f =>
        { f with on := true, cls := cls, notify := notify % 64, helloT := helloT, ageT := ageT, session := Config.random t.free % 2 ^ 32, seq := 0, helloAt := none, stateAt := none }).done q jfxCore 0x0001 stOk []))) ∧
    (∀ (s : State) (q : SvcReq), s.units = true → s.plat.serviceUp = true → 
      (let t := s.request jfxBox 0x0002 q
       t.fleet.on = false →
       exec (.jfxStop q) s = .next (t.jfxHalt.done q jfxCore 0x0002 stOk []))) ∧
    (∀ (s : State) (q : SvcReq) (addr : Nat), s.units = true → s.plat.serviceUp = true → 
      (let t := s.request jfxBox 0x0010 q (two addr)
       exec (.peerList q addr) s = .next ((t.fabWrite addr (t.fleet.peers.flatMap fun p =>
        (Config.listWords 2 [p.id, p.cls, p.field, b2n p.active, p.last] ++ List.replicate 8 0).take 8)).done q jfxCore 0x0010 stOk [t.fleet.peers.length]))) ∧
    (∀ (s : State) (q : SvcReq) (id : Nat) (block : Bool), s.units = true → s.plat.serviceUp = true → block = false → 
      (let t := s.request jfxBox 0x0011 q [id, b2n block]
       exec (.peerBlock q id block) s = .next ((t.modFleet fun f => { f with blocked := t.fleet.blocked.filter fun x => x != id }).done q jfxCore 0x0011 stOk []))) ∧
    (∀ (s : State) (q : SvcReq) (dest len addr : Nat) (ackreq : Bool), s.units = true → s.plat.serviceUp = true → 1192 < len → 
      (let t := s.request jfxBox 0x0020 q ([dest, len] ++ two addr)
       exec (.sendUser q dest len addr ackreq) s = .next (t.done q jfxCore 0x0020 stBadParam []))) ∧
    (∀ (s : State) (q : SvcReq) (dest len addr : Nat) (ackreq : Bool), s.units = true → s.plat.serviceUp = true → len ≤ 1192 → ackreq = false → 
      (let t := s.request jfxBox 0x0020 q ([dest, len] ++ two addr)
       t.fleet.on = true →
       exec (.sendUser q dest len addr ackreq) s = .next ((t.jfxSend 0x60 dest false (t.fabBytes addr len)).done q jfxCore 0x0020 stOk []))) ∧
    (∀ (s : State) (q : SvcReq) (no : Nat) (fields : List Nat), s.units = true → s.plat.serviceUp = true →
      (let t := s.request jfxBox 0x0030 q [no]
       t.fleet.on = true → ((t.dialog no).isSome = true ∨ t.fleet.dialogs.length < 8) →
       exec (.unloadReq q no fields) s = .next (State.done (((t.setDialog ⟨no, none, t.mtc⟩).fleet.peers.filter fun p => p.active && p.cls == classCart).foldl (fun (u : State) (p : Peer) =>
         u.jfxSend 0x30 p.id false (no :: fields)) (t.setDialog ⟨no, none, t.mtc⟩)) q jfxCore 0x0030 stOk []))) ∧
    (∀ (s : State) (q : SvcReq) (no : Nat) (fields : List Nat), s.units = true → s.plat.serviceUp = true →
      (let t := s.request jfxBox 0x0031 q [no]
       t.fleet.on = true → ((t.dialog no).isSome = true ∨ t.fleet.dialogs.length < 8) →
       exec (.unloadOffer q no fields) s = .next (State.done (t.toDialog no 0x31 fields) q jfxCore 0x0031 stOk []))) ∧
    (∀ (s : State) (q : SvcReq) (no : Nat) (member : Nat) (fields : List Nat), s.units = true → s.plat.serviceUp = true →
      (let t := s.request jfxBox 0x0032 q [no]
       t.fleet.on = true → ((t.dialog no).isSome = true ∨ t.fleet.dialogs.length < 8) →
       exec (.unloadAccept q no member fields) s = .next (State.done ((t.setDialog ⟨no, some member, t.mtc⟩).toDialog no 0x32 fields) q jfxCore 0x0032 stOk []))) ∧
    (∀ (s : State) (q : SvcReq) (no : Nat) (fields : List Nat), s.units = true → s.plat.serviceUp = true →
      (let t := s.request jfxBox 0x0033 q [no]
       t.fleet.on = true → ((t.dialog no).isSome = true ∨ t.fleet.dialogs.length < 8) →
       exec (.unloadState q no fields) s = .next (State.done (t.toDialog no 0x33 fields) q jfxCore 0x0033 stOk []))) ∧
    (∀ (s : State) (q : SvcReq) (no : Nat), s.units = true → s.plat.serviceUp = true →
      (let t := s.request jfxBox 0x0034 q [no]
       t.fleet.on = false → exec (.unloadEnd q no) s = .next (t.done q jfxCore 0x0034 stBadParam []))) ∧
    (∀ (s : State) (q : SvcReq) (no : Nat) (d : Dialog), s.units = true → s.plat.serviceUp = true →
      (let t := s.request jfxBox 0x0034 q [no]
       t.fleet.on = true → t.dialog no = some d →
       exec (.unloadEnd q no) s = .next (((t.toDialog no 0x34 []).dialogEnd d unloadEnd).done q jfxCore 0x0034 stOk []))) ∧
    (∀ (s : State) (q : SvcReq) (en : Bool) (hopMax : Nat), s.units = true → s.plat.serviceUp = true → 1 ≤ hopMax → hopMax ≤ 4 → 
      (let t := s.request jfxBox 0x0040 q [b2n en + 2 * hopMax]
       exec (.rtcmRelay q en hopMax) s = .next ((t.modFleet fun f => { f with relay := en, hopMax := hopMax }).done q jfxCore 0x0040 stOk []))) ∧
    (∀ (s : State) (q : SvcReq) (id : Nat), s.units = true → s.plat.serviceUp = true → 
      (let t := s.request jfxBox 0x0050 q [id]
       exec (.serverSet q id) s = .next ((t.modFleet fun f => { f with server := some id }).done q jfxCore 0x0050 stOk []))) ∧
    (∀ (s : State) (q : SvcReq) (no : Nat) (fields : List Nat), s.units = true → s.plat.serviceUp = true →
      (let t := s.request jfxBox 0x0030 q [no]
       t.fleet.on = true → t.dialog no = none → 8 ≤ t.fleet.dialogs.length →
       exec (.unloadReq q no fields) s = .next (t.done q jfxCore 0x0030 stBusy []))) ∧
    (∀ (s : State) (q : SvcReq) (no : Nat) (fields : List Nat), s.units = true → s.plat.serviceUp = true →
      (let t := s.request jfxBox 0x0031 q [no]
       t.fleet.on = true → t.dialog no = none → 8 ≤ t.fleet.dialogs.length →
       exec (.unloadOffer q no fields) s = .next (t.done q jfxCore 0x0031 stBusy []))) ∧
    (∀ (s : State) (q : SvcReq) (no : Nat) (member : Nat) (fields : List Nat), s.units = true → s.plat.serviceUp = true →
      (let t := s.request jfxBox 0x0032 q [no]
       t.fleet.on = true → t.dialog no = none → 8 ≤ t.fleet.dialogs.length →
       exec (.unloadAccept q no member fields) s = .next (t.done q jfxCore 0x0032 stBusy []))) ∧
    (∀ (s : State) (q : SvcReq) (no : Nat) (fields : List Nat), s.units = true → s.plat.serviceUp = true →
      (let t := s.request jfxBox 0x0033 q [no]
       t.fleet.on = true → t.dialog no = none → 8 ≤ t.fleet.dialogs.length →
       exec (.unloadState q no fields) s = .next (t.done q jfxCore 0x0033 stBusy []))) ∧
    (∀ (s : State) (q : SvcReq) (no : Nat), s.units = true → s.plat.serviceUp = true →
      (let t := s.request jfxBox 0x0034 q [no]
       t.fleet.on = true → t.dialog no = none → 8 ≤ t.fleet.dialogs.length →
       exec (.unloadEnd q no) s = .next (t.done q jfxCore 0x0034 stBusy []))) ∧
    (∀ (s : State) (q : SvcReq), s.units = true → s.plat.serviceUp = true → 
      (let t := s.request jfxBox 0x0002 q
       t.fleet.on = true →
       exec (.jfxStop q) s = .next ((t.jfxSend 0x04 allMembers false []).jfxHalt.done q jfxCore 0x0002 stOk []))) ∧
    (∀ (s : State) (q : SvcReq) (id : Nat) (block : Bool), s.units = true → s.plat.serviceUp = true → block = true → 
      (let t := s.request jfxBox 0x0011 q [id, 1]
       (t.fleet.blocked.filter fun x => x != id).length < 32 →
       exec (.peerBlock q id block) s = .next (((t.modFleet fun f => { f with blocked := id :: t.fleet.blocked.filter fun x => x != id }).peerLeave id).done q jfxCore 0x0011 stOk [])))

/-- R306 to R322. It states that exec answers a next state, under conditions on the state and the operands alone, for each of these constructors of Instr: creditWindow, reqPrioWrite, fabricRevoke, dcStart, dcStop, dcClear, dcDoorbell, dcDescriptorFetched, dcDataComplete, dcWritebackDone, dcBeatFail, dcBeatTimeout, dcRatePauseEnd, dcHiPreempt, dcEnableWrite. -/
def Obligations.FabricAndDecanter : Prop :=
  (∀ (s : State), s.units = true → s.windowDue = true → 
      exec .creditWindow s = .next (let t := (List.range 88).foldl (fun (t : State) r => if t.isControl r then t else t.put REQ_CREDIT.CREDIT (t.get REQ_CREDIT.REFILL r) r) s
        { t with dc := { s.dc with window := some s.fabNow } })) ∧
    (∀ (s : State), s.units = true → s.windowDue = false → 
      exec .creditWindow s = .next (s)) ∧
    (∀ (s : State) (r : Fin 88) (prio : Nat) (rq : Req), s.units = true → rq.sup = true → s.isControl r.val = true → 
      exec (.reqPrioWrite r prio rq) s = .next (s.put REQ_CFG.PRIO prio r.val)) ∧
    (∀ (s : State) (p : Fin 5) (owner : Fin 88) (waiting : List (Fin 88)) (beats : Nat), s.units = true → s.on FP_CFG.PREEMPT_EN p.val = false → 
      exec (.fabricRevoke p owner waiting beats) s = .next (s)) ∧
    (∀ (s : State) (p : Fin 5) (owner r : Fin 88) (beats : Nat), s.units = true → s.on FP_CFG.PREEMPT_EN p.val = true → s.isControl r.val = true → s.outranks r.val owner.val = true → r ≠ owner → 
      ∃ t, exec (.fabricRevoke p owner [r] beats) s = .next t ∧ t.dc = s.dc ∧ t.cores = s.cores ∧ (regRising s.regs → t.get FP_STAT.OWNER p.val = r.val ∧ t.on FP_STAT.PARKED p.val = false ∧ t.on FP_STAT.BUSY p.val = true)) ∧
    (∀ (s : State) (n : Fin 32) (rq : Req), s.units = true → rq.sup = true → 
      exec (.dcStart n rq) s = .next (s.dcStart n)) ∧
    (∀ (s : State) (n : Fin 32) (rq : Req), s.units = true → rq.sup = true → 
      exec (.dcStop n rq) s = .next (s.dcStop n)) ∧
    (∀ (s : State) (n : Fin 32) (rq : Req), s.units = true → rq.sup = true → 
      exec (.dcClear n rq) s = .next (s.dcClear n)) ∧
    (∀ (s : State) (n : Fin 32) (rq : Req), s.units = true → 
      exec (.dcDoorbell n rq) s = .next (s.dcRing n (s.served rq.id))) ∧
    (∀ (s : State) (n : Fin 32) (w : Nat) (rq : Req), s.units = true → rq.sup = true → 
      exec (.dcEnableWrite n w rq) s = .next (s.dcCfg n w)) ∧
    (∀ (s : State) (n : Fin 32) (ok : Bool), s.units = true → s.live = true → s.dcState n = dcFetch → ok = false → 
      exec (.dcDescriptorFetched n ok) s = .next (s.dcHalt n dcFetchFail)) ∧
    (∀ (s : State) (n : Fin 32), s.units = true → s.live = true → s.dcState n = dcFetch → fabReaches (s.dcCur n) false false = true →
      (let d := s.dcRead n (s.dcCur n)
       let t := ((s.put DC_STAT.HOPS (s.get DC_STAT.HOPS n.val + 1) n.val).put DC_REMAIN.LEN d.len n.val).modDc n fun c => { c.rest with desc := some d }
       d.stop = true → d.op ≤ 2 → d.misaligned = false → d.len ≠ 0 → (s.dcCh n).until_ ≤ s.fabNow →
       exec (.dcDescriptorFetched n true) s = .next (t.put DC_STAT.STATE dcMove n.val).moversTake)) ∧
    (∀ (s : State) (n : Fin 32) (d : DcDesc), s.units = true → (s.dcCh n).desc = some d → s.dcMoving n = true → exec (.dcDataComplete n) s = .next (s.dcData n d)) ∧
    (∀ (s : State) (n : Fin 32) (d : DcDesc), s.units = true → s.live = true → s.dcState n = dcWriteback → (s.dcCh n).desc = some d →
      (s.dcCh n).tries < s.get DC_CFG.RETRY_MAX n.val →
      exec (.dcWritebackDone n false) s = .next ((s.modDc n fun x => { x with tries := x.tries + 1 }).count DC_CNT1.RETRIES 1 n.val)) ∧
    (∀ (s : State) (n : Fin 32) (ofs : Nat) (wr : Bool), s.units = true → 
      exec (.dcBeatFail n ofs wr) s = .next (s.dcBeatFail n dcBadBus ofs wr)) ∧
    (∀ (s : State) (n : Fin 32) (ofs : Nat) (wr : Bool), s.units = true → 
      exec (.dcBeatTimeout n ofs wr) s = .next (s.dcBeatFail n dcBadTimeout ofs wr)) ∧
    (∀ (s : State) (n : Fin 32), s.units = true → s.live = true → s.dcState n = dcRateWait → (s.dcCh n).until_ ≤ s.fabNow → 
      exec (.dcRatePauseEnd n) s = .next ((s.put DC_STAT.STATE dcMove n.val).moversTake)) ∧
    (∀ (s : State) (n : Fin 32), s.units = true → s.dcReady n = false → 
      exec (.dcHiPreempt n) s = .next (s)) ∧
    (∀ (s : State) (n a b : Fin 32), s.units = true → s.dc.movers[0] = some a → s.dc.movers[1] = some b → s.live = true → s.dcReady n = true → a < b →
      s.on DC_CFG.HI n.val = true → s.on DC_CFG.HI a.val = false → s.on DC_CFG.HI b.val = false →
      exec (.dcHiPreempt n) s = .next ((({ s with dc := { s.dc with movers := s.dc.movers.set 1 (some n), lastHi := n.val } } : State).put DC_STAT.BUF 1 b.val).count
        DC_CNT1.PREEMPTS 1 b.val)) ∧
    (∀ (s : State) (n : Fin 32) (d : DcDesc), s.units = true → s.live = true → s.dcState n = dcWriteback → (s.dcCh n).desc = some d →
      (s.dcCh n).status = dcOk → d.ev = false → (s.dcCh n).stopping = true →
      exec (.dcWritebackDone n true) s = .next ((((s.fabWrite (s.dcCur n + 28) [dcOk + 2 ^ 8 * (s.dcCh n).result]).count DC_CNT0.DESC_OK 1 n.val).put DC_REMAIN.LEN 0 n.val).dcHalt
        n dcStopped)) ∧
    (∀ (s : State) (n : Fin 32) (d : DcDesc), s.units = true → s.live = true → s.dcState n = dcWriteback → (s.dcCh n).desc = some d →
      (s.dcCh n).status = dcOk → d.ev = false → (s.dcCh n).stopping = false → d.stop = false →
      exec (.dcWritebackDone n true) s = .next (((((s.fabWrite (s.dcCur n + 28) [dcOk + 2 ^ 8 * (s.dcCh n).result]).count DC_CNT0.DESC_OK 1 n.val).put DC_REMAIN.LEN 0 n.val).modDc
        n Dc.rest).dcFollow n d.next))

/-- R326 to R340. It states that exec answers a next state, under conditions on the state and the operands alone, for each of these constructors of Instr: errorReport, errDone, errRaise, errArmWrite, handleTmo, dumpComplete, dumpTimeout, cbFlushTick, dumpList, dumpRead, dumpErase, cbFetch. -/
def Obligations.ErrorControllerCommands : Prop :=
  (∀ (s : State) (src detail nd : Nat) (items : List Nat), errKnown src = true → 
      exec (.errorReport src detail nd items) s = .next ((s.errSource src detail).errReport src detail nd (errItems src items))) ∧
    (∀ (s : State) (src detail nd : Nat) (items : List Nat), errKnown src = false → 
      exec (.errorReport src detail nd items) s = .next (s)) ∧
    (∀ (s : State) (seq : Nat) (rq : Req), rq.sup = true → 
      exec (.errDone seq rq) s = .next (s.errDone (seq % 2 ^ 32))) ∧
    (∀ (s : State) (sev detail : Nat) (rq : Req), rq.sup = true → 
      exec (.errRaise sev detail rq) s = .next (s.errRaise sev detail)) ∧
    (∀ (s : State) (word : Nat) (rq : Req), rq.sup = true → 
      exec (.errArmWrite word rq) s = .next (s.errArm word)) ∧
    (∀ (s : State) (level : Fin 4) (e : Err), s.errs.stack.reverse[level.val]? = some e → s.on ERR_CFG.ARM = true → s.errLimit e ≤ e.age s.mtc →
      exec (.handleTmo level) s = .next (s.errFatal causeTmo e.src platNode [e.seq])) ∧
    (∀ (s : State) (level : Fin 4), s.errs.stack.reverse[level.val]? = none → 
      exec (.handleTmo level) s = .next (s)) ∧
    (∀ (s : State) (f : Fatal), s.errs.fatal = some f → s.svcRuns = true → s.mtc ≤ f.mtc + dumpTicks → exec .dumpComplete s = .next (s.dumpEnd f true 5)) ∧
    (∀ (s : State) (f : Fatal) (n : Nat), s.errs.fatal = some f → f.mtc + dumpTicks ≤ s.mtc → exec (.dumpTimeout n) s = .next (s.dumpEnd f false (if s.svcRuns then min 4 n else 0))) ∧
    (∀ (s : State), s.recording = true → 
      exec .cbFlushTick s = .next (s.bookFlush)) ∧
    (∀ (s : State) (q : SvcReq) (addr : Nat), s.serves q false = true → q.src ≠ portId → 
      exec (.dumpList q addr) s = .next (((s.request 61 0x0010 q (two addr)).portFrame q).answer q 0x0010 addr [] (wordsBytes (((s.request 61 0x0010 q (two addr)).portFrame q).errs.dumps.toList.flatMap dumpRow)))) ∧
    (∀ (s : State) (q : SvcReq) (slot ofs len addr : Nat), s.serves q false = true → q.src ≠ portId → 4 ≤ slot → 
      exec (.dumpRead q slot ofs len addr) s = .next (((s.request 61 0x0011 q ([slot, ofs, len] ++ two addr)).portFrame q).done q platCore 0x0011 stBadParam [])) ∧
    (∀ (s : State) (q : SvcReq) (slot : Nat), s.serves q false = true → q.src ≠ portId → 4 ≤ slot → 
      exec (.dumpErase q slot) s = .next (((s.request 61 0x0012 q [slot]).portFrame q).done q platCore 0x0012 stBadParam [])) ∧
    (∀ (s : State) (q : SvcReq) (first count addr limit : Nat), s.plat.serviceUp = true → 
      exec (.cbFetch q first count addr limit) s = .next (let t := s.request 61 0x0020 q ([first, count] ++ two addr ++ [limit])
        (t.fabWrite addr ((fetchRecs t.book.backing (first % 2 ^ 32) count limit).1.flatMap Rec.words)).done q platCore 0x0020 stOk
          [(fetchRecs t.book.backing (first % 2 ^ 32) count limit).1.length, (fetchRecs t.book.backing (first % 2 ^ 32) count limit).2])) ∧
    (∀ (s : State) (q : SvcReq) (slot : Fin 4) (ofs len addr : Nat) (d : Dump), s.serves q false = true → q.src ≠ portId →
      (let t := (s.request 61 0x0011 q ([slot.val, ofs, len] ++ two addr)).portFrame q
       let n := if dumpSize ≤ ofs then 0 else min len (dumpSize - ofs)
       t.errs.dumps[slot.val] = some d → exec (.dumpRead q slot.val ofs len addr) s = .next (t.answer q 0x0011 addr [n] (d.bytes ofs n)))) ∧
    (∀ (s : State) (q : SvcReq) (slot : Fin 4), s.serves q false = true → q.src ≠ portId →
      (let t := (s.request 61 0x0012 q [slot.val]).portFrame q
       exec (.dumpErase q slot.val) s = .next (({ t with errs := { t.errs with
         dumps := upd t.errs.dumps slot fun _ => none
         dumpNew := if t.errs.dumpNew = some slot then none else t.errs.dumpNew } } : State).done q platCore 0x0012 stOk [])))

/-- R341 to R355. It states that exec answers a next state, under conditions on the state and the operands alone, for each of these constructors of Instr: tagWrite, tagDelete, tagCommit, updBegin, updBlock, updEnd, updVerifyDone, activate, inPlaceSwitch, bootCopyDone, confirm, rollback, abort, keySet, keyLock. -/
def Obligations.UpdateAndTagCommands : Prop :=
  (∀ (s : State) (q : SvcReq) (type len addr : Nat) (data : List Nat), s.serves q false = true → q.src ≠ portId → tagSender q = false → 
      (let t := (s.request 61 0x0030 q ([type, len] ++ two addr)).portFrame q
       exec (.tagWrite q type len addr data) s = .next (t.done q platCore 0x0030 stNotPermitted []))) ∧
    (∀ (s : State) (q : SvcReq) (type index : Nat), s.serves q false = true → q.src ≠ portId → tagSender q = true → 
      (let t := (s.request 61 0x0031 q [type, index]).portFrame q
       (t.tagBase.any fun x => x.is type index) = false →
       exec (.tagDelete q type index) s = .next (t.done q platCore 0x0031 stBadParam []))) ∧
    (∀ (s : State) (q : SvcReq) (type index : Nat), s.serves q false = true → q.src ≠ portId → tagSender q = true → 
      (let t := (s.request 61 0x0031 q [type, index]).portFrame q
       (t.tagBase.any fun x => x.is type index) = true →
       exec (.tagDelete q type index) s = .next (t.tagWait q 0x0031 (t.tagBase.filter fun x => !x.is type index) type (if type = tagIsoName then index else 0)))) ∧
    (∀ (s : State), s.units = true → s.tags.waits = [] → 
      exec .tagCommit s = .next (s)) ∧
    (∀ (s : State) (w : TagWait) (rest : List TagWait), s.units = true → s.tags.waits = w :: rest →
      exec .tagCommit s = .next ((({ s with tags := { recs := w.recs, gen := (s.tags.gen + 1) % 2 ^ 32, bad := false, waits := rest } } : State).record .tagWrite platNode
        [w.type % 2 ^ 16 + 2 ^ 16 * b2n (w.op == 0x0031) + 2 ^ 24 * w.index, (s.tags.gen + 1) % 2 ^ 32]).done w.req.req platCore w.op stOk [(s.tags.gen + 1) % 2 ^ 32])) ∧
    (∀ (s : State) (q : SvcReq) (size : UpdSize), s.serves q true = true → q.src ≠ portId → 
      (let t := (s.request 60 0x0001 q [size.setId, size.blocks]).portFrame q
       t.ownsUpdate q = true → t.updState ≠ updActivating → t.updState ≠ updTrial →
       exec (.updBegin q size) s = .next ((((t.eraseStaging.put SET_STAGED.W (size.setId % 2 ^ 32)).put UPD_STAT.STATE updReceiving).modMgr fun m => { m with owner := some q.src }).done q platCore 0x0001 stOk []))) ∧
    (∀ (s : State) (q : SvcReq) (index addr len crc : Nat) (data : List Nat), s.serves q true = true → q.src ≠ portId → 
      (let t := (s.request 60 0x0002 q ([index] ++ two addr ++ [len, crc])).portFrame q
       t.ownsUpdate q = true → t.updState ≠ updReceiving → t.updState ≠ updVerified →
       exec (.updBlock q index addr len crc data) s = .next (t.done q platCore 0x0002 stBadParam []))) ∧
    (∀ (s : State) (q : SvcReq) (index addr len crc : Nat) (data bs : List Nat), s.serves q true = true → q.src ≠ portId →
      (let t := (s.request 60 0x0002 q ([index] ++ two addr ++ [len, crc])).portFrame q
       t.ownsUpdate q = true → t.updState = updReceiving → t.payload q addr len data = some bs → bs ≠ [] → bs.length ≤ 65536 → 0 < index → index < 131072 →
       crc32c bs = crc % 2 ^ 32 →
       exec (.updBlock q index addr len crc data) s = .next (((t.modMgr fun m => { m with owner := some q.src }).storeBlock index bs).done q platCore 0x0002 stOk []))) ∧
    (∀ (s : State) (q : SvcReq), s.serves q true = true → q.src ≠ portId → 
      (let t := (s.request 60 0x0003 q []).portFrame q
       t.ownsUpdate q = true → t.updState = updReceiving →
       exec (.updEnd q) s = .next (((t.put UPD_STAT.STATE updVerifying).modMgr fun m => { m with wait := some (keepReq q) }).reply q platCore 0x0003 stAccepted false []))) ∧
    (∀ (s : State) (a b : Bool), s.units = true → s.updState = updVerifying → s.manager.wait = none → exec (.updVerifyDone a b) s = .next (s.verified a b)) ∧
    (∀ (s : State) (q : SvcReq) (force : Bool) (x : SoftSet), s.serves q true = true → q.src ≠ portId →
      (let t := (s.request 60 0x0004 q [b2n force]).portFrame q
       t.ownsUpdate q = true → t.updState = updVerified → t.manager.staged = some x → exec (.activate q force) s = .next (t.activateSet q force x))) ∧
    (∀ (s : State) (a : Activation) (x : SoftSet), s.units = true → s.manager.act = some a → s.manager.staged = some x → a.full = false → a.switched = false → a.at_ ≤ s.mtc + frameTicks → s.mtc < a.at_ →
      exec .inPlaceSwitch s = .next ((s.switchAll x).1.modMgr fun m => { m with act := some ⟨!(s.switchAll x).2, a.at_, true⟩ })) ∧
    (∀ (s : State) (x : SoftSet), s.units = true → s.manager.copy = some x → exec .bootCopyDone s = .next (s.bootCopied x)) ∧
    (∀ (s : State) (q : SvcReq), s.serves q true = true → q.src ≠ portId → 
      (let t := (s.request 60 0x0005 q []).portFrame q
       t.ownsUpdate q = true → t.updState = updTrial →
       exec (.confirm q) s = .next (((t.put UPD_STAT.STATE updIdle).modMgr fun m => { m with trial := false, owner := none }).done q platCore 0x0005 stOk []))) ∧
    (∀ (s : State) (q : SvcReq), s.serves q true = true → q.src ≠ portId → 
      (let t := (s.request 60 0x0006 q []).portFrame q
       t.ownsUpdate q = true → t.updState = updTrial →
       exec (.rollback q) s = .next ((t.done q platCore 0x0006 stOk []).warmNow .rollback))) ∧
    (∀ (s : State) (q : SvcReq), s.serves q true = true → q.src ≠ portId → 
      (let t := (s.request 60 0x0007 q []).portFrame q
       t.ownsUpdate q = true → t.updState ≠ updActivating → t.updState ≠ updTrial →
       exec (.abort q) s = .next (((t.eraseStaging.put UPD_STAT.STATE updIdle).modMgr fun m => { m with owner := none }).done q platCore 0x0007 stOk []))) ∧
    (∀ (s : State) (q : SvcReq) (addr : Nat) (data : List Nat), s.serves q true = true → q.src ≠ portId → 
      (let t := (s.request 60 0x0010 q (two addr)).portFrame q
       t.manager.locked = true →
       exec (.keySet q addr data) s = .next (t.done q platCore 0x0010 stNotPermitted []))) ∧
    (∀ (s : State) (q : SvcReq) (addr : Nat) (data bs : List Nat), s.serves q true = true → q.src ≠ portId →
      (let t := (s.request 60 0x0010 q (two addr)).portFrame q
       t.manager.locked = false → t.payload q addr 64 data = some bs → bs.length = 64 →
       exec (.keySet q addr data) s = .next ((t.modMgr fun m => { m with key := some bs }).done q platCore 0x0010 stOk []))) ∧
    (∀ (s : State) (q : SvcReq), s.serves q true = true → q.src ≠ portId → 
      (let t := (s.request 60 0x0011 q []).portFrame q
       exec (.keyLock q) s = .next ((t.modMgr fun m => { m with locked := true }).done q platCore 0x0011 stOk []))) ∧
    (∀ (s : State) (q : SvcReq) (type len addr : Nat) (data v : List Nat), s.serves q false = true → q.src ≠ portId → tagSender q = true → type ≠ tagIsoName →
      (let t := (s.request 61 0x0030 q ([type, len] ++ two addr)).portFrame q
       t.payload q addr len data = some v → tagFits type v.length = true → tagUsed (tagPut t.tagBase ⟨type, 0, v⟩) ≤ 8192 →
       exec (.tagWrite q type len addr data) s = .next (t.tagWait q 0x0030 (tagPut t.tagBase ⟨type, 0, v⟩) type 0)))

/-- R357 to R360; the session number is a free value. It states that exec answers a next state, under conditions on the state and the operands alone, for each of these constructors of Instr: svcOpen, auth, status, factoryRead, regRead, regWrite, cbRead, serviceSessionTimeout, writeEnWrite, servicePortAttach, servicePortDetach. -/
def Obligations.ServicePort : Prop :=
  (∀ (s : State) (q : SvcReq) (eth : Bool), q.src = portId → s.svcPortUp true = true → s.manager.session.isSome = true → 
      exec (.svcOpen q eth) s = .next (s.done q platCore 0x0001 stBusy [])) ∧
    (∀ (s : State) (q : SvcReq) (eth : Bool), q.src = portId → s.svcPortUp true = true → s.manager.session = none → 
      exec (.svcOpen q eth) s = .next ((s.modMgr fun m => { m with session := some ⟨false, eth, none, s.mtc⟩ }).fresh.done q platCore 0x0001 stOk [Config.unstated 26 [s.free], 0])) ∧
    (∀ (s : State) (q : SvcReq) (sig : Option Bool), q.src = portId → s.svcPortUp true = true → (s.portFrame q).portMay q false = true → 
      exec (.auth q sig) s = .next ((s.portFrame q).auth q sig)) ∧
    (∀ (s : State) (q : SvcReq), q.src = portId → s.svcPortUp true = true → (s.portFrame q).portMay q false = true → 
      exec (.status q) s = .next ((s.portFrame q).done q platCore 0x0003 stOk ([0x20C00000, 0x20C00008, 0x20C0000C, 0x20000014, 0x20000010].map (s.portFrame q).peek))) ∧
    (∀ (s : State) (q : SvcReq), q.src = portId → s.svcPortUp true = true → (s.portFrame q).portMay q false = true → 
      exec (.factoryRead q) s = .next ((s.portFrame q).done q platCore 0x0004 stOk ((List.range 64).map factoryWord))) ∧
    (∀ (s : State) (q : SvcReq) (addr count : Nat), q.src = portId → s.svcPortUp false = true → (s.portFrame q).portMay q false = true → 1 ≤ count → count ≤ 1024 → portFault addr count = none → 
      exec (.regRead q addr count) s = .next (((s.portFrame q).portRead addr count).2.done q platCore 0x0010 stOk ((s.portFrame q).portRead addr count).1)) ∧
    (∀ (s : State) (q : SvcReq) (addr : Nat) (words : List Nat), q.src = portId → s.svcPortUp false = true → (s.portFrame q).portMay q true = false → 
      exec (.regWrite q addr words) s = .next ((s.portFrame q).done q platCore 0x0011 stNotPermitted [])) ∧
    (∀ (s : State) (q : SvcReq) (addr : Nat) (words : List Nat), q.src = portId → s.svcPortUp false = true → (s.portFrame q).portMay q true = true → words ≠ [] → portFault addr words.length = none → 
      exec (.regWrite q addr words) s = .next (((s.portFrame q).portWrite addr words).done q platCore 0x0011 stOk [])) ∧
    (∀ (s : State) (q : SvcReq) (first count : Nat), q.src = portId → s.svcPortUp false = true → (s.portFrame q).portMay q false = true → 
      exec (.cbRead q first count) s = .next (let t := s.portFrame q
        let r := fetchRecs t.book.backing (first % 2 ^ 32) count 4088
        t.done q platCore 0x0020 stOk ([r.1.length, r.2] ++ r.1.flatMap Rec.words))) ∧
    (∀ (s : State), s.manager.session.any (fun x => decide (x.last + sessionTicks ≤ s.mtc)) = true → 
      exec .serviceSessionTimeout s = .next (s.modMgr fun m => { m with session := none })) ∧
    (∀ (s : State) (en : Bool) (rq : Req), s.units = true → rq.sup = true → 
      exec (.writeEnWrite en rq) s = .next (s.writeEn en)) ∧
    (∀ (s : State) (device : Bool), s.plat.power ≠ .off → 
      exec (.servicePortAttach device) s = .next (s.modPlat fun p => { p with usb := some device })) ∧
    (∀ (s : State), 
      exec .servicePortDetach s = .next (s.modPlat fun p => { p with usb := none, usbStood := false }))

/-- R2, R4, R5 and chapter 19's supplies. It states that exec answers a next state, under conditions on the state and the operands alone, for each of these constructors of Instr: studReverse, studLow, studOver, sensorSupplyFoldback, sensorSupplyRetry, thermalMeasurement, registerWrite, logicFeedLow. -/
def Obligations.SuppliesAndRegisterWrite : Prop :=
  (∀ (s : State) (k : Fin 4) (rev : Bool), s.plat.power ≠ .off → rev = true → 
      exec (.studReverse k rev) s = .next ((s.putB SUP_STUD.REV true k.val).supFlag (SUP_FLAGS.STUD_REV + k.val))) ∧
    (∀ (s : State) (k : Fin 4) (v : Nat), s.plat.power ≠ .off → 60 ≤ v → 
      exec (.studLow k v) s = .next (s.put SUP_STUD.V (min v 1023) k.val)) ∧
    (∀ (s : State) (k : Fin 4) (v : Nat), s.plat.power ≠ .off → v < 60 → 
      exec (.studLow k v) s = .next ((s.put SUP_STUD.V v k.val).supFlag (SUP_FLAGS.STUD_LOW + k.val))) ∧
    (∀ (s : State) (k : Fin 4) (i : Nat), s.plat.power ≠ .off → i ≤ 4 * clampN 1 60 (s.get SUP_CFG.STUD_LIM) → 
      ∃ t, exec (.studOver k i) s = .next t ∧ t = s.put SUP_STUD.I (min i 1023) k.val) ∧
    (∀ (s : State) (k : Fin 4), s.sensorSupplyOn k.val = true → 
      exec (.sensorSupplyFoldback k) s = .next (s.foldback k.val)) ∧
    (∀ (s : State) (k : Fin 4) (ok : Bool), s.sensorSupplyOn k.val = true → bit (s.get SUP_STAT.SS_ACT) k.val = true → ok = true → 
      exec (.sensorSupplyRetry k ok) s = .next (s.put SUP_STAT.SS_ACT (s.get SUP_STAT.SS_ACT - 2 ^ k.val))) ∧
    (∀ (s : State) (plate die : Nat), s.plat.power ≠ .off → 
      exec (.thermalMeasurement plate die) s = .next (s.thermal (min plate 255) (min die 255))) ∧
    (∀ (s : State) (v : Nat), s.plat.power ≠ .off → 90 ≤ v → 
      exec (.logicFeedLow v) s = .next ((s.put SUP_LOGIC.V (min v 1023)).putB PWR_STATE.FEED_LOW false)) ∧
    (∀ (s : State) (v : Nat), s.plat.power ≠ .off → v < 90 → s.on PWR_STATE.FEED_LOW = false → 
      exec (.logicFeedLow v) s = .next (((s.put SUP_LOGIC.V v).putB PWR_STATE.FEED_LOW true).errReport errFeedLow 0 platNode [])) ∧
    (∀ (s : State) (addr value : Nat) (rq : Req) (t : State), s.units = true → addr % 4 = 0 → s.busWrite addr value rq = some t → exec (.registerWrite addr value rq) s = .next t) ∧
    (∀ (s : State) (addr value : Nat) (rq : Req), s.units = true → addr % 4 ≠ 0 → 
      exec (.registerWrite addr value rq) s = .next (s)) ∧
    (∀ (s : State) (v : Nat) (rq : Req), s.units = true → rq.sup = false → s.busWrite 0x20000304 v rq = none → exec (.registerWrite 0x20000304 v rq) s = .next s) ∧
    (∀ (s : State) (k : Fin 4) (i : Nat), s.plat.power ≠ .off → 4 * clampN 1 60 (s.get SUP_CFG.STUD_LIM) < i → 
      exec (.studOver k i) s = .next ((s.put SUP_STUD.I (min i 1023) k.val).supFlag (SUP_FLAGS.STUD_OVER + k.val)))

/-- Over all 457 commands and every state; the queue is the block's (log entry 3). -/
def Obligations.EveryCommandCompletesInOrder : Prop :=
  ∀ s : State, ∃ t, step s = .next t ∧ t.pending = s.pending.tail

/-- The invariant behind every read of a register or a byte after a write; equal contents are equal data. -/
def Obligations.MemoriesStayCanonical : Prop :=
  ∀ s t : State, s.memWf → regRising s.regs → step s = .next t → t.memWf ∧ regRising t.regs

/-- Tables 3.2 to 3.17: no bit of an encoding is dropped and no reserved encoding decodes. -/
def Obligations.EncodingRoundTrip : Prop :=
  (∀ (i : Instr) (c : Fin 16) (e : Env) (w : Word), encode i = some (c, e, w) → decodeWord c e w = some i) ∧
    (∀ (i : Instr) (c : Fin 16) (e : Env) (w : Word), decodeWord c e w = some i → ∃ e', encode i = some (c, e', w))

/-- R330. -/
def Obligations.ErrDonePops : Prop :=
  (∀ (s : State) (seq : Nat) (rq : Req), rq.sup = true → seq % 2 ^ 32 ≠ s.get ERR_TOP_C.SEQ ∨ s.errs.stack = [] →
      exec (.errDone seq rq) s = .next (s.count ERR_CNT2.DONE_IGN)) ∧
    (∀ (s : State) (rq : Req) (top : Err) (r : List Err), rq.sup = true → s.errs.stack = top :: r → top.seq = s.get ERR_TOP_C.SEQ → top.seq < 2 ^ 32 →
      (let t := { s with errs := { s.errs with stack := r } }.record .errDone platNode [top.seq]
       t.errs.stack = r ∧ t.errs.queue = s.errs.queue ∧
       (∀ (h : Err) (q : List Err), s.errs.queue = h :: q → (∀ e ∈ r.head?, e.sev < h.sev) →
         exec (.errDone top.seq rq) s = .next ({ t with errs := { t.errs with queue := q } }.errPush h)) ∧
       (∀ (h : Err) (q : List Err), s.errs.queue = h :: q → (∃ e ∈ r.head?, h.sev ≤ e.sev) →
         exec (.errDone top.seq rq) s = .next t.errDeliver) ∧
       (s.errs.queue = [] → r ≠ [] → exec (.errDone top.seq rq) s = .next t.errDeliver) ∧
       (s.errs.queue = [] → r = [] → exec (.errDone top.seq rq) s = .next t.errShow)))

/-- The laws of the register map and of every byte memory. -/
def Obligations.RegistersAndMemoriesReadBack : Prop :=
  (∀ (s : State) (f : Fld) (v i j k : Nat), regRising s.regs →
      (s.put f v i j k).get f i j k = v % 2 ^ f.w ∧
      (∀ (g : Fld) (i' j' k' : Nat), g.key i' j' k' ≠ f.key i j k → (s.put f v i j k).get g i' j' k' = s.get g i' j' k')) ∧
    (∀ (m : Mem) (a w v : Nat), m.wf = true → v < 256 ^ w → (m.writeN a w v).readN a w = v) ∧
    (∀ (m : Mem) (a w v x : Nat), m.wf = true → (x < a ∨ a + w ≤ x) → (m.writeN a w v).byte x = m.byte x) ∧
    (∀ (m : Mem) (a w v : Nat), m.wf = true → (m.writeN a w v).wf = true) ∧
    (∀ (s : State) (f : Fld) (v i j k : Nat), regRising s.regs → regRising (s.put f v i j k).regs)

/-- Table 2.1: what runs in each state. -/
def Obligations.UnitsAreStillWithoutPower : Prop :=
  ∀ s : State, s.units = false → ∀ (c : Fin 32) (n : Fin 48) (x y : Nat) (rq : Req) (q : SvcReq) (k : Fin 16),
      exec (.vdStart c x) s = .next s ∧ exec (.vdTrim c x) s = .next s ∧ exec (.vdOff c x) s = .next s ∧ exec (.lcOn n) s = .next s ∧
      exec (.lcPwm n x y) s = .next s ∧ exec (.lcOff n x) s = .next s ∧ exec (.loadUvReturn n x) s = .next s ∧ exec (.valveBoostEnd c) s = .next s ∧
      exec (.boostWaitExpiry c) s = .next s ∧ exec (.mfOutputSwitch true) s = .next s ∧ exec (.sectionCommandWrite (Fin.ofNat 64 x)) s = .next s ∧
      exec (.slotStart (Fin.ofNat 100 x)) s = .next s ∧ exec (.majorFrameBoundary []) s = .next s ∧ exec (.registerWrite x y rq) s = .next s ∧
      exec (.dcStart c rq) s = .next s ∧ exec .gridPlace s = .next s ∧ exec .timeStep s = .next s ∧ exec (.claim q x y 0) s = .next s ∧
      exec (.add k 1 2 3) s = .next s ∧ exec (.yield k) s = .next s
end

