-- ==== Sys2Proof/Laws/State.lean ====
section
/-! SUPPORT.  What each update of the state leaves in each field: one lemma per field per update, each true by rfl, so that no proof
unfolds a record update. -/

namespace Sys2Proof.Machine

open Sys2Proof.Reg

/-! ### State.put -/

@[simp] theorem State.put_mtc (s : State) (f : Fld) (v i j k : Nat) : (s.put f v i j k).mtc = s.mtc := rfl
@[simp] theorem State.put_free (s : State) (f : Fld) (v i j k : Nat) : (s.put f v i j k).free = s.free := rfl
@[simp] theorem State.put_ticket (s : State) (f : Fld) (v i j k : Nat) : (s.put f v i j k).ticket = s.ticket := rfl
@[simp] theorem State.put_plat (s : State) (f : Fld) (v i j k : Nat) : (s.put f v i j k).plat = s.plat := rfl
@[simp] theorem State.put_errs (s : State) (f : Fld) (v i j k : Nat) : (s.put f v i j k).errs = s.errs := rfl
@[simp] theorem State.put_book (s : State) (f : Fld) (v i j k : Nat) : (s.put f v i j k).book = s.book := rfl
@[simp] theorem State.put_cores (s : State) (f : Fld) (v i j k : Nat) : (s.put f v i j k).cores = s.cores := rfl
@[simp] theorem State.put_loops (s : State) (f : Fld) (v i j k : Nat) : (s.put f v i j k).loops = s.loops := rfl
@[simp] theorem State.put_locks (s : State) (f : Fld) (v i j k : Nat) : (s.put f v i j k).locks = s.locks := rfl
@[simp] theorem State.put_mbox (s : State) (f : Fld) (v i j k : Nat) : (s.put f v i j k).mbox = s.mbox := rfl
@[simp] theorem State.put_valves (s : State) (f : Fld) (v i j k : Nat) : (s.put f v i j k).valves = s.valves := rfl
@[simp] theorem State.put_banks (s : State) (f : Fld) (v i j k : Nat) : (s.put f v i j k).banks = s.banks := rfl
@[simp] theorem State.put_loads (s : State) (f : Fld) (v i j k : Nat) : (s.put f v i j k).loads = s.loads := rfl
@[simp] theorem State.put_ain (s : State) (f : Fld) (v i j k : Nat) : (s.put f v i j k).ain = s.ain := rfl
@[simp] theorem State.put_ls (s : State) (f : Fld) (v i j k : Nat) : (s.put f v i j k).ls = s.ls := rfl
@[simp] theorem State.put_newBins (s : State) (f : Fld) (v i j k : Nat) : (s.put f v i j k).newBins = s.newBins := rfl
@[simp] theorem State.put_imu (s : State) (f : Fld) (v i j k : Nat) : (s.put f v i j k).imu = s.imu := rfl
@[simp] theorem State.put_cams (s : State) (f : Fld) (v i j k : Nat) : (s.put f v i j k).cams = s.cams := rfl
@[simp] theorem State.put_cuvee (s : State) (f : Fld) (v i j k : Nat) : (s.put f v i j k).cuvee = s.cuvee := rfl
@[simp] theorem State.put_racking (s : State) (f : Fld) (v i j k : Nat) : (s.put f v i j k).racking = s.racking := rfl
@[simp] theorem State.put_gc (s : State) (f : Fld) (v i j k : Nat) : (s.put f v i j k).gc = s.gc := rfl
@[simp] theorem State.put_pos (s : State) (f : Fld) (v i j k : Nat) : (s.put f v i j k).pos = s.pos := rfl
@[simp] theorem State.put_time (s : State) (f : Fld) (v i j k : Nat) : (s.put f v i j k).time = s.time := rfl
@[simp] theorem State.put_codes (s : State) (f : Fld) (v i j k : Nat) : (s.put f v i j k).codes = s.codes := rfl
@[simp] theorem State.put_trellis (s : State) (f : Fld) (v i j k : Nat) : (s.put f v i j k).trellis = s.trellis := rfl
@[simp] theorem State.put_can (s : State) (f : Fld) (v i j k : Nat) : (s.put f v i j k).can = s.can := rfl
@[simp] theorem State.put_nets (s : State) (f : Fld) (v i j k : Nat) : (s.put f v i j k).nets = s.nets := rfl
@[simp] theorem State.put_tags (s : State) (f : Fld) (v i j k : Nat) : (s.put f v i j k).tags = s.tags := rfl
@[simp] theorem State.put_switch (s : State) (f : Fld) (v i j k : Nat) : (s.put f v i j k).switch = s.switch := rfl
@[simp] theorem State.put_fleet (s : State) (f : Fld) (v i j k : Nat) : (s.put f v i j k).fleet = s.fleet := rfl
@[simp] theorem State.put_dc (s : State) (f : Fld) (v i j k : Nat) : (s.put f v i j k).dc = s.dc := rfl
@[simp] theorem State.put_manager (s : State) (f : Fld) (v i j k : Nat) : (s.put f v i j k).manager = s.manager := rfl
@[simp] theorem State.put_sram (s : State) (f : Fld) (v i j k : Nat) : (s.put f v i j k).sram = s.sram := rfl
@[simp] theorem State.put_dram (s : State) (f : Fld) (v i j k : Nat) : (s.put f v i j k).dram = s.dram := rfl
@[simp] theorem State.put_pending (s : State) (f : Fld) (v i j k : Nat) : (s.put f v i j k).pending = s.pending := rfl

/-! ### State.putZ -/

@[simp] theorem State.putZ_mtc (s : State) (f : Fld) (v : Int) (i j k : Nat) : (s.putZ f v i j k).mtc = s.mtc := rfl
@[simp] theorem State.putZ_free (s : State) (f : Fld) (v : Int) (i j k : Nat) : (s.putZ f v i j k).free = s.free := rfl
@[simp] theorem State.putZ_ticket (s : State) (f : Fld) (v : Int) (i j k : Nat) : (s.putZ f v i j k).ticket = s.ticket := rfl
@[simp] theorem State.putZ_plat (s : State) (f : Fld) (v : Int) (i j k : Nat) : (s.putZ f v i j k).plat = s.plat := rfl
@[simp] theorem State.putZ_errs (s : State) (f : Fld) (v : Int) (i j k : Nat) : (s.putZ f v i j k).errs = s.errs := rfl
@[simp] theorem State.putZ_book (s : State) (f : Fld) (v : Int) (i j k : Nat) : (s.putZ f v i j k).book = s.book := rfl
@[simp] theorem State.putZ_cores (s : State) (f : Fld) (v : Int) (i j k : Nat) : (s.putZ f v i j k).cores = s.cores := rfl
@[simp] theorem State.putZ_loops (s : State) (f : Fld) (v : Int) (i j k : Nat) : (s.putZ f v i j k).loops = s.loops := rfl
@[simp] theorem State.putZ_locks (s : State) (f : Fld) (v : Int) (i j k : Nat) : (s.putZ f v i j k).locks = s.locks := rfl
@[simp] theorem State.putZ_mbox (s : State) (f : Fld) (v : Int) (i j k : Nat) : (s.putZ f v i j k).mbox = s.mbox := rfl
@[simp] theorem State.putZ_valves (s : State) (f : Fld) (v : Int) (i j k : Nat) : (s.putZ f v i j k).valves = s.valves := rfl
@[simp] theorem State.putZ_banks (s : State) (f : Fld) (v : Int) (i j k : Nat) : (s.putZ f v i j k).banks = s.banks := rfl
@[simp] theorem State.putZ_loads (s : State) (f : Fld) (v : Int) (i j k : Nat) : (s.putZ f v i j k).loads = s.loads := rfl
@[simp] theorem State.putZ_ain (s : State) (f : Fld) (v : Int) (i j k : Nat) : (s.putZ f v i j k).ain = s.ain := rfl
@[simp] theorem State.putZ_ls (s : State) (f : Fld) (v : Int) (i j k : Nat) : (s.putZ f v i j k).ls = s.ls := rfl
@[simp] theorem State.putZ_newBins (s : State) (f : Fld) (v : Int) (i j k : Nat) : (s.putZ f v i j k).newBins = s.newBins := rfl
@[simp] theorem State.putZ_imu (s : State) (f : Fld) (v : Int) (i j k : Nat) : (s.putZ f v i j k).imu = s.imu := rfl
@[simp] theorem State.putZ_cams (s : State) (f : Fld) (v : Int) (i j k : Nat) : (s.putZ f v i j k).cams = s.cams := rfl
@[simp] theorem State.putZ_cuvee (s : State) (f : Fld) (v : Int) (i j k : Nat) : (s.putZ f v i j k).cuvee = s.cuvee := rfl
@[simp] theorem State.putZ_racking (s : State) (f : Fld) (v : Int) (i j k : Nat) : (s.putZ f v i j k).racking = s.racking := rfl
@[simp] theorem State.putZ_gc (s : State) (f : Fld) (v : Int) (i j k : Nat) : (s.putZ f v i j k).gc = s.gc := rfl
@[simp] theorem State.putZ_pos (s : State) (f : Fld) (v : Int) (i j k : Nat) : (s.putZ f v i j k).pos = s.pos := rfl
@[simp] theorem State.putZ_time (s : State) (f : Fld) (v : Int) (i j k : Nat) : (s.putZ f v i j k).time = s.time := rfl
@[simp] theorem State.putZ_codes (s : State) (f : Fld) (v : Int) (i j k : Nat) : (s.putZ f v i j k).codes = s.codes := rfl
@[simp] theorem State.putZ_trellis (s : State) (f : Fld) (v : Int) (i j k : Nat) : (s.putZ f v i j k).trellis = s.trellis := rfl
@[simp] theorem State.putZ_can (s : State) (f : Fld) (v : Int) (i j k : Nat) : (s.putZ f v i j k).can = s.can := rfl
@[simp] theorem State.putZ_nets (s : State) (f : Fld) (v : Int) (i j k : Nat) : (s.putZ f v i j k).nets = s.nets := rfl
@[simp] theorem State.putZ_tags (s : State) (f : Fld) (v : Int) (i j k : Nat) : (s.putZ f v i j k).tags = s.tags := rfl
@[simp] theorem State.putZ_switch (s : State) (f : Fld) (v : Int) (i j k : Nat) : (s.putZ f v i j k).switch = s.switch := rfl
@[simp] theorem State.putZ_fleet (s : State) (f : Fld) (v : Int) (i j k : Nat) : (s.putZ f v i j k).fleet = s.fleet := rfl
@[simp] theorem State.putZ_dc (s : State) (f : Fld) (v : Int) (i j k : Nat) : (s.putZ f v i j k).dc = s.dc := rfl
@[simp] theorem State.putZ_manager (s : State) (f : Fld) (v : Int) (i j k : Nat) : (s.putZ f v i j k).manager = s.manager := rfl
@[simp] theorem State.putZ_sram (s : State) (f : Fld) (v : Int) (i j k : Nat) : (s.putZ f v i j k).sram = s.sram := rfl
@[simp] theorem State.putZ_dram (s : State) (f : Fld) (v : Int) (i j k : Nat) : (s.putZ f v i j k).dram = s.dram := rfl
@[simp] theorem State.putZ_pending (s : State) (f : Fld) (v : Int) (i j k : Nat) : (s.putZ f v i j k).pending = s.pending := rfl

/-! ### State.putB -/

@[simp] theorem State.putB_mtc (s : State) (f : Fld) (b : Bool) (i j k : Nat) : (s.putB f b i j k).mtc = s.mtc := rfl
@[simp] theorem State.putB_free (s : State) (f : Fld) (b : Bool) (i j k : Nat) : (s.putB f b i j k).free = s.free := rfl
@[simp] theorem State.putB_ticket (s : State) (f : Fld) (b : Bool) (i j k : Nat) : (s.putB f b i j k).ticket = s.ticket := rfl
@[simp] theorem State.putB_plat (s : State) (f : Fld) (b : Bool) (i j k : Nat) : (s.putB f b i j k).plat = s.plat := rfl
@[simp] theorem State.putB_errs (s : State) (f : Fld) (b : Bool) (i j k : Nat) : (s.putB f b i j k).errs = s.errs := rfl
@[simp] theorem State.putB_book (s : State) (f : Fld) (b : Bool) (i j k : Nat) : (s.putB f b i j k).book = s.book := rfl
@[simp] theorem State.putB_cores (s : State) (f : Fld) (b : Bool) (i j k : Nat) : (s.putB f b i j k).cores = s.cores := rfl
@[simp] theorem State.putB_loops (s : State) (f : Fld) (b : Bool) (i j k : Nat) : (s.putB f b i j k).loops = s.loops := rfl
@[simp] theorem State.putB_locks (s : State) (f : Fld) (b : Bool) (i j k : Nat) : (s.putB f b i j k).locks = s.locks := rfl
@[simp] theorem State.putB_mbox (s : State) (f : Fld) (b : Bool) (i j k : Nat) : (s.putB f b i j k).mbox = s.mbox := rfl
@[simp] theorem State.putB_valves (s : State) (f : Fld) (b : Bool) (i j k : Nat) : (s.putB f b i j k).valves = s.valves := rfl
@[simp] theorem State.putB_banks (s : State) (f : Fld) (b : Bool) (i j k : Nat) : (s.putB f b i j k).banks = s.banks := rfl
@[simp] theorem State.putB_loads (s : State) (f : Fld) (b : Bool) (i j k : Nat) : (s.putB f b i j k).loads = s.loads := rfl
@[simp] theorem State.putB_ain (s : State) (f : Fld) (b : Bool) (i j k : Nat) : (s.putB f b i j k).ain = s.ain := rfl
@[simp] theorem State.putB_ls (s : State) (f : Fld) (b : Bool) (i j k : Nat) : (s.putB f b i j k).ls = s.ls := rfl
@[simp] theorem State.putB_newBins (s : State) (f : Fld) (b : Bool) (i j k : Nat) : (s.putB f b i j k).newBins = s.newBins := rfl
@[simp] theorem State.putB_imu (s : State) (f : Fld) (b : Bool) (i j k : Nat) : (s.putB f b i j k).imu = s.imu := rfl
@[simp] theorem State.putB_cams (s : State) (f : Fld) (b : Bool) (i j k : Nat) : (s.putB f b i j k).cams = s.cams := rfl
@[simp] theorem State.putB_cuvee (s : State) (f : Fld) (b : Bool) (i j k : Nat) : (s.putB f b i j k).cuvee = s.cuvee := rfl
@[simp] theorem State.putB_racking (s : State) (f : Fld) (b : Bool) (i j k : Nat) : (s.putB f b i j k).racking = s.racking := rfl
@[simp] theorem State.putB_gc (s : State) (f : Fld) (b : Bool) (i j k : Nat) : (s.putB f b i j k).gc = s.gc := rfl
@[simp] theorem State.putB_pos (s : State) (f : Fld) (b : Bool) (i j k : Nat) : (s.putB f b i j k).pos = s.pos := rfl
@[simp] theorem State.putB_time (s : State) (f : Fld) (b : Bool) (i j k : Nat) : (s.putB f b i j k).time = s.time := rfl
@[simp] theorem State.putB_codes (s : State) (f : Fld) (b : Bool) (i j k : Nat) : (s.putB f b i j k).codes = s.codes := rfl
@[simp] theorem State.putB_trellis (s : State) (f : Fld) (b : Bool) (i j k : Nat) : (s.putB f b i j k).trellis = s.trellis := rfl
@[simp] theorem State.putB_can (s : State) (f : Fld) (b : Bool) (i j k : Nat) : (s.putB f b i j k).can = s.can := rfl
@[simp] theorem State.putB_nets (s : State) (f : Fld) (b : Bool) (i j k : Nat) : (s.putB f b i j k).nets = s.nets := rfl
@[simp] theorem State.putB_tags (s : State) (f : Fld) (b : Bool) (i j k : Nat) : (s.putB f b i j k).tags = s.tags := rfl
@[simp] theorem State.putB_switch (s : State) (f : Fld) (b : Bool) (i j k : Nat) : (s.putB f b i j k).switch = s.switch := rfl
@[simp] theorem State.putB_fleet (s : State) (f : Fld) (b : Bool) (i j k : Nat) : (s.putB f b i j k).fleet = s.fleet := rfl
@[simp] theorem State.putB_dc (s : State) (f : Fld) (b : Bool) (i j k : Nat) : (s.putB f b i j k).dc = s.dc := rfl
@[simp] theorem State.putB_manager (s : State) (f : Fld) (b : Bool) (i j k : Nat) : (s.putB f b i j k).manager = s.manager := rfl
@[simp] theorem State.putB_sram (s : State) (f : Fld) (b : Bool) (i j k : Nat) : (s.putB f b i j k).sram = s.sram := rfl
@[simp] theorem State.putB_dram (s : State) (f : Fld) (b : Bool) (i j k : Nat) : (s.putB f b i j k).dram = s.dram := rfl
@[simp] theorem State.putB_pending (s : State) (f : Fld) (b : Bool) (i j k : Nat) : (s.putB f b i j k).pending = s.pending := rfl

/-! ### State.put64 -/

@[simp] theorem State.put64_mtc (s : State) (f : Fld) (v i j k : Nat) : (s.put64 f v i j k).mtc = s.mtc := rfl
@[simp] theorem State.put64_free (s : State) (f : Fld) (v i j k : Nat) : (s.put64 f v i j k).free = s.free := rfl
@[simp] theorem State.put64_ticket (s : State) (f : Fld) (v i j k : Nat) : (s.put64 f v i j k).ticket = s.ticket := rfl
@[simp] theorem State.put64_plat (s : State) (f : Fld) (v i j k : Nat) : (s.put64 f v i j k).plat = s.plat := rfl
@[simp] theorem State.put64_errs (s : State) (f : Fld) (v i j k : Nat) : (s.put64 f v i j k).errs = s.errs := rfl
@[simp] theorem State.put64_book (s : State) (f : Fld) (v i j k : Nat) : (s.put64 f v i j k).book = s.book := rfl
@[simp] theorem State.put64_cores (s : State) (f : Fld) (v i j k : Nat) : (s.put64 f v i j k).cores = s.cores := rfl
@[simp] theorem State.put64_loops (s : State) (f : Fld) (v i j k : Nat) : (s.put64 f v i j k).loops = s.loops := rfl
@[simp] theorem State.put64_locks (s : State) (f : Fld) (v i j k : Nat) : (s.put64 f v i j k).locks = s.locks := rfl
@[simp] theorem State.put64_mbox (s : State) (f : Fld) (v i j k : Nat) : (s.put64 f v i j k).mbox = s.mbox := rfl
@[simp] theorem State.put64_valves (s : State) (f : Fld) (v i j k : Nat) : (s.put64 f v i j k).valves = s.valves := rfl
@[simp] theorem State.put64_banks (s : State) (f : Fld) (v i j k : Nat) : (s.put64 f v i j k).banks = s.banks := rfl
@[simp] theorem State.put64_loads (s : State) (f : Fld) (v i j k : Nat) : (s.put64 f v i j k).loads = s.loads := rfl
@[simp] theorem State.put64_ain (s : State) (f : Fld) (v i j k : Nat) : (s.put64 f v i j k).ain = s.ain := rfl
@[simp] theorem State.put64_ls (s : State) (f : Fld) (v i j k : Nat) : (s.put64 f v i j k).ls = s.ls := rfl
@[simp] theorem State.put64_newBins (s : State) (f : Fld) (v i j k : Nat) : (s.put64 f v i j k).newBins = s.newBins := rfl
@[simp] theorem State.put64_imu (s : State) (f : Fld) (v i j k : Nat) : (s.put64 f v i j k).imu = s.imu := rfl
@[simp] theorem State.put64_cams (s : State) (f : Fld) (v i j k : Nat) : (s.put64 f v i j k).cams = s.cams := rfl
@[simp] theorem State.put64_cuvee (s : State) (f : Fld) (v i j k : Nat) : (s.put64 f v i j k).cuvee = s.cuvee := rfl
@[simp] theorem State.put64_racking (s : State) (f : Fld) (v i j k : Nat) : (s.put64 f v i j k).racking = s.racking := rfl
@[simp] theorem State.put64_gc (s : State) (f : Fld) (v i j k : Nat) : (s.put64 f v i j k).gc = s.gc := rfl
@[simp] theorem State.put64_pos (s : State) (f : Fld) (v i j k : Nat) : (s.put64 f v i j k).pos = s.pos := rfl
@[simp] theorem State.put64_time (s : State) (f : Fld) (v i j k : Nat) : (s.put64 f v i j k).time = s.time := rfl
@[simp] theorem State.put64_codes (s : State) (f : Fld) (v i j k : Nat) : (s.put64 f v i j k).codes = s.codes := rfl
@[simp] theorem State.put64_trellis (s : State) (f : Fld) (v i j k : Nat) : (s.put64 f v i j k).trellis = s.trellis := rfl
@[simp] theorem State.put64_can (s : State) (f : Fld) (v i j k : Nat) : (s.put64 f v i j k).can = s.can := rfl
@[simp] theorem State.put64_nets (s : State) (f : Fld) (v i j k : Nat) : (s.put64 f v i j k).nets = s.nets := rfl
@[simp] theorem State.put64_tags (s : State) (f : Fld) (v i j k : Nat) : (s.put64 f v i j k).tags = s.tags := rfl
@[simp] theorem State.put64_switch (s : State) (f : Fld) (v i j k : Nat) : (s.put64 f v i j k).switch = s.switch := rfl
@[simp] theorem State.put64_fleet (s : State) (f : Fld) (v i j k : Nat) : (s.put64 f v i j k).fleet = s.fleet := rfl
@[simp] theorem State.put64_dc (s : State) (f : Fld) (v i j k : Nat) : (s.put64 f v i j k).dc = s.dc := rfl
@[simp] theorem State.put64_manager (s : State) (f : Fld) (v i j k : Nat) : (s.put64 f v i j k).manager = s.manager := rfl
@[simp] theorem State.put64_sram (s : State) (f : Fld) (v i j k : Nat) : (s.put64 f v i j k).sram = s.sram := rfl
@[simp] theorem State.put64_dram (s : State) (f : Fld) (v i j k : Nat) : (s.put64 f v i j k).dram = s.dram := rfl
@[simp] theorem State.put64_pending (s : State) (f : Fld) (v i j k : Nat) : (s.put64 f v i j k).pending = s.pending := rfl

/-! ### State.count -/

@[simp] theorem State.count_mtc (s : State) (f : Fld) (n i j k : Nat) : (s.count f n i j k).mtc = s.mtc := rfl
@[simp] theorem State.count_free (s : State) (f : Fld) (n i j k : Nat) : (s.count f n i j k).free = s.free := rfl
@[simp] theorem State.count_ticket (s : State) (f : Fld) (n i j k : Nat) : (s.count f n i j k).ticket = s.ticket := rfl
@[simp] theorem State.count_plat (s : State) (f : Fld) (n i j k : Nat) : (s.count f n i j k).plat = s.plat := rfl
@[simp] theorem State.count_errs (s : State) (f : Fld) (n i j k : Nat) : (s.count f n i j k).errs = s.errs := rfl
@[simp] theorem State.count_book (s : State) (f : Fld) (n i j k : Nat) : (s.count f n i j k).book = s.book := rfl
@[simp] theorem State.count_cores (s : State) (f : Fld) (n i j k : Nat) : (s.count f n i j k).cores = s.cores := rfl
@[simp] theorem State.count_loops (s : State) (f : Fld) (n i j k : Nat) : (s.count f n i j k).loops = s.loops := rfl
@[simp] theorem State.count_locks (s : State) (f : Fld) (n i j k : Nat) : (s.count f n i j k).locks = s.locks := rfl
@[simp] theorem State.count_mbox (s : State) (f : Fld) (n i j k : Nat) : (s.count f n i j k).mbox = s.mbox := rfl
@[simp] theorem State.count_valves (s : State) (f : Fld) (n i j k : Nat) : (s.count f n i j k).valves = s.valves := rfl
@[simp] theorem State.count_banks (s : State) (f : Fld) (n i j k : Nat) : (s.count f n i j k).banks = s.banks := rfl
@[simp] theorem State.count_loads (s : State) (f : Fld) (n i j k : Nat) : (s.count f n i j k).loads = s.loads := rfl
@[simp] theorem State.count_ain (s : State) (f : Fld) (n i j k : Nat) : (s.count f n i j k).ain = s.ain := rfl
@[simp] theorem State.count_ls (s : State) (f : Fld) (n i j k : Nat) : (s.count f n i j k).ls = s.ls := rfl
@[simp] theorem State.count_newBins (s : State) (f : Fld) (n i j k : Nat) : (s.count f n i j k).newBins = s.newBins := rfl
@[simp] theorem State.count_imu (s : State) (f : Fld) (n i j k : Nat) : (s.count f n i j k).imu = s.imu := rfl
@[simp] theorem State.count_cams (s : State) (f : Fld) (n i j k : Nat) : (s.count f n i j k).cams = s.cams := rfl
@[simp] theorem State.count_cuvee (s : State) (f : Fld) (n i j k : Nat) : (s.count f n i j k).cuvee = s.cuvee := rfl
@[simp] theorem State.count_racking (s : State) (f : Fld) (n i j k : Nat) : (s.count f n i j k).racking = s.racking := rfl
@[simp] theorem State.count_gc (s : State) (f : Fld) (n i j k : Nat) : (s.count f n i j k).gc = s.gc := rfl
@[simp] theorem State.count_pos (s : State) (f : Fld) (n i j k : Nat) : (s.count f n i j k).pos = s.pos := rfl
@[simp] theorem State.count_time (s : State) (f : Fld) (n i j k : Nat) : (s.count f n i j k).time = s.time := rfl
@[simp] theorem State.count_codes (s : State) (f : Fld) (n i j k : Nat) : (s.count f n i j k).codes = s.codes := rfl
@[simp] theorem State.count_trellis (s : State) (f : Fld) (n i j k : Nat) : (s.count f n i j k).trellis = s.trellis := rfl
@[simp] theorem State.count_can (s : State) (f : Fld) (n i j k : Nat) : (s.count f n i j k).can = s.can := rfl
@[simp] theorem State.count_nets (s : State) (f : Fld) (n i j k : Nat) : (s.count f n i j k).nets = s.nets := rfl
@[simp] theorem State.count_tags (s : State) (f : Fld) (n i j k : Nat) : (s.count f n i j k).tags = s.tags := rfl
@[simp] theorem State.count_switch (s : State) (f : Fld) (n i j k : Nat) : (s.count f n i j k).switch = s.switch := rfl
@[simp] theorem State.count_fleet (s : State) (f : Fld) (n i j k : Nat) : (s.count f n i j k).fleet = s.fleet := rfl
@[simp] theorem State.count_dc (s : State) (f : Fld) (n i j k : Nat) : (s.count f n i j k).dc = s.dc := rfl
@[simp] theorem State.count_manager (s : State) (f : Fld) (n i j k : Nat) : (s.count f n i j k).manager = s.manager := rfl
@[simp] theorem State.count_sram (s : State) (f : Fld) (n i j k : Nat) : (s.count f n i j k).sram = s.sram := rfl
@[simp] theorem State.count_dram (s : State) (f : Fld) (n i j k : Nat) : (s.count f n i j k).dram = s.dram := rfl
@[simp] theorem State.count_pending (s : State) (f : Fld) (n i j k : Nat) : (s.count f n i j k).pending = s.pending := rfl

/-! ### State.bumpMod -/

@[simp] theorem State.bumpMod_mtc (s : State) (f : Fld) (i j k : Nat) : (s.bumpMod f i j k).mtc = s.mtc := rfl
@[simp] theorem State.bumpMod_free (s : State) (f : Fld) (i j k : Nat) : (s.bumpMod f i j k).free = s.free := rfl
@[simp] theorem State.bumpMod_ticket (s : State) (f : Fld) (i j k : Nat) : (s.bumpMod f i j k).ticket = s.ticket := rfl
@[simp] theorem State.bumpMod_plat (s : State) (f : Fld) (i j k : Nat) : (s.bumpMod f i j k).plat = s.plat := rfl
@[simp] theorem State.bumpMod_errs (s : State) (f : Fld) (i j k : Nat) : (s.bumpMod f i j k).errs = s.errs := rfl
@[simp] theorem State.bumpMod_book (s : State) (f : Fld) (i j k : Nat) : (s.bumpMod f i j k).book = s.book := rfl
@[simp] theorem State.bumpMod_cores (s : State) (f : Fld) (i j k : Nat) : (s.bumpMod f i j k).cores = s.cores := rfl
@[simp] theorem State.bumpMod_loops (s : State) (f : Fld) (i j k : Nat) : (s.bumpMod f i j k).loops = s.loops := rfl
@[simp] theorem State.bumpMod_locks (s : State) (f : Fld) (i j k : Nat) : (s.bumpMod f i j k).locks = s.locks := rfl
@[simp] theorem State.bumpMod_mbox (s : State) (f : Fld) (i j k : Nat) : (s.bumpMod f i j k).mbox = s.mbox := rfl
@[simp] theorem State.bumpMod_valves (s : State) (f : Fld) (i j k : Nat) : (s.bumpMod f i j k).valves = s.valves := rfl
@[simp] theorem State.bumpMod_banks (s : State) (f : Fld) (i j k : Nat) : (s.bumpMod f i j k).banks = s.banks := rfl
@[simp] theorem State.bumpMod_loads (s : State) (f : Fld) (i j k : Nat) : (s.bumpMod f i j k).loads = s.loads := rfl
@[simp] theorem State.bumpMod_ain (s : State) (f : Fld) (i j k : Nat) : (s.bumpMod f i j k).ain = s.ain := rfl
@[simp] theorem State.bumpMod_ls (s : State) (f : Fld) (i j k : Nat) : (s.bumpMod f i j k).ls = s.ls := rfl
@[simp] theorem State.bumpMod_newBins (s : State) (f : Fld) (i j k : Nat) : (s.bumpMod f i j k).newBins = s.newBins := rfl
@[simp] theorem State.bumpMod_imu (s : State) (f : Fld) (i j k : Nat) : (s.bumpMod f i j k).imu = s.imu := rfl
@[simp] theorem State.bumpMod_cams (s : State) (f : Fld) (i j k : Nat) : (s.bumpMod f i j k).cams = s.cams := rfl
@[simp] theorem State.bumpMod_cuvee (s : State) (f : Fld) (i j k : Nat) : (s.bumpMod f i j k).cuvee = s.cuvee := rfl
@[simp] theorem State.bumpMod_racking (s : State) (f : Fld) (i j k : Nat) : (s.bumpMod f i j k).racking = s.racking := rfl
@[simp] theorem State.bumpMod_gc (s : State) (f : Fld) (i j k : Nat) : (s.bumpMod f i j k).gc = s.gc := rfl
@[simp] theorem State.bumpMod_pos (s : State) (f : Fld) (i j k : Nat) : (s.bumpMod f i j k).pos = s.pos := rfl
@[simp] theorem State.bumpMod_time (s : State) (f : Fld) (i j k : Nat) : (s.bumpMod f i j k).time = s.time := rfl
@[simp] theorem State.bumpMod_codes (s : State) (f : Fld) (i j k : Nat) : (s.bumpMod f i j k).codes = s.codes := rfl
@[simp] theorem State.bumpMod_trellis (s : State) (f : Fld) (i j k : Nat) : (s.bumpMod f i j k).trellis = s.trellis := rfl
@[simp] theorem State.bumpMod_can (s : State) (f : Fld) (i j k : Nat) : (s.bumpMod f i j k).can = s.can := rfl
@[simp] theorem State.bumpMod_nets (s : State) (f : Fld) (i j k : Nat) : (s.bumpMod f i j k).nets = s.nets := rfl
@[simp] theorem State.bumpMod_tags (s : State) (f : Fld) (i j k : Nat) : (s.bumpMod f i j k).tags = s.tags := rfl
@[simp] theorem State.bumpMod_switch (s : State) (f : Fld) (i j k : Nat) : (s.bumpMod f i j k).switch = s.switch := rfl
@[simp] theorem State.bumpMod_fleet (s : State) (f : Fld) (i j k : Nat) : (s.bumpMod f i j k).fleet = s.fleet := rfl
@[simp] theorem State.bumpMod_dc (s : State) (f : Fld) (i j k : Nat) : (s.bumpMod f i j k).dc = s.dc := rfl
@[simp] theorem State.bumpMod_manager (s : State) (f : Fld) (i j k : Nat) : (s.bumpMod f i j k).manager = s.manager := rfl
@[simp] theorem State.bumpMod_sram (s : State) (f : Fld) (i j k : Nat) : (s.bumpMod f i j k).sram = s.sram := rfl
@[simp] theorem State.bumpMod_dram (s : State) (f : Fld) (i j k : Nat) : (s.bumpMod f i j k).dram = s.dram := rfl
@[simp] theorem State.bumpMod_pending (s : State) (f : Fld) (i j k : Nat) : (s.bumpMod f i j k).pending = s.pending := rfl

/-! ### State.sticky -/

@[simp] theorem State.sticky_mtc (s : State) (f : Fld) (b i : Nat) : (s.sticky f b i).mtc = s.mtc := rfl
@[simp] theorem State.sticky_free (s : State) (f : Fld) (b i : Nat) : (s.sticky f b i).free = s.free := rfl
@[simp] theorem State.sticky_ticket (s : State) (f : Fld) (b i : Nat) : (s.sticky f b i).ticket = s.ticket := rfl
@[simp] theorem State.sticky_plat (s : State) (f : Fld) (b i : Nat) : (s.sticky f b i).plat = s.plat := rfl
@[simp] theorem State.sticky_errs (s : State) (f : Fld) (b i : Nat) : (s.sticky f b i).errs = s.errs := rfl
@[simp] theorem State.sticky_book (s : State) (f : Fld) (b i : Nat) : (s.sticky f b i).book = s.book := rfl
@[simp] theorem State.sticky_cores (s : State) (f : Fld) (b i : Nat) : (s.sticky f b i).cores = s.cores := rfl
@[simp] theorem State.sticky_loops (s : State) (f : Fld) (b i : Nat) : (s.sticky f b i).loops = s.loops := rfl
@[simp] theorem State.sticky_locks (s : State) (f : Fld) (b i : Nat) : (s.sticky f b i).locks = s.locks := rfl
@[simp] theorem State.sticky_mbox (s : State) (f : Fld) (b i : Nat) : (s.sticky f b i).mbox = s.mbox := rfl
@[simp] theorem State.sticky_valves (s : State) (f : Fld) (b i : Nat) : (s.sticky f b i).valves = s.valves := rfl
@[simp] theorem State.sticky_banks (s : State) (f : Fld) (b i : Nat) : (s.sticky f b i).banks = s.banks := rfl
@[simp] theorem State.sticky_loads (s : State) (f : Fld) (b i : Nat) : (s.sticky f b i).loads = s.loads := rfl
@[simp] theorem State.sticky_ain (s : State) (f : Fld) (b i : Nat) : (s.sticky f b i).ain = s.ain := rfl
@[simp] theorem State.sticky_ls (s : State) (f : Fld) (b i : Nat) : (s.sticky f b i).ls = s.ls := rfl
@[simp] theorem State.sticky_newBins (s : State) (f : Fld) (b i : Nat) : (s.sticky f b i).newBins = s.newBins := rfl
@[simp] theorem State.sticky_imu (s : State) (f : Fld) (b i : Nat) : (s.sticky f b i).imu = s.imu := rfl
@[simp] theorem State.sticky_cams (s : State) (f : Fld) (b i : Nat) : (s.sticky f b i).cams = s.cams := rfl
@[simp] theorem State.sticky_cuvee (s : State) (f : Fld) (b i : Nat) : (s.sticky f b i).cuvee = s.cuvee := rfl
@[simp] theorem State.sticky_racking (s : State) (f : Fld) (b i : Nat) : (s.sticky f b i).racking = s.racking := rfl
@[simp] theorem State.sticky_gc (s : State) (f : Fld) (b i : Nat) : (s.sticky f b i).gc = s.gc := rfl
@[simp] theorem State.sticky_pos (s : State) (f : Fld) (b i : Nat) : (s.sticky f b i).pos = s.pos := rfl
@[simp] theorem State.sticky_time (s : State) (f : Fld) (b i : Nat) : (s.sticky f b i).time = s.time := rfl
@[simp] theorem State.sticky_codes (s : State) (f : Fld) (b i : Nat) : (s.sticky f b i).codes = s.codes := rfl
@[simp] theorem State.sticky_trellis (s : State) (f : Fld) (b i : Nat) : (s.sticky f b i).trellis = s.trellis := rfl
@[simp] theorem State.sticky_can (s : State) (f : Fld) (b i : Nat) : (s.sticky f b i).can = s.can := rfl
@[simp] theorem State.sticky_nets (s : State) (f : Fld) (b i : Nat) : (s.sticky f b i).nets = s.nets := rfl
@[simp] theorem State.sticky_tags (s : State) (f : Fld) (b i : Nat) : (s.sticky f b i).tags = s.tags := rfl
@[simp] theorem State.sticky_switch (s : State) (f : Fld) (b i : Nat) : (s.sticky f b i).switch = s.switch := rfl
@[simp] theorem State.sticky_fleet (s : State) (f : Fld) (b i : Nat) : (s.sticky f b i).fleet = s.fleet := rfl
@[simp] theorem State.sticky_dc (s : State) (f : Fld) (b i : Nat) : (s.sticky f b i).dc = s.dc := rfl
@[simp] theorem State.sticky_manager (s : State) (f : Fld) (b i : Nat) : (s.sticky f b i).manager = s.manager := rfl
@[simp] theorem State.sticky_sram (s : State) (f : Fld) (b i : Nat) : (s.sticky f b i).sram = s.sram := rfl
@[simp] theorem State.sticky_dram (s : State) (f : Fld) (b i : Nat) : (s.sticky f b i).dram = s.dram := rfl
@[simp] theorem State.sticky_pending (s : State) (f : Fld) (b i : Nat) : (s.sticky f b i).pending = s.pending := rfl

/-! ### State.resetRange -/

@[simp] theorem State.resetRange_mtc (s : State) (lo hi : Nat) : (s.resetRange lo hi).mtc = s.mtc := rfl
@[simp] theorem State.resetRange_free (s : State) (lo hi : Nat) : (s.resetRange lo hi).free = s.free := rfl
@[simp] theorem State.resetRange_ticket (s : State) (lo hi : Nat) : (s.resetRange lo hi).ticket = s.ticket := rfl
@[simp] theorem State.resetRange_plat (s : State) (lo hi : Nat) : (s.resetRange lo hi).plat = s.plat := rfl
@[simp] theorem State.resetRange_errs (s : State) (lo hi : Nat) : (s.resetRange lo hi).errs = s.errs := rfl
@[simp] theorem State.resetRange_book (s : State) (lo hi : Nat) : (s.resetRange lo hi).book = s.book := rfl
@[simp] theorem State.resetRange_cores (s : State) (lo hi : Nat) : (s.resetRange lo hi).cores = s.cores := rfl
@[simp] theorem State.resetRange_loops (s : State) (lo hi : Nat) : (s.resetRange lo hi).loops = s.loops := rfl
@[simp] theorem State.resetRange_locks (s : State) (lo hi : Nat) : (s.resetRange lo hi).locks = s.locks := rfl
@[simp] theorem State.resetRange_mbox (s : State) (lo hi : Nat) : (s.resetRange lo hi).mbox = s.mbox := rfl
@[simp] theorem State.resetRange_valves (s : State) (lo hi : Nat) : (s.resetRange lo hi).valves = s.valves := rfl
@[simp] theorem State.resetRange_banks (s : State) (lo hi : Nat) : (s.resetRange lo hi).banks = s.banks := rfl
@[simp] theorem State.resetRange_loads (s : State) (lo hi : Nat) : (s.resetRange lo hi).loads = s.loads := rfl
@[simp] theorem State.resetRange_ain (s : State) (lo hi : Nat) : (s.resetRange lo hi).ain = s.ain := rfl
@[simp] theorem State.resetRange_ls (s : State) (lo hi : Nat) : (s.resetRange lo hi).ls = s.ls := rfl
@[simp] theorem State.resetRange_newBins (s : State) (lo hi : Nat) : (s.resetRange lo hi).newBins = s.newBins := rfl
@[simp] theorem State.resetRange_imu (s : State) (lo hi : Nat) : (s.resetRange lo hi).imu = s.imu := rfl
@[simp] theorem State.resetRange_cams (s : State) (lo hi : Nat) : (s.resetRange lo hi).cams = s.cams := rfl
@[simp] theorem State.resetRange_cuvee (s : State) (lo hi : Nat) : (s.resetRange lo hi).cuvee = s.cuvee := rfl
@[simp] theorem State.resetRange_racking (s : State) (lo hi : Nat) : (s.resetRange lo hi).racking = s.racking := rfl
@[simp] theorem State.resetRange_gc (s : State) (lo hi : Nat) : (s.resetRange lo hi).gc = s.gc := rfl
@[simp] theorem State.resetRange_pos (s : State) (lo hi : Nat) : (s.resetRange lo hi).pos = s.pos := rfl
@[simp] theorem State.resetRange_time (s : State) (lo hi : Nat) : (s.resetRange lo hi).time = s.time := rfl
@[simp] theorem State.resetRange_codes (s : State) (lo hi : Nat) : (s.resetRange lo hi).codes = s.codes := rfl
@[simp] theorem State.resetRange_trellis (s : State) (lo hi : Nat) : (s.resetRange lo hi).trellis = s.trellis := rfl
@[simp] theorem State.resetRange_can (s : State) (lo hi : Nat) : (s.resetRange lo hi).can = s.can := rfl
@[simp] theorem State.resetRange_nets (s : State) (lo hi : Nat) : (s.resetRange lo hi).nets = s.nets := rfl
@[simp] theorem State.resetRange_tags (s : State) (lo hi : Nat) : (s.resetRange lo hi).tags = s.tags := rfl
@[simp] theorem State.resetRange_switch (s : State) (lo hi : Nat) : (s.resetRange lo hi).switch = s.switch := rfl
@[simp] theorem State.resetRange_fleet (s : State) (lo hi : Nat) : (s.resetRange lo hi).fleet = s.fleet := rfl
@[simp] theorem State.resetRange_dc (s : State) (lo hi : Nat) : (s.resetRange lo hi).dc = s.dc := rfl
@[simp] theorem State.resetRange_manager (s : State) (lo hi : Nat) : (s.resetRange lo hi).manager = s.manager := rfl
@[simp] theorem State.resetRange_sram (s : State) (lo hi : Nat) : (s.resetRange lo hi).sram = s.sram := rfl
@[simp] theorem State.resetRange_dram (s : State) (lo hi : Nat) : (s.resetRange lo hi).dram = s.dram := rfl
@[simp] theorem State.resetRange_pending (s : State) (lo hi : Nat) : (s.resetRange lo hi).pending = s.pending := rfl

/-! ### State.swapRange -/

@[simp] theorem State.swapRange_mtc (s : State) (lo hi d : Nat) : (s.swapRange lo hi d).mtc = s.mtc := rfl
@[simp] theorem State.swapRange_free (s : State) (lo hi d : Nat) : (s.swapRange lo hi d).free = s.free := rfl
@[simp] theorem State.swapRange_ticket (s : State) (lo hi d : Nat) : (s.swapRange lo hi d).ticket = s.ticket := rfl
@[simp] theorem State.swapRange_plat (s : State) (lo hi d : Nat) : (s.swapRange lo hi d).plat = s.plat := rfl
@[simp] theorem State.swapRange_errs (s : State) (lo hi d : Nat) : (s.swapRange lo hi d).errs = s.errs := rfl
@[simp] theorem State.swapRange_book (s : State) (lo hi d : Nat) : (s.swapRange lo hi d).book = s.book := rfl
@[simp] theorem State.swapRange_cores (s : State) (lo hi d : Nat) : (s.swapRange lo hi d).cores = s.cores := rfl
@[simp] theorem State.swapRange_loops (s : State) (lo hi d : Nat) : (s.swapRange lo hi d).loops = s.loops := rfl
@[simp] theorem State.swapRange_locks (s : State) (lo hi d : Nat) : (s.swapRange lo hi d).locks = s.locks := rfl
@[simp] theorem State.swapRange_mbox (s : State) (lo hi d : Nat) : (s.swapRange lo hi d).mbox = s.mbox := rfl
@[simp] theorem State.swapRange_valves (s : State) (lo hi d : Nat) : (s.swapRange lo hi d).valves = s.valves := rfl
@[simp] theorem State.swapRange_banks (s : State) (lo hi d : Nat) : (s.swapRange lo hi d).banks = s.banks := rfl
@[simp] theorem State.swapRange_loads (s : State) (lo hi d : Nat) : (s.swapRange lo hi d).loads = s.loads := rfl
@[simp] theorem State.swapRange_ain (s : State) (lo hi d : Nat) : (s.swapRange lo hi d).ain = s.ain := rfl
@[simp] theorem State.swapRange_ls (s : State) (lo hi d : Nat) : (s.swapRange lo hi d).ls = s.ls := rfl
@[simp] theorem State.swapRange_newBins (s : State) (lo hi d : Nat) : (s.swapRange lo hi d).newBins = s.newBins := rfl
@[simp] theorem State.swapRange_imu (s : State) (lo hi d : Nat) : (s.swapRange lo hi d).imu = s.imu := rfl
@[simp] theorem State.swapRange_cams (s : State) (lo hi d : Nat) : (s.swapRange lo hi d).cams = s.cams := rfl
@[simp] theorem State.swapRange_cuvee (s : State) (lo hi d : Nat) : (s.swapRange lo hi d).cuvee = s.cuvee := rfl
@[simp] theorem State.swapRange_racking (s : State) (lo hi d : Nat) : (s.swapRange lo hi d).racking = s.racking := rfl
@[simp] theorem State.swapRange_gc (s : State) (lo hi d : Nat) : (s.swapRange lo hi d).gc = s.gc := rfl
@[simp] theorem State.swapRange_pos (s : State) (lo hi d : Nat) : (s.swapRange lo hi d).pos = s.pos := rfl
@[simp] theorem State.swapRange_time (s : State) (lo hi d : Nat) : (s.swapRange lo hi d).time = s.time := rfl
@[simp] theorem State.swapRange_codes (s : State) (lo hi d : Nat) : (s.swapRange lo hi d).codes = s.codes := rfl
@[simp] theorem State.swapRange_trellis (s : State) (lo hi d : Nat) : (s.swapRange lo hi d).trellis = s.trellis := rfl
@[simp] theorem State.swapRange_can (s : State) (lo hi d : Nat) : (s.swapRange lo hi d).can = s.can := rfl
@[simp] theorem State.swapRange_nets (s : State) (lo hi d : Nat) : (s.swapRange lo hi d).nets = s.nets := rfl
@[simp] theorem State.swapRange_tags (s : State) (lo hi d : Nat) : (s.swapRange lo hi d).tags = s.tags := rfl
@[simp] theorem State.swapRange_switch (s : State) (lo hi d : Nat) : (s.swapRange lo hi d).switch = s.switch := rfl
@[simp] theorem State.swapRange_fleet (s : State) (lo hi d : Nat) : (s.swapRange lo hi d).fleet = s.fleet := rfl
@[simp] theorem State.swapRange_dc (s : State) (lo hi d : Nat) : (s.swapRange lo hi d).dc = s.dc := rfl
@[simp] theorem State.swapRange_manager (s : State) (lo hi d : Nat) : (s.swapRange lo hi d).manager = s.manager := rfl
@[simp] theorem State.swapRange_sram (s : State) (lo hi d : Nat) : (s.swapRange lo hi d).sram = s.sram := rfl
@[simp] theorem State.swapRange_dram (s : State) (lo hi d : Nat) : (s.swapRange lo hi d).dram = s.dram := rfl
@[simp] theorem State.swapRange_pending (s : State) (lo hi d : Nat) : (s.swapRange lo hi d).pending = s.pending := rfl

/-! ### State.fresh -/

@[simp] theorem State.fresh_regs (s : State) : (s.fresh).regs = s.regs := rfl
@[simp] theorem State.fresh_mtc (s : State) : (s.fresh).mtc = s.mtc := rfl
@[simp] theorem State.fresh_free (s : State) : (s.fresh).free = s.free + 1 := rfl
@[simp] theorem State.fresh_ticket (s : State) : (s.fresh).ticket = s.ticket := rfl
@[simp] theorem State.fresh_plat (s : State) : (s.fresh).plat = s.plat := rfl
@[simp] theorem State.fresh_errs (s : State) : (s.fresh).errs = s.errs := rfl
@[simp] theorem State.fresh_book (s : State) : (s.fresh).book = s.book := rfl
@[simp] theorem State.fresh_cores (s : State) : (s.fresh).cores = s.cores := rfl
@[simp] theorem State.fresh_loops (s : State) : (s.fresh).loops = s.loops := rfl
@[simp] theorem State.fresh_locks (s : State) : (s.fresh).locks = s.locks := rfl
@[simp] theorem State.fresh_mbox (s : State) : (s.fresh).mbox = s.mbox := rfl
@[simp] theorem State.fresh_valves (s : State) : (s.fresh).valves = s.valves := rfl
@[simp] theorem State.fresh_banks (s : State) : (s.fresh).banks = s.banks := rfl
@[simp] theorem State.fresh_loads (s : State) : (s.fresh).loads = s.loads := rfl
@[simp] theorem State.fresh_ain (s : State) : (s.fresh).ain = s.ain := rfl
@[simp] theorem State.fresh_ls (s : State) : (s.fresh).ls = s.ls := rfl
@[simp] theorem State.fresh_newBins (s : State) : (s.fresh).newBins = s.newBins := rfl
@[simp] theorem State.fresh_imu (s : State) : (s.fresh).imu = s.imu := rfl
@[simp] theorem State.fresh_cams (s : State) : (s.fresh).cams = s.cams := rfl
@[simp] theorem State.fresh_cuvee (s : State) : (s.fresh).cuvee = s.cuvee := rfl
@[simp] theorem State.fresh_racking (s : State) : (s.fresh).racking = s.racking := rfl
@[simp] theorem State.fresh_gc (s : State) : (s.fresh).gc = s.gc := rfl
@[simp] theorem State.fresh_pos (s : State) : (s.fresh).pos = s.pos := rfl
@[simp] theorem State.fresh_time (s : State) : (s.fresh).time = s.time := rfl
@[simp] theorem State.fresh_codes (s : State) : (s.fresh).codes = s.codes := rfl
@[simp] theorem State.fresh_trellis (s : State) : (s.fresh).trellis = s.trellis := rfl
@[simp] theorem State.fresh_can (s : State) : (s.fresh).can = s.can := rfl
@[simp] theorem State.fresh_nets (s : State) : (s.fresh).nets = s.nets := rfl
@[simp] theorem State.fresh_tags (s : State) : (s.fresh).tags = s.tags := rfl
@[simp] theorem State.fresh_switch (s : State) : (s.fresh).switch = s.switch := rfl
@[simp] theorem State.fresh_fleet (s : State) : (s.fresh).fleet = s.fleet := rfl
@[simp] theorem State.fresh_dc (s : State) : (s.fresh).dc = s.dc := rfl
@[simp] theorem State.fresh_manager (s : State) : (s.fresh).manager = s.manager := rfl
@[simp] theorem State.fresh_sram (s : State) : (s.fresh).sram = s.sram := rfl
@[simp] theorem State.fresh_dram (s : State) : (s.fresh).dram = s.dram := rfl
@[simp] theorem State.fresh_pending (s : State) : (s.fresh).pending = s.pending := rfl

/-! ### State.modCore -/

@[simp] theorem State.modCore_regs (s : State) (c : Fin 16) (f : Core → Core) : (s.modCore c f).regs = s.regs := rfl
@[simp] theorem State.modCore_mtc (s : State) (c : Fin 16) (f : Core → Core) : (s.modCore c f).mtc = s.mtc := rfl
@[simp] theorem State.modCore_free (s : State) (c : Fin 16) (f : Core → Core) : (s.modCore c f).free = s.free := rfl
@[simp] theorem State.modCore_ticket (s : State) (c : Fin 16) (f : Core → Core) : (s.modCore c f).ticket = s.ticket := rfl
@[simp] theorem State.modCore_plat (s : State) (c : Fin 16) (f : Core → Core) : (s.modCore c f).plat = s.plat := rfl
@[simp] theorem State.modCore_errs (s : State) (c : Fin 16) (f : Core → Core) : (s.modCore c f).errs = s.errs := rfl
@[simp] theorem State.modCore_book (s : State) (c : Fin 16) (f : Core → Core) : (s.modCore c f).book = s.book := rfl
@[simp] theorem State.modCore_cores (s : State) (c : Fin 16) (f : Core → Core) : (s.modCore c f).cores = upd s.cores c f := rfl
@[simp] theorem State.modCore_loops (s : State) (c : Fin 16) (f : Core → Core) : (s.modCore c f).loops = s.loops := rfl
@[simp] theorem State.modCore_locks (s : State) (c : Fin 16) (f : Core → Core) : (s.modCore c f).locks = s.locks := rfl
@[simp] theorem State.modCore_mbox (s : State) (c : Fin 16) (f : Core → Core) : (s.modCore c f).mbox = s.mbox := rfl
@[simp] theorem State.modCore_valves (s : State) (c : Fin 16) (f : Core → Core) : (s.modCore c f).valves = s.valves := rfl
@[simp] theorem State.modCore_banks (s : State) (c : Fin 16) (f : Core → Core) : (s.modCore c f).banks = s.banks := rfl
@[simp] theorem State.modCore_loads (s : State) (c : Fin 16) (f : Core → Core) : (s.modCore c f).loads = s.loads := rfl
@[simp] theorem State.modCore_ain (s : State) (c : Fin 16) (f : Core → Core) : (s.modCore c f).ain = s.ain := rfl
@[simp] theorem State.modCore_ls (s : State) (c : Fin 16) (f : Core → Core) : (s.modCore c f).ls = s.ls := rfl
@[simp] theorem State.modCore_newBins (s : State) (c : Fin 16) (f : Core → Core) : (s.modCore c f).newBins = s.newBins := rfl
@[simp] theorem State.modCore_imu (s : State) (c : Fin 16) (f : Core → Core) : (s.modCore c f).imu = s.imu := rfl
@[simp] theorem State.modCore_cams (s : State) (c : Fin 16) (f : Core → Core) : (s.modCore c f).cams = s.cams := rfl
@[simp] theorem State.modCore_cuvee (s : State) (c : Fin 16) (f : Core → Core) : (s.modCore c f).cuvee = s.cuvee := rfl
@[simp] theorem State.modCore_racking (s : State) (c : Fin 16) (f : Core → Core) : (s.modCore c f).racking = s.racking := rfl
@[simp] theorem State.modCore_gc (s : State) (c : Fin 16) (f : Core → Core) : (s.modCore c f).gc = s.gc := rfl
@[simp] theorem State.modCore_pos (s : State) (c : Fin 16) (f : Core → Core) : (s.modCore c f).pos = s.pos := rfl
@[simp] theorem State.modCore_time (s : State) (c : Fin 16) (f : Core → Core) : (s.modCore c f).time = s.time := rfl
@[simp] theorem State.modCore_codes (s : State) (c : Fin 16) (f : Core → Core) : (s.modCore c f).codes = s.codes := rfl
@[simp] theorem State.modCore_trellis (s : State) (c : Fin 16) (f : Core → Core) : (s.modCore c f).trellis = s.trellis := rfl
@[simp] theorem State.modCore_can (s : State) (c : Fin 16) (f : Core → Core) : (s.modCore c f).can = s.can := rfl
@[simp] theorem State.modCore_nets (s : State) (c : Fin 16) (f : Core → Core) : (s.modCore c f).nets = s.nets := rfl
@[simp] theorem State.modCore_tags (s : State) (c : Fin 16) (f : Core → Core) : (s.modCore c f).tags = s.tags := rfl
@[simp] theorem State.modCore_switch (s : State) (c : Fin 16) (f : Core → Core) : (s.modCore c f).switch = s.switch := rfl
@[simp] theorem State.modCore_fleet (s : State) (c : Fin 16) (f : Core → Core) : (s.modCore c f).fleet = s.fleet := rfl
@[simp] theorem State.modCore_dc (s : State) (c : Fin 16) (f : Core → Core) : (s.modCore c f).dc = s.dc := rfl
@[simp] theorem State.modCore_manager (s : State) (c : Fin 16) (f : Core → Core) : (s.modCore c f).manager = s.manager := rfl
@[simp] theorem State.modCore_sram (s : State) (c : Fin 16) (f : Core → Core) : (s.modCore c f).sram = s.sram := rfl
@[simp] theorem State.modCore_dram (s : State) (c : Fin 16) (f : Core → Core) : (s.modCore c f).dram = s.dram := rfl
@[simp] theorem State.modCore_pending (s : State) (c : Fin 16) (f : Core → Core) : (s.modCore c f).pending = s.pending := rfl

/-! ### State.modCtx -/

@[simp] theorem State.modCtx_regs (s : State) (c : Fin 16) (f : Ctx → Ctx) : (s.modCtx c f).regs = s.regs := rfl
@[simp] theorem State.modCtx_mtc (s : State) (c : Fin 16) (f : Ctx → Ctx) : (s.modCtx c f).mtc = s.mtc := rfl
@[simp] theorem State.modCtx_free (s : State) (c : Fin 16) (f : Ctx → Ctx) : (s.modCtx c f).free = s.free := rfl
@[simp] theorem State.modCtx_ticket (s : State) (c : Fin 16) (f : Ctx → Ctx) : (s.modCtx c f).ticket = s.ticket := rfl
@[simp] theorem State.modCtx_plat (s : State) (c : Fin 16) (f : Ctx → Ctx) : (s.modCtx c f).plat = s.plat := rfl
@[simp] theorem State.modCtx_errs (s : State) (c : Fin 16) (f : Ctx → Ctx) : (s.modCtx c f).errs = s.errs := rfl
@[simp] theorem State.modCtx_book (s : State) (c : Fin 16) (f : Ctx → Ctx) : (s.modCtx c f).book = s.book := rfl
@[simp] theorem State.modCtx_loops (s : State) (c : Fin 16) (f : Ctx → Ctx) : (s.modCtx c f).loops = s.loops := rfl
@[simp] theorem State.modCtx_locks (s : State) (c : Fin 16) (f : Ctx → Ctx) : (s.modCtx c f).locks = s.locks := rfl
@[simp] theorem State.modCtx_mbox (s : State) (c : Fin 16) (f : Ctx → Ctx) : (s.modCtx c f).mbox = s.mbox := rfl
@[simp] theorem State.modCtx_valves (s : State) (c : Fin 16) (f : Ctx → Ctx) : (s.modCtx c f).valves = s.valves := rfl
@[simp] theorem State.modCtx_banks (s : State) (c : Fin 16) (f : Ctx → Ctx) : (s.modCtx c f).banks = s.banks := rfl
@[simp] theorem State.modCtx_loads (s : State) (c : Fin 16) (f : Ctx → Ctx) : (s.modCtx c f).loads = s.loads := rfl
@[simp] theorem State.modCtx_ain (s : State) (c : Fin 16) (f : Ctx → Ctx) : (s.modCtx c f).ain = s.ain := rfl
@[simp] theorem State.modCtx_ls (s : State) (c : Fin 16) (f : Ctx → Ctx) : (s.modCtx c f).ls = s.ls := rfl
@[simp] theorem State.modCtx_newBins (s : State) (c : Fin 16) (f : Ctx → Ctx) : (s.modCtx c f).newBins = s.newBins := rfl
@[simp] theorem State.modCtx_imu (s : State) (c : Fin 16) (f : Ctx → Ctx) : (s.modCtx c f).imu = s.imu := rfl
@[simp] theorem State.modCtx_cams (s : State) (c : Fin 16) (f : Ctx → Ctx) : (s.modCtx c f).cams = s.cams := rfl
@[simp] theorem State.modCtx_cuvee (s : State) (c : Fin 16) (f : Ctx → Ctx) : (s.modCtx c f).cuvee = s.cuvee := rfl
@[simp] theorem State.modCtx_racking (s : State) (c : Fin 16) (f : Ctx → Ctx) : (s.modCtx c f).racking = s.racking := rfl
@[simp] theorem State.modCtx_gc (s : State) (c : Fin 16) (f : Ctx → Ctx) : (s.modCtx c f).gc = s.gc := rfl
@[simp] theorem State.modCtx_pos (s : State) (c : Fin 16) (f : Ctx → Ctx) : (s.modCtx c f).pos = s.pos := rfl
@[simp] theorem State.modCtx_time (s : State) (c : Fin 16) (f : Ctx → Ctx) : (s.modCtx c f).time = s.time := rfl
@[simp] theorem State.modCtx_codes (s : State) (c : Fin 16) (f : Ctx → Ctx) : (s.modCtx c f).codes = s.codes := rfl
@[simp] theorem State.modCtx_trellis (s : State) (c : Fin 16) (f : Ctx → Ctx) : (s.modCtx c f).trellis = s.trellis := rfl
@[simp] theorem State.modCtx_can (s : State) (c : Fin 16) (f : Ctx → Ctx) : (s.modCtx c f).can = s.can := rfl
@[simp] theorem State.modCtx_nets (s : State) (c : Fin 16) (f : Ctx → Ctx) : (s.modCtx c f).nets = s.nets := rfl
@[simp] theorem State.modCtx_tags (s : State) (c : Fin 16) (f : Ctx → Ctx) : (s.modCtx c f).tags = s.tags := rfl
@[simp] theorem State.modCtx_switch (s : State) (c : Fin 16) (f : Ctx → Ctx) : (s.modCtx c f).switch = s.switch := rfl
@[simp] theorem State.modCtx_fleet (s : State) (c : Fin 16) (f : Ctx → Ctx) : (s.modCtx c f).fleet = s.fleet := rfl
@[simp] theorem State.modCtx_dc (s : State) (c : Fin 16) (f : Ctx → Ctx) : (s.modCtx c f).dc = s.dc := rfl
@[simp] theorem State.modCtx_manager (s : State) (c : Fin 16) (f : Ctx → Ctx) : (s.modCtx c f).manager = s.manager := rfl
@[simp] theorem State.modCtx_sram (s : State) (c : Fin 16) (f : Ctx → Ctx) : (s.modCtx c f).sram = s.sram := rfl
@[simp] theorem State.modCtx_dram (s : State) (c : Fin 16) (f : Ctx → Ctx) : (s.modCtx c f).dram = s.dram := rfl
@[simp] theorem State.modCtx_pending (s : State) (c : Fin 16) (f : Ctx → Ctx) : (s.modCtx c f).pending = s.pending := rfl

/-! ### State.spend -/

@[simp] theorem State.spend_regs (s : State) (c : Fin 16) (n : Nat) : (s.spend c n).regs = s.regs := rfl
@[simp] theorem State.spend_mtc (s : State) (c : Fin 16) (n : Nat) : (s.spend c n).mtc = s.mtc := rfl
@[simp] theorem State.spend_free (s : State) (c : Fin 16) (n : Nat) : (s.spend c n).free = s.free := rfl
@[simp] theorem State.spend_ticket (s : State) (c : Fin 16) (n : Nat) : (s.spend c n).ticket = s.ticket := rfl
@[simp] theorem State.spend_plat (s : State) (c : Fin 16) (n : Nat) : (s.spend c n).plat = s.plat := rfl
@[simp] theorem State.spend_errs (s : State) (c : Fin 16) (n : Nat) : (s.spend c n).errs = s.errs := rfl
@[simp] theorem State.spend_book (s : State) (c : Fin 16) (n : Nat) : (s.spend c n).book = s.book := rfl
@[simp] theorem State.spend_loops (s : State) (c : Fin 16) (n : Nat) : (s.spend c n).loops = s.loops := rfl
@[simp] theorem State.spend_locks (s : State) (c : Fin 16) (n : Nat) : (s.spend c n).locks = s.locks := rfl
@[simp] theorem State.spend_mbox (s : State) (c : Fin 16) (n : Nat) : (s.spend c n).mbox = s.mbox := rfl
@[simp] theorem State.spend_valves (s : State) (c : Fin 16) (n : Nat) : (s.spend c n).valves = s.valves := rfl
@[simp] theorem State.spend_banks (s : State) (c : Fin 16) (n : Nat) : (s.spend c n).banks = s.banks := rfl
@[simp] theorem State.spend_loads (s : State) (c : Fin 16) (n : Nat) : (s.spend c n).loads = s.loads := rfl
@[simp] theorem State.spend_ain (s : State) (c : Fin 16) (n : Nat) : (s.spend c n).ain = s.ain := rfl
@[simp] theorem State.spend_ls (s : State) (c : Fin 16) (n : Nat) : (s.spend c n).ls = s.ls := rfl
@[simp] theorem State.spend_newBins (s : State) (c : Fin 16) (n : Nat) : (s.spend c n).newBins = s.newBins := rfl
@[simp] theorem State.spend_imu (s : State) (c : Fin 16) (n : Nat) : (s.spend c n).imu = s.imu := rfl
@[simp] theorem State.spend_cams (s : State) (c : Fin 16) (n : Nat) : (s.spend c n).cams = s.cams := rfl
@[simp] theorem State.spend_cuvee (s : State) (c : Fin 16) (n : Nat) : (s.spend c n).cuvee = s.cuvee := rfl
@[simp] theorem State.spend_racking (s : State) (c : Fin 16) (n : Nat) : (s.spend c n).racking = s.racking := rfl
@[simp] theorem State.spend_gc (s : State) (c : Fin 16) (n : Nat) : (s.spend c n).gc = s.gc := rfl
@[simp] theorem State.spend_pos (s : State) (c : Fin 16) (n : Nat) : (s.spend c n).pos = s.pos := rfl
@[simp] theorem State.spend_time (s : State) (c : Fin 16) (n : Nat) : (s.spend c n).time = s.time := rfl
@[simp] theorem State.spend_codes (s : State) (c : Fin 16) (n : Nat) : (s.spend c n).codes = s.codes := rfl
@[simp] theorem State.spend_trellis (s : State) (c : Fin 16) (n : Nat) : (s.spend c n).trellis = s.trellis := rfl
@[simp] theorem State.spend_can (s : State) (c : Fin 16) (n : Nat) : (s.spend c n).can = s.can := rfl
@[simp] theorem State.spend_nets (s : State) (c : Fin 16) (n : Nat) : (s.spend c n).nets = s.nets := rfl
@[simp] theorem State.spend_tags (s : State) (c : Fin 16) (n : Nat) : (s.spend c n).tags = s.tags := rfl
@[simp] theorem State.spend_switch (s : State) (c : Fin 16) (n : Nat) : (s.spend c n).switch = s.switch := rfl
@[simp] theorem State.spend_fleet (s : State) (c : Fin 16) (n : Nat) : (s.spend c n).fleet = s.fleet := rfl
@[simp] theorem State.spend_dc (s : State) (c : Fin 16) (n : Nat) : (s.spend c n).dc = s.dc := rfl
@[simp] theorem State.spend_manager (s : State) (c : Fin 16) (n : Nat) : (s.spend c n).manager = s.manager := rfl
@[simp] theorem State.spend_sram (s : State) (c : Fin 16) (n : Nat) : (s.spend c n).sram = s.sram := rfl
@[simp] theorem State.spend_dram (s : State) (c : Fin 16) (n : Nat) : (s.spend c n).dram = s.dram := rfl
@[simp] theorem State.spend_pending (s : State) (c : Fin 16) (n : Nat) : (s.spend c n).pending = s.pending := rfl

/-! ### State.modPosted -/

@[simp] theorem State.modPosted_regs (s : State) (c : Fin 16) (f : List Posted → List Posted) : (s.modPosted c f).regs = s.regs := rfl
@[simp] theorem State.modPosted_mtc (s : State) (c : Fin 16) (f : List Posted → List Posted) : (s.modPosted c f).mtc = s.mtc := rfl
@[simp] theorem State.modPosted_free (s : State) (c : Fin 16) (f : List Posted → List Posted) : (s.modPosted c f).free = s.free := rfl
@[simp] theorem State.modPosted_ticket (s : State) (c : Fin 16) (f : List Posted → List Posted) : (s.modPosted c f).ticket = s.ticket := rfl
@[simp] theorem State.modPosted_plat (s : State) (c : Fin 16) (f : List Posted → List Posted) : (s.modPosted c f).plat = s.plat := rfl
@[simp] theorem State.modPosted_errs (s : State) (c : Fin 16) (f : List Posted → List Posted) : (s.modPosted c f).errs = s.errs := rfl
@[simp] theorem State.modPosted_book (s : State) (c : Fin 16) (f : List Posted → List Posted) : (s.modPosted c f).book = s.book := rfl
@[simp] theorem State.modPosted_loops (s : State) (c : Fin 16) (f : List Posted → List Posted) : (s.modPosted c f).loops = s.loops := rfl
@[simp] theorem State.modPosted_locks (s : State) (c : Fin 16) (f : List Posted → List Posted) : (s.modPosted c f).locks = s.locks := rfl
@[simp] theorem State.modPosted_mbox (s : State) (c : Fin 16) (f : List Posted → List Posted) : (s.modPosted c f).mbox = s.mbox := rfl
@[simp] theorem State.modPosted_valves (s : State) (c : Fin 16) (f : List Posted → List Posted) : (s.modPosted c f).valves = s.valves := rfl
@[simp] theorem State.modPosted_banks (s : State) (c : Fin 16) (f : List Posted → List Posted) : (s.modPosted c f).banks = s.banks := rfl
@[simp] theorem State.modPosted_loads (s : State) (c : Fin 16) (f : List Posted → List Posted) : (s.modPosted c f).loads = s.loads := rfl
@[simp] theorem State.modPosted_ain (s : State) (c : Fin 16) (f : List Posted → List Posted) : (s.modPosted c f).ain = s.ain := rfl
@[simp] theorem State.modPosted_ls (s : State) (c : Fin 16) (f : List Posted → List Posted) : (s.modPosted c f).ls = s.ls := rfl
@[simp] theorem State.modPosted_newBins (s : State) (c : Fin 16) (f : List Posted → List Posted) : (s.modPosted c f).newBins = s.newBins := rfl
@[simp] theorem State.modPosted_imu (s : State) (c : Fin 16) (f : List Posted → List Posted) : (s.modPosted c f).imu = s.imu := rfl
@[simp] theorem State.modPosted_cams (s : State) (c : Fin 16) (f : List Posted → List Posted) : (s.modPosted c f).cams = s.cams := rfl
@[simp] theorem State.modPosted_cuvee (s : State) (c : Fin 16) (f : List Posted → List Posted) : (s.modPosted c f).cuvee = s.cuvee := rfl
@[simp] theorem State.modPosted_racking (s : State) (c : Fin 16) (f : List Posted → List Posted) : (s.modPosted c f).racking = s.racking := rfl
@[simp] theorem State.modPosted_gc (s : State) (c : Fin 16) (f : List Posted → List Posted) : (s.modPosted c f).gc = s.gc := rfl
@[simp] theorem State.modPosted_pos (s : State) (c : Fin 16) (f : List Posted → List Posted) : (s.modPosted c f).pos = s.pos := rfl
@[simp] theorem State.modPosted_time (s : State) (c : Fin 16) (f : List Posted → List Posted) : (s.modPosted c f).time = s.time := rfl
@[simp] theorem State.modPosted_codes (s : State) (c : Fin 16) (f : List Posted → List Posted) : (s.modPosted c f).codes = s.codes := rfl
@[simp] theorem State.modPosted_trellis (s : State) (c : Fin 16) (f : List Posted → List Posted) : (s.modPosted c f).trellis = s.trellis := rfl
@[simp] theorem State.modPosted_can (s : State) (c : Fin 16) (f : List Posted → List Posted) : (s.modPosted c f).can = s.can := rfl
@[simp] theorem State.modPosted_nets (s : State) (c : Fin 16) (f : List Posted → List Posted) : (s.modPosted c f).nets = s.nets := rfl
@[simp] theorem State.modPosted_tags (s : State) (c : Fin 16) (f : List Posted → List Posted) : (s.modPosted c f).tags = s.tags := rfl
@[simp] theorem State.modPosted_switch (s : State) (c : Fin 16) (f : List Posted → List Posted) : (s.modPosted c f).switch = s.switch := rfl
@[simp] theorem State.modPosted_fleet (s : State) (c : Fin 16) (f : List Posted → List Posted) : (s.modPosted c f).fleet = s.fleet := rfl
@[simp] theorem State.modPosted_dc (s : State) (c : Fin 16) (f : List Posted → List Posted) : (s.modPosted c f).dc = s.dc := rfl
@[simp] theorem State.modPosted_manager (s : State) (c : Fin 16) (f : List Posted → List Posted) : (s.modPosted c f).manager = s.manager := rfl
@[simp] theorem State.modPosted_sram (s : State) (c : Fin 16) (f : List Posted → List Posted) : (s.modPosted c f).sram = s.sram := rfl
@[simp] theorem State.modPosted_dram (s : State) (c : Fin 16) (f : List Posted → List Posted) : (s.modPosted c f).dram = s.dram := rfl
@[simp] theorem State.modPosted_pending (s : State) (c : Fin 16) (f : List Posted → List Posted) : (s.modPosted c f).pending = s.pending := rfl

/-! ### State.modPlat -/

@[simp] theorem State.modPlat_regs (s : State) (f : Platform → Platform) : (s.modPlat f).regs = s.regs := rfl
@[simp] theorem State.modPlat_mtc (s : State) (f : Platform → Platform) : (s.modPlat f).mtc = s.mtc := rfl
@[simp] theorem State.modPlat_free (s : State) (f : Platform → Platform) : (s.modPlat f).free = s.free := rfl
@[simp] theorem State.modPlat_ticket (s : State) (f : Platform → Platform) : (s.modPlat f).ticket = s.ticket := rfl
@[simp] theorem State.modPlat_plat (s : State) (f : Platform → Platform) : (s.modPlat f).plat = f s.plat := rfl
@[simp] theorem State.modPlat_errs (s : State) (f : Platform → Platform) : (s.modPlat f).errs = s.errs := rfl
@[simp] theorem State.modPlat_book (s : State) (f : Platform → Platform) : (s.modPlat f).book = s.book := rfl
@[simp] theorem State.modPlat_cores (s : State) (f : Platform → Platform) : (s.modPlat f).cores = s.cores := rfl
@[simp] theorem State.modPlat_loops (s : State) (f : Platform → Platform) : (s.modPlat f).loops = s.loops := rfl
@[simp] theorem State.modPlat_locks (s : State) (f : Platform → Platform) : (s.modPlat f).locks = s.locks := rfl
@[simp] theorem State.modPlat_mbox (s : State) (f : Platform → Platform) : (s.modPlat f).mbox = s.mbox := rfl
@[simp] theorem State.modPlat_valves (s : State) (f : Platform → Platform) : (s.modPlat f).valves = s.valves := rfl
@[simp] theorem State.modPlat_banks (s : State) (f : Platform → Platform) : (s.modPlat f).banks = s.banks := rfl
@[simp] theorem State.modPlat_loads (s : State) (f : Platform → Platform) : (s.modPlat f).loads = s.loads := rfl
@[simp] theorem State.modPlat_ain (s : State) (f : Platform → Platform) : (s.modPlat f).ain = s.ain := rfl
@[simp] theorem State.modPlat_ls (s : State) (f : Platform → Platform) : (s.modPlat f).ls = s.ls := rfl
@[simp] theorem State.modPlat_newBins (s : State) (f : Platform → Platform) : (s.modPlat f).newBins = s.newBins := rfl
@[simp] theorem State.modPlat_imu (s : State) (f : Platform → Platform) : (s.modPlat f).imu = s.imu := rfl
@[simp] theorem State.modPlat_cams (s : State) (f : Platform → Platform) : (s.modPlat f).cams = s.cams := rfl
@[simp] theorem State.modPlat_cuvee (s : State) (f : Platform → Platform) : (s.modPlat f).cuvee = s.cuvee := rfl
@[simp] theorem State.modPlat_racking (s : State) (f : Platform → Platform) : (s.modPlat f).racking = s.racking := rfl
@[simp] theorem State.modPlat_gc (s : State) (f : Platform → Platform) : (s.modPlat f).gc = s.gc := rfl
@[simp] theorem State.modPlat_pos (s : State) (f : Platform → Platform) : (s.modPlat f).pos = s.pos := rfl
@[simp] theorem State.modPlat_time (s : State) (f : Platform → Platform) : (s.modPlat f).time = s.time := rfl
@[simp] theorem State.modPlat_codes (s : State) (f : Platform → Platform) : (s.modPlat f).codes = s.codes := rfl
@[simp] theorem State.modPlat_trellis (s : State) (f : Platform → Platform) : (s.modPlat f).trellis = s.trellis := rfl
@[simp] theorem State.modPlat_can (s : State) (f : Platform → Platform) : (s.modPlat f).can = s.can := rfl
@[simp] theorem State.modPlat_nets (s : State) (f : Platform → Platform) : (s.modPlat f).nets = s.nets := rfl
@[simp] theorem State.modPlat_tags (s : State) (f : Platform → Platform) : (s.modPlat f).tags = s.tags := rfl
@[simp] theorem State.modPlat_switch (s : State) (f : Platform → Platform) : (s.modPlat f).switch = s.switch := rfl
@[simp] theorem State.modPlat_fleet (s : State) (f : Platform → Platform) : (s.modPlat f).fleet = s.fleet := rfl
@[simp] theorem State.modPlat_dc (s : State) (f : Platform → Platform) : (s.modPlat f).dc = s.dc := rfl
@[simp] theorem State.modPlat_manager (s : State) (f : Platform → Platform) : (s.modPlat f).manager = s.manager := rfl
@[simp] theorem State.modPlat_sram (s : State) (f : Platform → Platform) : (s.modPlat f).sram = s.sram := rfl
@[simp] theorem State.modPlat_dram (s : State) (f : Platform → Platform) : (s.modPlat f).dram = s.dram := rfl
@[simp] theorem State.modPlat_pending (s : State) (f : Platform → Platform) : (s.modPlat f).pending = s.pending := rfl

/-! ### State.modMgr -/

@[simp] theorem State.modMgr_regs (s : State) (f : Update → Update) : (s.modMgr f).regs = s.regs := rfl
@[simp] theorem State.modMgr_mtc (s : State) (f : Update → Update) : (s.modMgr f).mtc = s.mtc := rfl
@[simp] theorem State.modMgr_free (s : State) (f : Update → Update) : (s.modMgr f).free = s.free := rfl
@[simp] theorem State.modMgr_ticket (s : State) (f : Update → Update) : (s.modMgr f).ticket = s.ticket := rfl
@[simp] theorem State.modMgr_plat (s : State) (f : Update → Update) : (s.modMgr f).plat = s.plat := rfl
@[simp] theorem State.modMgr_errs (s : State) (f : Update → Update) : (s.modMgr f).errs = s.errs := rfl
@[simp] theorem State.modMgr_book (s : State) (f : Update → Update) : (s.modMgr f).book = s.book := rfl
@[simp] theorem State.modMgr_cores (s : State) (f : Update → Update) : (s.modMgr f).cores = s.cores := rfl
@[simp] theorem State.modMgr_loops (s : State) (f : Update → Update) : (s.modMgr f).loops = s.loops := rfl
@[simp] theorem State.modMgr_locks (s : State) (f : Update → Update) : (s.modMgr f).locks = s.locks := rfl
@[simp] theorem State.modMgr_mbox (s : State) (f : Update → Update) : (s.modMgr f).mbox = s.mbox := rfl
@[simp] theorem State.modMgr_valves (s : State) (f : Update → Update) : (s.modMgr f).valves = s.valves := rfl
@[simp] theorem State.modMgr_banks (s : State) (f : Update → Update) : (s.modMgr f).banks = s.banks := rfl
@[simp] theorem State.modMgr_loads (s : State) (f : Update → Update) : (s.modMgr f).loads = s.loads := rfl
@[simp] theorem State.modMgr_ain (s : State) (f : Update → Update) : (s.modMgr f).ain = s.ain := rfl
@[simp] theorem State.modMgr_ls (s : State) (f : Update → Update) : (s.modMgr f).ls = s.ls := rfl
@[simp] theorem State.modMgr_newBins (s : State) (f : Update → Update) : (s.modMgr f).newBins = s.newBins := rfl
@[simp] theorem State.modMgr_imu (s : State) (f : Update → Update) : (s.modMgr f).imu = s.imu := rfl
@[simp] theorem State.modMgr_cams (s : State) (f : Update → Update) : (s.modMgr f).cams = s.cams := rfl
@[simp] theorem State.modMgr_cuvee (s : State) (f : Update → Update) : (s.modMgr f).cuvee = s.cuvee := rfl
@[simp] theorem State.modMgr_racking (s : State) (f : Update → Update) : (s.modMgr f).racking = s.racking := rfl
@[simp] theorem State.modMgr_gc (s : State) (f : Update → Update) : (s.modMgr f).gc = s.gc := rfl
@[simp] theorem State.modMgr_pos (s : State) (f : Update → Update) : (s.modMgr f).pos = s.pos := rfl
@[simp] theorem State.modMgr_time (s : State) (f : Update → Update) : (s.modMgr f).time = s.time := rfl
@[simp] theorem State.modMgr_codes (s : State) (f : Update → Update) : (s.modMgr f).codes = s.codes := rfl
@[simp] theorem State.modMgr_trellis (s : State) (f : Update → Update) : (s.modMgr f).trellis = s.trellis := rfl
@[simp] theorem State.modMgr_can (s : State) (f : Update → Update) : (s.modMgr f).can = s.can := rfl
@[simp] theorem State.modMgr_nets (s : State) (f : Update → Update) : (s.modMgr f).nets = s.nets := rfl
@[simp] theorem State.modMgr_tags (s : State) (f : Update → Update) : (s.modMgr f).tags = s.tags := rfl
@[simp] theorem State.modMgr_switch (s : State) (f : Update → Update) : (s.modMgr f).switch = s.switch := rfl
@[simp] theorem State.modMgr_fleet (s : State) (f : Update → Update) : (s.modMgr f).fleet = s.fleet := rfl
@[simp] theorem State.modMgr_dc (s : State) (f : Update → Update) : (s.modMgr f).dc = s.dc := rfl
@[simp] theorem State.modMgr_manager (s : State) (f : Update → Update) : (s.modMgr f).manager = f s.manager := rfl
@[simp] theorem State.modMgr_sram (s : State) (f : Update → Update) : (s.modMgr f).sram = s.sram := rfl
@[simp] theorem State.modMgr_dram (s : State) (f : Update → Update) : (s.modMgr f).dram = s.dram := rfl
@[simp] theorem State.modMgr_pending (s : State) (f : Update → Update) : (s.modMgr f).pending = s.pending := rfl

/-! ### State.modLoopU -/

@[simp] theorem State.modLoopU_regs (s : State) (c : Fin 16) (f : LoopUnit → LoopUnit) : (s.modLoopU c f).regs = s.regs := rfl
@[simp] theorem State.modLoopU_mtc (s : State) (c : Fin 16) (f : LoopUnit → LoopUnit) : (s.modLoopU c f).mtc = s.mtc := rfl
@[simp] theorem State.modLoopU_free (s : State) (c : Fin 16) (f : LoopUnit → LoopUnit) : (s.modLoopU c f).free = s.free := rfl
@[simp] theorem State.modLoopU_ticket (s : State) (c : Fin 16) (f : LoopUnit → LoopUnit) : (s.modLoopU c f).ticket = s.ticket := rfl
@[simp] theorem State.modLoopU_plat (s : State) (c : Fin 16) (f : LoopUnit → LoopUnit) : (s.modLoopU c f).plat = s.plat := rfl
@[simp] theorem State.modLoopU_errs (s : State) (c : Fin 16) (f : LoopUnit → LoopUnit) : (s.modLoopU c f).errs = s.errs := rfl
@[simp] theorem State.modLoopU_book (s : State) (c : Fin 16) (f : LoopUnit → LoopUnit) : (s.modLoopU c f).book = s.book := rfl
@[simp] theorem State.modLoopU_cores (s : State) (c : Fin 16) (f : LoopUnit → LoopUnit) : (s.modLoopU c f).cores = s.cores := rfl
@[simp] theorem State.modLoopU_loops (s : State) (c : Fin 16) (f : LoopUnit → LoopUnit) : (s.modLoopU c f).loops = upd s.loops c f := rfl
@[simp] theorem State.modLoopU_locks (s : State) (c : Fin 16) (f : LoopUnit → LoopUnit) : (s.modLoopU c f).locks = s.locks := rfl
@[simp] theorem State.modLoopU_mbox (s : State) (c : Fin 16) (f : LoopUnit → LoopUnit) : (s.modLoopU c f).mbox = s.mbox := rfl
@[simp] theorem State.modLoopU_valves (s : State) (c : Fin 16) (f : LoopUnit → LoopUnit) : (s.modLoopU c f).valves = s.valves := rfl
@[simp] theorem State.modLoopU_banks (s : State) (c : Fin 16) (f : LoopUnit → LoopUnit) : (s.modLoopU c f).banks = s.banks := rfl
@[simp] theorem State.modLoopU_loads (s : State) (c : Fin 16) (f : LoopUnit → LoopUnit) : (s.modLoopU c f).loads = s.loads := rfl
@[simp] theorem State.modLoopU_ain (s : State) (c : Fin 16) (f : LoopUnit → LoopUnit) : (s.modLoopU c f).ain = s.ain := rfl
@[simp] theorem State.modLoopU_ls (s : State) (c : Fin 16) (f : LoopUnit → LoopUnit) : (s.modLoopU c f).ls = s.ls := rfl
@[simp] theorem State.modLoopU_newBins (s : State) (c : Fin 16) (f : LoopUnit → LoopUnit) : (s.modLoopU c f).newBins = s.newBins := rfl
@[simp] theorem State.modLoopU_imu (s : State) (c : Fin 16) (f : LoopUnit → LoopUnit) : (s.modLoopU c f).imu = s.imu := rfl
@[simp] theorem State.modLoopU_cams (s : State) (c : Fin 16) (f : LoopUnit → LoopUnit) : (s.modLoopU c f).cams = s.cams := rfl
@[simp] theorem State.modLoopU_cuvee (s : State) (c : Fin 16) (f : LoopUnit → LoopUnit) : (s.modLoopU c f).cuvee = s.cuvee := rfl
@[simp] theorem State.modLoopU_racking (s : State) (c : Fin 16) (f : LoopUnit → LoopUnit) : (s.modLoopU c f).racking = s.racking := rfl
@[simp] theorem State.modLoopU_gc (s : State) (c : Fin 16) (f : LoopUnit → LoopUnit) : (s.modLoopU c f).gc = s.gc := rfl
@[simp] theorem State.modLoopU_pos (s : State) (c : Fin 16) (f : LoopUnit → LoopUnit) : (s.modLoopU c f).pos = s.pos := rfl
@[simp] theorem State.modLoopU_time (s : State) (c : Fin 16) (f : LoopUnit → LoopUnit) : (s.modLoopU c f).time = s.time := rfl
@[simp] theorem State.modLoopU_codes (s : State) (c : Fin 16) (f : LoopUnit → LoopUnit) : (s.modLoopU c f).codes = s.codes := rfl
@[simp] theorem State.modLoopU_trellis (s : State) (c : Fin 16) (f : LoopUnit → LoopUnit) : (s.modLoopU c f).trellis = s.trellis := rfl
@[simp] theorem State.modLoopU_can (s : State) (c : Fin 16) (f : LoopUnit → LoopUnit) : (s.modLoopU c f).can = s.can := rfl
@[simp] theorem State.modLoopU_nets (s : State) (c : Fin 16) (f : LoopUnit → LoopUnit) : (s.modLoopU c f).nets = s.nets := rfl
@[simp] theorem State.modLoopU_tags (s : State) (c : Fin 16) (f : LoopUnit → LoopUnit) : (s.modLoopU c f).tags = s.tags := rfl
@[simp] theorem State.modLoopU_switch (s : State) (c : Fin 16) (f : LoopUnit → LoopUnit) : (s.modLoopU c f).switch = s.switch := rfl
@[simp] theorem State.modLoopU_fleet (s : State) (c : Fin 16) (f : LoopUnit → LoopUnit) : (s.modLoopU c f).fleet = s.fleet := rfl
@[simp] theorem State.modLoopU_dc (s : State) (c : Fin 16) (f : LoopUnit → LoopUnit) : (s.modLoopU c f).dc = s.dc := rfl
@[simp] theorem State.modLoopU_manager (s : State) (c : Fin 16) (f : LoopUnit → LoopUnit) : (s.modLoopU c f).manager = s.manager := rfl
@[simp] theorem State.modLoopU_sram (s : State) (c : Fin 16) (f : LoopUnit → LoopUnit) : (s.modLoopU c f).sram = s.sram := rfl
@[simp] theorem State.modLoopU_dram (s : State) (c : Fin 16) (f : LoopUnit → LoopUnit) : (s.modLoopU c f).dram = s.dram := rfl
@[simp] theorem State.modLoopU_pending (s : State) (c : Fin 16) (f : LoopUnit → LoopUnit) : (s.modLoopU c f).pending = s.pending := rfl

/-! ### State.modLoop -/

@[simp] theorem State.modLoop_regs (s : State) (c : Fin 16) (l : Fin 8) (f : Loop → Loop) : (s.modLoop c l f).regs = s.regs := rfl
@[simp] theorem State.modLoop_mtc (s : State) (c : Fin 16) (l : Fin 8) (f : Loop → Loop) : (s.modLoop c l f).mtc = s.mtc := rfl
@[simp] theorem State.modLoop_free (s : State) (c : Fin 16) (l : Fin 8) (f : Loop → Loop) : (s.modLoop c l f).free = s.free := rfl
@[simp] theorem State.modLoop_ticket (s : State) (c : Fin 16) (l : Fin 8) (f : Loop → Loop) : (s.modLoop c l f).ticket = s.ticket := rfl
@[simp] theorem State.modLoop_plat (s : State) (c : Fin 16) (l : Fin 8) (f : Loop → Loop) : (s.modLoop c l f).plat = s.plat := rfl
@[simp] theorem State.modLoop_errs (s : State) (c : Fin 16) (l : Fin 8) (f : Loop → Loop) : (s.modLoop c l f).errs = s.errs := rfl
@[simp] theorem State.modLoop_book (s : State) (c : Fin 16) (l : Fin 8) (f : Loop → Loop) : (s.modLoop c l f).book = s.book := rfl
@[simp] theorem State.modLoop_cores (s : State) (c : Fin 16) (l : Fin 8) (f : Loop → Loop) : (s.modLoop c l f).cores = s.cores := rfl
@[simp] theorem State.modLoop_locks (s : State) (c : Fin 16) (l : Fin 8) (f : Loop → Loop) : (s.modLoop c l f).locks = s.locks := rfl
@[simp] theorem State.modLoop_mbox (s : State) (c : Fin 16) (l : Fin 8) (f : Loop → Loop) : (s.modLoop c l f).mbox = s.mbox := rfl
@[simp] theorem State.modLoop_valves (s : State) (c : Fin 16) (l : Fin 8) (f : Loop → Loop) : (s.modLoop c l f).valves = s.valves := rfl
@[simp] theorem State.modLoop_banks (s : State) (c : Fin 16) (l : Fin 8) (f : Loop → Loop) : (s.modLoop c l f).banks = s.banks := rfl
@[simp] theorem State.modLoop_loads (s : State) (c : Fin 16) (l : Fin 8) (f : Loop → Loop) : (s.modLoop c l f).loads = s.loads := rfl
@[simp] theorem State.modLoop_ain (s : State) (c : Fin 16) (l : Fin 8) (f : Loop → Loop) : (s.modLoop c l f).ain = s.ain := rfl
@[simp] theorem State.modLoop_ls (s : State) (c : Fin 16) (l : Fin 8) (f : Loop → Loop) : (s.modLoop c l f).ls = s.ls := rfl
@[simp] theorem State.modLoop_newBins (s : State) (c : Fin 16) (l : Fin 8) (f : Loop → Loop) : (s.modLoop c l f).newBins = s.newBins := rfl
@[simp] theorem State.modLoop_imu (s : State) (c : Fin 16) (l : Fin 8) (f : Loop → Loop) : (s.modLoop c l f).imu = s.imu := rfl
@[simp] theorem State.modLoop_cams (s : State) (c : Fin 16) (l : Fin 8) (f : Loop → Loop) : (s.modLoop c l f).cams = s.cams := rfl
@[simp] theorem State.modLoop_cuvee (s : State) (c : Fin 16) (l : Fin 8) (f : Loop → Loop) : (s.modLoop c l f).cuvee = s.cuvee := rfl
@[simp] theorem State.modLoop_racking (s : State) (c : Fin 16) (l : Fin 8) (f : Loop → Loop) : (s.modLoop c l f).racking = s.racking := rfl
@[simp] theorem State.modLoop_gc (s : State) (c : Fin 16) (l : Fin 8) (f : Loop → Loop) : (s.modLoop c l f).gc = s.gc := rfl
@[simp] theorem State.modLoop_pos (s : State) (c : Fin 16) (l : Fin 8) (f : Loop → Loop) : (s.modLoop c l f).pos = s.pos := rfl
@[simp] theorem State.modLoop_time (s : State) (c : Fin 16) (l : Fin 8) (f : Loop → Loop) : (s.modLoop c l f).time = s.time := rfl
@[simp] theorem State.modLoop_codes (s : State) (c : Fin 16) (l : Fin 8) (f : Loop → Loop) : (s.modLoop c l f).codes = s.codes := rfl
@[simp] theorem State.modLoop_trellis (s : State) (c : Fin 16) (l : Fin 8) (f : Loop → Loop) : (s.modLoop c l f).trellis = s.trellis := rfl
@[simp] theorem State.modLoop_can (s : State) (c : Fin 16) (l : Fin 8) (f : Loop → Loop) : (s.modLoop c l f).can = s.can := rfl
@[simp] theorem State.modLoop_nets (s : State) (c : Fin 16) (l : Fin 8) (f : Loop → Loop) : (s.modLoop c l f).nets = s.nets := rfl
@[simp] theorem State.modLoop_tags (s : State) (c : Fin 16) (l : Fin 8) (f : Loop → Loop) : (s.modLoop c l f).tags = s.tags := rfl
@[simp] theorem State.modLoop_switch (s : State) (c : Fin 16) (l : Fin 8) (f : Loop → Loop) : (s.modLoop c l f).switch = s.switch := rfl
@[simp] theorem State.modLoop_fleet (s : State) (c : Fin 16) (l : Fin 8) (f : Loop → Loop) : (s.modLoop c l f).fleet = s.fleet := rfl
@[simp] theorem State.modLoop_dc (s : State) (c : Fin 16) (l : Fin 8) (f : Loop → Loop) : (s.modLoop c l f).dc = s.dc := rfl
@[simp] theorem State.modLoop_manager (s : State) (c : Fin 16) (l : Fin 8) (f : Loop → Loop) : (s.modLoop c l f).manager = s.manager := rfl
@[simp] theorem State.modLoop_sram (s : State) (c : Fin 16) (l : Fin 8) (f : Loop → Loop) : (s.modLoop c l f).sram = s.sram := rfl
@[simp] theorem State.modLoop_dram (s : State) (c : Fin 16) (l : Fin 8) (f : Loop → Loop) : (s.modLoop c l f).dram = s.dram := rfl
@[simp] theorem State.modLoop_pending (s : State) (c : Fin 16) (l : Fin 8) (f : Loop → Loop) : (s.modLoop c l f).pending = s.pending := rfl

/-! ### State.modRepTab -/

@[simp] theorem State.modRepTab_regs (s : State) (c : Fin 16) (l : Fin 8) (f : RepTable → RepTable) : (s.modRepTab c l f).regs = s.regs := rfl
@[simp] theorem State.modRepTab_mtc (s : State) (c : Fin 16) (l : Fin 8) (f : RepTable → RepTable) : (s.modRepTab c l f).mtc = s.mtc := rfl
@[simp] theorem State.modRepTab_free (s : State) (c : Fin 16) (l : Fin 8) (f : RepTable → RepTable) : (s.modRepTab c l f).free = s.free := rfl
@[simp] theorem State.modRepTab_ticket (s : State) (c : Fin 16) (l : Fin 8) (f : RepTable → RepTable) : (s.modRepTab c l f).ticket = s.ticket := rfl
@[simp] theorem State.modRepTab_plat (s : State) (c : Fin 16) (l : Fin 8) (f : RepTable → RepTable) : (s.modRepTab c l f).plat = s.plat := rfl
@[simp] theorem State.modRepTab_errs (s : State) (c : Fin 16) (l : Fin 8) (f : RepTable → RepTable) : (s.modRepTab c l f).errs = s.errs := rfl
@[simp] theorem State.modRepTab_book (s : State) (c : Fin 16) (l : Fin 8) (f : RepTable → RepTable) : (s.modRepTab c l f).book = s.book := rfl
@[simp] theorem State.modRepTab_cores (s : State) (c : Fin 16) (l : Fin 8) (f : RepTable → RepTable) : (s.modRepTab c l f).cores = s.cores := rfl
@[simp] theorem State.modRepTab_locks (s : State) (c : Fin 16) (l : Fin 8) (f : RepTable → RepTable) : (s.modRepTab c l f).locks = s.locks := rfl
@[simp] theorem State.modRepTab_mbox (s : State) (c : Fin 16) (l : Fin 8) (f : RepTable → RepTable) : (s.modRepTab c l f).mbox = s.mbox := rfl
@[simp] theorem State.modRepTab_valves (s : State) (c : Fin 16) (l : Fin 8) (f : RepTable → RepTable) : (s.modRepTab c l f).valves = s.valves := rfl
@[simp] theorem State.modRepTab_banks (s : State) (c : Fin 16) (l : Fin 8) (f : RepTable → RepTable) : (s.modRepTab c l f).banks = s.banks := rfl
@[simp] theorem State.modRepTab_loads (s : State) (c : Fin 16) (l : Fin 8) (f : RepTable → RepTable) : (s.modRepTab c l f).loads = s.loads := rfl
@[simp] theorem State.modRepTab_ain (s : State) (c : Fin 16) (l : Fin 8) (f : RepTable → RepTable) : (s.modRepTab c l f).ain = s.ain := rfl
@[simp] theorem State.modRepTab_ls (s : State) (c : Fin 16) (l : Fin 8) (f : RepTable → RepTable) : (s.modRepTab c l f).ls = s.ls := rfl
@[simp] theorem State.modRepTab_newBins (s : State) (c : Fin 16) (l : Fin 8) (f : RepTable → RepTable) : (s.modRepTab c l f).newBins = s.newBins := rfl
@[simp] theorem State.modRepTab_imu (s : State) (c : Fin 16) (l : Fin 8) (f : RepTable → RepTable) : (s.modRepTab c l f).imu = s.imu := rfl
@[simp] theorem State.modRepTab_cams (s : State) (c : Fin 16) (l : Fin 8) (f : RepTable → RepTable) : (s.modRepTab c l f).cams = s.cams := rfl
@[simp] theorem State.modRepTab_cuvee (s : State) (c : Fin 16) (l : Fin 8) (f : RepTable → RepTable) : (s.modRepTab c l f).cuvee = s.cuvee := rfl
@[simp] theorem State.modRepTab_racking (s : State) (c : Fin 16) (l : Fin 8) (f : RepTable → RepTable) : (s.modRepTab c l f).racking = s.racking := rfl
@[simp] theorem State.modRepTab_gc (s : State) (c : Fin 16) (l : Fin 8) (f : RepTable → RepTable) : (s.modRepTab c l f).gc = s.gc := rfl
@[simp] theorem State.modRepTab_pos (s : State) (c : Fin 16) (l : Fin 8) (f : RepTable → RepTable) : (s.modRepTab c l f).pos = s.pos := rfl
@[simp] theorem State.modRepTab_time (s : State) (c : Fin 16) (l : Fin 8) (f : RepTable → RepTable) : (s.modRepTab c l f).time = s.time := rfl
@[simp] theorem State.modRepTab_codes (s : State) (c : Fin 16) (l : Fin 8) (f : RepTable → RepTable) : (s.modRepTab c l f).codes = s.codes := rfl
@[simp] theorem State.modRepTab_trellis (s : State) (c : Fin 16) (l : Fin 8) (f : RepTable → RepTable) : (s.modRepTab c l f).trellis = s.trellis := rfl
@[simp] theorem State.modRepTab_can (s : State) (c : Fin 16) (l : Fin 8) (f : RepTable → RepTable) : (s.modRepTab c l f).can = s.can := rfl
@[simp] theorem State.modRepTab_nets (s : State) (c : Fin 16) (l : Fin 8) (f : RepTable → RepTable) : (s.modRepTab c l f).nets = s.nets := rfl
@[simp] theorem State.modRepTab_tags (s : State) (c : Fin 16) (l : Fin 8) (f : RepTable → RepTable) : (s.modRepTab c l f).tags = s.tags := rfl
@[simp] theorem State.modRepTab_switch (s : State) (c : Fin 16) (l : Fin 8) (f : RepTable → RepTable) : (s.modRepTab c l f).switch = s.switch := rfl
@[simp] theorem State.modRepTab_fleet (s : State) (c : Fin 16) (l : Fin 8) (f : RepTable → RepTable) : (s.modRepTab c l f).fleet = s.fleet := rfl
@[simp] theorem State.modRepTab_dc (s : State) (c : Fin 16) (l : Fin 8) (f : RepTable → RepTable) : (s.modRepTab c l f).dc = s.dc := rfl
@[simp] theorem State.modRepTab_manager (s : State) (c : Fin 16) (l : Fin 8) (f : RepTable → RepTable) : (s.modRepTab c l f).manager = s.manager := rfl
@[simp] theorem State.modRepTab_sram (s : State) (c : Fin 16) (l : Fin 8) (f : RepTable → RepTable) : (s.modRepTab c l f).sram = s.sram := rfl
@[simp] theorem State.modRepTab_dram (s : State) (c : Fin 16) (l : Fin 8) (f : RepTable → RepTable) : (s.modRepTab c l f).dram = s.dram := rfl
@[simp] theorem State.modRepTab_pending (s : State) (c : Fin 16) (l : Fin 8) (f : RepTable → RepTable) : (s.modRepTab c l f).pending = s.pending := rfl

/-! ### State.modLock -/

@[simp] theorem State.modLock_regs (s : State) (n : Fin 256) (f : Lock → Lock) : (s.modLock n f).regs = s.regs := rfl
@[simp] theorem State.modLock_mtc (s : State) (n : Fin 256) (f : Lock → Lock) : (s.modLock n f).mtc = s.mtc := rfl
@[simp] theorem State.modLock_free (s : State) (n : Fin 256) (f : Lock → Lock) : (s.modLock n f).free = s.free := rfl
@[simp] theorem State.modLock_ticket (s : State) (n : Fin 256) (f : Lock → Lock) : (s.modLock n f).ticket = s.ticket := rfl
@[simp] theorem State.modLock_plat (s : State) (n : Fin 256) (f : Lock → Lock) : (s.modLock n f).plat = s.plat := rfl
@[simp] theorem State.modLock_errs (s : State) (n : Fin 256) (f : Lock → Lock) : (s.modLock n f).errs = s.errs := rfl
@[simp] theorem State.modLock_book (s : State) (n : Fin 256) (f : Lock → Lock) : (s.modLock n f).book = s.book := rfl
@[simp] theorem State.modLock_cores (s : State) (n : Fin 256) (f : Lock → Lock) : (s.modLock n f).cores = s.cores := rfl
@[simp] theorem State.modLock_loops (s : State) (n : Fin 256) (f : Lock → Lock) : (s.modLock n f).loops = s.loops := rfl
@[simp] theorem State.modLock_locks (s : State) (n : Fin 256) (f : Lock → Lock) : (s.modLock n f).locks = upd s.locks n f := rfl
@[simp] theorem State.modLock_mbox (s : State) (n : Fin 256) (f : Lock → Lock) : (s.modLock n f).mbox = s.mbox := rfl
@[simp] theorem State.modLock_valves (s : State) (n : Fin 256) (f : Lock → Lock) : (s.modLock n f).valves = s.valves := rfl
@[simp] theorem State.modLock_banks (s : State) (n : Fin 256) (f : Lock → Lock) : (s.modLock n f).banks = s.banks := rfl
@[simp] theorem State.modLock_loads (s : State) (n : Fin 256) (f : Lock → Lock) : (s.modLock n f).loads = s.loads := rfl
@[simp] theorem State.modLock_ain (s : State) (n : Fin 256) (f : Lock → Lock) : (s.modLock n f).ain = s.ain := rfl
@[simp] theorem State.modLock_ls (s : State) (n : Fin 256) (f : Lock → Lock) : (s.modLock n f).ls = s.ls := rfl
@[simp] theorem State.modLock_newBins (s : State) (n : Fin 256) (f : Lock → Lock) : (s.modLock n f).newBins = s.newBins := rfl
@[simp] theorem State.modLock_imu (s : State) (n : Fin 256) (f : Lock → Lock) : (s.modLock n f).imu = s.imu := rfl
@[simp] theorem State.modLock_cams (s : State) (n : Fin 256) (f : Lock → Lock) : (s.modLock n f).cams = s.cams := rfl
@[simp] theorem State.modLock_cuvee (s : State) (n : Fin 256) (f : Lock → Lock) : (s.modLock n f).cuvee = s.cuvee := rfl
@[simp] theorem State.modLock_racking (s : State) (n : Fin 256) (f : Lock → Lock) : (s.modLock n f).racking = s.racking := rfl
@[simp] theorem State.modLock_gc (s : State) (n : Fin 256) (f : Lock → Lock) : (s.modLock n f).gc = s.gc := rfl
@[simp] theorem State.modLock_pos (s : State) (n : Fin 256) (f : Lock → Lock) : (s.modLock n f).pos = s.pos := rfl
@[simp] theorem State.modLock_time (s : State) (n : Fin 256) (f : Lock → Lock) : (s.modLock n f).time = s.time := rfl
@[simp] theorem State.modLock_codes (s : State) (n : Fin 256) (f : Lock → Lock) : (s.modLock n f).codes = s.codes := rfl
@[simp] theorem State.modLock_trellis (s : State) (n : Fin 256) (f : Lock → Lock) : (s.modLock n f).trellis = s.trellis := rfl
@[simp] theorem State.modLock_can (s : State) (n : Fin 256) (f : Lock → Lock) : (s.modLock n f).can = s.can := rfl
@[simp] theorem State.modLock_nets (s : State) (n : Fin 256) (f : Lock → Lock) : (s.modLock n f).nets = s.nets := rfl
@[simp] theorem State.modLock_tags (s : State) (n : Fin 256) (f : Lock → Lock) : (s.modLock n f).tags = s.tags := rfl
@[simp] theorem State.modLock_switch (s : State) (n : Fin 256) (f : Lock → Lock) : (s.modLock n f).switch = s.switch := rfl
@[simp] theorem State.modLock_fleet (s : State) (n : Fin 256) (f : Lock → Lock) : (s.modLock n f).fleet = s.fleet := rfl
@[simp] theorem State.modLock_dc (s : State) (n : Fin 256) (f : Lock → Lock) : (s.modLock n f).dc = s.dc := rfl
@[simp] theorem State.modLock_manager (s : State) (n : Fin 256) (f : Lock → Lock) : (s.modLock n f).manager = s.manager := rfl
@[simp] theorem State.modLock_sram (s : State) (n : Fin 256) (f : Lock → Lock) : (s.modLock n f).sram = s.sram := rfl
@[simp] theorem State.modLock_dram (s : State) (n : Fin 256) (f : Lock → Lock) : (s.modLock n f).dram = s.dram := rfl
@[simp] theorem State.modLock_pending (s : State) (n : Fin 256) (f : Lock → Lock) : (s.modLock n f).pending = s.pending := rfl

/-! ### State.modMbox -/

@[simp] theorem State.modMbox_regs (s : State) (m : Fin 64) (f : List Msg → List Msg) : (s.modMbox m f).regs = s.regs := rfl
@[simp] theorem State.modMbox_mtc (s : State) (m : Fin 64) (f : List Msg → List Msg) : (s.modMbox m f).mtc = s.mtc := rfl
@[simp] theorem State.modMbox_free (s : State) (m : Fin 64) (f : List Msg → List Msg) : (s.modMbox m f).free = s.free := rfl
@[simp] theorem State.modMbox_ticket (s : State) (m : Fin 64) (f : List Msg → List Msg) : (s.modMbox m f).ticket = s.ticket := rfl
@[simp] theorem State.modMbox_plat (s : State) (m : Fin 64) (f : List Msg → List Msg) : (s.modMbox m f).plat = s.plat := rfl
@[simp] theorem State.modMbox_errs (s : State) (m : Fin 64) (f : List Msg → List Msg) : (s.modMbox m f).errs = s.errs := rfl
@[simp] theorem State.modMbox_book (s : State) (m : Fin 64) (f : List Msg → List Msg) : (s.modMbox m f).book = s.book := rfl
@[simp] theorem State.modMbox_cores (s : State) (m : Fin 64) (f : List Msg → List Msg) : (s.modMbox m f).cores = s.cores := rfl
@[simp] theorem State.modMbox_loops (s : State) (m : Fin 64) (f : List Msg → List Msg) : (s.modMbox m f).loops = s.loops := rfl
@[simp] theorem State.modMbox_locks (s : State) (m : Fin 64) (f : List Msg → List Msg) : (s.modMbox m f).locks = s.locks := rfl
@[simp] theorem State.modMbox_mbox (s : State) (m : Fin 64) (f : List Msg → List Msg) : (s.modMbox m f).mbox = upd s.mbox m f := rfl
@[simp] theorem State.modMbox_valves (s : State) (m : Fin 64) (f : List Msg → List Msg) : (s.modMbox m f).valves = s.valves := rfl
@[simp] theorem State.modMbox_banks (s : State) (m : Fin 64) (f : List Msg → List Msg) : (s.modMbox m f).banks = s.banks := rfl
@[simp] theorem State.modMbox_loads (s : State) (m : Fin 64) (f : List Msg → List Msg) : (s.modMbox m f).loads = s.loads := rfl
@[simp] theorem State.modMbox_ain (s : State) (m : Fin 64) (f : List Msg → List Msg) : (s.modMbox m f).ain = s.ain := rfl
@[simp] theorem State.modMbox_ls (s : State) (m : Fin 64) (f : List Msg → List Msg) : (s.modMbox m f).ls = s.ls := rfl
@[simp] theorem State.modMbox_newBins (s : State) (m : Fin 64) (f : List Msg → List Msg) : (s.modMbox m f).newBins = s.newBins := rfl
@[simp] theorem State.modMbox_imu (s : State) (m : Fin 64) (f : List Msg → List Msg) : (s.modMbox m f).imu = s.imu := rfl
@[simp] theorem State.modMbox_cams (s : State) (m : Fin 64) (f : List Msg → List Msg) : (s.modMbox m f).cams = s.cams := rfl
@[simp] theorem State.modMbox_cuvee (s : State) (m : Fin 64) (f : List Msg → List Msg) : (s.modMbox m f).cuvee = s.cuvee := rfl
@[simp] theorem State.modMbox_racking (s : State) (m : Fin 64) (f : List Msg → List Msg) : (s.modMbox m f).racking = s.racking := rfl
@[simp] theorem State.modMbox_gc (s : State) (m : Fin 64) (f : List Msg → List Msg) : (s.modMbox m f).gc = s.gc := rfl
@[simp] theorem State.modMbox_pos (s : State) (m : Fin 64) (f : List Msg → List Msg) : (s.modMbox m f).pos = s.pos := rfl
@[simp] theorem State.modMbox_time (s : State) (m : Fin 64) (f : List Msg → List Msg) : (s.modMbox m f).time = s.time := rfl
@[simp] theorem State.modMbox_codes (s : State) (m : Fin 64) (f : List Msg → List Msg) : (s.modMbox m f).codes = s.codes := rfl
@[simp] theorem State.modMbox_trellis (s : State) (m : Fin 64) (f : List Msg → List Msg) : (s.modMbox m f).trellis = s.trellis := rfl
@[simp] theorem State.modMbox_can (s : State) (m : Fin 64) (f : List Msg → List Msg) : (s.modMbox m f).can = s.can := rfl
@[simp] theorem State.modMbox_nets (s : State) (m : Fin 64) (f : List Msg → List Msg) : (s.modMbox m f).nets = s.nets := rfl
@[simp] theorem State.modMbox_tags (s : State) (m : Fin 64) (f : List Msg → List Msg) : (s.modMbox m f).tags = s.tags := rfl
@[simp] theorem State.modMbox_switch (s : State) (m : Fin 64) (f : List Msg → List Msg) : (s.modMbox m f).switch = s.switch := rfl
@[simp] theorem State.modMbox_fleet (s : State) (m : Fin 64) (f : List Msg → List Msg) : (s.modMbox m f).fleet = s.fleet := rfl
@[simp] theorem State.modMbox_dc (s : State) (m : Fin 64) (f : List Msg → List Msg) : (s.modMbox m f).dc = s.dc := rfl
@[simp] theorem State.modMbox_manager (s : State) (m : Fin 64) (f : List Msg → List Msg) : (s.modMbox m f).manager = s.manager := rfl
@[simp] theorem State.modMbox_sram (s : State) (m : Fin 64) (f : List Msg → List Msg) : (s.modMbox m f).sram = s.sram := rfl
@[simp] theorem State.modMbox_dram (s : State) (m : Fin 64) (f : List Msg → List Msg) : (s.modMbox m f).dram = s.dram := rfl
@[simp] theorem State.modMbox_pending (s : State) (m : Fin 64) (f : List Msg → List Msg) : (s.modMbox m f).pending = s.pending := rfl

/-! ### State.modValve -/

@[simp] theorem State.modValve_regs (s : State) (c : Fin 32) (f : Valve → Valve) : (s.modValve c f).regs = s.regs := rfl
@[simp] theorem State.modValve_mtc (s : State) (c : Fin 32) (f : Valve → Valve) : (s.modValve c f).mtc = s.mtc := rfl
@[simp] theorem State.modValve_free (s : State) (c : Fin 32) (f : Valve → Valve) : (s.modValve c f).free = s.free := rfl
@[simp] theorem State.modValve_ticket (s : State) (c : Fin 32) (f : Valve → Valve) : (s.modValve c f).ticket = s.ticket := rfl
@[simp] theorem State.modValve_plat (s : State) (c : Fin 32) (f : Valve → Valve) : (s.modValve c f).plat = s.plat := rfl
@[simp] theorem State.modValve_errs (s : State) (c : Fin 32) (f : Valve → Valve) : (s.modValve c f).errs = s.errs := rfl
@[simp] theorem State.modValve_book (s : State) (c : Fin 32) (f : Valve → Valve) : (s.modValve c f).book = s.book := rfl
@[simp] theorem State.modValve_cores (s : State) (c : Fin 32) (f : Valve → Valve) : (s.modValve c f).cores = s.cores := rfl
@[simp] theorem State.modValve_loops (s : State) (c : Fin 32) (f : Valve → Valve) : (s.modValve c f).loops = s.loops := rfl
@[simp] theorem State.modValve_locks (s : State) (c : Fin 32) (f : Valve → Valve) : (s.modValve c f).locks = s.locks := rfl
@[simp] theorem State.modValve_mbox (s : State) (c : Fin 32) (f : Valve → Valve) : (s.modValve c f).mbox = s.mbox := rfl
@[simp] theorem State.modValve_valves (s : State) (c : Fin 32) (f : Valve → Valve) : (s.modValve c f).valves = upd s.valves c f := rfl
@[simp] theorem State.modValve_banks (s : State) (c : Fin 32) (f : Valve → Valve) : (s.modValve c f).banks = s.banks := rfl
@[simp] theorem State.modValve_loads (s : State) (c : Fin 32) (f : Valve → Valve) : (s.modValve c f).loads = s.loads := rfl
@[simp] theorem State.modValve_ain (s : State) (c : Fin 32) (f : Valve → Valve) : (s.modValve c f).ain = s.ain := rfl
@[simp] theorem State.modValve_ls (s : State) (c : Fin 32) (f : Valve → Valve) : (s.modValve c f).ls = s.ls := rfl
@[simp] theorem State.modValve_newBins (s : State) (c : Fin 32) (f : Valve → Valve) : (s.modValve c f).newBins = s.newBins := rfl
@[simp] theorem State.modValve_imu (s : State) (c : Fin 32) (f : Valve → Valve) : (s.modValve c f).imu = s.imu := rfl
@[simp] theorem State.modValve_cams (s : State) (c : Fin 32) (f : Valve → Valve) : (s.modValve c f).cams = s.cams := rfl
@[simp] theorem State.modValve_cuvee (s : State) (c : Fin 32) (f : Valve → Valve) : (s.modValve c f).cuvee = s.cuvee := rfl
@[simp] theorem State.modValve_racking (s : State) (c : Fin 32) (f : Valve → Valve) : (s.modValve c f).racking = s.racking := rfl
@[simp] theorem State.modValve_gc (s : State) (c : Fin 32) (f : Valve → Valve) : (s.modValve c f).gc = s.gc := rfl
@[simp] theorem State.modValve_pos (s : State) (c : Fin 32) (f : Valve → Valve) : (s.modValve c f).pos = s.pos := rfl
@[simp] theorem State.modValve_time (s : State) (c : Fin 32) (f : Valve → Valve) : (s.modValve c f).time = s.time := rfl
@[simp] theorem State.modValve_codes (s : State) (c : Fin 32) (f : Valve → Valve) : (s.modValve c f).codes = s.codes := rfl
@[simp] theorem State.modValve_trellis (s : State) (c : Fin 32) (f : Valve → Valve) : (s.modValve c f).trellis = s.trellis := rfl
@[simp] theorem State.modValve_can (s : State) (c : Fin 32) (f : Valve → Valve) : (s.modValve c f).can = s.can := rfl
@[simp] theorem State.modValve_nets (s : State) (c : Fin 32) (f : Valve → Valve) : (s.modValve c f).nets = s.nets := rfl
@[simp] theorem State.modValve_tags (s : State) (c : Fin 32) (f : Valve → Valve) : (s.modValve c f).tags = s.tags := rfl
@[simp] theorem State.modValve_switch (s : State) (c : Fin 32) (f : Valve → Valve) : (s.modValve c f).switch = s.switch := rfl
@[simp] theorem State.modValve_fleet (s : State) (c : Fin 32) (f : Valve → Valve) : (s.modValve c f).fleet = s.fleet := rfl
@[simp] theorem State.modValve_dc (s : State) (c : Fin 32) (f : Valve → Valve) : (s.modValve c f).dc = s.dc := rfl
@[simp] theorem State.modValve_manager (s : State) (c : Fin 32) (f : Valve → Valve) : (s.modValve c f).manager = s.manager := rfl
@[simp] theorem State.modValve_sram (s : State) (c : Fin 32) (f : Valve → Valve) : (s.modValve c f).sram = s.sram := rfl
@[simp] theorem State.modValve_dram (s : State) (c : Fin 32) (f : Valve → Valve) : (s.modValve c f).dram = s.dram := rfl
@[simp] theorem State.modValve_pending (s : State) (c : Fin 32) (f : Valve → Valve) : (s.modValve c f).pending = s.pending := rfl

/-! ### State.modBank -/

@[simp] theorem State.modBank_regs (s : State) (b : Fin 8) (f : Bank → Bank) : (s.modBank b f).regs = s.regs := rfl
@[simp] theorem State.modBank_mtc (s : State) (b : Fin 8) (f : Bank → Bank) : (s.modBank b f).mtc = s.mtc := rfl
@[simp] theorem State.modBank_free (s : State) (b : Fin 8) (f : Bank → Bank) : (s.modBank b f).free = s.free := rfl
@[simp] theorem State.modBank_ticket (s : State) (b : Fin 8) (f : Bank → Bank) : (s.modBank b f).ticket = s.ticket := rfl
@[simp] theorem State.modBank_plat (s : State) (b : Fin 8) (f : Bank → Bank) : (s.modBank b f).plat = s.plat := rfl
@[simp] theorem State.modBank_errs (s : State) (b : Fin 8) (f : Bank → Bank) : (s.modBank b f).errs = s.errs := rfl
@[simp] theorem State.modBank_book (s : State) (b : Fin 8) (f : Bank → Bank) : (s.modBank b f).book = s.book := rfl
@[simp] theorem State.modBank_cores (s : State) (b : Fin 8) (f : Bank → Bank) : (s.modBank b f).cores = s.cores := rfl
@[simp] theorem State.modBank_loops (s : State) (b : Fin 8) (f : Bank → Bank) : (s.modBank b f).loops = s.loops := rfl
@[simp] theorem State.modBank_locks (s : State) (b : Fin 8) (f : Bank → Bank) : (s.modBank b f).locks = s.locks := rfl
@[simp] theorem State.modBank_mbox (s : State) (b : Fin 8) (f : Bank → Bank) : (s.modBank b f).mbox = s.mbox := rfl
@[simp] theorem State.modBank_valves (s : State) (b : Fin 8) (f : Bank → Bank) : (s.modBank b f).valves = s.valves := rfl
@[simp] theorem State.modBank_banks (s : State) (b : Fin 8) (f : Bank → Bank) : (s.modBank b f).banks = upd s.banks b f := rfl
@[simp] theorem State.modBank_loads (s : State) (b : Fin 8) (f : Bank → Bank) : (s.modBank b f).loads = s.loads := rfl
@[simp] theorem State.modBank_ain (s : State) (b : Fin 8) (f : Bank → Bank) : (s.modBank b f).ain = s.ain := rfl
@[simp] theorem State.modBank_ls (s : State) (b : Fin 8) (f : Bank → Bank) : (s.modBank b f).ls = s.ls := rfl
@[simp] theorem State.modBank_newBins (s : State) (b : Fin 8) (f : Bank → Bank) : (s.modBank b f).newBins = s.newBins := rfl
@[simp] theorem State.modBank_imu (s : State) (b : Fin 8) (f : Bank → Bank) : (s.modBank b f).imu = s.imu := rfl
@[simp] theorem State.modBank_cams (s : State) (b : Fin 8) (f : Bank → Bank) : (s.modBank b f).cams = s.cams := rfl
@[simp] theorem State.modBank_cuvee (s : State) (b : Fin 8) (f : Bank → Bank) : (s.modBank b f).cuvee = s.cuvee := rfl
@[simp] theorem State.modBank_racking (s : State) (b : Fin 8) (f : Bank → Bank) : (s.modBank b f).racking = s.racking := rfl
@[simp] theorem State.modBank_gc (s : State) (b : Fin 8) (f : Bank → Bank) : (s.modBank b f).gc = s.gc := rfl
@[simp] theorem State.modBank_pos (s : State) (b : Fin 8) (f : Bank → Bank) : (s.modBank b f).pos = s.pos := rfl
@[simp] theorem State.modBank_time (s : State) (b : Fin 8) (f : Bank → Bank) : (s.modBank b f).time = s.time := rfl
@[simp] theorem State.modBank_codes (s : State) (b : Fin 8) (f : Bank → Bank) : (s.modBank b f).codes = s.codes := rfl
@[simp] theorem State.modBank_trellis (s : State) (b : Fin 8) (f : Bank → Bank) : (s.modBank b f).trellis = s.trellis := rfl
@[simp] theorem State.modBank_can (s : State) (b : Fin 8) (f : Bank → Bank) : (s.modBank b f).can = s.can := rfl
@[simp] theorem State.modBank_nets (s : State) (b : Fin 8) (f : Bank → Bank) : (s.modBank b f).nets = s.nets := rfl
@[simp] theorem State.modBank_tags (s : State) (b : Fin 8) (f : Bank → Bank) : (s.modBank b f).tags = s.tags := rfl
@[simp] theorem State.modBank_switch (s : State) (b : Fin 8) (f : Bank → Bank) : (s.modBank b f).switch = s.switch := rfl
@[simp] theorem State.modBank_fleet (s : State) (b : Fin 8) (f : Bank → Bank) : (s.modBank b f).fleet = s.fleet := rfl
@[simp] theorem State.modBank_dc (s : State) (b : Fin 8) (f : Bank → Bank) : (s.modBank b f).dc = s.dc := rfl
@[simp] theorem State.modBank_manager (s : State) (b : Fin 8) (f : Bank → Bank) : (s.modBank b f).manager = s.manager := rfl
@[simp] theorem State.modBank_sram (s : State) (b : Fin 8) (f : Bank → Bank) : (s.modBank b f).sram = s.sram := rfl
@[simp] theorem State.modBank_dram (s : State) (b : Fin 8) (f : Bank → Bank) : (s.modBank b f).dram = s.dram := rfl
@[simp] theorem State.modBank_pending (s : State) (b : Fin 8) (f : Bank → Bank) : (s.modBank b f).pending = s.pending := rfl

/-! ### State.modLoad -/

@[simp] theorem State.modLoad_regs (s : State) (n : Fin 48) (f : Load → Load) : (s.modLoad n f).regs = s.regs := rfl
@[simp] theorem State.modLoad_mtc (s : State) (n : Fin 48) (f : Load → Load) : (s.modLoad n f).mtc = s.mtc := rfl
@[simp] theorem State.modLoad_free (s : State) (n : Fin 48) (f : Load → Load) : (s.modLoad n f).free = s.free := rfl
@[simp] theorem State.modLoad_ticket (s : State) (n : Fin 48) (f : Load → Load) : (s.modLoad n f).ticket = s.ticket := rfl
@[simp] theorem State.modLoad_plat (s : State) (n : Fin 48) (f : Load → Load) : (s.modLoad n f).plat = s.plat := rfl
@[simp] theorem State.modLoad_errs (s : State) (n : Fin 48) (f : Load → Load) : (s.modLoad n f).errs = s.errs := rfl
@[simp] theorem State.modLoad_book (s : State) (n : Fin 48) (f : Load → Load) : (s.modLoad n f).book = s.book := rfl
@[simp] theorem State.modLoad_cores (s : State) (n : Fin 48) (f : Load → Load) : (s.modLoad n f).cores = s.cores := rfl
@[simp] theorem State.modLoad_loops (s : State) (n : Fin 48) (f : Load → Load) : (s.modLoad n f).loops = s.loops := rfl
@[simp] theorem State.modLoad_locks (s : State) (n : Fin 48) (f : Load → Load) : (s.modLoad n f).locks = s.locks := rfl
@[simp] theorem State.modLoad_mbox (s : State) (n : Fin 48) (f : Load → Load) : (s.modLoad n f).mbox = s.mbox := rfl
@[simp] theorem State.modLoad_valves (s : State) (n : Fin 48) (f : Load → Load) : (s.modLoad n f).valves = s.valves := rfl
@[simp] theorem State.modLoad_banks (s : State) (n : Fin 48) (f : Load → Load) : (s.modLoad n f).banks = s.banks := rfl
@[simp] theorem State.modLoad_loads (s : State) (n : Fin 48) (f : Load → Load) : (s.modLoad n f).loads = upd s.loads n f := rfl
@[simp] theorem State.modLoad_ain (s : State) (n : Fin 48) (f : Load → Load) : (s.modLoad n f).ain = s.ain := rfl
@[simp] theorem State.modLoad_ls (s : State) (n : Fin 48) (f : Load → Load) : (s.modLoad n f).ls = s.ls := rfl
@[simp] theorem State.modLoad_newBins (s : State) (n : Fin 48) (f : Load → Load) : (s.modLoad n f).newBins = s.newBins := rfl
@[simp] theorem State.modLoad_imu (s : State) (n : Fin 48) (f : Load → Load) : (s.modLoad n f).imu = s.imu := rfl
@[simp] theorem State.modLoad_cams (s : State) (n : Fin 48) (f : Load → Load) : (s.modLoad n f).cams = s.cams := rfl
@[simp] theorem State.modLoad_cuvee (s : State) (n : Fin 48) (f : Load → Load) : (s.modLoad n f).cuvee = s.cuvee := rfl
@[simp] theorem State.modLoad_racking (s : State) (n : Fin 48) (f : Load → Load) : (s.modLoad n f).racking = s.racking := rfl
@[simp] theorem State.modLoad_gc (s : State) (n : Fin 48) (f : Load → Load) : (s.modLoad n f).gc = s.gc := rfl
@[simp] theorem State.modLoad_pos (s : State) (n : Fin 48) (f : Load → Load) : (s.modLoad n f).pos = s.pos := rfl
@[simp] theorem State.modLoad_time (s : State) (n : Fin 48) (f : Load → Load) : (s.modLoad n f).time = s.time := rfl
@[simp] theorem State.modLoad_codes (s : State) (n : Fin 48) (f : Load → Load) : (s.modLoad n f).codes = s.codes := rfl
@[simp] theorem State.modLoad_trellis (s : State) (n : Fin 48) (f : Load → Load) : (s.modLoad n f).trellis = s.trellis := rfl
@[simp] theorem State.modLoad_can (s : State) (n : Fin 48) (f : Load → Load) : (s.modLoad n f).can = s.can := rfl
@[simp] theorem State.modLoad_nets (s : State) (n : Fin 48) (f : Load → Load) : (s.modLoad n f).nets = s.nets := rfl
@[simp] theorem State.modLoad_tags (s : State) (n : Fin 48) (f : Load → Load) : (s.modLoad n f).tags = s.tags := rfl
@[simp] theorem State.modLoad_switch (s : State) (n : Fin 48) (f : Load → Load) : (s.modLoad n f).switch = s.switch := rfl
@[simp] theorem State.modLoad_fleet (s : State) (n : Fin 48) (f : Load → Load) : (s.modLoad n f).fleet = s.fleet := rfl
@[simp] theorem State.modLoad_dc (s : State) (n : Fin 48) (f : Load → Load) : (s.modLoad n f).dc = s.dc := rfl
@[simp] theorem State.modLoad_manager (s : State) (n : Fin 48) (f : Load → Load) : (s.modLoad n f).manager = s.manager := rfl
@[simp] theorem State.modLoad_sram (s : State) (n : Fin 48) (f : Load → Load) : (s.modLoad n f).sram = s.sram := rfl
@[simp] theorem State.modLoad_dram (s : State) (n : Fin 48) (f : Load → Load) : (s.modLoad n f).dram = s.dram := rfl
@[simp] theorem State.modLoad_pending (s : State) (n : Fin 48) (f : Load → Load) : (s.modLoad n f).pending = s.pending := rfl

/-! ### State.modAin -/

@[simp] theorem State.modAin_regs (s : State) (n : Fin 40) (f : Ain → Ain) : (s.modAin n f).regs = s.regs := rfl
@[simp] theorem State.modAin_mtc (s : State) (n : Fin 40) (f : Ain → Ain) : (s.modAin n f).mtc = s.mtc := rfl
@[simp] theorem State.modAin_free (s : State) (n : Fin 40) (f : Ain → Ain) : (s.modAin n f).free = s.free := rfl
@[simp] theorem State.modAin_ticket (s : State) (n : Fin 40) (f : Ain → Ain) : (s.modAin n f).ticket = s.ticket := rfl
@[simp] theorem State.modAin_plat (s : State) (n : Fin 40) (f : Ain → Ain) : (s.modAin n f).plat = s.plat := rfl
@[simp] theorem State.modAin_errs (s : State) (n : Fin 40) (f : Ain → Ain) : (s.modAin n f).errs = s.errs := rfl
@[simp] theorem State.modAin_book (s : State) (n : Fin 40) (f : Ain → Ain) : (s.modAin n f).book = s.book := rfl
@[simp] theorem State.modAin_cores (s : State) (n : Fin 40) (f : Ain → Ain) : (s.modAin n f).cores = s.cores := rfl
@[simp] theorem State.modAin_loops (s : State) (n : Fin 40) (f : Ain → Ain) : (s.modAin n f).loops = s.loops := rfl
@[simp] theorem State.modAin_locks (s : State) (n : Fin 40) (f : Ain → Ain) : (s.modAin n f).locks = s.locks := rfl
@[simp] theorem State.modAin_mbox (s : State) (n : Fin 40) (f : Ain → Ain) : (s.modAin n f).mbox = s.mbox := rfl
@[simp] theorem State.modAin_valves (s : State) (n : Fin 40) (f : Ain → Ain) : (s.modAin n f).valves = s.valves := rfl
@[simp] theorem State.modAin_banks (s : State) (n : Fin 40) (f : Ain → Ain) : (s.modAin n f).banks = s.banks := rfl
@[simp] theorem State.modAin_loads (s : State) (n : Fin 40) (f : Ain → Ain) : (s.modAin n f).loads = s.loads := rfl
@[simp] theorem State.modAin_ain (s : State) (n : Fin 40) (f : Ain → Ain) : (s.modAin n f).ain = upd s.ain n f := rfl
@[simp] theorem State.modAin_ls (s : State) (n : Fin 40) (f : Ain → Ain) : (s.modAin n f).ls = s.ls := rfl
@[simp] theorem State.modAin_newBins (s : State) (n : Fin 40) (f : Ain → Ain) : (s.modAin n f).newBins = s.newBins := rfl
@[simp] theorem State.modAin_imu (s : State) (n : Fin 40) (f : Ain → Ain) : (s.modAin n f).imu = s.imu := rfl
@[simp] theorem State.modAin_cams (s : State) (n : Fin 40) (f : Ain → Ain) : (s.modAin n f).cams = s.cams := rfl
@[simp] theorem State.modAin_cuvee (s : State) (n : Fin 40) (f : Ain → Ain) : (s.modAin n f).cuvee = s.cuvee := rfl
@[simp] theorem State.modAin_racking (s : State) (n : Fin 40) (f : Ain → Ain) : (s.modAin n f).racking = s.racking := rfl
@[simp] theorem State.modAin_gc (s : State) (n : Fin 40) (f : Ain → Ain) : (s.modAin n f).gc = s.gc := rfl
@[simp] theorem State.modAin_pos (s : State) (n : Fin 40) (f : Ain → Ain) : (s.modAin n f).pos = s.pos := rfl
@[simp] theorem State.modAin_time (s : State) (n : Fin 40) (f : Ain → Ain) : (s.modAin n f).time = s.time := rfl
@[simp] theorem State.modAin_codes (s : State) (n : Fin 40) (f : Ain → Ain) : (s.modAin n f).codes = s.codes := rfl
@[simp] theorem State.modAin_trellis (s : State) (n : Fin 40) (f : Ain → Ain) : (s.modAin n f).trellis = s.trellis := rfl
@[simp] theorem State.modAin_can (s : State) (n : Fin 40) (f : Ain → Ain) : (s.modAin n f).can = s.can := rfl
@[simp] theorem State.modAin_nets (s : State) (n : Fin 40) (f : Ain → Ain) : (s.modAin n f).nets = s.nets := rfl
@[simp] theorem State.modAin_tags (s : State) (n : Fin 40) (f : Ain → Ain) : (s.modAin n f).tags = s.tags := rfl
@[simp] theorem State.modAin_switch (s : State) (n : Fin 40) (f : Ain → Ain) : (s.modAin n f).switch = s.switch := rfl
@[simp] theorem State.modAin_fleet (s : State) (n : Fin 40) (f : Ain → Ain) : (s.modAin n f).fleet = s.fleet := rfl
@[simp] theorem State.modAin_dc (s : State) (n : Fin 40) (f : Ain → Ain) : (s.modAin n f).dc = s.dc := rfl
@[simp] theorem State.modAin_manager (s : State) (n : Fin 40) (f : Ain → Ain) : (s.modAin n f).manager = s.manager := rfl
@[simp] theorem State.modAin_sram (s : State) (n : Fin 40) (f : Ain → Ain) : (s.modAin n f).sram = s.sram := rfl
@[simp] theorem State.modAin_dram (s : State) (n : Fin 40) (f : Ain → Ain) : (s.modAin n f).dram = s.dram := rfl
@[simp] theorem State.modAin_pending (s : State) (n : Fin 40) (f : Ain → Ain) : (s.modAin n f).pending = s.pending := rfl

/-! ### State.modLs -/

@[simp] theorem State.modLs_regs (s : State) (n : Fin 16) (f : Ls → Ls) : (s.modLs n f).regs = s.regs := rfl
@[simp] theorem State.modLs_mtc (s : State) (n : Fin 16) (f : Ls → Ls) : (s.modLs n f).mtc = s.mtc := rfl
@[simp] theorem State.modLs_free (s : State) (n : Fin 16) (f : Ls → Ls) : (s.modLs n f).free = s.free := rfl
@[simp] theorem State.modLs_ticket (s : State) (n : Fin 16) (f : Ls → Ls) : (s.modLs n f).ticket = s.ticket := rfl
@[simp] theorem State.modLs_plat (s : State) (n : Fin 16) (f : Ls → Ls) : (s.modLs n f).plat = s.plat := rfl
@[simp] theorem State.modLs_errs (s : State) (n : Fin 16) (f : Ls → Ls) : (s.modLs n f).errs = s.errs := rfl
@[simp] theorem State.modLs_book (s : State) (n : Fin 16) (f : Ls → Ls) : (s.modLs n f).book = s.book := rfl
@[simp] theorem State.modLs_cores (s : State) (n : Fin 16) (f : Ls → Ls) : (s.modLs n f).cores = s.cores := rfl
@[simp] theorem State.modLs_loops (s : State) (n : Fin 16) (f : Ls → Ls) : (s.modLs n f).loops = s.loops := rfl
@[simp] theorem State.modLs_locks (s : State) (n : Fin 16) (f : Ls → Ls) : (s.modLs n f).locks = s.locks := rfl
@[simp] theorem State.modLs_mbox (s : State) (n : Fin 16) (f : Ls → Ls) : (s.modLs n f).mbox = s.mbox := rfl
@[simp] theorem State.modLs_valves (s : State) (n : Fin 16) (f : Ls → Ls) : (s.modLs n f).valves = s.valves := rfl
@[simp] theorem State.modLs_banks (s : State) (n : Fin 16) (f : Ls → Ls) : (s.modLs n f).banks = s.banks := rfl
@[simp] theorem State.modLs_loads (s : State) (n : Fin 16) (f : Ls → Ls) : (s.modLs n f).loads = s.loads := rfl
@[simp] theorem State.modLs_ain (s : State) (n : Fin 16) (f : Ls → Ls) : (s.modLs n f).ain = s.ain := rfl
@[simp] theorem State.modLs_ls (s : State) (n : Fin 16) (f : Ls → Ls) : (s.modLs n f).ls = upd s.ls n f := rfl
@[simp] theorem State.modLs_newBins (s : State) (n : Fin 16) (f : Ls → Ls) : (s.modLs n f).newBins = s.newBins := rfl
@[simp] theorem State.modLs_imu (s : State) (n : Fin 16) (f : Ls → Ls) : (s.modLs n f).imu = s.imu := rfl
@[simp] theorem State.modLs_cams (s : State) (n : Fin 16) (f : Ls → Ls) : (s.modLs n f).cams = s.cams := rfl
@[simp] theorem State.modLs_cuvee (s : State) (n : Fin 16) (f : Ls → Ls) : (s.modLs n f).cuvee = s.cuvee := rfl
@[simp] theorem State.modLs_racking (s : State) (n : Fin 16) (f : Ls → Ls) : (s.modLs n f).racking = s.racking := rfl
@[simp] theorem State.modLs_gc (s : State) (n : Fin 16) (f : Ls → Ls) : (s.modLs n f).gc = s.gc := rfl
@[simp] theorem State.modLs_pos (s : State) (n : Fin 16) (f : Ls → Ls) : (s.modLs n f).pos = s.pos := rfl
@[simp] theorem State.modLs_time (s : State) (n : Fin 16) (f : Ls → Ls) : (s.modLs n f).time = s.time := rfl
@[simp] theorem State.modLs_codes (s : State) (n : Fin 16) (f : Ls → Ls) : (s.modLs n f).codes = s.codes := rfl
@[simp] theorem State.modLs_trellis (s : State) (n : Fin 16) (f : Ls → Ls) : (s.modLs n f).trellis = s.trellis := rfl
@[simp] theorem State.modLs_can (s : State) (n : Fin 16) (f : Ls → Ls) : (s.modLs n f).can = s.can := rfl
@[simp] theorem State.modLs_nets (s : State) (n : Fin 16) (f : Ls → Ls) : (s.modLs n f).nets = s.nets := rfl
@[simp] theorem State.modLs_tags (s : State) (n : Fin 16) (f : Ls → Ls) : (s.modLs n f).tags = s.tags := rfl
@[simp] theorem State.modLs_switch (s : State) (n : Fin 16) (f : Ls → Ls) : (s.modLs n f).switch = s.switch := rfl
@[simp] theorem State.modLs_fleet (s : State) (n : Fin 16) (f : Ls → Ls) : (s.modLs n f).fleet = s.fleet := rfl
@[simp] theorem State.modLs_dc (s : State) (n : Fin 16) (f : Ls → Ls) : (s.modLs n f).dc = s.dc := rfl
@[simp] theorem State.modLs_manager (s : State) (n : Fin 16) (f : Ls → Ls) : (s.modLs n f).manager = s.manager := rfl
@[simp] theorem State.modLs_sram (s : State) (n : Fin 16) (f : Ls → Ls) : (s.modLs n f).sram = s.sram := rfl
@[simp] theorem State.modLs_dram (s : State) (n : Fin 16) (f : Ls → Ls) : (s.modLs n f).dram = s.dram := rfl
@[simp] theorem State.modLs_pending (s : State) (n : Fin 16) (f : Ls → Ls) : (s.modLs n f).pending = s.pending := rfl

/-! ### State.modCam -/

@[simp] theorem State.modCam_regs (s : State) (n : Fin 10) (f : Cam → Cam) : (s.modCam n f).regs = s.regs := rfl
@[simp] theorem State.modCam_mtc (s : State) (n : Fin 10) (f : Cam → Cam) : (s.modCam n f).mtc = s.mtc := rfl
@[simp] theorem State.modCam_free (s : State) (n : Fin 10) (f : Cam → Cam) : (s.modCam n f).free = s.free := rfl
@[simp] theorem State.modCam_ticket (s : State) (n : Fin 10) (f : Cam → Cam) : (s.modCam n f).ticket = s.ticket := rfl
@[simp] theorem State.modCam_plat (s : State) (n : Fin 10) (f : Cam → Cam) : (s.modCam n f).plat = s.plat := rfl
@[simp] theorem State.modCam_errs (s : State) (n : Fin 10) (f : Cam → Cam) : (s.modCam n f).errs = s.errs := rfl
@[simp] theorem State.modCam_book (s : State) (n : Fin 10) (f : Cam → Cam) : (s.modCam n f).book = s.book := rfl
@[simp] theorem State.modCam_cores (s : State) (n : Fin 10) (f : Cam → Cam) : (s.modCam n f).cores = s.cores := rfl
@[simp] theorem State.modCam_loops (s : State) (n : Fin 10) (f : Cam → Cam) : (s.modCam n f).loops = s.loops := rfl
@[simp] theorem State.modCam_locks (s : State) (n : Fin 10) (f : Cam → Cam) : (s.modCam n f).locks = s.locks := rfl
@[simp] theorem State.modCam_mbox (s : State) (n : Fin 10) (f : Cam → Cam) : (s.modCam n f).mbox = s.mbox := rfl
@[simp] theorem State.modCam_valves (s : State) (n : Fin 10) (f : Cam → Cam) : (s.modCam n f).valves = s.valves := rfl
@[simp] theorem State.modCam_banks (s : State) (n : Fin 10) (f : Cam → Cam) : (s.modCam n f).banks = s.banks := rfl
@[simp] theorem State.modCam_loads (s : State) (n : Fin 10) (f : Cam → Cam) : (s.modCam n f).loads = s.loads := rfl
@[simp] theorem State.modCam_ain (s : State) (n : Fin 10) (f : Cam → Cam) : (s.modCam n f).ain = s.ain := rfl
@[simp] theorem State.modCam_ls (s : State) (n : Fin 10) (f : Cam → Cam) : (s.modCam n f).ls = s.ls := rfl
@[simp] theorem State.modCam_newBins (s : State) (n : Fin 10) (f : Cam → Cam) : (s.modCam n f).newBins = s.newBins := rfl
@[simp] theorem State.modCam_imu (s : State) (n : Fin 10) (f : Cam → Cam) : (s.modCam n f).imu = s.imu := rfl
@[simp] theorem State.modCam_cams (s : State) (n : Fin 10) (f : Cam → Cam) : (s.modCam n f).cams = upd s.cams n f := rfl
@[simp] theorem State.modCam_cuvee (s : State) (n : Fin 10) (f : Cam → Cam) : (s.modCam n f).cuvee = s.cuvee := rfl
@[simp] theorem State.modCam_racking (s : State) (n : Fin 10) (f : Cam → Cam) : (s.modCam n f).racking = s.racking := rfl
@[simp] theorem State.modCam_gc (s : State) (n : Fin 10) (f : Cam → Cam) : (s.modCam n f).gc = s.gc := rfl
@[simp] theorem State.modCam_pos (s : State) (n : Fin 10) (f : Cam → Cam) : (s.modCam n f).pos = s.pos := rfl
@[simp] theorem State.modCam_time (s : State) (n : Fin 10) (f : Cam → Cam) : (s.modCam n f).time = s.time := rfl
@[simp] theorem State.modCam_codes (s : State) (n : Fin 10) (f : Cam → Cam) : (s.modCam n f).codes = s.codes := rfl
@[simp] theorem State.modCam_trellis (s : State) (n : Fin 10) (f : Cam → Cam) : (s.modCam n f).trellis = s.trellis := rfl
@[simp] theorem State.modCam_can (s : State) (n : Fin 10) (f : Cam → Cam) : (s.modCam n f).can = s.can := rfl
@[simp] theorem State.modCam_nets (s : State) (n : Fin 10) (f : Cam → Cam) : (s.modCam n f).nets = s.nets := rfl
@[simp] theorem State.modCam_tags (s : State) (n : Fin 10) (f : Cam → Cam) : (s.modCam n f).tags = s.tags := rfl
@[simp] theorem State.modCam_switch (s : State) (n : Fin 10) (f : Cam → Cam) : (s.modCam n f).switch = s.switch := rfl
@[simp] theorem State.modCam_fleet (s : State) (n : Fin 10) (f : Cam → Cam) : (s.modCam n f).fleet = s.fleet := rfl
@[simp] theorem State.modCam_dc (s : State) (n : Fin 10) (f : Cam → Cam) : (s.modCam n f).dc = s.dc := rfl
@[simp] theorem State.modCam_manager (s : State) (n : Fin 10) (f : Cam → Cam) : (s.modCam n f).manager = s.manager := rfl
@[simp] theorem State.modCam_sram (s : State) (n : Fin 10) (f : Cam → Cam) : (s.modCam n f).sram = s.sram := rfl
@[simp] theorem State.modCam_dram (s : State) (n : Fin 10) (f : Cam → Cam) : (s.modCam n f).dram = s.dram := rfl
@[simp] theorem State.modCam_pending (s : State) (n : Fin 10) (f : Cam → Cam) : (s.modCam n f).pending = s.pending := rfl

/-! ### State.modCv -/

@[simp] theorem State.modCv_regs (s : State) (f : Cuvee → Cuvee) : (s.modCv f).regs = s.regs := rfl
@[simp] theorem State.modCv_mtc (s : State) (f : Cuvee → Cuvee) : (s.modCv f).mtc = s.mtc := rfl
@[simp] theorem State.modCv_free (s : State) (f : Cuvee → Cuvee) : (s.modCv f).free = s.free := rfl
@[simp] theorem State.modCv_ticket (s : State) (f : Cuvee → Cuvee) : (s.modCv f).ticket = s.ticket := rfl
@[simp] theorem State.modCv_plat (s : State) (f : Cuvee → Cuvee) : (s.modCv f).plat = s.plat := rfl
@[simp] theorem State.modCv_errs (s : State) (f : Cuvee → Cuvee) : (s.modCv f).errs = s.errs := rfl
@[simp] theorem State.modCv_book (s : State) (f : Cuvee → Cuvee) : (s.modCv f).book = s.book := rfl
@[simp] theorem State.modCv_cores (s : State) (f : Cuvee → Cuvee) : (s.modCv f).cores = s.cores := rfl
@[simp] theorem State.modCv_loops (s : State) (f : Cuvee → Cuvee) : (s.modCv f).loops = s.loops := rfl
@[simp] theorem State.modCv_locks (s : State) (f : Cuvee → Cuvee) : (s.modCv f).locks = s.locks := rfl
@[simp] theorem State.modCv_mbox (s : State) (f : Cuvee → Cuvee) : (s.modCv f).mbox = s.mbox := rfl
@[simp] theorem State.modCv_valves (s : State) (f : Cuvee → Cuvee) : (s.modCv f).valves = s.valves := rfl
@[simp] theorem State.modCv_banks (s : State) (f : Cuvee → Cuvee) : (s.modCv f).banks = s.banks := rfl
@[simp] theorem State.modCv_loads (s : State) (f : Cuvee → Cuvee) : (s.modCv f).loads = s.loads := rfl
@[simp] theorem State.modCv_ain (s : State) (f : Cuvee → Cuvee) : (s.modCv f).ain = s.ain := rfl
@[simp] theorem State.modCv_ls (s : State) (f : Cuvee → Cuvee) : (s.modCv f).ls = s.ls := rfl
@[simp] theorem State.modCv_newBins (s : State) (f : Cuvee → Cuvee) : (s.modCv f).newBins = s.newBins := rfl
@[simp] theorem State.modCv_imu (s : State) (f : Cuvee → Cuvee) : (s.modCv f).imu = s.imu := rfl
@[simp] theorem State.modCv_cams (s : State) (f : Cuvee → Cuvee) : (s.modCv f).cams = s.cams := rfl
@[simp] theorem State.modCv_cuvee (s : State) (f : Cuvee → Cuvee) : (s.modCv f).cuvee = f s.cuvee := rfl
@[simp] theorem State.modCv_racking (s : State) (f : Cuvee → Cuvee) : (s.modCv f).racking = s.racking := rfl
@[simp] theorem State.modCv_gc (s : State) (f : Cuvee → Cuvee) : (s.modCv f).gc = s.gc := rfl
@[simp] theorem State.modCv_pos (s : State) (f : Cuvee → Cuvee) : (s.modCv f).pos = s.pos := rfl
@[simp] theorem State.modCv_time (s : State) (f : Cuvee → Cuvee) : (s.modCv f).time = s.time := rfl
@[simp] theorem State.modCv_codes (s : State) (f : Cuvee → Cuvee) : (s.modCv f).codes = s.codes := rfl
@[simp] theorem State.modCv_trellis (s : State) (f : Cuvee → Cuvee) : (s.modCv f).trellis = s.trellis := rfl
@[simp] theorem State.modCv_can (s : State) (f : Cuvee → Cuvee) : (s.modCv f).can = s.can := rfl
@[simp] theorem State.modCv_nets (s : State) (f : Cuvee → Cuvee) : (s.modCv f).nets = s.nets := rfl
@[simp] theorem State.modCv_tags (s : State) (f : Cuvee → Cuvee) : (s.modCv f).tags = s.tags := rfl
@[simp] theorem State.modCv_switch (s : State) (f : Cuvee → Cuvee) : (s.modCv f).switch = s.switch := rfl
@[simp] theorem State.modCv_fleet (s : State) (f : Cuvee → Cuvee) : (s.modCv f).fleet = s.fleet := rfl
@[simp] theorem State.modCv_dc (s : State) (f : Cuvee → Cuvee) : (s.modCv f).dc = s.dc := rfl
@[simp] theorem State.modCv_manager (s : State) (f : Cuvee → Cuvee) : (s.modCv f).manager = s.manager := rfl
@[simp] theorem State.modCv_sram (s : State) (f : Cuvee → Cuvee) : (s.modCv f).sram = s.sram := rfl
@[simp] theorem State.modCv_dram (s : State) (f : Cuvee → Cuvee) : (s.modCv f).dram = s.dram := rfl
@[simp] theorem State.modCv_pending (s : State) (f : Cuvee → Cuvee) : (s.modCv f).pending = s.pending := rfl

/-! ### State.modSens -/

@[simp] theorem State.modSens_regs (s : State) (n : Fin 16) (f : CvSensor → CvSensor) : (s.modSens n f).regs = s.regs := rfl
@[simp] theorem State.modSens_mtc (s : State) (n : Fin 16) (f : CvSensor → CvSensor) : (s.modSens n f).mtc = s.mtc := rfl
@[simp] theorem State.modSens_free (s : State) (n : Fin 16) (f : CvSensor → CvSensor) : (s.modSens n f).free = s.free := rfl
@[simp] theorem State.modSens_ticket (s : State) (n : Fin 16) (f : CvSensor → CvSensor) : (s.modSens n f).ticket = s.ticket := rfl
@[simp] theorem State.modSens_plat (s : State) (n : Fin 16) (f : CvSensor → CvSensor) : (s.modSens n f).plat = s.plat := rfl
@[simp] theorem State.modSens_errs (s : State) (n : Fin 16) (f : CvSensor → CvSensor) : (s.modSens n f).errs = s.errs := rfl
@[simp] theorem State.modSens_book (s : State) (n : Fin 16) (f : CvSensor → CvSensor) : (s.modSens n f).book = s.book := rfl
@[simp] theorem State.modSens_cores (s : State) (n : Fin 16) (f : CvSensor → CvSensor) : (s.modSens n f).cores = s.cores := rfl
@[simp] theorem State.modSens_loops (s : State) (n : Fin 16) (f : CvSensor → CvSensor) : (s.modSens n f).loops = s.loops := rfl
@[simp] theorem State.modSens_locks (s : State) (n : Fin 16) (f : CvSensor → CvSensor) : (s.modSens n f).locks = s.locks := rfl
@[simp] theorem State.modSens_mbox (s : State) (n : Fin 16) (f : CvSensor → CvSensor) : (s.modSens n f).mbox = s.mbox := rfl
@[simp] theorem State.modSens_valves (s : State) (n : Fin 16) (f : CvSensor → CvSensor) : (s.modSens n f).valves = s.valves := rfl
@[simp] theorem State.modSens_banks (s : State) (n : Fin 16) (f : CvSensor → CvSensor) : (s.modSens n f).banks = s.banks := rfl
@[simp] theorem State.modSens_loads (s : State) (n : Fin 16) (f : CvSensor → CvSensor) : (s.modSens n f).loads = s.loads := rfl
@[simp] theorem State.modSens_ain (s : State) (n : Fin 16) (f : CvSensor → CvSensor) : (s.modSens n f).ain = s.ain := rfl
@[simp] theorem State.modSens_ls (s : State) (n : Fin 16) (f : CvSensor → CvSensor) : (s.modSens n f).ls = s.ls := rfl
@[simp] theorem State.modSens_newBins (s : State) (n : Fin 16) (f : CvSensor → CvSensor) : (s.modSens n f).newBins = s.newBins := rfl
@[simp] theorem State.modSens_imu (s : State) (n : Fin 16) (f : CvSensor → CvSensor) : (s.modSens n f).imu = s.imu := rfl
@[simp] theorem State.modSens_cams (s : State) (n : Fin 16) (f : CvSensor → CvSensor) : (s.modSens n f).cams = s.cams := rfl
@[simp] theorem State.modSens_racking (s : State) (n : Fin 16) (f : CvSensor → CvSensor) : (s.modSens n f).racking = s.racking := rfl
@[simp] theorem State.modSens_gc (s : State) (n : Fin 16) (f : CvSensor → CvSensor) : (s.modSens n f).gc = s.gc := rfl
@[simp] theorem State.modSens_pos (s : State) (n : Fin 16) (f : CvSensor → CvSensor) : (s.modSens n f).pos = s.pos := rfl
@[simp] theorem State.modSens_time (s : State) (n : Fin 16) (f : CvSensor → CvSensor) : (s.modSens n f).time = s.time := rfl
@[simp] theorem State.modSens_codes (s : State) (n : Fin 16) (f : CvSensor → CvSensor) : (s.modSens n f).codes = s.codes := rfl
@[simp] theorem State.modSens_trellis (s : State) (n : Fin 16) (f : CvSensor → CvSensor) : (s.modSens n f).trellis = s.trellis := rfl
@[simp] theorem State.modSens_can (s : State) (n : Fin 16) (f : CvSensor → CvSensor) : (s.modSens n f).can = s.can := rfl
@[simp] theorem State.modSens_nets (s : State) (n : Fin 16) (f : CvSensor → CvSensor) : (s.modSens n f).nets = s.nets := rfl
@[simp] theorem State.modSens_tags (s : State) (n : Fin 16) (f : CvSensor → CvSensor) : (s.modSens n f).tags = s.tags := rfl
@[simp] theorem State.modSens_switch (s : State) (n : Fin 16) (f : CvSensor → CvSensor) : (s.modSens n f).switch = s.switch := rfl
@[simp] theorem State.modSens_fleet (s : State) (n : Fin 16) (f : CvSensor → CvSensor) : (s.modSens n f).fleet = s.fleet := rfl
@[simp] theorem State.modSens_dc (s : State) (n : Fin 16) (f : CvSensor → CvSensor) : (s.modSens n f).dc = s.dc := rfl
@[simp] theorem State.modSens_manager (s : State) (n : Fin 16) (f : CvSensor → CvSensor) : (s.modSens n f).manager = s.manager := rfl
@[simp] theorem State.modSens_sram (s : State) (n : Fin 16) (f : CvSensor → CvSensor) : (s.modSens n f).sram = s.sram := rfl
@[simp] theorem State.modSens_dram (s : State) (n : Fin 16) (f : CvSensor → CvSensor) : (s.modSens n f).dram = s.dram := rfl
@[simp] theorem State.modSens_pending (s : State) (n : Fin 16) (f : CvSensor → CvSensor) : (s.modSens n f).pending = s.pending := rfl

/-! ### State.modRl -/

@[simp] theorem State.modRl_regs (s : State) (f : Racking → Racking) : (s.modRl f).regs = s.regs := rfl
@[simp] theorem State.modRl_mtc (s : State) (f : Racking → Racking) : (s.modRl f).mtc = s.mtc := rfl
@[simp] theorem State.modRl_free (s : State) (f : Racking → Racking) : (s.modRl f).free = s.free := rfl
@[simp] theorem State.modRl_ticket (s : State) (f : Racking → Racking) : (s.modRl f).ticket = s.ticket := rfl
@[simp] theorem State.modRl_plat (s : State) (f : Racking → Racking) : (s.modRl f).plat = s.plat := rfl
@[simp] theorem State.modRl_errs (s : State) (f : Racking → Racking) : (s.modRl f).errs = s.errs := rfl
@[simp] theorem State.modRl_book (s : State) (f : Racking → Racking) : (s.modRl f).book = s.book := rfl
@[simp] theorem State.modRl_cores (s : State) (f : Racking → Racking) : (s.modRl f).cores = s.cores := rfl
@[simp] theorem State.modRl_loops (s : State) (f : Racking → Racking) : (s.modRl f).loops = s.loops := rfl
@[simp] theorem State.modRl_locks (s : State) (f : Racking → Racking) : (s.modRl f).locks = s.locks := rfl
@[simp] theorem State.modRl_mbox (s : State) (f : Racking → Racking) : (s.modRl f).mbox = s.mbox := rfl
@[simp] theorem State.modRl_valves (s : State) (f : Racking → Racking) : (s.modRl f).valves = s.valves := rfl
@[simp] theorem State.modRl_banks (s : State) (f : Racking → Racking) : (s.modRl f).banks = s.banks := rfl
@[simp] theorem State.modRl_loads (s : State) (f : Racking → Racking) : (s.modRl f).loads = s.loads := rfl
@[simp] theorem State.modRl_ain (s : State) (f : Racking → Racking) : (s.modRl f).ain = s.ain := rfl
@[simp] theorem State.modRl_ls (s : State) (f : Racking → Racking) : (s.modRl f).ls = s.ls := rfl
@[simp] theorem State.modRl_newBins (s : State) (f : Racking → Racking) : (s.modRl f).newBins = s.newBins := rfl
@[simp] theorem State.modRl_imu (s : State) (f : Racking → Racking) : (s.modRl f).imu = s.imu := rfl
@[simp] theorem State.modRl_cams (s : State) (f : Racking → Racking) : (s.modRl f).cams = s.cams := rfl
@[simp] theorem State.modRl_cuvee (s : State) (f : Racking → Racking) : (s.modRl f).cuvee = s.cuvee := rfl
@[simp] theorem State.modRl_racking (s : State) (f : Racking → Racking) : (s.modRl f).racking = f s.racking := rfl
@[simp] theorem State.modRl_gc (s : State) (f : Racking → Racking) : (s.modRl f).gc = s.gc := rfl
@[simp] theorem State.modRl_pos (s : State) (f : Racking → Racking) : (s.modRl f).pos = s.pos := rfl
@[simp] theorem State.modRl_time (s : State) (f : Racking → Racking) : (s.modRl f).time = s.time := rfl
@[simp] theorem State.modRl_codes (s : State) (f : Racking → Racking) : (s.modRl f).codes = s.codes := rfl
@[simp] theorem State.modRl_trellis (s : State) (f : Racking → Racking) : (s.modRl f).trellis = s.trellis := rfl
@[simp] theorem State.modRl_can (s : State) (f : Racking → Racking) : (s.modRl f).can = s.can := rfl
@[simp] theorem State.modRl_nets (s : State) (f : Racking → Racking) : (s.modRl f).nets = s.nets := rfl
@[simp] theorem State.modRl_tags (s : State) (f : Racking → Racking) : (s.modRl f).tags = s.tags := rfl
@[simp] theorem State.modRl_switch (s : State) (f : Racking → Racking) : (s.modRl f).switch = s.switch := rfl
@[simp] theorem State.modRl_fleet (s : State) (f : Racking → Racking) : (s.modRl f).fleet = s.fleet := rfl
@[simp] theorem State.modRl_dc (s : State) (f : Racking → Racking) : (s.modRl f).dc = s.dc := rfl
@[simp] theorem State.modRl_manager (s : State) (f : Racking → Racking) : (s.modRl f).manager = s.manager := rfl
@[simp] theorem State.modRl_sram (s : State) (f : Racking → Racking) : (s.modRl f).sram = s.sram := rfl
@[simp] theorem State.modRl_dram (s : State) (f : Racking → Racking) : (s.modRl f).dram = s.dram := rfl
@[simp] theorem State.modRl_pending (s : State) (f : Racking → Racking) : (s.modRl f).pending = s.pending := rfl

/-! ### State.modMf -/

@[simp] theorem State.modMf_regs (s : State) (m : Fin 32) (f : Mf → Mf) : (s.modMf m f).regs = s.regs := rfl
@[simp] theorem State.modMf_mtc (s : State) (m : Fin 32) (f : Mf → Mf) : (s.modMf m f).mtc = s.mtc := rfl
@[simp] theorem State.modMf_free (s : State) (m : Fin 32) (f : Mf → Mf) : (s.modMf m f).free = s.free := rfl
@[simp] theorem State.modMf_ticket (s : State) (m : Fin 32) (f : Mf → Mf) : (s.modMf m f).ticket = s.ticket := rfl
@[simp] theorem State.modMf_plat (s : State) (m : Fin 32) (f : Mf → Mf) : (s.modMf m f).plat = s.plat := rfl
@[simp] theorem State.modMf_errs (s : State) (m : Fin 32) (f : Mf → Mf) : (s.modMf m f).errs = s.errs := rfl
@[simp] theorem State.modMf_book (s : State) (m : Fin 32) (f : Mf → Mf) : (s.modMf m f).book = s.book := rfl
@[simp] theorem State.modMf_cores (s : State) (m : Fin 32) (f : Mf → Mf) : (s.modMf m f).cores = s.cores := rfl
@[simp] theorem State.modMf_loops (s : State) (m : Fin 32) (f : Mf → Mf) : (s.modMf m f).loops = s.loops := rfl
@[simp] theorem State.modMf_locks (s : State) (m : Fin 32) (f : Mf → Mf) : (s.modMf m f).locks = s.locks := rfl
@[simp] theorem State.modMf_mbox (s : State) (m : Fin 32) (f : Mf → Mf) : (s.modMf m f).mbox = s.mbox := rfl
@[simp] theorem State.modMf_valves (s : State) (m : Fin 32) (f : Mf → Mf) : (s.modMf m f).valves = s.valves := rfl
@[simp] theorem State.modMf_banks (s : State) (m : Fin 32) (f : Mf → Mf) : (s.modMf m f).banks = s.banks := rfl
@[simp] theorem State.modMf_loads (s : State) (m : Fin 32) (f : Mf → Mf) : (s.modMf m f).loads = s.loads := rfl
@[simp] theorem State.modMf_ain (s : State) (m : Fin 32) (f : Mf → Mf) : (s.modMf m f).ain = s.ain := rfl
@[simp] theorem State.modMf_ls (s : State) (m : Fin 32) (f : Mf → Mf) : (s.modMf m f).ls = s.ls := rfl
@[simp] theorem State.modMf_newBins (s : State) (m : Fin 32) (f : Mf → Mf) : (s.modMf m f).newBins = s.newBins := rfl
@[simp] theorem State.modMf_imu (s : State) (m : Fin 32) (f : Mf → Mf) : (s.modMf m f).imu = s.imu := rfl
@[simp] theorem State.modMf_cams (s : State) (m : Fin 32) (f : Mf → Mf) : (s.modMf m f).cams = s.cams := rfl
@[simp] theorem State.modMf_cuvee (s : State) (m : Fin 32) (f : Mf → Mf) : (s.modMf m f).cuvee = s.cuvee := rfl
@[simp] theorem State.modMf_gc (s : State) (m : Fin 32) (f : Mf → Mf) : (s.modMf m f).gc = s.gc := rfl
@[simp] theorem State.modMf_pos (s : State) (m : Fin 32) (f : Mf → Mf) : (s.modMf m f).pos = s.pos := rfl
@[simp] theorem State.modMf_time (s : State) (m : Fin 32) (f : Mf → Mf) : (s.modMf m f).time = s.time := rfl
@[simp] theorem State.modMf_codes (s : State) (m : Fin 32) (f : Mf → Mf) : (s.modMf m f).codes = s.codes := rfl
@[simp] theorem State.modMf_trellis (s : State) (m : Fin 32) (f : Mf → Mf) : (s.modMf m f).trellis = s.trellis := rfl
@[simp] theorem State.modMf_can (s : State) (m : Fin 32) (f : Mf → Mf) : (s.modMf m f).can = s.can := rfl
@[simp] theorem State.modMf_nets (s : State) (m : Fin 32) (f : Mf → Mf) : (s.modMf m f).nets = s.nets := rfl
@[simp] theorem State.modMf_tags (s : State) (m : Fin 32) (f : Mf → Mf) : (s.modMf m f).tags = s.tags := rfl
@[simp] theorem State.modMf_switch (s : State) (m : Fin 32) (f : Mf → Mf) : (s.modMf m f).switch = s.switch := rfl
@[simp] theorem State.modMf_fleet (s : State) (m : Fin 32) (f : Mf → Mf) : (s.modMf m f).fleet = s.fleet := rfl
@[simp] theorem State.modMf_dc (s : State) (m : Fin 32) (f : Mf → Mf) : (s.modMf m f).dc = s.dc := rfl
@[simp] theorem State.modMf_manager (s : State) (m : Fin 32) (f : Mf → Mf) : (s.modMf m f).manager = s.manager := rfl
@[simp] theorem State.modMf_sram (s : State) (m : Fin 32) (f : Mf → Mf) : (s.modMf m f).sram = s.sram := rfl
@[simp] theorem State.modMf_dram (s : State) (m : Fin 32) (f : Mf → Mf) : (s.modMf m f).dram = s.dram := rfl
@[simp] theorem State.modMf_pending (s : State) (m : Fin 32) (f : Mf → Mf) : (s.modMf m f).pending = s.pending := rfl

/-! ### State.modGc -/

@[simp] theorem State.modGc_regs (s : State) (n : Fin 96) (f : Gc → Gc) : (s.modGc n f).regs = s.regs := rfl
@[simp] theorem State.modGc_mtc (s : State) (n : Fin 96) (f : Gc → Gc) : (s.modGc n f).mtc = s.mtc := rfl
@[simp] theorem State.modGc_free (s : State) (n : Fin 96) (f : Gc → Gc) : (s.modGc n f).free = s.free := rfl
@[simp] theorem State.modGc_ticket (s : State) (n : Fin 96) (f : Gc → Gc) : (s.modGc n f).ticket = s.ticket := rfl
@[simp] theorem State.modGc_plat (s : State) (n : Fin 96) (f : Gc → Gc) : (s.modGc n f).plat = s.plat := rfl
@[simp] theorem State.modGc_errs (s : State) (n : Fin 96) (f : Gc → Gc) : (s.modGc n f).errs = s.errs := rfl
@[simp] theorem State.modGc_book (s : State) (n : Fin 96) (f : Gc → Gc) : (s.modGc n f).book = s.book := rfl
@[simp] theorem State.modGc_cores (s : State) (n : Fin 96) (f : Gc → Gc) : (s.modGc n f).cores = s.cores := rfl
@[simp] theorem State.modGc_loops (s : State) (n : Fin 96) (f : Gc → Gc) : (s.modGc n f).loops = s.loops := rfl
@[simp] theorem State.modGc_locks (s : State) (n : Fin 96) (f : Gc → Gc) : (s.modGc n f).locks = s.locks := rfl
@[simp] theorem State.modGc_mbox (s : State) (n : Fin 96) (f : Gc → Gc) : (s.modGc n f).mbox = s.mbox := rfl
@[simp] theorem State.modGc_valves (s : State) (n : Fin 96) (f : Gc → Gc) : (s.modGc n f).valves = s.valves := rfl
@[simp] theorem State.modGc_banks (s : State) (n : Fin 96) (f : Gc → Gc) : (s.modGc n f).banks = s.banks := rfl
@[simp] theorem State.modGc_loads (s : State) (n : Fin 96) (f : Gc → Gc) : (s.modGc n f).loads = s.loads := rfl
@[simp] theorem State.modGc_ain (s : State) (n : Fin 96) (f : Gc → Gc) : (s.modGc n f).ain = s.ain := rfl
@[simp] theorem State.modGc_ls (s : State) (n : Fin 96) (f : Gc → Gc) : (s.modGc n f).ls = s.ls := rfl
@[simp] theorem State.modGc_newBins (s : State) (n : Fin 96) (f : Gc → Gc) : (s.modGc n f).newBins = s.newBins := rfl
@[simp] theorem State.modGc_imu (s : State) (n : Fin 96) (f : Gc → Gc) : (s.modGc n f).imu = s.imu := rfl
@[simp] theorem State.modGc_cams (s : State) (n : Fin 96) (f : Gc → Gc) : (s.modGc n f).cams = s.cams := rfl
@[simp] theorem State.modGc_cuvee (s : State) (n : Fin 96) (f : Gc → Gc) : (s.modGc n f).cuvee = s.cuvee := rfl
@[simp] theorem State.modGc_racking (s : State) (n : Fin 96) (f : Gc → Gc) : (s.modGc n f).racking = s.racking := rfl
@[simp] theorem State.modGc_gc (s : State) (n : Fin 96) (f : Gc → Gc) : (s.modGc n f).gc = upd s.gc n f := rfl
@[simp] theorem State.modGc_pos (s : State) (n : Fin 96) (f : Gc → Gc) : (s.modGc n f).pos = s.pos := rfl
@[simp] theorem State.modGc_time (s : State) (n : Fin 96) (f : Gc → Gc) : (s.modGc n f).time = s.time := rfl
@[simp] theorem State.modGc_codes (s : State) (n : Fin 96) (f : Gc → Gc) : (s.modGc n f).codes = s.codes := rfl
@[simp] theorem State.modGc_trellis (s : State) (n : Fin 96) (f : Gc → Gc) : (s.modGc n f).trellis = s.trellis := rfl
@[simp] theorem State.modGc_can (s : State) (n : Fin 96) (f : Gc → Gc) : (s.modGc n f).can = s.can := rfl
@[simp] theorem State.modGc_nets (s : State) (n : Fin 96) (f : Gc → Gc) : (s.modGc n f).nets = s.nets := rfl
@[simp] theorem State.modGc_tags (s : State) (n : Fin 96) (f : Gc → Gc) : (s.modGc n f).tags = s.tags := rfl
@[simp] theorem State.modGc_switch (s : State) (n : Fin 96) (f : Gc → Gc) : (s.modGc n f).switch = s.switch := rfl
@[simp] theorem State.modGc_fleet (s : State) (n : Fin 96) (f : Gc → Gc) : (s.modGc n f).fleet = s.fleet := rfl
@[simp] theorem State.modGc_dc (s : State) (n : Fin 96) (f : Gc → Gc) : (s.modGc n f).dc = s.dc := rfl
@[simp] theorem State.modGc_manager (s : State) (n : Fin 96) (f : Gc → Gc) : (s.modGc n f).manager = s.manager := rfl
@[simp] theorem State.modGc_sram (s : State) (n : Fin 96) (f : Gc → Gc) : (s.modGc n f).sram = s.sram := rfl
@[simp] theorem State.modGc_dram (s : State) (n : Fin 96) (f : Gc → Gc) : (s.modGc n f).dram = s.dram := rfl
@[simp] theorem State.modGc_pending (s : State) (n : Fin 96) (f : Gc → Gc) : (s.modGc n f).pending = s.pending := rfl

/-! ### State.modPos -/

@[simp] theorem State.modPos_regs (s : State) (f : Pos → Pos) : (s.modPos f).regs = s.regs := rfl
@[simp] theorem State.modPos_mtc (s : State) (f : Pos → Pos) : (s.modPos f).mtc = s.mtc := rfl
@[simp] theorem State.modPos_free (s : State) (f : Pos → Pos) : (s.modPos f).free = s.free := rfl
@[simp] theorem State.modPos_ticket (s : State) (f : Pos → Pos) : (s.modPos f).ticket = s.ticket := rfl
@[simp] theorem State.modPos_plat (s : State) (f : Pos → Pos) : (s.modPos f).plat = s.plat := rfl
@[simp] theorem State.modPos_errs (s : State) (f : Pos → Pos) : (s.modPos f).errs = s.errs := rfl
@[simp] theorem State.modPos_book (s : State) (f : Pos → Pos) : (s.modPos f).book = s.book := rfl
@[simp] theorem State.modPos_cores (s : State) (f : Pos → Pos) : (s.modPos f).cores = s.cores := rfl
@[simp] theorem State.modPos_loops (s : State) (f : Pos → Pos) : (s.modPos f).loops = s.loops := rfl
@[simp] theorem State.modPos_locks (s : State) (f : Pos → Pos) : (s.modPos f).locks = s.locks := rfl
@[simp] theorem State.modPos_mbox (s : State) (f : Pos → Pos) : (s.modPos f).mbox = s.mbox := rfl
@[simp] theorem State.modPos_valves (s : State) (f : Pos → Pos) : (s.modPos f).valves = s.valves := rfl
@[simp] theorem State.modPos_banks (s : State) (f : Pos → Pos) : (s.modPos f).banks = s.banks := rfl
@[simp] theorem State.modPos_loads (s : State) (f : Pos → Pos) : (s.modPos f).loads = s.loads := rfl
@[simp] theorem State.modPos_ain (s : State) (f : Pos → Pos) : (s.modPos f).ain = s.ain := rfl
@[simp] theorem State.modPos_ls (s : State) (f : Pos → Pos) : (s.modPos f).ls = s.ls := rfl
@[simp] theorem State.modPos_newBins (s : State) (f : Pos → Pos) : (s.modPos f).newBins = s.newBins := rfl
@[simp] theorem State.modPos_imu (s : State) (f : Pos → Pos) : (s.modPos f).imu = s.imu := rfl
@[simp] theorem State.modPos_cams (s : State) (f : Pos → Pos) : (s.modPos f).cams = s.cams := rfl
@[simp] theorem State.modPos_cuvee (s : State) (f : Pos → Pos) : (s.modPos f).cuvee = s.cuvee := rfl
@[simp] theorem State.modPos_racking (s : State) (f : Pos → Pos) : (s.modPos f).racking = s.racking := rfl
@[simp] theorem State.modPos_gc (s : State) (f : Pos → Pos) : (s.modPos f).gc = s.gc := rfl
@[simp] theorem State.modPos_pos (s : State) (f : Pos → Pos) : (s.modPos f).pos = f s.pos := rfl
@[simp] theorem State.modPos_time (s : State) (f : Pos → Pos) : (s.modPos f).time = s.time := rfl
@[simp] theorem State.modPos_codes (s : State) (f : Pos → Pos) : (s.modPos f).codes = s.codes := rfl
@[simp] theorem State.modPos_trellis (s : State) (f : Pos → Pos) : (s.modPos f).trellis = s.trellis := rfl
@[simp] theorem State.modPos_can (s : State) (f : Pos → Pos) : (s.modPos f).can = s.can := rfl
@[simp] theorem State.modPos_nets (s : State) (f : Pos → Pos) : (s.modPos f).nets = s.nets := rfl
@[simp] theorem State.modPos_tags (s : State) (f : Pos → Pos) : (s.modPos f).tags = s.tags := rfl
@[simp] theorem State.modPos_switch (s : State) (f : Pos → Pos) : (s.modPos f).switch = s.switch := rfl
@[simp] theorem State.modPos_fleet (s : State) (f : Pos → Pos) : (s.modPos f).fleet = s.fleet := rfl
@[simp] theorem State.modPos_dc (s : State) (f : Pos → Pos) : (s.modPos f).dc = s.dc := rfl
@[simp] theorem State.modPos_manager (s : State) (f : Pos → Pos) : (s.modPos f).manager = s.manager := rfl
@[simp] theorem State.modPos_sram (s : State) (f : Pos → Pos) : (s.modPos f).sram = s.sram := rfl
@[simp] theorem State.modPos_dram (s : State) (f : Pos → Pos) : (s.modPos f).dram = s.dram := rfl
@[simp] theorem State.modPos_pending (s : State) (f : Pos → Pos) : (s.modPos f).pending = s.pending := rfl

/-! ### State.modTime -/

@[simp] theorem State.modTime_regs (s : State) (f : TimeUnit → TimeUnit) : (s.modTime f).regs = s.regs := rfl
@[simp] theorem State.modTime_mtc (s : State) (f : TimeUnit → TimeUnit) : (s.modTime f).mtc = s.mtc := rfl
@[simp] theorem State.modTime_free (s : State) (f : TimeUnit → TimeUnit) : (s.modTime f).free = s.free := rfl
@[simp] theorem State.modTime_ticket (s : State) (f : TimeUnit → TimeUnit) : (s.modTime f).ticket = s.ticket := rfl
@[simp] theorem State.modTime_plat (s : State) (f : TimeUnit → TimeUnit) : (s.modTime f).plat = s.plat := rfl
@[simp] theorem State.modTime_errs (s : State) (f : TimeUnit → TimeUnit) : (s.modTime f).errs = s.errs := rfl
@[simp] theorem State.modTime_book (s : State) (f : TimeUnit → TimeUnit) : (s.modTime f).book = s.book := rfl
@[simp] theorem State.modTime_cores (s : State) (f : TimeUnit → TimeUnit) : (s.modTime f).cores = s.cores := rfl
@[simp] theorem State.modTime_loops (s : State) (f : TimeUnit → TimeUnit) : (s.modTime f).loops = s.loops := rfl
@[simp] theorem State.modTime_locks (s : State) (f : TimeUnit → TimeUnit) : (s.modTime f).locks = s.locks := rfl
@[simp] theorem State.modTime_mbox (s : State) (f : TimeUnit → TimeUnit) : (s.modTime f).mbox = s.mbox := rfl
@[simp] theorem State.modTime_valves (s : State) (f : TimeUnit → TimeUnit) : (s.modTime f).valves = s.valves := rfl
@[simp] theorem State.modTime_banks (s : State) (f : TimeUnit → TimeUnit) : (s.modTime f).banks = s.banks := rfl
@[simp] theorem State.modTime_loads (s : State) (f : TimeUnit → TimeUnit) : (s.modTime f).loads = s.loads := rfl
@[simp] theorem State.modTime_ain (s : State) (f : TimeUnit → TimeUnit) : (s.modTime f).ain = s.ain := rfl
@[simp] theorem State.modTime_ls (s : State) (f : TimeUnit → TimeUnit) : (s.modTime f).ls = s.ls := rfl
@[simp] theorem State.modTime_newBins (s : State) (f : TimeUnit → TimeUnit) : (s.modTime f).newBins = s.newBins := rfl
@[simp] theorem State.modTime_imu (s : State) (f : TimeUnit → TimeUnit) : (s.modTime f).imu = s.imu := rfl
@[simp] theorem State.modTime_cams (s : State) (f : TimeUnit → TimeUnit) : (s.modTime f).cams = s.cams := rfl
@[simp] theorem State.modTime_cuvee (s : State) (f : TimeUnit → TimeUnit) : (s.modTime f).cuvee = s.cuvee := rfl
@[simp] theorem State.modTime_racking (s : State) (f : TimeUnit → TimeUnit) : (s.modTime f).racking = s.racking := rfl
@[simp] theorem State.modTime_gc (s : State) (f : TimeUnit → TimeUnit) : (s.modTime f).gc = s.gc := rfl
@[simp] theorem State.modTime_pos (s : State) (f : TimeUnit → TimeUnit) : (s.modTime f).pos = s.pos := rfl
@[simp] theorem State.modTime_time (s : State) (f : TimeUnit → TimeUnit) : (s.modTime f).time = f s.time := rfl
@[simp] theorem State.modTime_codes (s : State) (f : TimeUnit → TimeUnit) : (s.modTime f).codes = s.codes := rfl
@[simp] theorem State.modTime_trellis (s : State) (f : TimeUnit → TimeUnit) : (s.modTime f).trellis = s.trellis := rfl
@[simp] theorem State.modTime_can (s : State) (f : TimeUnit → TimeUnit) : (s.modTime f).can = s.can := rfl
@[simp] theorem State.modTime_nets (s : State) (f : TimeUnit → TimeUnit) : (s.modTime f).nets = s.nets := rfl
@[simp] theorem State.modTime_tags (s : State) (f : TimeUnit → TimeUnit) : (s.modTime f).tags = s.tags := rfl
@[simp] theorem State.modTime_switch (s : State) (f : TimeUnit → TimeUnit) : (s.modTime f).switch = s.switch := rfl
@[simp] theorem State.modTime_fleet (s : State) (f : TimeUnit → TimeUnit) : (s.modTime f).fleet = s.fleet := rfl
@[simp] theorem State.modTime_dc (s : State) (f : TimeUnit → TimeUnit) : (s.modTime f).dc = s.dc := rfl
@[simp] theorem State.modTime_manager (s : State) (f : TimeUnit → TimeUnit) : (s.modTime f).manager = s.manager := rfl
@[simp] theorem State.modTime_sram (s : State) (f : TimeUnit → TimeUnit) : (s.modTime f).sram = s.sram := rfl
@[simp] theorem State.modTime_dram (s : State) (f : TimeUnit → TimeUnit) : (s.modTime f).dram = s.dram := rfl
@[simp] theorem State.modTime_pending (s : State) (f : TimeUnit → TimeUnit) : (s.modTime f).pending = s.pending := rfl

/-! ### State.modTl -/

@[simp] theorem State.modTl_regs (s : State) (f : Trellis → Trellis) : (s.modTl f).regs = s.regs := rfl
@[simp] theorem State.modTl_mtc (s : State) (f : Trellis → Trellis) : (s.modTl f).mtc = s.mtc := rfl
@[simp] theorem State.modTl_free (s : State) (f : Trellis → Trellis) : (s.modTl f).free = s.free := rfl
@[simp] theorem State.modTl_ticket (s : State) (f : Trellis → Trellis) : (s.modTl f).ticket = s.ticket := rfl
@[simp] theorem State.modTl_plat (s : State) (f : Trellis → Trellis) : (s.modTl f).plat = s.plat := rfl
@[simp] theorem State.modTl_errs (s : State) (f : Trellis → Trellis) : (s.modTl f).errs = s.errs := rfl
@[simp] theorem State.modTl_book (s : State) (f : Trellis → Trellis) : (s.modTl f).book = s.book := rfl
@[simp] theorem State.modTl_cores (s : State) (f : Trellis → Trellis) : (s.modTl f).cores = s.cores := rfl
@[simp] theorem State.modTl_loops (s : State) (f : Trellis → Trellis) : (s.modTl f).loops = s.loops := rfl
@[simp] theorem State.modTl_locks (s : State) (f : Trellis → Trellis) : (s.modTl f).locks = s.locks := rfl
@[simp] theorem State.modTl_mbox (s : State) (f : Trellis → Trellis) : (s.modTl f).mbox = s.mbox := rfl
@[simp] theorem State.modTl_valves (s : State) (f : Trellis → Trellis) : (s.modTl f).valves = s.valves := rfl
@[simp] theorem State.modTl_banks (s : State) (f : Trellis → Trellis) : (s.modTl f).banks = s.banks := rfl
@[simp] theorem State.modTl_loads (s : State) (f : Trellis → Trellis) : (s.modTl f).loads = s.loads := rfl
@[simp] theorem State.modTl_ain (s : State) (f : Trellis → Trellis) : (s.modTl f).ain = s.ain := rfl
@[simp] theorem State.modTl_ls (s : State) (f : Trellis → Trellis) : (s.modTl f).ls = s.ls := rfl
@[simp] theorem State.modTl_newBins (s : State) (f : Trellis → Trellis) : (s.modTl f).newBins = s.newBins := rfl
@[simp] theorem State.modTl_imu (s : State) (f : Trellis → Trellis) : (s.modTl f).imu = s.imu := rfl
@[simp] theorem State.modTl_cams (s : State) (f : Trellis → Trellis) : (s.modTl f).cams = s.cams := rfl
@[simp] theorem State.modTl_cuvee (s : State) (f : Trellis → Trellis) : (s.modTl f).cuvee = s.cuvee := rfl
@[simp] theorem State.modTl_racking (s : State) (f : Trellis → Trellis) : (s.modTl f).racking = s.racking := rfl
@[simp] theorem State.modTl_gc (s : State) (f : Trellis → Trellis) : (s.modTl f).gc = s.gc := rfl
@[simp] theorem State.modTl_pos (s : State) (f : Trellis → Trellis) : (s.modTl f).pos = s.pos := rfl
@[simp] theorem State.modTl_time (s : State) (f : Trellis → Trellis) : (s.modTl f).time = s.time := rfl
@[simp] theorem State.modTl_codes (s : State) (f : Trellis → Trellis) : (s.modTl f).codes = s.codes := rfl
@[simp] theorem State.modTl_trellis (s : State) (f : Trellis → Trellis) : (s.modTl f).trellis = f s.trellis := rfl
@[simp] theorem State.modTl_can (s : State) (f : Trellis → Trellis) : (s.modTl f).can = s.can := rfl
@[simp] theorem State.modTl_nets (s : State) (f : Trellis → Trellis) : (s.modTl f).nets = s.nets := rfl
@[simp] theorem State.modTl_tags (s : State) (f : Trellis → Trellis) : (s.modTl f).tags = s.tags := rfl
@[simp] theorem State.modTl_switch (s : State) (f : Trellis → Trellis) : (s.modTl f).switch = s.switch := rfl
@[simp] theorem State.modTl_fleet (s : State) (f : Trellis → Trellis) : (s.modTl f).fleet = s.fleet := rfl
@[simp] theorem State.modTl_dc (s : State) (f : Trellis → Trellis) : (s.modTl f).dc = s.dc := rfl
@[simp] theorem State.modTl_manager (s : State) (f : Trellis → Trellis) : (s.modTl f).manager = s.manager := rfl
@[simp] theorem State.modTl_sram (s : State) (f : Trellis → Trellis) : (s.modTl f).sram = s.sram := rfl
@[simp] theorem State.modTl_dram (s : State) (f : Trellis → Trellis) : (s.modTl f).dram = s.dram := rfl
@[simp] theorem State.modTl_pending (s : State) (f : Trellis → Trellis) : (s.modTl f).pending = s.pending := rfl

/-! ### State.modSection -/

@[simp] theorem State.modSection_regs (s : State) (k : Fin 64) (f : Section → Section) : (s.modSection k f).regs = s.regs := rfl
@[simp] theorem State.modSection_mtc (s : State) (k : Fin 64) (f : Section → Section) : (s.modSection k f).mtc = s.mtc := rfl
@[simp] theorem State.modSection_free (s : State) (k : Fin 64) (f : Section → Section) : (s.modSection k f).free = s.free := rfl
@[simp] theorem State.modSection_ticket (s : State) (k : Fin 64) (f : Section → Section) : (s.modSection k f).ticket = s.ticket := rfl
@[simp] theorem State.modSection_plat (s : State) (k : Fin 64) (f : Section → Section) : (s.modSection k f).plat = s.plat := rfl
@[simp] theorem State.modSection_errs (s : State) (k : Fin 64) (f : Section → Section) : (s.modSection k f).errs = s.errs := rfl
@[simp] theorem State.modSection_book (s : State) (k : Fin 64) (f : Section → Section) : (s.modSection k f).book = s.book := rfl
@[simp] theorem State.modSection_cores (s : State) (k : Fin 64) (f : Section → Section) : (s.modSection k f).cores = s.cores := rfl
@[simp] theorem State.modSection_loops (s : State) (k : Fin 64) (f : Section → Section) : (s.modSection k f).loops = s.loops := rfl
@[simp] theorem State.modSection_locks (s : State) (k : Fin 64) (f : Section → Section) : (s.modSection k f).locks = s.locks := rfl
@[simp] theorem State.modSection_mbox (s : State) (k : Fin 64) (f : Section → Section) : (s.modSection k f).mbox = s.mbox := rfl
@[simp] theorem State.modSection_valves (s : State) (k : Fin 64) (f : Section → Section) : (s.modSection k f).valves = s.valves := rfl
@[simp] theorem State.modSection_banks (s : State) (k : Fin 64) (f : Section → Section) : (s.modSection k f).banks = s.banks := rfl
@[simp] theorem State.modSection_loads (s : State) (k : Fin 64) (f : Section → Section) : (s.modSection k f).loads = s.loads := rfl
@[simp] theorem State.modSection_ain (s : State) (k : Fin 64) (f : Section → Section) : (s.modSection k f).ain = s.ain := rfl
@[simp] theorem State.modSection_ls (s : State) (k : Fin 64) (f : Section → Section) : (s.modSection k f).ls = s.ls := rfl
@[simp] theorem State.modSection_newBins (s : State) (k : Fin 64) (f : Section → Section) : (s.modSection k f).newBins = s.newBins := rfl
@[simp] theorem State.modSection_imu (s : State) (k : Fin 64) (f : Section → Section) : (s.modSection k f).imu = s.imu := rfl
@[simp] theorem State.modSection_cams (s : State) (k : Fin 64) (f : Section → Section) : (s.modSection k f).cams = s.cams := rfl
@[simp] theorem State.modSection_cuvee (s : State) (k : Fin 64) (f : Section → Section) : (s.modSection k f).cuvee = s.cuvee := rfl
@[simp] theorem State.modSection_racking (s : State) (k : Fin 64) (f : Section → Section) : (s.modSection k f).racking = s.racking := rfl
@[simp] theorem State.modSection_gc (s : State) (k : Fin 64) (f : Section → Section) : (s.modSection k f).gc = s.gc := rfl
@[simp] theorem State.modSection_pos (s : State) (k : Fin 64) (f : Section → Section) : (s.modSection k f).pos = s.pos := rfl
@[simp] theorem State.modSection_time (s : State) (k : Fin 64) (f : Section → Section) : (s.modSection k f).time = s.time := rfl
@[simp] theorem State.modSection_codes (s : State) (k : Fin 64) (f : Section → Section) : (s.modSection k f).codes = s.codes := rfl
@[simp] theorem State.modSection_can (s : State) (k : Fin 64) (f : Section → Section) : (s.modSection k f).can = s.can := rfl
@[simp] theorem State.modSection_nets (s : State) (k : Fin 64) (f : Section → Section) : (s.modSection k f).nets = s.nets := rfl
@[simp] theorem State.modSection_tags (s : State) (k : Fin 64) (f : Section → Section) : (s.modSection k f).tags = s.tags := rfl
@[simp] theorem State.modSection_switch (s : State) (k : Fin 64) (f : Section → Section) : (s.modSection k f).switch = s.switch := rfl
@[simp] theorem State.modSection_fleet (s : State) (k : Fin 64) (f : Section → Section) : (s.modSection k f).fleet = s.fleet := rfl
@[simp] theorem State.modSection_dc (s : State) (k : Fin 64) (f : Section → Section) : (s.modSection k f).dc = s.dc := rfl
@[simp] theorem State.modSection_manager (s : State) (k : Fin 64) (f : Section → Section) : (s.modSection k f).manager = s.manager := rfl
@[simp] theorem State.modSection_sram (s : State) (k : Fin 64) (f : Section → Section) : (s.modSection k f).sram = s.sram := rfl
@[simp] theorem State.modSection_dram (s : State) (k : Fin 64) (f : Section → Section) : (s.modSection k f).dram = s.dram := rfl
@[simp] theorem State.modSection_pending (s : State) (k : Fin 64) (f : Section → Section) : (s.modSection k f).pending = s.pending := rfl

/-! ### State.modCan -/

@[simp] theorem State.modCan_regs (s : State) (n : Fin 8) (f : Can → Can) : (s.modCan n f).regs = s.regs := rfl
@[simp] theorem State.modCan_mtc (s : State) (n : Fin 8) (f : Can → Can) : (s.modCan n f).mtc = s.mtc := rfl
@[simp] theorem State.modCan_free (s : State) (n : Fin 8) (f : Can → Can) : (s.modCan n f).free = s.free := rfl
@[simp] theorem State.modCan_ticket (s : State) (n : Fin 8) (f : Can → Can) : (s.modCan n f).ticket = s.ticket := rfl
@[simp] theorem State.modCan_plat (s : State) (n : Fin 8) (f : Can → Can) : (s.modCan n f).plat = s.plat := rfl
@[simp] theorem State.modCan_errs (s : State) (n : Fin 8) (f : Can → Can) : (s.modCan n f).errs = s.errs := rfl
@[simp] theorem State.modCan_book (s : State) (n : Fin 8) (f : Can → Can) : (s.modCan n f).book = s.book := rfl
@[simp] theorem State.modCan_cores (s : State) (n : Fin 8) (f : Can → Can) : (s.modCan n f).cores = s.cores := rfl
@[simp] theorem State.modCan_loops (s : State) (n : Fin 8) (f : Can → Can) : (s.modCan n f).loops = s.loops := rfl
@[simp] theorem State.modCan_locks (s : State) (n : Fin 8) (f : Can → Can) : (s.modCan n f).locks = s.locks := rfl
@[simp] theorem State.modCan_mbox (s : State) (n : Fin 8) (f : Can → Can) : (s.modCan n f).mbox = s.mbox := rfl
@[simp] theorem State.modCan_valves (s : State) (n : Fin 8) (f : Can → Can) : (s.modCan n f).valves = s.valves := rfl
@[simp] theorem State.modCan_banks (s : State) (n : Fin 8) (f : Can → Can) : (s.modCan n f).banks = s.banks := rfl
@[simp] theorem State.modCan_loads (s : State) (n : Fin 8) (f : Can → Can) : (s.modCan n f).loads = s.loads := rfl
@[simp] theorem State.modCan_ain (s : State) (n : Fin 8) (f : Can → Can) : (s.modCan n f).ain = s.ain := rfl
@[simp] theorem State.modCan_ls (s : State) (n : Fin 8) (f : Can → Can) : (s.modCan n f).ls = s.ls := rfl
@[simp] theorem State.modCan_newBins (s : State) (n : Fin 8) (f : Can → Can) : (s.modCan n f).newBins = s.newBins := rfl
@[simp] theorem State.modCan_imu (s : State) (n : Fin 8) (f : Can → Can) : (s.modCan n f).imu = s.imu := rfl
@[simp] theorem State.modCan_cams (s : State) (n : Fin 8) (f : Can → Can) : (s.modCan n f).cams = s.cams := rfl
@[simp] theorem State.modCan_cuvee (s : State) (n : Fin 8) (f : Can → Can) : (s.modCan n f).cuvee = s.cuvee := rfl
@[simp] theorem State.modCan_racking (s : State) (n : Fin 8) (f : Can → Can) : (s.modCan n f).racking = s.racking := rfl
@[simp] theorem State.modCan_gc (s : State) (n : Fin 8) (f : Can → Can) : (s.modCan n f).gc = s.gc := rfl
@[simp] theorem State.modCan_pos (s : State) (n : Fin 8) (f : Can → Can) : (s.modCan n f).pos = s.pos := rfl
@[simp] theorem State.modCan_time (s : State) (n : Fin 8) (f : Can → Can) : (s.modCan n f).time = s.time := rfl
@[simp] theorem State.modCan_codes (s : State) (n : Fin 8) (f : Can → Can) : (s.modCan n f).codes = s.codes := rfl
@[simp] theorem State.modCan_trellis (s : State) (n : Fin 8) (f : Can → Can) : (s.modCan n f).trellis = s.trellis := rfl
@[simp] theorem State.modCan_can (s : State) (n : Fin 8) (f : Can → Can) : (s.modCan n f).can = upd s.can n f := rfl
@[simp] theorem State.modCan_nets (s : State) (n : Fin 8) (f : Can → Can) : (s.modCan n f).nets = s.nets := rfl
@[simp] theorem State.modCan_tags (s : State) (n : Fin 8) (f : Can → Can) : (s.modCan n f).tags = s.tags := rfl
@[simp] theorem State.modCan_switch (s : State) (n : Fin 8) (f : Can → Can) : (s.modCan n f).switch = s.switch := rfl
@[simp] theorem State.modCan_fleet (s : State) (n : Fin 8) (f : Can → Can) : (s.modCan n f).fleet = s.fleet := rfl
@[simp] theorem State.modCan_dc (s : State) (n : Fin 8) (f : Can → Can) : (s.modCan n f).dc = s.dc := rfl
@[simp] theorem State.modCan_manager (s : State) (n : Fin 8) (f : Can → Can) : (s.modCan n f).manager = s.manager := rfl
@[simp] theorem State.modCan_sram (s : State) (n : Fin 8) (f : Can → Can) : (s.modCan n f).sram = s.sram := rfl
@[simp] theorem State.modCan_dram (s : State) (n : Fin 8) (f : Can → Can) : (s.modCan n f).dram = s.dram := rfl
@[simp] theorem State.modCan_pending (s : State) (n : Fin 8) (f : Can → Can) : (s.modCan n f).pending = s.pending := rfl

/-! ### State.modNet -/

@[simp] theorem State.modNet_regs (s : State) (k : Fin 4) (f : Net → Net) : (s.modNet k f).regs = s.regs := rfl
@[simp] theorem State.modNet_mtc (s : State) (k : Fin 4) (f : Net → Net) : (s.modNet k f).mtc = s.mtc := rfl
@[simp] theorem State.modNet_free (s : State) (k : Fin 4) (f : Net → Net) : (s.modNet k f).free = s.free := rfl
@[simp] theorem State.modNet_ticket (s : State) (k : Fin 4) (f : Net → Net) : (s.modNet k f).ticket = s.ticket := rfl
@[simp] theorem State.modNet_plat (s : State) (k : Fin 4) (f : Net → Net) : (s.modNet k f).plat = s.plat := rfl
@[simp] theorem State.modNet_errs (s : State) (k : Fin 4) (f : Net → Net) : (s.modNet k f).errs = s.errs := rfl
@[simp] theorem State.modNet_book (s : State) (k : Fin 4) (f : Net → Net) : (s.modNet k f).book = s.book := rfl
@[simp] theorem State.modNet_cores (s : State) (k : Fin 4) (f : Net → Net) : (s.modNet k f).cores = s.cores := rfl
@[simp] theorem State.modNet_loops (s : State) (k : Fin 4) (f : Net → Net) : (s.modNet k f).loops = s.loops := rfl
@[simp] theorem State.modNet_locks (s : State) (k : Fin 4) (f : Net → Net) : (s.modNet k f).locks = s.locks := rfl
@[simp] theorem State.modNet_mbox (s : State) (k : Fin 4) (f : Net → Net) : (s.modNet k f).mbox = s.mbox := rfl
@[simp] theorem State.modNet_valves (s : State) (k : Fin 4) (f : Net → Net) : (s.modNet k f).valves = s.valves := rfl
@[simp] theorem State.modNet_banks (s : State) (k : Fin 4) (f : Net → Net) : (s.modNet k f).banks = s.banks := rfl
@[simp] theorem State.modNet_loads (s : State) (k : Fin 4) (f : Net → Net) : (s.modNet k f).loads = s.loads := rfl
@[simp] theorem State.modNet_ain (s : State) (k : Fin 4) (f : Net → Net) : (s.modNet k f).ain = s.ain := rfl
@[simp] theorem State.modNet_ls (s : State) (k : Fin 4) (f : Net → Net) : (s.modNet k f).ls = s.ls := rfl
@[simp] theorem State.modNet_newBins (s : State) (k : Fin 4) (f : Net → Net) : (s.modNet k f).newBins = s.newBins := rfl
@[simp] theorem State.modNet_imu (s : State) (k : Fin 4) (f : Net → Net) : (s.modNet k f).imu = s.imu := rfl
@[simp] theorem State.modNet_cams (s : State) (k : Fin 4) (f : Net → Net) : (s.modNet k f).cams = s.cams := rfl
@[simp] theorem State.modNet_cuvee (s : State) (k : Fin 4) (f : Net → Net) : (s.modNet k f).cuvee = s.cuvee := rfl
@[simp] theorem State.modNet_racking (s : State) (k : Fin 4) (f : Net → Net) : (s.modNet k f).racking = s.racking := rfl
@[simp] theorem State.modNet_gc (s : State) (k : Fin 4) (f : Net → Net) : (s.modNet k f).gc = s.gc := rfl
@[simp] theorem State.modNet_pos (s : State) (k : Fin 4) (f : Net → Net) : (s.modNet k f).pos = s.pos := rfl
@[simp] theorem State.modNet_time (s : State) (k : Fin 4) (f : Net → Net) : (s.modNet k f).time = s.time := rfl
@[simp] theorem State.modNet_codes (s : State) (k : Fin 4) (f : Net → Net) : (s.modNet k f).codes = s.codes := rfl
@[simp] theorem State.modNet_trellis (s : State) (k : Fin 4) (f : Net → Net) : (s.modNet k f).trellis = s.trellis := rfl
@[simp] theorem State.modNet_can (s : State) (k : Fin 4) (f : Net → Net) : (s.modNet k f).can = s.can := rfl
@[simp] theorem State.modNet_tags (s : State) (k : Fin 4) (f : Net → Net) : (s.modNet k f).tags = s.tags := rfl
@[simp] theorem State.modNet_switch (s : State) (k : Fin 4) (f : Net → Net) : (s.modNet k f).switch = s.switch := rfl
@[simp] theorem State.modNet_fleet (s : State) (k : Fin 4) (f : Net → Net) : (s.modNet k f).fleet = s.fleet := rfl
@[simp] theorem State.modNet_dc (s : State) (k : Fin 4) (f : Net → Net) : (s.modNet k f).dc = s.dc := rfl
@[simp] theorem State.modNet_manager (s : State) (k : Fin 4) (f : Net → Net) : (s.modNet k f).manager = s.manager := rfl
@[simp] theorem State.modNet_sram (s : State) (k : Fin 4) (f : Net → Net) : (s.modNet k f).sram = s.sram := rfl
@[simp] theorem State.modNet_dram (s : State) (k : Fin 4) (f : Net → Net) : (s.modNet k f).dram = s.dram := rfl
@[simp] theorem State.modNet_pending (s : State) (k : Fin 4) (f : Net → Net) : (s.modNet k f).pending = s.pending := rfl

/-! ### State.modSw -/

@[simp] theorem State.modSw_regs (s : State) (f : Switch → Switch) : (s.modSw f).regs = s.regs := rfl
@[simp] theorem State.modSw_mtc (s : State) (f : Switch → Switch) : (s.modSw f).mtc = s.mtc := rfl
@[simp] theorem State.modSw_free (s : State) (f : Switch → Switch) : (s.modSw f).free = s.free := rfl
@[simp] theorem State.modSw_ticket (s : State) (f : Switch → Switch) : (s.modSw f).ticket = s.ticket := rfl
@[simp] theorem State.modSw_plat (s : State) (f : Switch → Switch) : (s.modSw f).plat = s.plat := rfl
@[simp] theorem State.modSw_errs (s : State) (f : Switch → Switch) : (s.modSw f).errs = s.errs := rfl
@[simp] theorem State.modSw_book (s : State) (f : Switch → Switch) : (s.modSw f).book = s.book := rfl
@[simp] theorem State.modSw_cores (s : State) (f : Switch → Switch) : (s.modSw f).cores = s.cores := rfl
@[simp] theorem State.modSw_loops (s : State) (f : Switch → Switch) : (s.modSw f).loops = s.loops := rfl
@[simp] theorem State.modSw_locks (s : State) (f : Switch → Switch) : (s.modSw f).locks = s.locks := rfl
@[simp] theorem State.modSw_mbox (s : State) (f : Switch → Switch) : (s.modSw f).mbox = s.mbox := rfl
@[simp] theorem State.modSw_valves (s : State) (f : Switch → Switch) : (s.modSw f).valves = s.valves := rfl
@[simp] theorem State.modSw_banks (s : State) (f : Switch → Switch) : (s.modSw f).banks = s.banks := rfl
@[simp] theorem State.modSw_loads (s : State) (f : Switch → Switch) : (s.modSw f).loads = s.loads := rfl
@[simp] theorem State.modSw_ain (s : State) (f : Switch → Switch) : (s.modSw f).ain = s.ain := rfl
@[simp] theorem State.modSw_ls (s : State) (f : Switch → Switch) : (s.modSw f).ls = s.ls := rfl
@[simp] theorem State.modSw_newBins (s : State) (f : Switch → Switch) : (s.modSw f).newBins = s.newBins := rfl
@[simp] theorem State.modSw_imu (s : State) (f : Switch → Switch) : (s.modSw f).imu = s.imu := rfl
@[simp] theorem State.modSw_cams (s : State) (f : Switch → Switch) : (s.modSw f).cams = s.cams := rfl
@[simp] theorem State.modSw_cuvee (s : State) (f : Switch → Switch) : (s.modSw f).cuvee = s.cuvee := rfl
@[simp] theorem State.modSw_racking (s : State) (f : Switch → Switch) : (s.modSw f).racking = s.racking := rfl
@[simp] theorem State.modSw_gc (s : State) (f : Switch → Switch) : (s.modSw f).gc = s.gc := rfl
@[simp] theorem State.modSw_pos (s : State) (f : Switch → Switch) : (s.modSw f).pos = s.pos := rfl
@[simp] theorem State.modSw_time (s : State) (f : Switch → Switch) : (s.modSw f).time = s.time := rfl
@[simp] theorem State.modSw_codes (s : State) (f : Switch → Switch) : (s.modSw f).codes = s.codes := rfl
@[simp] theorem State.modSw_trellis (s : State) (f : Switch → Switch) : (s.modSw f).trellis = s.trellis := rfl
@[simp] theorem State.modSw_can (s : State) (f : Switch → Switch) : (s.modSw f).can = s.can := rfl
@[simp] theorem State.modSw_nets (s : State) (f : Switch → Switch) : (s.modSw f).nets = s.nets := rfl
@[simp] theorem State.modSw_tags (s : State) (f : Switch → Switch) : (s.modSw f).tags = s.tags := rfl
@[simp] theorem State.modSw_switch (s : State) (f : Switch → Switch) : (s.modSw f).switch = f s.switch := rfl
@[simp] theorem State.modSw_fleet (s : State) (f : Switch → Switch) : (s.modSw f).fleet = s.fleet := rfl
@[simp] theorem State.modSw_dc (s : State) (f : Switch → Switch) : (s.modSw f).dc = s.dc := rfl
@[simp] theorem State.modSw_manager (s : State) (f : Switch → Switch) : (s.modSw f).manager = s.manager := rfl
@[simp] theorem State.modSw_sram (s : State) (f : Switch → Switch) : (s.modSw f).sram = s.sram := rfl
@[simp] theorem State.modSw_dram (s : State) (f : Switch → Switch) : (s.modSw f).dram = s.dram := rfl
@[simp] theorem State.modSw_pending (s : State) (f : Switch → Switch) : (s.modSw f).pending = s.pending := rfl

/-! ### State.modStr -/

@[simp] theorem State.modStr_regs (s : State) (k : Fin 16) (f : Str → Str) : (s.modStr k f).regs = s.regs := rfl
@[simp] theorem State.modStr_mtc (s : State) (k : Fin 16) (f : Str → Str) : (s.modStr k f).mtc = s.mtc := rfl
@[simp] theorem State.modStr_free (s : State) (k : Fin 16) (f : Str → Str) : (s.modStr k f).free = s.free := rfl
@[simp] theorem State.modStr_ticket (s : State) (k : Fin 16) (f : Str → Str) : (s.modStr k f).ticket = s.ticket := rfl
@[simp] theorem State.modStr_plat (s : State) (k : Fin 16) (f : Str → Str) : (s.modStr k f).plat = s.plat := rfl
@[simp] theorem State.modStr_errs (s : State) (k : Fin 16) (f : Str → Str) : (s.modStr k f).errs = s.errs := rfl
@[simp] theorem State.modStr_book (s : State) (k : Fin 16) (f : Str → Str) : (s.modStr k f).book = s.book := rfl
@[simp] theorem State.modStr_cores (s : State) (k : Fin 16) (f : Str → Str) : (s.modStr k f).cores = s.cores := rfl
@[simp] theorem State.modStr_loops (s : State) (k : Fin 16) (f : Str → Str) : (s.modStr k f).loops = s.loops := rfl
@[simp] theorem State.modStr_locks (s : State) (k : Fin 16) (f : Str → Str) : (s.modStr k f).locks = s.locks := rfl
@[simp] theorem State.modStr_mbox (s : State) (k : Fin 16) (f : Str → Str) : (s.modStr k f).mbox = s.mbox := rfl
@[simp] theorem State.modStr_valves (s : State) (k : Fin 16) (f : Str → Str) : (s.modStr k f).valves = s.valves := rfl
@[simp] theorem State.modStr_banks (s : State) (k : Fin 16) (f : Str → Str) : (s.modStr k f).banks = s.banks := rfl
@[simp] theorem State.modStr_loads (s : State) (k : Fin 16) (f : Str → Str) : (s.modStr k f).loads = s.loads := rfl
@[simp] theorem State.modStr_ain (s : State) (k : Fin 16) (f : Str → Str) : (s.modStr k f).ain = s.ain := rfl
@[simp] theorem State.modStr_ls (s : State) (k : Fin 16) (f : Str → Str) : (s.modStr k f).ls = s.ls := rfl
@[simp] theorem State.modStr_newBins (s : State) (k : Fin 16) (f : Str → Str) : (s.modStr k f).newBins = s.newBins := rfl
@[simp] theorem State.modStr_imu (s : State) (k : Fin 16) (f : Str → Str) : (s.modStr k f).imu = s.imu := rfl
@[simp] theorem State.modStr_cams (s : State) (k : Fin 16) (f : Str → Str) : (s.modStr k f).cams = s.cams := rfl
@[simp] theorem State.modStr_cuvee (s : State) (k : Fin 16) (f : Str → Str) : (s.modStr k f).cuvee = s.cuvee := rfl
@[simp] theorem State.modStr_racking (s : State) (k : Fin 16) (f : Str → Str) : (s.modStr k f).racking = s.racking := rfl
@[simp] theorem State.modStr_gc (s : State) (k : Fin 16) (f : Str → Str) : (s.modStr k f).gc = s.gc := rfl
@[simp] theorem State.modStr_pos (s : State) (k : Fin 16) (f : Str → Str) : (s.modStr k f).pos = s.pos := rfl
@[simp] theorem State.modStr_time (s : State) (k : Fin 16) (f : Str → Str) : (s.modStr k f).time = s.time := rfl
@[simp] theorem State.modStr_codes (s : State) (k : Fin 16) (f : Str → Str) : (s.modStr k f).codes = s.codes := rfl
@[simp] theorem State.modStr_trellis (s : State) (k : Fin 16) (f : Str → Str) : (s.modStr k f).trellis = s.trellis := rfl
@[simp] theorem State.modStr_can (s : State) (k : Fin 16) (f : Str → Str) : (s.modStr k f).can = s.can := rfl
@[simp] theorem State.modStr_nets (s : State) (k : Fin 16) (f : Str → Str) : (s.modStr k f).nets = s.nets := rfl
@[simp] theorem State.modStr_tags (s : State) (k : Fin 16) (f : Str → Str) : (s.modStr k f).tags = s.tags := rfl
@[simp] theorem State.modStr_fleet (s : State) (k : Fin 16) (f : Str → Str) : (s.modStr k f).fleet = s.fleet := rfl
@[simp] theorem State.modStr_dc (s : State) (k : Fin 16) (f : Str → Str) : (s.modStr k f).dc = s.dc := rfl
@[simp] theorem State.modStr_manager (s : State) (k : Fin 16) (f : Str → Str) : (s.modStr k f).manager = s.manager := rfl
@[simp] theorem State.modStr_sram (s : State) (k : Fin 16) (f : Str → Str) : (s.modStr k f).sram = s.sram := rfl
@[simp] theorem State.modStr_dram (s : State) (k : Fin 16) (f : Str → Str) : (s.modStr k f).dram = s.dram := rfl
@[simp] theorem State.modStr_pending (s : State) (k : Fin 16) (f : Str → Str) : (s.modStr k f).pending = s.pending := rfl

/-! ### State.modFleet -/

@[simp] theorem State.modFleet_regs (s : State) (f : Fleet → Fleet) : (s.modFleet f).regs = s.regs := rfl
@[simp] theorem State.modFleet_mtc (s : State) (f : Fleet → Fleet) : (s.modFleet f).mtc = s.mtc := rfl
@[simp] theorem State.modFleet_free (s : State) (f : Fleet → Fleet) : (s.modFleet f).free = s.free := rfl
@[simp] theorem State.modFleet_ticket (s : State) (f : Fleet → Fleet) : (s.modFleet f).ticket = s.ticket := rfl
@[simp] theorem State.modFleet_plat (s : State) (f : Fleet → Fleet) : (s.modFleet f).plat = s.plat := rfl
@[simp] theorem State.modFleet_errs (s : State) (f : Fleet → Fleet) : (s.modFleet f).errs = s.errs := rfl
@[simp] theorem State.modFleet_book (s : State) (f : Fleet → Fleet) : (s.modFleet f).book = s.book := rfl
@[simp] theorem State.modFleet_cores (s : State) (f : Fleet → Fleet) : (s.modFleet f).cores = s.cores := rfl
@[simp] theorem State.modFleet_loops (s : State) (f : Fleet → Fleet) : (s.modFleet f).loops = s.loops := rfl
@[simp] theorem State.modFleet_locks (s : State) (f : Fleet → Fleet) : (s.modFleet f).locks = s.locks := rfl
@[simp] theorem State.modFleet_mbox (s : State) (f : Fleet → Fleet) : (s.modFleet f).mbox = s.mbox := rfl
@[simp] theorem State.modFleet_valves (s : State) (f : Fleet → Fleet) : (s.modFleet f).valves = s.valves := rfl
@[simp] theorem State.modFleet_banks (s : State) (f : Fleet → Fleet) : (s.modFleet f).banks = s.banks := rfl
@[simp] theorem State.modFleet_loads (s : State) (f : Fleet → Fleet) : (s.modFleet f).loads = s.loads := rfl
@[simp] theorem State.modFleet_ain (s : State) (f : Fleet → Fleet) : (s.modFleet f).ain = s.ain := rfl
@[simp] theorem State.modFleet_ls (s : State) (f : Fleet → Fleet) : (s.modFleet f).ls = s.ls := rfl
@[simp] theorem State.modFleet_newBins (s : State) (f : Fleet → Fleet) : (s.modFleet f).newBins = s.newBins := rfl
@[simp] theorem State.modFleet_imu (s : State) (f : Fleet → Fleet) : (s.modFleet f).imu = s.imu := rfl
@[simp] theorem State.modFleet_cams (s : State) (f : Fleet → Fleet) : (s.modFleet f).cams = s.cams := rfl
@[simp] theorem State.modFleet_cuvee (s : State) (f : Fleet → Fleet) : (s.modFleet f).cuvee = s.cuvee := rfl
@[simp] theorem State.modFleet_racking (s : State) (f : Fleet → Fleet) : (s.modFleet f).racking = s.racking := rfl
@[simp] theorem State.modFleet_gc (s : State) (f : Fleet → Fleet) : (s.modFleet f).gc = s.gc := rfl
@[simp] theorem State.modFleet_pos (s : State) (f : Fleet → Fleet) : (s.modFleet f).pos = s.pos := rfl
@[simp] theorem State.modFleet_time (s : State) (f : Fleet → Fleet) : (s.modFleet f).time = s.time := rfl
@[simp] theorem State.modFleet_codes (s : State) (f : Fleet → Fleet) : (s.modFleet f).codes = s.codes := rfl
@[simp] theorem State.modFleet_trellis (s : State) (f : Fleet → Fleet) : (s.modFleet f).trellis = s.trellis := rfl
@[simp] theorem State.modFleet_can (s : State) (f : Fleet → Fleet) : (s.modFleet f).can = s.can := rfl
@[simp] theorem State.modFleet_nets (s : State) (f : Fleet → Fleet) : (s.modFleet f).nets = s.nets := rfl
@[simp] theorem State.modFleet_tags (s : State) (f : Fleet → Fleet) : (s.modFleet f).tags = s.tags := rfl
@[simp] theorem State.modFleet_switch (s : State) (f : Fleet → Fleet) : (s.modFleet f).switch = s.switch := rfl
@[simp] theorem State.modFleet_fleet (s : State) (f : Fleet → Fleet) : (s.modFleet f).fleet = f s.fleet := rfl
@[simp] theorem State.modFleet_dc (s : State) (f : Fleet → Fleet) : (s.modFleet f).dc = s.dc := rfl
@[simp] theorem State.modFleet_manager (s : State) (f : Fleet → Fleet) : (s.modFleet f).manager = s.manager := rfl
@[simp] theorem State.modFleet_sram (s : State) (f : Fleet → Fleet) : (s.modFleet f).sram = s.sram := rfl
@[simp] theorem State.modFleet_dram (s : State) (f : Fleet → Fleet) : (s.modFleet f).dram = s.dram := rfl
@[simp] theorem State.modFleet_pending (s : State) (f : Fleet → Fleet) : (s.modFleet f).pending = s.pending := rfl

/-! ### State.modPeer -/

@[simp] theorem State.modPeer_regs (s : State) (id : Nat) (f : Peer → Peer) : (s.modPeer id f).regs = s.regs := rfl
@[simp] theorem State.modPeer_mtc (s : State) (id : Nat) (f : Peer → Peer) : (s.modPeer id f).mtc = s.mtc := rfl
@[simp] theorem State.modPeer_free (s : State) (id : Nat) (f : Peer → Peer) : (s.modPeer id f).free = s.free := rfl
@[simp] theorem State.modPeer_ticket (s : State) (id : Nat) (f : Peer → Peer) : (s.modPeer id f).ticket = s.ticket := rfl
@[simp] theorem State.modPeer_plat (s : State) (id : Nat) (f : Peer → Peer) : (s.modPeer id f).plat = s.plat := rfl
@[simp] theorem State.modPeer_errs (s : State) (id : Nat) (f : Peer → Peer) : (s.modPeer id f).errs = s.errs := rfl
@[simp] theorem State.modPeer_book (s : State) (id : Nat) (f : Peer → Peer) : (s.modPeer id f).book = s.book := rfl
@[simp] theorem State.modPeer_cores (s : State) (id : Nat) (f : Peer → Peer) : (s.modPeer id f).cores = s.cores := rfl
@[simp] theorem State.modPeer_loops (s : State) (id : Nat) (f : Peer → Peer) : (s.modPeer id f).loops = s.loops := rfl
@[simp] theorem State.modPeer_locks (s : State) (id : Nat) (f : Peer → Peer) : (s.modPeer id f).locks = s.locks := rfl
@[simp] theorem State.modPeer_mbox (s : State) (id : Nat) (f : Peer → Peer) : (s.modPeer id f).mbox = s.mbox := rfl
@[simp] theorem State.modPeer_valves (s : State) (id : Nat) (f : Peer → Peer) : (s.modPeer id f).valves = s.valves := rfl
@[simp] theorem State.modPeer_banks (s : State) (id : Nat) (f : Peer → Peer) : (s.modPeer id f).banks = s.banks := rfl
@[simp] theorem State.modPeer_loads (s : State) (id : Nat) (f : Peer → Peer) : (s.modPeer id f).loads = s.loads := rfl
@[simp] theorem State.modPeer_ain (s : State) (id : Nat) (f : Peer → Peer) : (s.modPeer id f).ain = s.ain := rfl
@[simp] theorem State.modPeer_ls (s : State) (id : Nat) (f : Peer → Peer) : (s.modPeer id f).ls = s.ls := rfl
@[simp] theorem State.modPeer_newBins (s : State) (id : Nat) (f : Peer → Peer) : (s.modPeer id f).newBins = s.newBins := rfl
@[simp] theorem State.modPeer_imu (s : State) (id : Nat) (f : Peer → Peer) : (s.modPeer id f).imu = s.imu := rfl
@[simp] theorem State.modPeer_cams (s : State) (id : Nat) (f : Peer → Peer) : (s.modPeer id f).cams = s.cams := rfl
@[simp] theorem State.modPeer_cuvee (s : State) (id : Nat) (f : Peer → Peer) : (s.modPeer id f).cuvee = s.cuvee := rfl
@[simp] theorem State.modPeer_racking (s : State) (id : Nat) (f : Peer → Peer) : (s.modPeer id f).racking = s.racking := rfl
@[simp] theorem State.modPeer_gc (s : State) (id : Nat) (f : Peer → Peer) : (s.modPeer id f).gc = s.gc := rfl
@[simp] theorem State.modPeer_pos (s : State) (id : Nat) (f : Peer → Peer) : (s.modPeer id f).pos = s.pos := rfl
@[simp] theorem State.modPeer_time (s : State) (id : Nat) (f : Peer → Peer) : (s.modPeer id f).time = s.time := rfl
@[simp] theorem State.modPeer_codes (s : State) (id : Nat) (f : Peer → Peer) : (s.modPeer id f).codes = s.codes := rfl
@[simp] theorem State.modPeer_trellis (s : State) (id : Nat) (f : Peer → Peer) : (s.modPeer id f).trellis = s.trellis := rfl
@[simp] theorem State.modPeer_can (s : State) (id : Nat) (f : Peer → Peer) : (s.modPeer id f).can = s.can := rfl
@[simp] theorem State.modPeer_nets (s : State) (id : Nat) (f : Peer → Peer) : (s.modPeer id f).nets = s.nets := rfl
@[simp] theorem State.modPeer_tags (s : State) (id : Nat) (f : Peer → Peer) : (s.modPeer id f).tags = s.tags := rfl
@[simp] theorem State.modPeer_switch (s : State) (id : Nat) (f : Peer → Peer) : (s.modPeer id f).switch = s.switch := rfl
@[simp] theorem State.modPeer_dc (s : State) (id : Nat) (f : Peer → Peer) : (s.modPeer id f).dc = s.dc := rfl
@[simp] theorem State.modPeer_manager (s : State) (id : Nat) (f : Peer → Peer) : (s.modPeer id f).manager = s.manager := rfl
@[simp] theorem State.modPeer_sram (s : State) (id : Nat) (f : Peer → Peer) : (s.modPeer id f).sram = s.sram := rfl
@[simp] theorem State.modPeer_dram (s : State) (id : Nat) (f : Peer → Peer) : (s.modPeer id f).dram = s.dram := rfl
@[simp] theorem State.modPeer_pending (s : State) (id : Nat) (f : Peer → Peer) : (s.modPeer id f).pending = s.pending := rfl

/-! ### State.modDc -/

@[simp] theorem State.modDc_regs (s : State) (n : Fin 32) (f : Dc → Dc) : (s.modDc n f).regs = s.regs := rfl
@[simp] theorem State.modDc_mtc (s : State) (n : Fin 32) (f : Dc → Dc) : (s.modDc n f).mtc = s.mtc := rfl
@[simp] theorem State.modDc_free (s : State) (n : Fin 32) (f : Dc → Dc) : (s.modDc n f).free = s.free := rfl
@[simp] theorem State.modDc_ticket (s : State) (n : Fin 32) (f : Dc → Dc) : (s.modDc n f).ticket = s.ticket := rfl
@[simp] theorem State.modDc_plat (s : State) (n : Fin 32) (f : Dc → Dc) : (s.modDc n f).plat = s.plat := rfl
@[simp] theorem State.modDc_errs (s : State) (n : Fin 32) (f : Dc → Dc) : (s.modDc n f).errs = s.errs := rfl
@[simp] theorem State.modDc_book (s : State) (n : Fin 32) (f : Dc → Dc) : (s.modDc n f).book = s.book := rfl
@[simp] theorem State.modDc_cores (s : State) (n : Fin 32) (f : Dc → Dc) : (s.modDc n f).cores = s.cores := rfl
@[simp] theorem State.modDc_loops (s : State) (n : Fin 32) (f : Dc → Dc) : (s.modDc n f).loops = s.loops := rfl
@[simp] theorem State.modDc_locks (s : State) (n : Fin 32) (f : Dc → Dc) : (s.modDc n f).locks = s.locks := rfl
@[simp] theorem State.modDc_mbox (s : State) (n : Fin 32) (f : Dc → Dc) : (s.modDc n f).mbox = s.mbox := rfl
@[simp] theorem State.modDc_valves (s : State) (n : Fin 32) (f : Dc → Dc) : (s.modDc n f).valves = s.valves := rfl
@[simp] theorem State.modDc_banks (s : State) (n : Fin 32) (f : Dc → Dc) : (s.modDc n f).banks = s.banks := rfl
@[simp] theorem State.modDc_loads (s : State) (n : Fin 32) (f : Dc → Dc) : (s.modDc n f).loads = s.loads := rfl
@[simp] theorem State.modDc_ain (s : State) (n : Fin 32) (f : Dc → Dc) : (s.modDc n f).ain = s.ain := rfl
@[simp] theorem State.modDc_ls (s : State) (n : Fin 32) (f : Dc → Dc) : (s.modDc n f).ls = s.ls := rfl
@[simp] theorem State.modDc_newBins (s : State) (n : Fin 32) (f : Dc → Dc) : (s.modDc n f).newBins = s.newBins := rfl
@[simp] theorem State.modDc_imu (s : State) (n : Fin 32) (f : Dc → Dc) : (s.modDc n f).imu = s.imu := rfl
@[simp] theorem State.modDc_cams (s : State) (n : Fin 32) (f : Dc → Dc) : (s.modDc n f).cams = s.cams := rfl
@[simp] theorem State.modDc_cuvee (s : State) (n : Fin 32) (f : Dc → Dc) : (s.modDc n f).cuvee = s.cuvee := rfl
@[simp] theorem State.modDc_racking (s : State) (n : Fin 32) (f : Dc → Dc) : (s.modDc n f).racking = s.racking := rfl
@[simp] theorem State.modDc_gc (s : State) (n : Fin 32) (f : Dc → Dc) : (s.modDc n f).gc = s.gc := rfl
@[simp] theorem State.modDc_pos (s : State) (n : Fin 32) (f : Dc → Dc) : (s.modDc n f).pos = s.pos := rfl
@[simp] theorem State.modDc_time (s : State) (n : Fin 32) (f : Dc → Dc) : (s.modDc n f).time = s.time := rfl
@[simp] theorem State.modDc_codes (s : State) (n : Fin 32) (f : Dc → Dc) : (s.modDc n f).codes = s.codes := rfl
@[simp] theorem State.modDc_trellis (s : State) (n : Fin 32) (f : Dc → Dc) : (s.modDc n f).trellis = s.trellis := rfl
@[simp] theorem State.modDc_can (s : State) (n : Fin 32) (f : Dc → Dc) : (s.modDc n f).can = s.can := rfl
@[simp] theorem State.modDc_nets (s : State) (n : Fin 32) (f : Dc → Dc) : (s.modDc n f).nets = s.nets := rfl
@[simp] theorem State.modDc_tags (s : State) (n : Fin 32) (f : Dc → Dc) : (s.modDc n f).tags = s.tags := rfl
@[simp] theorem State.modDc_switch (s : State) (n : Fin 32) (f : Dc → Dc) : (s.modDc n f).switch = s.switch := rfl
@[simp] theorem State.modDc_fleet (s : State) (n : Fin 32) (f : Dc → Dc) : (s.modDc n f).fleet = s.fleet := rfl
@[simp] theorem State.modDc_manager (s : State) (n : Fin 32) (f : Dc → Dc) : (s.modDc n f).manager = s.manager := rfl
@[simp] theorem State.modDc_sram (s : State) (n : Fin 32) (f : Dc → Dc) : (s.modDc n f).sram = s.sram := rfl
@[simp] theorem State.modDc_dram (s : State) (n : Fin 32) (f : Dc → Dc) : (s.modDc n f).dram = s.dram := rfl
@[simp] theorem State.modDc_pending (s : State) (n : Fin 32) (f : Dc → Dc) : (s.modDc n f).pending = s.pending := rfl

end Sys2Proof.Machine
end

