-- ==== Sys2Proof/Laws/Cores.lean ====
section
/-! SUPPORT.  What an instruction of a calm core does: nothing waits to be taken in its place or after it, so it has its own
effect, its address and its cycles, and no other. -/

namespace Sys2Proof.Machine

open Sys2Proof.Reg

/-- The changed element of a vector. -/
theorem upd_same {α} {n} (v : Vector α n) (i : Fin n) (f : α → α) : (upd v i f)[i.val] = f v[i.val] := by
  simp [upd]

/-- The other elements of a vector. -/
theorem upd_other {α} {n} (v : Vector α n) (i j : Fin n) (f : α → α) (h : j ≠ i) : (upd v i f)[j.val] = v[j.val] := by
  unfold upd; rw [Vector.getElem_set_ne]; exact fun e => h (Fin.ext e.symm)

/-- The changed core. -/
@[simp] theorem core_modCore_same (s : State) (c : Fin 16) (f) : (s.modCore c f).core c = f (s.core c) := upd_same _ _ _

/-- The other cores. -/
theorem core_modCore_other (s : State) (c e : Fin 16) (f) (h : e ≠ c) : (s.modCore c f).core e = s.core e := upd_other _ _ _ _ h

/-- A change of the activation of one entry leaves its entry in place. -/
theorem find_modAct (l : List Act) (e : Nat) (f : Act → Act) (hf : ∀ a, (f a).entry = a.entry) :
    (l.map fun a => if a.entry == e then f a else a).find? (fun a => a.entry == e) = (l.find? fun a => a.entry == e).map f := by
  induction l with
  | nil => rfl
  | cons a l ih =>
    by_cases h : a.entry = e
    · simp [h, hf]
    · simp [h]; simpa using ih

/-- The changed activation. -/
theorem Core.act_modAct (k : Core) (e : Nat) (f : Act → Act) (hf : ∀ a, (f a).entry = a.entry) :
    (k.modAct e f).act e = (k.act e).map f := find_modAct _ _ _ hf

/-- A change of the current context changes it, or there is none. -/
theorem Core.ctx_modCtx (k : Core) (f : Ctx → Ctx) :
    (k.modCtx f).ctx = f k.ctx ∨ ((k.modCtx f).ctx = k.ctx ∧ k.inIdle = false ∧ ∀ e, k.cur = some e → k.act e = none) := by
  unfold Core.modCtx
  by_cases h : k.inIdle = true
  · left; simp [h, Core.ctx]
  · simp only [h]
    cases hc : k.cur with
    | none => right; simp
    | some e =>
      have e1 := Core.act_modAct k e (fun a => { a with ctx := f a.ctx }) (fun _ => rfl)
      have e2 : (k.modAct e fun a => { a with ctx := f a.ctx }).inIdle = k.inIdle := rfl
      have e3 : (k.modAct e fun a => { a with ctx := f a.ctx }).cur = k.cur := rfl
      have e4 : (k.modAct e fun a => { a with ctx := f a.ctx }).idle = k.idle := rfl
      cases ha : k.act e with
      | none =>
        right
        simp only [ha, Option.map_none] at e1
        refine ⟨?_, by simpa using h, ?_⟩
        · simp only [Bool.not_eq_true] at h
          simp only [Core.ctx, hc, h, ha]; simp only [Bool.false_eq_true, if_false, e1, e4, Option.map_none, Option.getD_none, e2, h, e3, hc]
        · rintro e' ⟨⟩; exact ha
      | some a =>
        left
        simp only [ha, Option.map_some] at e1
        simp only [Bool.not_eq_true] at h
        simp only [Core.ctx, hc, h, ha]; simp only [Bool.false_eq_true, if_false, e1, e4, Option.map_some, Option.getD_some, e2, h, e3, hc]

/-- A calm core issues its instruction. -/
theorem issue_calm {s : State} {c : Fin 16} (h : s.calm c = true) (t : State) : s.issue c t = .next t := by
  simp [State.calm] at h
  obtain ⟨⟨⟨⟨h1,h2⟩,h3⟩,h4⟩,h5⟩ := h
  simp [State.issue, h1, State.cause, h2, Ctx.past]; omega

/-- A change of the current context leaves the rest of the core alone. -/
theorem modCtx_fields (k : Core) (f) : (k.modCtx f).life = k.life ∧ (k.modCtx f).busErr = k.busErr ∧ (k.modCtx f).slotEnd = k.slotEnd ∧
  (k.modCtx f).line = k.line ∧ (k.modCtx f).lockWait = k.lockWait ∧ (k.modCtx f).executing = k.executing ∧ (k.modCtx f).resetting = k.resetting ∧ (k.modCtx f).exl = k.exl ∧ (k.modCtx f).cur = k.cur := by
  unfold Core.modCtx
  split
  · simp [Core.line, Core.executing]
  · split <;> simp [Core.line, Core.executing, Core.modAct]

/-- Nothing is taken at the boundary after an instruction when nothing waits. -/
theorem bound_calm {t : State} {c : Fin 16} (h1 : (t.core c).busErr = []) (h2 : (t.core c).slotEnd = none) (h3 : (t.core c).line = none)
   (hp : (t.ctx c).pc.toNat < 0x10000) : t.bound c = t := by
  have hs : (t.core c).standing = none := by
    simp only [State.ctx] at hp
    simp [Core.standing, h1, Ctx.past, hp]
  have hb : t.boundary c = t := by
    unfold State.boundary; simp [hs, h2]
  simp only [State.bound, State.cause, h1, Ctx.past, hb]
  simp [State.takeEvent, h3]; intro h; omega

/-- An instruction that ends normally with nothing to take after it. -/
theorem retire_calm {s : State} {c : Fin 16} {n} {f : Ctx → Ctx} (h1 : (s.core c).busErr = []) (h2 : (s.core c).slotEnd = none)
   (h3 : (s.core c).line = none) (hp : (s.ctx c).pc.toNat < 0x10000)
   (hf : ((f (s.ctx c)).next).pc.toNat < 0x10000) : s.retire c n f = s.did c n f := by
  unfold State.retire
  rw [bound_calm]; rfl
  all_goals simp only [State.spend, State.modCtx, core_modCore_same, State.ctx]
  · rw [(modCtx_fields _ _).2.1]; exact h1
  · rw [(modCtx_fields _ _).2.2.1]; exact h2
  · rw [(modCtx_fields _ _).2.2.2.1]; simpa [Core.line] using h3
  · have hc : (Core.ctx { s.core c with cyc := (s.core c).cyc + n }) = (s.core c).ctx := by
      simp [Core.ctx, Core.act]
    rcases Core.ctx_modCtx { s.core c with cyc := (s.core c).cyc + n } (fun x => (f x).next) with e | ⟨e, -, -⟩ <;> rw [e, hc]
    · exact hf
    · exact hp

/-- An instruction of a calm core with room after it does its effect and no more. -/
theorem plain_calm {s : State} {c : Fin 16} {n} {f : Ctx → Ctx} (h : s.calm c = true) (hr : s.room c = true)
   (hf : (f (s.ctx c)).pc = (s.ctx c).pc) : s.issue c (s.retire c n f) = .next (s.did c n f) := by
  rw [issue_calm h]; congr 1
  simp [State.calm, State.room] at h hr
  obtain ⟨⟨⟨⟨h1,h2⟩,h3⟩,h4⟩,h5⟩ := h
  apply retire_calm <;> simp_all [Ctx.next]
  rw [Nat.mod_eq_of_lt] <;> omega

@[simp] theorem setG_pc (x : Ctx) (a v) : (x.setG a v).pc = x.pc := by unfold Ctx.setG; split <;> rfl

@[simp] theorem setF_pc (x : Ctx) (a v) : (x.setF a v).pc = x.pc := rfl

@[simp] theorem setA_pc (x : Ctx) (a v) : (x.setA a v).pc = x.pc := rfl

@[simp] theorem raised_pc (x : Ctx) (m) : (x.raised m).pc = x.pc := rfl

/-- An exception of a core whose EXL is 0 is entered (R66). -/
theorem exc_calm {s : State} {c} {e : Exc} (he : (s.core c).exl = false) : s.except c e = s.modCore c fun k => k.enter (s.status c) e := by
  simp [State.except, he]

/-- A calm core runs. -/
theorem calm_runs {s : State} {c} (h : s.calm c = true) : s.coreRuns c = true := by
  simp [State.calm] at h; exact h.1.1.1.1

/-- As plain_calm, of the state. -/
theorem plain_calm' {s : State} {c : Fin 16} {n} {f : Ctx → Ctx} (h : s.calm c = true) (hr : s.room c = true)
   (hf : (f (s.ctx c)).pc = (s.ctx c).pc) : s.retire c n f = s.did c n f := by
  have := plain_calm (n:=n) h hr hf
  rw [issue_calm h] at this; injection this

/-- An aligned access inside DTCM (Table 3.8). -/
theorem place_dtcm {s : State} {c sup ea w store} (ha : ea % w = 0) (h1 : 0x20000 ≤ ea) (h2 : ea < 0x40000) :
   s.place c sup ea w store = .inl (.dtcm (ea - 0x20000)) := by
  unfold State.place
  rw [if_neg (by omega), if_neg (by omega), if_pos ⟨h1,h2⟩]

/-- A counted correction leaves a core calm, its context and the room after the instruction (R65). -/
theorem fixedTcm_calm (s : State) (c fx) : (s.fixedTcm c fx).calm c = s.calm c := by
  cases fx
  · rfl
  · unfold State.fixedTcm State.calm State.coreRuns State.ctx
    simp only [if_true, core_modCore_same]
    rfl

theorem fixedTcm_ctx (s : State) (c fx) : (s.fixedTcm c fx).ctx c = s.ctx c := by
  cases fx
  · rfl
  · unfold State.fixedTcm State.ctx
    simp only [if_true, core_modCore_same]
    rfl

theorem fixedTcm_room (s : State) (c fx) : (s.fixedTcm c fx).room c = s.room c := by
  unfold State.room
  rw [fixedTcm_ctx]

/-- An aligned load from DTCM. -/
theorem loadAt_dtcm {s : State} {c b imm w wait fx dest} (h : s.calm c = true) (hr : s.room c = true)
   (ha : ((s.ctx c).ea b imm).toNat % w = 0) (h1 : 0x20000 ≤ ((s.ctx c).ea b imm).toNat) (h2 : ((s.ctx c).ea b imm).toNat < 0x40000)
   (hd : ∀ y v, (dest y v : Ctx).pc = y.pc) :
   s.loadAt c b imm w ⟨wait, false, fx⟩ dest =
     (s.fixedTcm c fx).did c 2 fun y => dest y ((s.core c).dtcm.readN (((s.ctx c).ea b imm).toNat - 0x20000) w) := by
  have hc := (fixedTcm_calm s c fx).trans h
  unfold State.loadAt
  simp only [State.loadFrom, place_dtcm ha h1 h2]
  simp only [Bool.false_eq_true, if_false, calm_runs hc, if_true]
  exact plain_calm' hc ((fixedTcm_room s c fx).trans hr) (hd _ _)

/-- A store to DTCM leaves a core calm. -/
theorem calm_dtcm (s : State) (c) (f : Mem → Mem) : (s.modCore c fun k => { k with dtcm := f k.dtcm }).calm c = s.calm c := by
  unfold State.calm State.coreRuns State.ctx
  simp only [core_modCore_same]
  rfl

/-- A store to DTCM leaves the room after the instruction. -/
theorem room_dtcm (s : State) (c) (f : Mem → Mem) : (s.modCore c fun k => { k with dtcm := f k.dtcm }).room c = s.room c := by
  unfold State.room State.ctx
  simp only [core_modCore_same]
  rfl

/-- An aligned store to DTCM. -/
theorem storeAt_dtcm {s : State} {c b imm w v wait} (h : s.calm c = true) (hr : s.room c = true)
   (ha : ((s.ctx c).ea b imm).toNat % w = 0) (h1 : 0x20000 ≤ ((s.ctx c).ea b imm).toNat) (h2 : ((s.ctx c).ea b imm).toNat < 0x40000) :
   s.storeAt c b imm w v wait = (s.modCore c fun k => { k with dtcm := k.dtcm.writeN (((s.ctx c).ea b imm).toNat - 0x20000) w (v.toNat % 2 ^ (8 * w)) }).did c 1 fun y => y := by
  unfold State.storeAt
  simp only [place_dtcm ha h1 h2, State.storeTo]
  have hx := h
  have hy := hr
  rw [← calm_dtcm s c fun m => m.writeN (((s.ctx c).ea b imm).toNat - 0x20000) w (v.toNat % 2 ^ (8 * w))] at hx
  rw [← room_dtcm s c fun m => m.writeN (((s.ctx c).ea b imm).toNat - 0x20000) w (v.toNat % 2 ^ (8 * w))] at hy
  refine (if_pos (calm_runs hx)).trans ?_
  exact plain_calm' hx hy rfl

/-- A control transfer inside ITCM (R55). -/
theorem transfer_calm {s : State} {c n t} {f : Ctx → Ctx} (h : s.calm c = true) (ht : inItcm t = true) :
   s.transfer c n t f = s.went c n t f := by
  simp [inItcm] at ht
  simp only [State.calm, Bool.and_eq_true, decide_eq_true_eq, Option.isNone_iff_eq_none, List.isEmpty_iff] at h
  obtain ⟨⟨⟨⟨h1,h2⟩,h3⟩,h4⟩,h5⟩ := h
  unfold State.transfer
  rw [if_neg (by simp; omega)]
  rw [bound_calm]; rfl
  all_goals simp only [State.spend, State.modCtx, core_modCore_same, State.ctx]
  · rw [(modCtx_fields _ _).2.1]; exact h2
  · rw [(modCtx_fields _ _).2.2.1]; exact h3
  · rw [(modCtx_fields _ _).2.2.2.1]; simpa [Core.line] using h4
  · have hc : (Core.ctx { s.core c with cyc := (s.core c).cyc + n }) = (s.core c).ctx := by
      simp [Core.ctx, Core.act]
    rcases Core.ctx_modCtx { s.core c with cyc := (s.core c).cyc + n } (fun x => { f x with pc := t }) with e | ⟨e, -, -⟩ <;> rw [e]
    · exact ht.1
    · rw [hc]; exact h5

/-- A control transfer to a bad target takes FETCH (R55). -/
theorem transfer_bad {s : State} {c n t} {f : Ctx → Ctx} (he : (s.core c).exl = false) (ht : inItcm t = false) :
    s.transfer c n t f = s.modCore c fun k => k.enter (s.status c) ⟨0x03, 0, false, (s.ctx c).pc, t⟩ := by
  have : (decide (0x10000 ≤ t.toNat) || t.toNat % 4 != 0) = true := by
    simp [inItcm] at ht ⊢; by_cases h : t.toNat < 65536
    · right; exact ht h
    · left; omega
  simp [State.transfer, this, exc_calm he]

end Sys2Proof.Machine
end

