-- ==== Sys2Proof/Laws/Memory.lean ====
section
/-! SUPPORT.  The laws of the byte memories: every operation keeps the canonical form, a byte reads as it was last written,
and a write leaves every other byte alone. -/

namespace Sys2Proof.Machine

/-! ### The canonical form -/

theorem Mem.above_weaken {lo lo' : Nat} {m : Mem} (h : Mem.above lo m = true) (le : lo' ≤ lo) : Mem.above lo' m = true := by
  cases m with
  | nil => rfl
  | cons e t =>
    simp only [Mem.above, Bool.and_eq_true, decide_eq_true_eq] at h ⊢
    exact ⟨⟨by omega, h.1.2⟩, h.2⟩

theorem Mem.above_wf {lo : Nat} {m : Mem} (h : Mem.above lo m = true) : m.wf = true := by
  cases m with
  | nil => rfl
  | cons e t =>
    simp only [Mem.above, Mem.wf, Bool.and_eq_true, decide_eq_true_eq] at h ⊢
    exact ⟨h.1.2, h.2⟩

theorem Mem.put_above {lo : Nat} {m : Mem} (h : Mem.above lo m = true) {a : Nat} (la : lo < a) (b : Byte) :
    Mem.above lo (m.put a b) = true := by
  induction m generalizing lo with
  | nil =>
    unfold Mem.put
    split
    · rfl
    · simp [Mem.above, *]
  | cons e t ih =>
    obtain ⟨k, x⟩ := e
    simp only [Mem.above, Bool.and_eq_true, decide_eq_true_eq] at h
    obtain ⟨⟨hk, hx⟩, ht⟩ := h
    unfold Mem.put
    split
    · split <;> simp [Mem.above, *]
    · split
      · split
        · exact Mem.above_weaken ht (by omega)
        · subst a; simp [Mem.above, *]
      · have := ih ht (show k < a by omega)
        simp [Mem.above, hk, hx, this]

/-- A write keeps the canonical form. -/
theorem Mem.put_wf {m : Mem} (h : m.wf = true) (a : Nat) (b : Byte) : (m.put a b).wf = true := by
  cases m with
  | nil => unfold Mem.put; split <;> simp [Mem.wf, Mem.above, *]
  | cons e t =>
    obtain ⟨k, x⟩ := e
    simp only [Mem.wf, Bool.and_eq_true, decide_eq_true_eq] at h
    obtain ⟨hx, ht⟩ := h
    unfold Mem.put
    split
    · split <;> simp [Mem.wf, Mem.above, *]
    · split
      · split
        · exact Mem.above_wf ht
        · subst a; simp [Mem.wf, *]
      · simp [Mem.wf, hx, Mem.put_above ht (show k < a by omega)]

theorem Mem.writeN_wf {m : Mem} (h : m.wf = true) (a n v : Nat) : (m.writeN a n v).wf = true := by
  induction n generalizing m a v with
  | zero => exact h
  | succ n ih => exact ih (Mem.put_wf h _ _) _ _

theorem Mem.writeWords_wf {m : Mem} (h : m.wf = true) (a : Nat) (ws : List Nat) : (m.writeWords a ws).wf = true := by
  induction ws generalizing m a with
  | nil => exact h
  | cons w t ih => exact ih (Mem.writeN_wf h _ _ _) _

theorem Mem.writeBytes_wf {m : Mem} (h : m.wf = true) (a : Nat) (bs : List Nat) : (m.writeBytes a bs).wf = true := by
  induction bs generalizing m a with
  | nil => exact h
  | cons b t ih => exact ih (Mem.put_wf h _ _) _

/-! ### Reads after writes -/

theorem Mem.byte_of_above {lo a : Nat} {m : Mem} (h : Mem.above lo m = true) (le : a ≤ lo) : m.byte a = Mem.blank := by
  cases m with
  | nil => rfl
  | cons e t =>
    obtain ⟨k, x⟩ := e
    simp only [Mem.above, Bool.and_eq_true, decide_eq_true_eq] at h
    unfold Mem.byte
    rw [if_neg (by omega), if_pos (by omega)]

theorem Mem.byte_put_above {lo : Nat} {m : Mem} (h : Mem.above lo m = true) (a : Nat) (b : Byte) (x : Nat) :
    (m.put a b).byte x = if x = a then b else m.byte x := by
  induction m generalizing lo with
  | nil =>
    unfold Mem.put
    split
    · next hb => subst hb; split <;> rfl
    · by_cases e : x = a
      · subst e; simp [Mem.byte]
      · simp [Mem.byte, e, show ¬a = x by omega]
  | cons e t ih =>
    obtain ⟨k, y⟩ := e
    simp only [Mem.above, Bool.and_eq_true, decide_eq_true_eq] at h
    obtain ⟨⟨hk, hy⟩, ht⟩ := h
    unfold Mem.put
    split
    · next lt =>
      split
      · next hb =>
        subst hb
        split
        · next e => subst e; simp [Mem.byte, show ¬k = x by omega, lt]
        · rfl
      · by_cases e : x = a
        · subst e; simp [Mem.byte]
        · by_cases l : x < a
          · simp [Mem.byte, e, show ¬a = x by omega, l, show ¬k = x by omega, show x < k by omega]
          · simp [Mem.byte, e, show ¬a = x by omega, l]
    · next nlt =>
      split
      · next ek =>
        subst ek
        split
        · next hb =>
          subst hb
          by_cases e : x = a
          · subst e; simp [Mem.byte_of_above ht]
          · by_cases l : x < a
            · simp [Mem.byte, e, show ¬a = x by omega, l, Mem.byte_of_above ht (show x ≤ a by omega)]
            · simp [Mem.byte, e, show ¬a = x by omega, l]
        · by_cases e : x = a
          · subst e; simp [Mem.byte]
          · simp [Mem.byte, e, show ¬a = x by omega]
      · next nk =>
        have := ih ht
        simp only [Mem.byte, this]
        by_cases e : x = a
        · subst e; simp [show ¬k = x by omega, show ¬x < k by omega]
        · simp [e]

/-- A byte reads as it was last written, and a write leaves every other byte alone. -/
theorem Mem.byte_put {m : Mem} (h : m.wf = true) (a : Nat) (b : Byte) (x : Nat) :
    (m.put a b).byte x = if x = a then b else m.byte x := by
  cases m with
  | nil => exact Mem.byte_put_above (lo := 0) rfl a b x
  | cons e t =>
    obtain ⟨k, y⟩ := e
    -- shift every address up by one, so that the list lies above 0
    simp only [Mem.wf, Bool.and_eq_true, decide_eq_true_eq] at h
    obtain ⟨hy, ht⟩ := h
    rcases Nat.eq_zero_or_pos k with rfl | hk
    · unfold Mem.put
      simp only [Nat.not_lt_zero, if_false]
      split
      · next ea =>
        subst ea
        split
        · next hb =>
          subst hb
          by_cases e : x = 0
          · subst e; simp [Mem.byte_of_above ht]
          · simp [Mem.byte, e, show ¬0 = x by omega]
        · by_cases e : x = 0
          · subst e; simp [Mem.byte]
          · simp [Mem.byte, e, show ¬0 = x by omega]
      · next na =>
        simp only [Mem.byte, Mem.byte_put_above ht, Nat.not_lt_zero, if_false]
        by_cases e : x = a
        · subst e; simp [show ¬0 = x by omega]
        · simp [e]
    · exact Mem.byte_put_above (lo := 0) (by simp [Mem.above, hy, ht, hk]) a b x

/-- A write of `n` bytes leaves every byte outside them alone. -/
theorem Mem.byte_writeN_outside {m : Mem} (h : m.wf = true) (a n v x : Nat) (o : x < a ∨ a + n ≤ x) :
    (m.writeN a n v).byte x = m.byte x := by
  induction n generalizing m a v with
  | zero => rfl
  | succ n ih =>
    unfold Mem.writeN
    rw [ih (Mem.put_wf h _ _) _ _ (by omega), Mem.byte_put h, if_neg (by omega)]

/-- A number of `n` bytes reads as it was written, modulo its width. -/
theorem Mem.readN_writeN {m : Mem} (h : m.wf = true) (a n v : Nat) : (m.writeN a n v).readN a n = v % 256 ^ n := by
  induction n generalizing m a v with
  | zero => simp [Mem.readN, Nat.mod_one]
  | succ n ih =>
    unfold Mem.writeN Mem.readN
    rw [ih (Mem.put_wf h _ _), Mem.byte_writeN_outside (Mem.put_wf h _ _) _ _ _ _ (by omega), Mem.byte_put h]
    rw [if_pos rfl, BitVec.toNat_ofNat, show 256 ^ (n + 1) = 256 * 256 ^ n from Nat.pow_succ', Nat.mod_mul]

end Sys2Proof.Machine
end

