-- ==== Sys2Proof/Laws/Registers.lean ====
section
/-! SUPPORT.  The laws of the register map: a field reads as it was last written, a write leaves every other field alone, and
every write keeps the keys strictly rising. -/

namespace Sys2Proof.Machine

theorem regFind_none_of_lt {m : RegMap} {k : Nat} (h : ∀ e ∈ m, k < e.1) : regFind m k = none := by
  cases m with
  | nil => rfl
  | cons e t =>
    have := h e (by simp)
    simp [regFind, show ¬e.1 = k by omega, this]

theorem regFind_regSet (m : RegMap) (k v : Nat) : regFind (regSet m k v) k = some v := by
  induction m with
  | nil => simp [regSet, regFind]
  | cons e t ih =>
    unfold regSet
    split
    · simp [regFind]
    · split
      · simp [regFind]
      · simp [regFind, *]

theorem regFind_regSet_other (m : RegMap) {k k' : Nat} (ne : k' ≠ k) (v : Nat) : regFind (regSet m k v) k' = regFind m k' := by
  induction m with
  | nil => simp [regSet, regFind, Ne.symm ne]
  | cons e t ih =>
    unfold regSet
    split
    · next h => simp [regFind, Ne.symm ne, h]
    · split
      · next h1 h2 =>
        by_cases l : k' < k
        · simp [regFind, Ne.symm ne, l, show k' < e.1 by omega, show ¬e.1 = k' by omega]
        · simp [regFind, Ne.symm ne, l]
      · simp [regFind, ih]

theorem regSet_mem {m : RegMap} {k v : Nat} {e : Nat × Nat} (h : e ∈ regSet m k v) : e = (k, v) ∨ e ∈ m := by
  induction m with
  | nil => simpa [regSet] using h
  | cons a t ih =>
    unfold regSet at h
    split at h
    · rcases List.mem_cons.mp h with h | h
      · exact .inl h
      · exact .inr (List.mem_cons_of_mem _ h)
    · split at h
      · rcases List.mem_cons.mp h with h | h
        · exact .inl h
        · exact .inr h
      · rcases List.mem_cons.mp h with h | h
        · exact .inr (by simp [h])
        · rcases ih h with h | h
          · exact .inl h
          · exact .inr (List.mem_cons_of_mem _ h)

theorem regSet_rising {m : RegMap} (h : regRising m) (k v : Nat) : regRising (regSet m k v) := by
  induction m with
  | nil => simp [regRising, regSet]
  | cons a t ih =>
    have ht : regRising t := (List.pairwise_cons.mp h).2
    have ha := (List.pairwise_cons.mp h).1
    unfold regSet
    split
    · next e => exact List.pairwise_cons.mpr ⟨fun b hb => by have := ha b hb; simp only; omega, ht⟩
    · split
      · next n l =>
        refine List.pairwise_cons.mpr ⟨fun b hb => ?_, h⟩
        rcases List.mem_cons.mp hb with rfl | hb
        · exact l
        · have := ha b hb; simp only; omega
      · next n l =>
        refine List.pairwise_cons.mpr ⟨fun b hb => ?_, ih ht⟩
        rcases regSet_mem hb with rfl | hb
        · simp only; omega
        · exact ha b hb

theorem regDel_mem {m : RegMap} {k : Nat} {e : Nat × Nat} (h : e ∈ regDel m k) : e ∈ m := by
  induction m with
  | nil => exact h
  | cons a t ih =>
    unfold regDel at h
    split at h
    · exact List.mem_cons_of_mem _ h
    · split at h
      · exact h
      · rcases List.mem_cons.mp h with h | h
        · simp [h]
        · exact List.mem_cons_of_mem _ (ih h)

theorem regDel_rising {m : RegMap} (h : regRising m) (k : Nat) : regRising (regDel m k) := by
  induction m with
  | nil => exact h
  | cons a t ih =>
    have ht : regRising t := (List.pairwise_cons.mp h).2
    have ha := (List.pairwise_cons.mp h).1
    unfold regDel
    split
    · exact ht
    · split
      · exact h
      · exact List.pairwise_cons.mpr ⟨fun b hb => ha b (regDel_mem hb), ih ht⟩

theorem regFind_regDel {m : RegMap} (h : regRising m) (k : Nat) : regFind (regDel m k) k = none := by
  induction m with
  | nil => rfl
  | cons a t ih =>
    have ht : regRising t := (List.pairwise_cons.mp h).2
    have ha := (List.pairwise_cons.mp h).1
    unfold regDel
    split
    · next e => exact regFind_none_of_lt fun b hb => by have := ha b hb; omega
    · split
      · next n l => simp [regFind, n, l]
      · next n l => simp [regFind, n, l, ih ht]

theorem regFind_regDel_other {m : RegMap} (h : regRising m) {k k' : Nat} (ne : k' ≠ k) :
    regFind (regDel m k) k' = regFind m k' := by
  induction m with
  | nil => rfl
  | cons a t ih =>
    have ht : regRising t := (List.pairwise_cons.mp h).2
    have ha := (List.pairwise_cons.mp h).1
    unfold regDel
    split
    · next e =>
      by_cases l : k' < a.1
      · rw [regFind_none_of_lt fun b hb => by have := ha b hb; omega]
        simp [regFind, show ¬a.1 = k' by omega, l]
      · simp [regFind, show ¬a.1 = k' by omega, l]
    · split
      · rfl
      · simp [regFind, ih ht]

/-- The value listed under a key after a store, with the value of an unlisted key filled in. -/
theorem regFind_regStore {m : RegMap} (h : regRising m) (k v d : Nat) : (regFind (regStore m k v d) k).getD d = v := by
  unfold regStore
  split
  · next e => rw [regFind_regDel h]; simp [e]
  · rw [regFind_regSet]; rfl

theorem regFind_regStore_other {m : RegMap} (h : regRising m) {k k' : Nat} (ne : k' ≠ k) (v d : Nat) :
    regFind (regStore m k v d) k' = regFind m k' := by
  unfold regStore
  split
  · exact regFind_regDel_other h ne
  · exact regFind_regSet_other m ne v

theorem regStore_rising {m : RegMap} (h : regRising m) (k v d : Nat) : regRising (regStore m k v d) := by
  unfold regStore
  split
  · exact regDel_rising h k
  · exact regSet_rising h k v

theorem regDrop_rising {m : RegMap} (h : regRising m) (p : Nat → Bool) : regRising (regDrop p m) := h.filter _

end Sys2Proof.Machine
end

