-- ==== Sys2Proof/Laws/Keeps.lean ====
section
/-! SUPPORT.  What no operation of the module does: it never touches the queue of commands, and leaves the memories and the register map in their canonical forms.  One lemma per operation. -/

namespace Sys2Proof.Machine

open Sys2Proof.Reg

/-- The TCMs of a core are in their canonical form. -/
structure Core.Tidy (k : Core) : Prop where
  itcm : k.itcm.wf = true
  dtcm : k.dtcm.wf = true

/-- The canonical forms of a state's memories and registers. -/
structure State.Tidy (s : State) : Prop where
  sram : s.sram.wf = true
  dram : s.dram.wf = true
  cores : ∀ k ∈ s.cores, k.Tidy
  regs : regRising s.regs

/-- What every operation keeps, from a state to a later one. -/
structure Keeps (s t : State) : Prop where
  pending : t.pending = s.pending
  tidy : s.Tidy → t.Tidy

theorem Keeps.refl (s : State) : Keeps s s := ⟨rfl, id⟩

/-- A change of the other fields. -/
theorem Keeps.other {s₀ s t : State} (h : Keeps s₀ s) (p : t.pending = s.pending) (a : t.sram = s.sram)
    (d : t.dram = s.dram) (c : t.cores = s.cores) (r : t.regs = s.regs) : Keeps s₀ t :=
  ⟨p.trans h.pending, fun w =>
    let x := h.tidy w
    ⟨a ▸ x.sram, d ▸ x.dram, c ▸ x.cores, r ▸ x.regs⟩⟩

/-- A change of the registers beside them. -/
theorem Keeps.regs {s₀ s t : State} (h : Keeps s₀ s) (p : t.pending = s.pending) (a : t.sram = s.sram)
    (d : t.dram = s.dram) (c : t.cores = s.cores) (r : regRising s.regs → regRising t.regs) : Keeps s₀ t :=
  ⟨p.trans h.pending, fun w =>
    let x := h.tidy w
    ⟨a ▸ x.sram, d ▸ x.dram, c ▸ x.cores, r x.regs⟩⟩

theorem Keeps.ite {s₀ a b : State} {c : Prop} [Decidable c] (ha : Keeps s₀ a) (hb : Keeps s₀ b) : Keeps s₀ (if c then a else b) := by
  split
  · exact ha
  · exact hb

theorem Keeps.dite {s₀ : State} {c : Prop} [Decidable c] {a : c → State} {b : ¬c → State} (ha : ∀ h, Keeps s₀ (a h))
    (hb : ∀ h, Keeps s₀ (b h)) : Keeps s₀ (if h : c then a h else b h) := by
  split
  · exact ha _
  · exact hb _

theorem Keeps.foldl {α : Type} {s₀ : State} {f : State → α → State} (hf : ∀ t a, Keeps s₀ t → Keeps s₀ (f t a)) :
    ∀ (l : List α) {s : State}, Keeps s₀ s → Keeps s₀ (l.foldl f s)
  | [], _, h => h
  | a :: l, _, h => Keeps.foldl hf l (hf _ a h)

theorem Keeps.getD {s₀ s : State} {o : Option State} (ho : ∀ t, o = some t → Keeps s₀ t) (h : Keeps s₀ s) : Keeps s₀ (o.getD s) := by
  cases o with
  | none => exact h
  | some t => exact ho t rfl

theorem Core.Tidy.ite {a b : Core} {c : Prop} [Decidable c] (ha : a.Tidy) (hb : b.Tidy) : (if c then a else b).Tidy := by
  split
  · exact ha
  · exact hb

theorem Core.Tidy.other {k k' : Core} (h : k.Tidy) (i : k'.itcm = k.itcm) (d : k'.dtcm = k.dtcm) : k'.Tidy :=
  ⟨i ▸ h.itcm, d ▸ h.dtcm⟩

theorem Core.zero_tidy : Core.zero.Tidy := ⟨rfl, rfl⟩

/-- A change of one element of a vector. -/
theorem upd_forall {α : Type} {n : Nat} {P : α → Prop} {v : Vector α n} (h : ∀ x ∈ v, P x) (i : Fin n) {f : α → α}
    (hf : ∀ x, P x → P (f x)) : ∀ x ∈ upd v i f, P x := by
  intro x hx
  unfold upd at hx
  rcases Vector.mem_or_eq_of_mem_set hx with hx | hx
  · exact h x hx
  · exact hx ▸ hf _ (h _ (Vector.getElem_mem i.isLt))

/-- A change of one core. -/
theorem Keeps.modCore {s₀ s : State} {c : Fin 16} {f : Core → Core} (hf : ∀ k : Core, k.Tidy → (f k).Tidy) (h : Keeps s₀ s) :
    Keeps s₀ (s.modCore c f) :=
  ⟨h.pending, fun w =>
    let x := h.tidy w
    ⟨x.sram, x.dram, upd_forall x.cores c hf, x.regs⟩⟩

/-- A change of every core. -/
theorem Keeps.cores {s₀ s t : State} (h : Keeps s₀ s) (p : t.pending = s.pending) (a : t.sram = s.sram)
    (d : t.dram = s.dram) (r : t.regs = s.regs) (c : (∀ k ∈ s.cores, k.Tidy) → ∀ k ∈ t.cores, k.Tidy) : Keeps s₀ t :=
  ⟨p.trans h.pending, fun w =>
    let x := h.tidy w
    ⟨a ▸ x.sram, d ▸ x.dram, c x.cores, r ▸ x.regs⟩⟩

/-- A state that has the queue of `s`, with the other fields as they come. -/
theorem Keeps.upd {s₀ s : State} {regs mtc free ticket plat errs book cores loops locks mbox valves banks loads ain ls newBins imu
    cams cuvee racking gc pos time codes trellis can nets tags switch fleet dc manager sram dram} (h : Keeps s₀ s)
    (r : regRising s.regs → regRising regs) (c : (∀ k ∈ s.cores, k.Tidy) → ∀ k ∈ cores, k.Tidy)
    (a : s.sram.wf = true → sram.wf = true) (d : s.dram.wf = true → dram.wf = true) :
    Keeps s₀ ⟨regs, mtc, free, ticket, plat, errs, book, cores, loops, locks, mbox, valves, banks, loads, ain, ls, newBins, imu,
      cams, cuvee, racking, gc, pos, time, codes, trellis, can, nets, tags, switch, fleet, dc, manager, sram, dram, s.pending⟩ :=
  ⟨h.pending, fun w =>
    let x := h.tidy w
    ⟨a x.sram, d x.dram, c x.cores, r x.regs⟩⟩

/-- The outcome of a command: a next state that keeps what `Keeps` says. -/
def Done (s₀ : State) (o : Host.Outcome State Fault Refusal) : Prop := ∃ t, o = .next t ∧ Keeps s₀ t

theorem Done.next {s₀ t : State} (h : Keeps s₀ t) : Done s₀ (.next t) := ⟨t, rfl, h⟩

theorem Done.ite {s₀ : State} {a b : Host.Outcome State Fault Refusal} {c : Prop} [Decidable c] (ha : Done s₀ a) (hb : Done s₀ b) :
    Done s₀ (if c then a else b) := by
  split
  · exact ha
  · exact hb

/-- The cores after a reset. -/
theorem cores_zero_tidy : ∀ k ∈ Vector.replicate 16 Core.zero, k.Tidy := by
  intro k hk
  rw [Vector.eq_of_mem_replicate hk]
  exact Core.zero_tidy

theorem State.put_keeps {s₀ s : State} {f : Fld} {v i j k : Nat} (h : Keeps s₀ s) : Keeps s₀ (s.put f v i j k) :=
  h.regs rfl rfl rfl rfl fun w => regStore_rising w _ _ _

theorem State.resetRange_keeps {s₀ s : State} {lo hi : Nat} (h : Keeps s₀ s) : Keeps s₀ (s.resetRange lo hi) :=
  h.regs rfl rfl rfl rfl fun w => w.filter _

theorem regSets_rising {l : List (Nat × Nat)} : ∀ {m : RegMap}, regRising m → regRising (l.foldl (fun m e => regSet m e.1 e.2) m) := by
  induction l with
  | nil => exact fun h => h
  | cons e l ih => exact fun h => ih (regSet_rising h _ _)

theorem State.swapRange_keeps {s₀ s : State} {lo hi d : Nat} (h : Keeps s₀ s) : Keeps s₀ (s.swapRange lo hi d) :=
  h.regs rfl rfl rfl rfl fun w => regSets_rising (w.filter _)

theorem State.copyRange_keeps {s₀ s : State} {lo hi d : Nat} (h : Keeps s₀ s) : Keeps s₀ (s.copyRange lo hi d) :=
  h.regs rfl rfl rfl rfl fun w => regSets_rising (w.filter _)

theorem State.resetBut_keeps {s₀ s : State} {l : List (Nat × Nat)} (h : Keeps s₀ s) : Keeps s₀ (s.resetBut l) :=
  h.regs rfl rfl rfl rfl fun w => w.filter _

/-! ### Events -/

theorem Core.modCtx_tidy {k : Core} {f : Ctx → Ctx} (h : k.Tidy) : (k.modCtx f).Tidy := by
  unfold Core.modCtx
  split
  · exact h.other rfl rfl
  · split
    · exact h.other rfl rfl
    · exact h

theorem Core.enter_tidy {k : Core} {st : Word} {e : Exc} (h : k.Tidy) : (k.enter st e).Tidy :=
  (Core.modCtx_tidy (f := fun x => { x with priv := true, pc := k.vbase + (if e.code = 0x10 then 0x80 else 0) }) h).other rfl rfl

theorem State.eventHere_keeps {s₀ s : State} {c : Fin 16} {l : Nat} (h : Keeps s₀ s) : Keeps s₀ (s.eventHere c l) := by
  refine h.modCore fun k w => ?_
  split
  · exact (Core.enter_tidy (st := s.status c) w).other rfl rfl
  · exact Core.enter_tidy w

theorem State.modLock_keeps {s₀ s : State} {n : Fin 256} {f : Lock → Lock} (h : Keeps s₀ s) : Keeps s₀ (s.modLock n f) :=
  h.other rfl rfl rfl rfl rfl

theorem State.takeEvent_keeps {s₀ s : State} {c : Fin 16} (h : Keeps s₀ s) : Keeps s₀ (s.takeEvent c) := by
  unfold State.takeEvent
  dsimp only
  split
  · exact h
  · split
    · exact h
    · split
      · split
        · exact State.eventHere_keeps (Keeps.modCore (fun k w => (Core.modCtx_tidy w).other rfl rfl) (State.modLock_keeps h))
        · exact State.eventHere_keeps h
      · split
        · exact State.eventHere_keeps (Keeps.modCore (fun k w => w.other rfl rfl) h)
        · exact State.eventHere_keeps (Keeps.modCore (fun k w => w.other rfl rfl) h)

theorem State.eventsNow_keeps {s₀ s : State} (h : Keeps s₀ s) : Keeps s₀ s.eventsNow :=
  Keeps.foldl (fun _ _ w => Keeps.ite (State.takeEvent_keeps w) w) _ h

theorem State.raise_keeps {s₀ s : State} {ev : Nat} (h : Keeps s₀ s) : Keeps s₀ (s.raise ev) := by
  unfold State.raise
  split
  · exact h
  · refine State.eventsNow_keeps (h.cores rfl rfl rfl rfl fun w k hk => ?_)
    obtain ⟨i, hi, e⟩ := Vector.mem_iff_getElem.mp hk
    subst e
    simp only [Vector.getElem_mapFinIdx]
    exact (w _ (Vector.getElem_mem hi)).other rfl rfl

end Sys2Proof.Machine
end

