-- ==== Sys2Proof/Tests/Slice0.lean ====
section
/-! SUPPORT.  The model's own tests: ill-formed terms that WellFormed refuses, words written out from the encodings of
chapter 3, single steps whose results the specification states, and a state that meets the hypotheses of every statement. -/

namespace Sys2Proof.Tests

open Sys2Proof Sys2Proof.Machine Sys2Proof.Reg

set_option maxRecDepth 20000

/-! ### States -/

/-- A module in RUN with the service firmware up. -/
def wr : State := { State.reset with plat := { State.reset.plat with power := .run, serviceUp := true } }
/-- A module in RUN, for a change of its platform. -/
def wp (f : Platform → Platform) : State := wr.modPlat f
/-- The same at a later count of the MTC. -/
def late (s : State) : State := { s with mtc := 10 ^ 15 }
/-- Core 0 in its idle context at the start of ITCM, at supervisor privilege. -/
def wc : State := wr.modCore 0 fun k => { k with life := .running, inIdle := true }
/-- Core 0 with another context. -/
def wx (f : Ctx → Ctx) : State := wc.modCore 0 fun k => { k with idle := f k.idle }
/-- Core 0 with general register 2 at a value. -/
def wg (v : Word) : State := wx fun x => x.setG 2 v
/-- Core 0 at user privilege. -/
def wu : State := wx fun x => { x with priv := false }
/-- Core 0 in an activation of entry 4. -/
def wa : State := wr.modCore 0 fun k => { k with life := .running, cur := some 4, acts := [⟨4, Ctx.zero, none, 0, false⟩] }

/-- Camera port 0 in RUN, with a frame in progress or none. -/
def wcam (f : Option CamFrame) : State := (wr.put CAM_CFG.EN 1).modCam 0 fun c => { c with st := .run, frame := f }
/-- A frame of two lines of four pixels with one exposure. -/
def wfr : CamFrame :=
  ⟨⟨0, 0, false, false, 0x2A, 1, 0, false, 0, 0, 0, 0, 4, 2, 0, 0, false, false, false, 0, 0, 0, 0, 0⟩, none, 0, 0, 0, false, false, 0, [[]], [0], 0, 0,
    false, none, 1, 0⟩
/-- A module with Cuvee running and sensor 0 of a kind. -/
def wcv (k : Nat) : State := ((wr.put CV_CTL.EN 1).put SENS_CFG.EN 1).put SENS_CFG.KIND k
/-- An object of sensor 0 that waits for its model. -/
def wob : CvObj := ⟨0, 0, (0, 0), 1, 0, 0, 2, 2, 1, 4, 0, 0, 0, 0, [], none, true, false, [], []⟩

/-- A fleet service that runs, with peer 2 in a session. -/
def wfl : State := wr.modFleet fun f => { f with on := true, peers := [⟨2, 1, 0, true, 9, 4, 0, 0⟩] }
/-- A message of peer 2 to all members. -/
def wh : JfxHead := ⟨2, 9, 5, allMembers, false, true⟩
/-- The fleet service with a dialog with peer 2. -/
def wdl : State := wfl.modFleet fun f => { f with dialogs := [⟨7, some 2, 0⟩] }

/-- A descriptor that copies 32 bytes in SRAM, and channel 0 with it in MOVE under a state of the movers. -/
def wdd : DcDesc := ⟨0, true, false, 0x10000000, 0x10000040, 0, 32, 0, 0⟩
def wdc (m : Vector (Option (Fin 32)) 2) : State :=
  (({ wr with dc := { wr.dc with movers := m } } : State).modDc 0 fun x => { x with desc := some wdd }).put DC_STAT.STATE dcMove

/-- Loop 0 of core 0 with a sample in progress that writes 7 to a program register. -/
def wlp : State := (wr.put LP_OUT.ADDR (0x20031800 / 4)).modLoop 0 0 fun x => { x with cur := some ⟨0, false, false, false, 0, 0, 0, none, some 7⟩ }

/-- Loss plate 0 at rest with a bin, its onset threshold at 0 and its clip level above every code. -/
def wls : State :=
  (((wr.put LS_CFG.EN 1).put LS_THR.ON 0).put LS_CLIP.CLIP 40000).modLs 0 fun l => { l with bins := [⟨0, 9, true, 1, 0, 0, false, false, 0⟩] }
theorem wls_envelope (x : Int) : (wls.lsInput 0 x).2.natAbs < 40000 := by
  show (sat16 _).natAbs < 40000
  unfold sat16 clampZ
  omega

/-- A module whose solution ring holds one placed record, of an instant. -/
def wsol (m : Nat) : State :=
  ({ wr with sram := ((Mem.writeN [] 0x10000040 4 1).writeN 0x10000044 4 m).writeN 0x1000004C 4 1 }.modPos fun p =>
    { p with sol := some ⟨1, 4, 0x10000000, 0, 0, 0⟩ }).put GF_SOL.SEQ 1
/-- The same with the field service on and a field open. -/
def wtl (m : Nat) : State := (((wsol m).put TL_CTL.EN 1).put TL_CTL.REV_EN 1).put TL_FIELD.STATE 1

/-- A module that stores one field. -/
def wfd : State := wr.modTl fun l => { l with fields := [⟨7, 0, 0, 0, 0, 0, [], [], []⟩] }

/-- A module with a tile of a peer for its open field. -/
def wpt : State :=
  (((wr.put TL_CTL.FLEET_EN 1).put TL_FIELD.STATE 1).put TL_FIELD_ID.ID 1).modTl fun l =>
    { l with peer := [⟨1, 0, 0, 0, 0, 0, []⟩], fields := [⟨1, 0, 65535, 0, 0, 0, [], [], []⟩], tiles := [(⟨1, 0, 0, 0, 0, 0, []⟩ : PeerTile).tile] }

/-- Core 0 with general registers 2 and 3. -/
def wgg (x y : Word) : State := wx fun c => (c.setG 2 x).setG 3 y

/-- The state of an outcome. -/
def taken : Host.Outcome State Fault Refusal → State
  | .next t => t
  | _ => State.reset

/-- The state a command leads to. -/
def after (i : Instr) (s : State) : State := taken (exec i s)

/-- General register 1 after a command of core 0. -/
def g1 (i : Instr) (s : State) : Word := ((after i s).ctx 0).getG 1

/-! ### The state after reset, and the queue -/

theorem test_reset_units : State.reset.units = true ∧ State.reset.pending = [] ∧ State.reset.mtc = 0 := by decide

theorem test_reset_memories : State.reset.memWf := by unfold State.memWf; decide

theorem test_reset_registers_rise : regRising State.reset.regs := by unfold regRising; decide

theorem test_no_row_has_bits : decodeTableWord 32 0x21000002 = none := by decide

/-! ### Ill-formed commands -/

theorem test_ill_formed_requester_88 : Instr.wellFormed (.lkFree 0 ⟨88, true⟩) = false := by decide

theorem test_ill_formed_env_wait : Instr.wellFormed (.lw 0 1 2 0 ⟨2 ^ 32, false, false⟩) = false := by decide

theorem test_ill_formed_svcreq_src : Instr.wellFormed (.flush ⟨88, 0, 0, false⟩) = false := by decide

theorem test_ill_formed_svcreq_mailbox : Instr.wellFormed (.flush ⟨0, 64, 0, false⟩) = false := by decide

theorem test_ill_formed_svcreq_tag : Instr.wellFormed (.flush ⟨0, 0, 2 ^ 32, false⟩) = false := by decide

theorem test_ill_formed_ain_code : Instr.wellFormed (.ainConversion [⟨2 ^ 32, false, false, false⟩]) = false := by decide

theorem test_ill_formed_csi_channel : Instr.wellFormed (.camLine 0 ⟨16, 0x2A, [], false, false, false, false, none⟩) = false := by decide

theorem test_ill_formed_csi_type : Instr.wellFormed (.camLine 0 ⟨0, 64, [], false, false, false, false, none⟩) = false := by decide

theorem test_ill_formed_csi_code : Instr.wellFormed (.camLine 0 ⟨0, 0x2A, [2 ^ 16], false, false, false, false, none⟩) = false := by decide

theorem test_ill_formed_feature : Instr.wellFormed (.featureExtractDone 0 [⟨0, 0, [2 ^ 63]⟩]) = false := by decide

theorem test_ill_formed_grid : Instr.wellFormed (.gridPublish [⟨2 ^ 32, []⟩]) = false := by decide

theorem test_ill_formed_solution : Instr.wellFormed (.solutionRecord 0 ⟨0, 0, 0, 0, 2 ^ 63, 0, 0, 0, 0, 0, 0, 0, 0, 0, 0⟩) = false := by decide

theorem test_ill_formed_point : Instr.wellFormed (.antCfg ⟨0, 0, 0, false⟩ ⟨2 ^ 63, 0, 0⟩ ⟨0, 0, 0⟩ false) = false := by decide

theorem test_ill_formed_can_standard_id : Instr.wellFormed (.canFrameReceived 0 ⟨2 ^ 11, false, false, 0, false, false, false, [], 0⟩) = false := by decide

theorem test_ill_formed_can_extended_id : Instr.wellFormed (.canFrameReceived 0 ⟨2 ^ 29, true, false, 0, false, false, false, [], 0⟩) = false := by decide

theorem test_ill_formed_can_dlc : Instr.wellFormed (.canFrameReceived 0 ⟨0, false, false, 16, false, false, false, [], 0⟩) = false := by decide

theorem test_ill_formed_can_length : Instr.wellFormed (.canFrameReceived 0 ⟨0, false, false, 0, false, false, false, List.replicate 65 0, 0⟩) = false := by decide

theorem test_ill_formed_can_byte : Instr.wellFormed (.canFrameReceived 0 ⟨0, false, false, 1, false, false, false, [256], 0⟩) = false := by decide

theorem test_ill_formed_pgn : Instr.wellFormed (.pgnSend ⟨0, 0, 0, false⟩ 0 0 ⟨2 ^ 32, 0, 0, 0, 0⟩) = false := by decide

theorem test_ill_formed_jfx_head : Instr.wellFormed (.jfxSnap ⟨2 ^ 32, 0, 0, 0, false, true⟩) = false := by decide

theorem test_ill_formed_tile : Instr.wellFormed (.jfxTile ⟨0, 0, 0, 0, false, true⟩ ⟨0, 0, 0, 0, 0, 0, 0, 0, 0, [(2 ^ 32, 0, 0)]⟩) = false := by decide

theorem test_ill_formed_byte : Instr.wellFormed (.jfxUser ⟨0, 0, 0, 0, false, true⟩ [256]) = false := by decide

theorem test_ill_formed_word : Instr.wellFormed (.errDone (2 ^ 32) ⟨0, true⟩) = false := by decide

theorem test_ill_formed_double_word : Instr.wellFormed (.macEntryAgeOut 0 (2 ^ 64)) = false := by decide

theorem test_ill_formed_address : Instr.wellFormed (.registerWrite (2 ^ 40) 0 ⟨0, true⟩) = false := by decide

theorem test_ill_formed_signed : Instr.wellFormed (.imuOutput [2 ^ 63] 0) = false := by decide

theorem test_well_formed : (Instr.registerWrite (2 ^ 40 - 1) (2 ^ 32 - 1) ⟨87, true⟩).wellFormed = true := by decide

/-! ### Instruction words: Table 3.13a, then one word for each further table of chapter 3, its fields written out -/

/-- A word of core 0 with no wait. -/
def dec (w : Word) : Option Instr := decodeWord 0 ⟨0, false, false⟩ w

theorem test_decode_lui : dec 0x21000002 = some (.lui 0 8 2) := by decide

theorem test_decode_ori : dec 0x11080400 = some (.ori 0 8 8 0x400) := by decide

theorem test_decode_lh : dec 0x34280010 = some (.lh 0 1 8 0x10 ⟨0, false, false⟩) := by decide

theorem test_decode_qsub15 : dec 0x90811001 = some (.qsub15 0 4 1 2) := by decide

theorem test_decode_qmul15 : dec 0x90C41802 = some (.qmul15 0 6 4 3) := by decide

theorem test_decode_qadd15 : dec 0x90423000 = some (.qadd15 0 2 2 6) := by decide

theorem test_decode_sh : dec 0x48480012 = some (.sh 0 2 8 0x12 0) := by decide

theorem test_decode_yield : dec 0xA0000000 = some (.yield 0) := by decide

theorem test_decode_nop : dec 0xA0000004 = some (.nop 0) := by decide

theorem test_decode_sub : dec 0b00000100001000100001100000000001 = some (.sub 0 1 2 3) := by decide

theorem test_decode_mulh : dec 0b00101000001000100001100000000001 = some (.mulh 0 1 2 3) := by decide

theorem test_decode_fdiv : dec 0b10000000001000100001100000000011 = some (.fdiv 0 1 2 3) := by decide

theorem test_decode_fnmadd : dec 0b10000100001000100001100100000010 = some (.fnmadd 0 1 2 3 4) := by decide

theorem test_decode_mac15 : dec 0b10010100001000100001100000000000 = some (.mac15 0 1 2 3) := by decide

theorem test_decode_bltu : dec 0b01100000001000101111111111111110 = some (.bltu 0 1 2 0xFFFE) := by decide

theorem test_decode_jal : dec 0b01101111111111111111111111111110 = some (.jal 0 0x3FFFFFE) := by decide

theorem test_decode_lock : dec 0b10100100001000100000000000000101 = some (.lock 0 1 2 5) := by decide

theorem test_decode_msend : dec 0b10110000001000100001100000000000 = some (.msend 0 1 2 3) := by decide

theorem test_decode_tmark : dec 0b11000000000000100000000000000101 = some (.tmark 0 2 5) := by decide

theorem test_decode_rtwr : dec 0b11000100001000100001100000000001 = some (.rtwr 0 1 2 3) := by decide

theorem test_decode_cwr : dec 0b10100000000000100010000000010001 = some (.cwr 0 2 4) := by decide

theorem test_decode_trap : dec 0b10111100000000000000000000000111 = some (.trap 0 7) := by decide

theorem test_all_zero_word_is_illegal : dec 0 = none := by decide

theorem test_clz_with_third_register_is_illegal : dec 0b00000100001000100001100000010110 = none := by decide

/-! ### Single steps of a core (the results are those of R51, R55, R57 and of the example after Table 3.13a) -/

theorem test_div_by_zero_negative : g1 (.div 0 1 2 3) (wgg 0xFFFFFFFE 0) = 0x80000000 := by decide

theorem test_div_overflow : g1 (.div 0 1 2 3) (wgg 0x80000000 0xFFFFFFFF) = 0x7FFFFFFF := by decide

theorem test_div_rounds_toward_zero : g1 (.div 0 1 2 3) (wgg 0xFFFFFFF9 2) = 0xFFFFFFFD := by decide

theorem test_rem_has_the_sign_of_the_dividend : g1 (.rem 0 1 2 3) (wgg 0xFFFFFFF9 2) = 0xFFFFFFFF := by decide

theorem test_rem_overflow_pair : g1 (.rem 0 1 2 3) (wgg 0x80000000 0xFFFFFFFF) = 0 := by decide

theorem test_divu_by_zero : g1 (.divu 0 1 2 3) (wgg 5 0) = 0xFFFFFFFF := by decide

theorem test_remu_by_zero : g1 (.remu 0 1 2 3) (wgg 5 0) = 5 := by decide

theorem test_div_takes_18_cycles : ((after (.div 0 1 2 3) (wgg 5 2)).core 0).cyc = 18 := by decide

theorem test_add_wraps : g1 (.add 0 1 2 3) (wgg 0xFFFFFFFF 2) = 1 := by decide

theorem test_adds_saturates : g1 (.adds 0 1 2 3) (wgg 0x7FFFFFFF 1) = 0x7FFFFFFF := by decide

theorem test_sra_by_33_shifts_1 : g1 (.sra 0 1 2 3) (wgg 0x80000000 33) = 0xC0000000 := by decide

theorem test_clz_of_zero : g1 (.clz 0 1 2) (wgg 0 0) = 32 := by decide

theorem test_g0_reads_as_zero : ((after (.add 0 0 2 3) (wgg 5 6)).ctx 0).getG 0 = 0 := by decide

theorem test_mulh_signed : g1 (.mulh 0 1 2 3) (wgg 0xFFFFFFFF 0xFFFFFFFF) = 0 := by decide

theorem test_mulhu : g1 (.mulhu 0 1 2 3) (wgg 0xFFFFFFFF 0xFFFFFFFF) = 0xFFFFFFFE := by decide

theorem test_qsub15_example : g1 (.qsub15 0 1 2 3) (wgg 0x4000 0x199A) = 9830 := by decide

theorem test_qmul15_example : g1 (.qmul15 0 1 2 3) (wgg 9830 0x0CCD) = 983 := by decide

theorem test_qadd15_example : g1 (.qadd15 0 1 2 3) (wgg 0x199A 983) = 7537 := by decide

theorem test_qmul15_minus_one_squared : g1 (.qmul15 0 1 2 3) (wgg 0x8000 0x8000) = 32767 ∧ ((after (.qmul15 0 1 2 3) (wgg 0x8000 0x8000)).ctx 0).sat = true := by decide

theorem test_branch_back : ((after (.beq 0 0 0 0xFFFE) (wx fun x => { x with pc := 0x100 })).ctx 0).pc = 0xF8 := by decide

theorem test_jal_links : ((after (.jal 0 0x10) wc).ctx 0).getG 31 = 4 ∧ ((after (.jal 0 0x10) wc).ctx 0).pc = 0x40 := by decide

theorem test_jump_outside_is_fetch : ((after (.jalr 0 1 2 0) (wg 0x10000)).core 0).ecause = 0x03 ∧ ((after (.jalr 0 1 2 0) (wg 0x10000)).core 0).eval = 0x10000 := by decide

theorem test_past_the_end_is_fetch : ((after (.nop 0) (wx fun x => { x with pc := 0xFFFC })).core 0).epc = 0xFFFC := by decide

theorem test_trap_eval : ((after (.trap 0 7) wu).core 0).eval = 7 ∧ ((after (.trap 0 7) wu).ctx 0).priv = true := by decide

theorem test_eret_at_user_is_privilege : ((after (.eret 0) wu).core 0).ecause = 0x02 := by decide

theorem test_store_then_load_byte : ((after (.lb 0 1 2 0 ⟨0, false, false⟩) (after (.sb 0 3 2 0 0) (wgg 0x3FFFF 0x80))).ctx 0).getG 1 = 0xFFFFFF80 := by decide

theorem test_fadd_ties_to_even : ((after (.fadd 0 1 2 3) (wx fun x => (x.setF 2 0x4B800000).setF 3 0x3F800000)).ctx 0).getF 1 = 0x4B800000 := by decide

theorem test_fdiv_by_zero : ((after (.fdiv 0 1 2 3) (wx fun x => (x.setF 2 0x3F800000).setF 3 0)).ctx 0).getF 1 = 0x7F800000 := by decide

theorem test_fmin_orders_zeros : ((after (.fmin 0 1 2 3) (wx fun x => (x.setF 2 0).setF 3 0x80000000)).ctx 0).getF 1 = 0x80000000 := by decide

theorem test_word_of_no_instruction_is_illegal : ((taken (wc.execWord 0 ⟨0, false, false⟩ 0)).core 0).ecause = 1 := by decide

theorem test_corrected_tcm_error_is_counted : ((after (.lb 0 1 2 0 ⟨0, false, true⟩) (wgg 0x3FFFF 0x80)).core 0).tcmCe = 1 := by decide

theorem test_corrected_dram_error_is_a_note : (after (.lw 0 1 2 0 ⟨0, false, true⟩) ((wg 0x40000000).put DWIN.EN 1)).get ERR_CNT0.NOTES = 1 := by decide

/-! ### Single commands of the other units -/

theorem test_key_off_clears_key : (after .keyOff (wr.put PWR_STATE.KEY 1)).get PWR_STATE.KEY = 0 := by decide

theorem test_keyoff_limit_not_yet_over : (after .keyoffLimitExpiry (wp fun p => { p with keyOff := true })).plat.power = .run := by decide

theorem test_unaligned_register_write_is_dropped : (after (.registerWrite 0x20000305 7 ⟨0, true⟩) wr).get OSV_HOLD_TIME.HT = 0xFA := by decide

theorem test_program_write_to_supervisor_register : (after (.registerWrite 0x20000304 7 ⟨0, false⟩) wr).get OSV_HOLD_TIME.HT = 0xFA := by decide

theorem test_supervisor_write : (after (.registerWrite 0x20000304 7 ⟨0, true⟩) wr).get OSV_HOLD_TIME.HT = 7 := by decide

theorem test_stud_low_at_the_limit : (after (.studLow 0 60) wr).get SUP_STUD.V = 60 := by decide

theorem test_dc_doorbell_of_another_is_ignored : (after (.dcStart 0 ⟨0, false⟩) wr).dcState 0 = wr.dcState 0 := by decide

theorem test_release_of_update_abort : (after (.abort ⟨3, 5, 1, true⟩) (wr.put UPD_STAT.STATE updReceiving)).updState = updIdle := by decide

/-! ### The hypotheses of the statements are met: for each statement, a state and operands for every clause -/

theorem test_hypotheses_EmptyQueueLetsATickPass :
    ∃ (s : State), s.pending = [] :=
  ⟨wr, by decide⟩

theorem test_hypotheses_ResetLeavesTheModuleAtT0 :
    ∃ (f : Fld) (i : Nat) (j : Nat) (k : Nat), f.key i j k ≠ CB_CNT.RECORDS.key 0 0 0 :=
  ⟨ERR_CFG.ARM, 0, 0, 0, by decide⟩

theorem test_hypotheses_FeedAndStartSequence :
    (∃ (s : State), s.plat.power = .off) ∧
    (∃ (s : State), s.plat.power ≠ .off) ∧
    (∃ (s : State), s.atStart .t0 = true) ∧
    (∃ (s : State), s.atStart .t1 = true ∧ s.on SVC_STAT.STRAP = false ∧ s.manager.copy.isSome = true) ∧
    (∃ (s : State), s.atStart .t1 = true ∧ s.on SVC_STAT.STRAP = true) ∧
    (∃ (s : State), s.atStart .t2 = true ∧ s.manager.copy = none) ∧
    (∃ (s : State), s.atStart .t3 = true) ∧
    (∃ (s : State), s.atStart .t4 = true) :=
  ⟨⟨(wp fun p => { p with power := .off }), by decide⟩,
   ⟨wr, by decide⟩,
   ⟨(wp fun p => { p with power := .starting }), by decide⟩,
   ⟨((wp fun p => { p with power := .starting, step := .t1 }).modMgr fun m => { m with copy := some ⟨1, 0, []⟩ }), by decide⟩,
   ⟨((wp fun p => { p with power := .starting, step := .t1 }).put SVC_STAT.STRAP 1), by decide⟩,
   ⟨(wp fun p => { p with power := .starting, step := .t2 }), by decide⟩,
   ⟨(wp fun p => { p with power := .starting, step := .t3 }), by decide⟩,
   ⟨(wp fun p => { p with power := .starting, step := .t4 }), by decide⟩⟩

theorem test_hypotheses_KeyShutdownAndWatch :
    (∃ (s : State), s.plat.power = .run ∧ s.on PWR_STATE.KEY = true) ∧
    (∃ (s : State), s.units = true ∧ s.plat.keyOff = true) ∧
    (∃ (s : State), s.plat.power = .run ∧ s.plat.keyOff = true ∧ s.plat.keyOffAt + 200000000 * clampN 1 600 (s.get KEYOFF_LIMIT.LIM) ≤ s.mtc ∧
            s.updState ≠ updActivating ∧ s.errs.fatal = none) ∧
    (∃ (s : State) (rq : Req), rq.sup = true ∧ s.plat.power = .run ∧ s.errs.fatal = none) ∧
    (∃ (s : State), s.plat.power = .shutdown ∧ s.errs.fatal = none) ∧
    (∃ (s : State), s.plat.power = .watch ∧ s.plat.watchFrom + 2000000 ≤ s.mtc) ∧
    (∃ (s : State), s.plat.power = .watch ∧ s.on WAKE_CFG.WAKE_EN = true) ∧
    (∃ (s : State), s.plat.power = .watch ∧ s.on WAKE_CFG.WAKE_EN = false) ∧
    (∃ (s : State), s.plat.power = .run) ∧
    (∃ (s : State) (n : Fin 8), s.plat.power = .watch ∧ s.on WAKE_CFG.CAN_EN = true ∧ s.get WAKE_CFG.CAN_SEL = n.val) ∧
    (∃ (s : State), s.plat.power = .watch ∧ s.on WAKE_CFG.USB_EN = true ∧ s.plat.usbStood = false) ∧
    (∃ (s : State), s.plat.power = .watch ∧ s.on WAKE_CFG.SNAP_EN = true ∧
            s.plat.snapAt + 200000000 * (60 * clampN 1 60 (s.get WAKE_CFG.SNAP_MIN)) ≤ s.mtc) ∧
    (∃ (s : State), s.plat.power = .watch ∧ s.plat.snapshot = true ∧ s.mtc ≤ s.plat.watchFrom + 4 * 3600 * 200000000) :=
  ⟨⟨(wr.put PWR_STATE.KEY 1), by decide⟩,
   ⟨(wp fun p => { p with keyOff := true }), by decide⟩,
   ⟨(late (wp fun p => { p with keyOff := true })), by decide⟩,
   ⟨wr, ⟨0, true⟩, by decide⟩,
   ⟨(wp fun p => { p with power := .shutdown }), by decide⟩,
   ⟨(late (wp fun p => { p with power := .watch })), by decide⟩,
   ⟨((wp fun p => { p with power := .watch }).put WAKE_CFG.WAKE_EN 1), by decide⟩,
   ⟨((wp fun p => { p with power := .watch }).put WAKE_CFG.WAKE_EN 0), by decide⟩,
   ⟨wr, by decide⟩,
   ⟨(((wp fun p => { p with power := .watch }).put WAKE_CFG.CAN_EN 1).put WAKE_CFG.CAN_SEL 7), 7, by decide⟩,
   ⟨((wp fun p => { p with power := .watch }).put WAKE_CFG.USB_EN 1), by decide⟩,
   ⟨(late ((wp fun p => { p with power := .watch }).put WAKE_CFG.SNAP_EN 1)), by decide⟩,
   ⟨(wp fun p => { p with power := .watch, snapshot := true }), by decide⟩⟩

theorem test_hypotheses_WakingEntersStarting :
    ∃ (src : Nat), src < 4 :=
  ⟨3, by decide⟩

theorem test_hypotheses_ClocksHoldAndEstop :
    (∃ (s : State), s.plat.power ≠ .recovery) ∧
    (∃ (s : State) (c : Fin 32), (s.valve c).held = true ∧ s.osvVd c % 4 ≠ 2 ∧
            (s.valve c).onset + 200000 * clampN 10 2500 (s.get OSV_HOLD_TIME.HT) ≤ s.mtc) ∧
    (∃ (s : State) (c : Fin 32), (s.valve c).held = true ∧ s.osvVd c % 4 ≠ 1 ∧
            (s.valve c).onset + 20000000 * clampN 5 100 (s.get OSV_ABORT_TIME.AT) ≤ s.mtc) ∧
    (∃ (s : State) (rq : Req), rq.sup = true ∧ s.badMode = false) ∧
    (∃ (s : State) (rq : Req), rq.sup = true ∧ s.badMode = true) ∧
    (∃ (s : State), s.plat.power ≠ .off ∧ s.plat.loopClosed = true ∧ s.plat.estopTest = false) ∧
    (∃ (s : State), s.plat.power ≠ .off ∧ s.plat.loopClosed = false) ∧
    (∃ (s : State), s.plat.power ≠ .off) ∧
    (∃ (s : State), s.plat.power ≠ .off ∧ s.plat.estopTest = true ∧ s.plat.loopOpening = false) ∧
    (∃ (s : State), s.plat.power ≠ .off ∧ s.plat.estopTest = true ∧ s.plat.loopOpening = false ∧ s.plat.estopFed = false) :=
  ⟨⟨wr, by decide⟩,
   ⟨(late (wr.modValve 0 fun v => { v with held := true })), 0, by decide⟩,
   ⟨(late ((wr.modValve 0 fun v => { v with held := true }).put OSV_VD.W 2)), 0, by decide⟩,
   ⟨wr, ⟨0, true⟩, by decide⟩,
   ⟨(wr.put OSV_VD.W 3), ⟨0, true⟩, by decide⟩,
   ⟨(wp fun p => { p with loopClosed := true }), by decide⟩,
   ⟨(wp fun p => { p with loopClosed := false }), by decide⟩,
   ⟨wr, by decide⟩,
   ⟨(wp fun p => { p with estopTest := true }), by decide⟩,
   ⟨(wp fun p => { p with estopTest := true, estopFed := false }), by decide⟩⟩

theorem test_hypotheses_IntegerRegisterForms :
    ∃ (s : State) (c : Fin 16), s.calm c = true ∧ s.room c = true :=
  ⟨wc, 0, by decide⟩

theorem test_hypotheses_AddvAndSubv :
    (∃ (s : State) (c : Fin 16) (b : Fin 32) (d : Fin 32), s.calm c = true ∧ s.room c = true ∧
        (let v := ((s.ctx c).getG b).toInt + ((s.ctx c).getG d).toInt;
         ((s.ctx c).otrap = false ∨ sat32 v = v))) ∧
    (∃ (s : State) (c : Fin 16) (b : Fin 32) (d : Fin 32), s.calm c = true ∧ s.room c = true ∧
        (let v := ((s.ctx c).getG b).toInt - ((s.ctx c).getG d).toInt;
         ((s.ctx c).otrap = false ∨ sat32 v = v))) ∧
    (∃ (s : State) (c : Fin 16) (b : Fin 32) (d : Fin 32), s.calm c = true ∧ (s.ctx c).otrap = true ∧ (s.core c).exl = false ∧
        (let v := ((s.ctx c).getG b).toInt + ((s.ctx c).getG d).toInt;
         sat32 v ≠ v)) :=
  ⟨⟨wc, 0, 0, 0, by decide⟩,
   ⟨wc, 0, 0, 0, by decide⟩,
   ⟨(wx fun x => { x.setG 2 0x7FFFFFFF with otrap := true }), 0, 2, 2, by decide⟩⟩

theorem test_hypotheses_ImmediateAndMultiplyForms :
    ∃ (s : State) (c : Fin 16), s.calm c = true ∧ s.room c = true :=
  ⟨wc, 0, by decide⟩

theorem test_hypotheses_DivisionTakes18Cycles :
    ∃ (s : State) (c : Fin 16), s.calm c = true ∧ s.room c = true :=
  ⟨wc, 0, by decide⟩

theorem test_hypotheses_LoadsFromTheDtcm :
    (∃ (s : State) (c : Fin 16) (b : Fin 32) (imm : BitVec 16), s.calm c = true ∧ s.room c = true ∧ ((s.ctx c).ea b imm).toNat % 4 = 0 ∧
            0x20000 ≤ ((s.ctx c).ea b imm).toNat ∧ ((s.ctx c).ea b imm).toNat < 0x40000) ∧
    (∃ (s : State) (c : Fin 16) (b : Fin 32) (imm : BitVec 16), s.calm c = true ∧ s.room c = true ∧ ((s.ctx c).ea b imm).toNat % 2 = 0 ∧
            0x20000 ≤ ((s.ctx c).ea b imm).toNat ∧ ((s.ctx c).ea b imm).toNat < 0x40000) ∧
    (∃ (s : State) (c : Fin 16) (b : Fin 32) (imm : BitVec 16), s.calm c = true ∧ s.room c = true ∧ 0x20000 ≤ ((s.ctx c).ea b imm).toNat ∧
            ((s.ctx c).ea b imm).toNat < 0x40000) ∧
    (∃ (s : State) (c : Fin 16) (a : Fin 32) (b : Fin 32) (imm : BitVec 16), s.calm c = true ∧ s.room c = true ∧ a.val < 16 ∧
            ((s.ctx c).ea b imm).toNat % 4 = 0 ∧ 0x20000 ≤ ((s.ctx c).ea b imm).toNat ∧ ((s.ctx c).ea b imm).toNat < 0x40000) ∧
    (∃ (s : State) (c : Fin 16) (b : Fin 32) (imm : BitVec 16) (x : Nat), s.calm c = true ∧ s.room c = true ∧ ((s.ctx c).ea b imm).toNat % 4 = 0 ∧
            x = ((s.ctx c).ea b imm).toNat ∧ x < 0x10000) ∧
    (∃ (s : State) (c : Fin 16) (b : Fin 32) (imm : BitVec 16) (x : Nat), s.calm c = true ∧ s.room c = true ∧ ((s.ctx c).ea b imm).toNat % 2 = 0 ∧
            x = ((s.ctx c).ea b imm).toNat ∧ x < 0x10000) ∧
    (∃ (s : State) (c : Fin 16) (b : Fin 32) (imm : BitVec 16) (x : Nat), s.calm c = true ∧ s.room c = true ∧ ((s.ctx c).ea b imm).toNat % 1 = 0 ∧
            x = ((s.ctx c).ea b imm).toNat ∧ x < 0x10000) ∧
    (∃ (s : State) (c : Fin 16) (a : Fin 32) (b : Fin 32) (imm : BitVec 16) (x : Nat), s.calm c = true ∧ a.val < 16 ∧ s.room c = true ∧
            ((s.ctx c).ea b imm).toNat % 4 = 0 ∧ x = ((s.ctx c).ea b imm).toNat ∧ x < 0x10000) ∧
    (∃ (s : State) (c : Fin 16) (b : Fin 32) (imm : BitVec 16) (x : Nat), s.calm c = true ∧
            s.place c (s.ctx c).priv ((s.ctx c).ea b imm).toNat 4 false = .inl (.sram x) ∧
        (let t := (s.drain c fun k => k == .sram).beat x (s.requester c);
         t.coreRuns c = true)) ∧
    (∃ (s : State) (c : Fin 16) (b : Fin 32) (imm : BitVec 16) (x : Nat), s.calm c = true ∧
            s.place c (s.ctx c).priv ((s.ctx c).ea b imm).toNat 2 false = .inl (.sram x) ∧
        (let t := (s.drain c fun k => k == .sram).beat x (s.requester c);
         t.coreRuns c = true)) ∧
    (∃ (s : State) (c : Fin 16) (b : Fin 32) (imm : BitVec 16) (x : Nat), s.calm c = true ∧
            s.place c (s.ctx c).priv ((s.ctx c).ea b imm).toNat 1 false = .inl (.sram x) ∧
        (let t := (s.drain c fun k => k == .sram).beat x (s.requester c);
         t.coreRuns c = true)) ∧
    (∃ (s : State) (c : Fin 16) (a : Fin 32) (b : Fin 32) (imm : BitVec 16) (x : Nat), s.calm c = true ∧ a.val < 16 ∧
            s.place c (s.ctx c).priv ((s.ctx c).ea b imm).toNat 4 false = .inl (.sram x) ∧
        (let t := (s.drain c fun k => k == .sram).beat x (s.requester c);
         t.coreRuns c = true)) ∧
    (∃ (s : State) (c : Fin 16) (b : Fin 32) (imm : BitVec 16) (x : Nat) (fx : Bool), s.calm c = true ∧
            s.place c (s.ctx c).priv ((s.ctx c).ea b imm).toNat 4 false = .inl (.dram x) ∧
        (let t := (s.drain c fun k => k == .dram).beat x (s.requester c);
         (t.fixedDram c fx).coreRuns c = true)) ∧
    (∃ (s : State) (c : Fin 16) (b : Fin 32) (imm : BitVec 16) (x : Nat) (fx : Bool), s.calm c = true ∧
            s.place c (s.ctx c).priv ((s.ctx c).ea b imm).toNat 2 false = .inl (.dram x) ∧
        (let t := (s.drain c fun k => k == .dram).beat x (s.requester c);
         (t.fixedDram c fx).coreRuns c = true)) ∧
    (∃ (s : State) (c : Fin 16) (b : Fin 32) (imm : BitVec 16) (x : Nat) (fx : Bool), s.calm c = true ∧
            s.place c (s.ctx c).priv ((s.ctx c).ea b imm).toNat 1 false = .inl (.dram x) ∧
        (let t := (s.drain c fun k => k == .dram).beat x (s.requester c);
         (t.fixedDram c fx).coreRuns c = true)) ∧
    (∃ (s : State) (c : Fin 16) (a : Fin 32) (b : Fin 32) (imm : BitVec 16) (x : Nat) (fx : Bool), s.calm c = true ∧ a.val < 16 ∧
            s.place c (s.ctx c).priv ((s.ctx c).ea b imm).toNat 4 false = .inl (.dram x) ∧
        (let t := (s.drain c fun k => k == .dram).beat x (s.requester c);
         (t.fixedDram c fx).coreRuns c = true)) ∧
    (∃ (s : State) (c : Fin 16) (b : Fin 32) (imm : BitVec 16) (x : Nat), s.calm c = true ∧
            s.place c (s.ctx c).priv ((s.ctx c).ea b imm).toNat 4 false = .inl (.periph x) ∧
        (let t := (s.drain c fun k => k == .periph).beat x (s.requester c);
         (t.busRead x).2.coreRuns c = true)) ∧
    (∃ (s : State) (c : Fin 16) (a : Fin 32) (b : Fin 32) (imm : BitVec 16) (x : Nat), s.calm c = true ∧ a.val < 16 ∧
            s.place c (s.ctx c).priv ((s.ctx c).ea b imm).toNat 4 false = .inl (.periph x) ∧
        (let t := (s.drain c fun k => k == .periph).beat x (s.requester c);
         (t.busRead x).2.coreRuns c = true)) :=
  ⟨⟨(wg 0x3FFFC), 0, 2, 0, by decide⟩,
   ⟨(wg 0x3FFFE), 0, 2, 0, by decide⟩,
   ⟨(wg 0x3FFFF), 0, 2, 0, by decide⟩,
   ⟨(wg 0x20000), 0, 0, 2, 0, by decide⟩,
   ⟨wc, 0, 0, 0, 0, by decide⟩,
   ⟨wc, 0, 0, 0, 0, by decide⟩,
   ⟨wc, 0, 0, 0, 0, by decide⟩,
   ⟨wc, 0, 0, 0, 0, 0, by decide⟩,
   ⟨(wg 0x10000000), 0, 2, 0, 0x10000000, by decide⟩,
   ⟨(wg 0x10000000), 0, 2, 0, 0x10000000, by decide⟩,
   ⟨(wg 0x10000000), 0, 2, 0, 0x10000000, by decide⟩,
   ⟨(wg 0x10000000), 0, 0, 2, 0, 0x10000000, by decide⟩,
   ⟨((wg 0x40000000).put DWIN.EN 1), 0, 2, 0, (windowAddr (((wg 0x40000000).put DWIN.EN 1).get DWIN.BASE) 0x40000000), true, by decide⟩,
   ⟨((wg 0x40000000).put DWIN.EN 1), 0, 2, 0, (windowAddr (((wg 0x40000000).put DWIN.EN 1).get DWIN.BASE) 0x40000000), true, by decide⟩,
   ⟨((wg 0x40000000).put DWIN.EN 1), 0, 2, 0, (windowAddr (((wg 0x40000000).put DWIN.EN 1).get DWIN.BASE) 0x40000000), true, by decide⟩,
   ⟨((wg 0x40000000).put DWIN.EN 1), 0, 0, 2, 0, (windowAddr (((wg 0x40000000).put DWIN.EN 1).get DWIN.BASE) 0x40000000), true, by decide⟩,
   ⟨(wg 0x20000000), 0, 2, 0, 0x20000000, by decide⟩,
   ⟨(wg 0x20000000), 0, 0, 2, 0, 0x20000000, by decide⟩⟩

theorem test_hypotheses_StoresToTheDtcm :
    (∃ (s : State) (c : Fin 16) (b : Fin 32) (imm : BitVec 16), s.calm c = true ∧ s.room c = true ∧ ((s.ctx c).ea b imm).toNat % 4 = 0 ∧
            0x20000 ≤ ((s.ctx c).ea b imm).toNat ∧ ((s.ctx c).ea b imm).toNat < 0x40000) ∧
    (∃ (s : State) (c : Fin 16) (b : Fin 32) (imm : BitVec 16), s.calm c = true ∧ s.room c = true ∧ ((s.ctx c).ea b imm).toNat % 2 = 0 ∧
            0x20000 ≤ ((s.ctx c).ea b imm).toNat ∧ ((s.ctx c).ea b imm).toNat < 0x40000) ∧
    (∃ (s : State) (c : Fin 16) (b : Fin 32) (imm : BitVec 16), s.calm c = true ∧ s.room c = true ∧ 0x20000 ≤ ((s.ctx c).ea b imm).toNat ∧
            ((s.ctx c).ea b imm).toNat < 0x40000) ∧
    (∃ (s : State) (c : Fin 16) (a : Fin 32) (b : Fin 32) (imm : BitVec 16), s.calm c = true ∧ s.room c = true ∧ a.val < 16 ∧
            ((s.ctx c).ea b imm).toNat % 4 = 0 ∧ 0x20000 ≤ ((s.ctx c).ea b imm).toNat ∧ ((s.ctx c).ea b imm).toNat < 0x40000) ∧
    (∃ (s : State) (c : Fin 16) (a : Fin 32) (b : Fin 32) (imm : BitVec 16) (wait : Nat) (p : Place), s.calm c = true ∧
            s.place c (s.ctx c).priv ((s.ctx c).ea b imm).toNat 4 true = .inl p ∧
        (let t := s.storeTo c p ((s.ctx c).ea b imm) 4 (((s.ctx c).getG a).toNat % 2 ^ 32) wait;
         t.coreRuns c = true)) ∧
    (∃ (s : State) (c : Fin 16) (a : Fin 32) (b : Fin 32) (imm : BitVec 16) (wait : Nat) (p : Place), s.calm c = true ∧
            s.place c (s.ctx c).priv ((s.ctx c).ea b imm).toNat 2 true = .inl p ∧
        (let t := s.storeTo c p ((s.ctx c).ea b imm) 2 (((s.ctx c).getG a).toNat % 2 ^ 16) wait;
         t.coreRuns c = true)) ∧
    (∃ (s : State) (c : Fin 16) (a : Fin 32) (b : Fin 32) (imm : BitVec 16) (wait : Nat) (p : Place), s.calm c = true ∧
            s.place c (s.ctx c).priv ((s.ctx c).ea b imm).toNat 1 true = .inl p ∧
        (let t := s.storeTo c p ((s.ctx c).ea b imm) 1 (((s.ctx c).getG a).toNat % 2 ^ 8) wait;
         t.coreRuns c = true)) ∧
    (∃ (s : State) (c : Fin 16) (a : Fin 32) (b : Fin 32) (imm : BitVec 16) (wait : Nat) (p : Place), s.calm c = true ∧ a.val < 16 ∧
            s.place c (s.ctx c).priv ((s.ctx c).ea b imm).toNat 4 true = .inl p ∧
        (let t := s.storeTo c p ((s.ctx c).ea b imm) 4 (((s.ctx c).getF a).toNat % 2 ^ 32) wait;
         t.coreRuns c = true)) ∧
    (∃ (s : State) (c : Fin 16), (s.core c).posted.length < 8) :=
  ⟨⟨(wg 0x3FFFC), 0, 2, 0, by decide⟩,
   ⟨(wg 0x3FFFE), 0, 2, 0, by decide⟩,
   ⟨(wg 0x3FFFF), 0, 2, 0, by decide⟩,
   ⟨(wg 0x20000), 0, 0, 2, 0, by decide⟩,
   ⟨(wg 0x20000), 0, 0, 2, 0, 0, (.dtcm 0), by decide⟩,
   ⟨(wg 0x20000), 0, 0, 2, 0, 0, (.dtcm 0), by decide⟩,
   ⟨(wg 0x20000), 0, 0, 2, 0, 0, (.dtcm 0), by decide⟩,
   ⟨(wg 0x20000), 0, 0, 2, 0, 0, (.dtcm 0), by decide⟩,
   ⟨wr, 0, by decide⟩⟩

theorem test_hypotheses_StoresLeaveOtherBytes :
    ∃ (s : State) (c : Fin 16) (b : Fin 32) (imm : BitVec 16), s.calm c = true ∧ s.room c = true ∧ 0x20000 ≤ ((s.ctx c).ea b imm).toNat ∧
    ((s.ctx c).ea b imm).toNat < 0x40000 ∧ ((s.ctx c).ea b imm).toNat % 4 = 0 :=
  ⟨(wg 0x3FFFC), 0, 2, 0, by decide⟩

theorem test_hypotheses_AccessAndIllegalRules :
    (∃ (s : State) (c : Fin 16) (b : Fin 32) (imm : BitVec 16) (d : Nat), s.calm c = true ∧ (s.core c).exl = false ∧
            s.place c (s.ctx c).priv ((s.ctx c).ea b imm).toNat 4 false = .inr d) ∧
    (∃ (s : State) (c : Fin 16) (b : Fin 32) (imm : BitVec 16) (d : Nat), s.calm c = true ∧ (s.core c).exl = false ∧
            s.place c (s.ctx c).priv ((s.ctx c).ea b imm).toNat 2 false = .inr d) ∧
    (∃ (s : State) (c : Fin 16) (b : Fin 32) (imm : BitVec 16) (d : Nat), s.calm c = true ∧ (s.core c).exl = false ∧
            s.place c (s.ctx c).priv ((s.ctx c).ea b imm).toNat 1 false = .inr d) ∧
    (∃ (s : State) (c : Fin 16) (a : Fin 32) (b : Fin 32) (imm : BitVec 16) (d : Nat), s.calm c = true ∧ (s.core c).exl = false ∧ a.val < 16 ∧
            s.place c (s.ctx c).priv ((s.ctx c).ea b imm).toNat 4 false = .inr d) ∧
    (∃ (s : State) (c : Fin 16) (b : Fin 32) (imm : BitVec 16) (d : Nat), s.calm c = true ∧ (s.core c).exl = false ∧
            s.place c (s.ctx c).priv ((s.ctx c).ea b imm).toNat 4 true = .inr d) ∧
    (∃ (s : State) (c : Fin 16) (b : Fin 32) (imm : BitVec 16) (d : Nat), s.calm c = true ∧ (s.core c).exl = false ∧
            s.place c (s.ctx c).priv ((s.ctx c).ea b imm).toNat 2 true = .inr d) ∧
    (∃ (s : State) (c : Fin 16) (b : Fin 32) (imm : BitVec 16) (d : Nat), s.calm c = true ∧ (s.core c).exl = false ∧
            s.place c (s.ctx c).priv ((s.ctx c).ea b imm).toNat 1 true = .inr d) ∧
    (∃ (s : State) (c : Fin 16) (a : Fin 32) (b : Fin 32) (imm : BitVec 16) (d : Nat), s.calm c = true ∧ (s.core c).exl = false ∧ a.val < 16 ∧
            s.place c (s.ctx c).priv ((s.ctx c).ea b imm).toNat 4 true = .inr d) ∧
    (∃ (ea : Nat) (w : Nat), ea % w ≠ 0) ∧
    (∃ (ea : Nat) (w : Nat), ea % w = 0 ∧ 0x80000000 ≤ ea) ∧
    (∃ (ea : Nat) (w : Nat), ea % w = 0 ∧ ea < 0x10000) ∧
    (∃ (ea : Nat) (w : Nat), ea % w = 0 ∧ inPeriph ea = true ∧ w ≠ 4) ∧
    (∃ (s : State) (c : Fin 16) (ea : Nat) (w : Nat), ea % w = 0 ∧ 0x40000000 ≤ ea ∧ ea < 0x80000000 ∧ s.on DWIN.EN c.val (ea / 2 ^ 28 % 4) = false) ∧
    (∃ (s : State) (i : Instr) (c : Fin 16) (e : Env) (w : Word), encode i = some (c, e, w) ∧ s.calm c = true ∧ (s.core c).exl = false ∧
            fieldsOk i = false) ∧
    (∃ (s : State) (c : Fin 16) (e : Env) (w : Word), decodeWord c e w = none ∧ s.calm c = true ∧ (s.core c).exl = false) ∧
    (∃ (c : Fin 16) (e : Env) (w : Word) (i : Instr), decodeWord c e w = some i) :=
  ⟨⟨(wg 0x20003), 0, 2, 0, 1, by decide⟩,
   ⟨(wg 0x20001), 0, 2, 0, 1, by decide⟩,
   ⟨(wg 0x80000000), 0, 2, 0, 3, by decide⟩,
   ⟨(wg 0x80000000), 0, 0, 2, 0, 3, by decide⟩,
   ⟨wu, 0, 0, 0, 4, by decide⟩,
   ⟨wu, 0, 0, 0, 4, by decide⟩,
   ⟨wu, 0, 0, 0, 4, by decide⟩,
   ⟨wu, 0, 0, 0, 0, 4, by decide⟩,
   ⟨3, 2, by decide⟩,
   ⟨0x80000000, 4, by decide⟩,
   ⟨4, 4, by decide⟩,
   ⟨0x20000000, 2, by decide⟩,
   ⟨(wr.put DWIN.EN 0), 0, 0x40000000, 4, by decide⟩,
   ⟨wc, (.fabs 0 16 0), 0, ⟨0, false, false⟩, ((encode (.fabs 0 16 0)).getD (0, ⟨0, false, false⟩, 0)).2.2, by decide⟩,
   ⟨wc, 0, ⟨0, false, false⟩, 0, by decide⟩,
   ⟨0, ⟨0, false, false⟩, 0xA0000004, (.nop 0), by decide⟩⟩

theorem test_hypotheses_PostedStores :
    (∃ (s : State) (c : Fin 16) (cls : Sys2Proof.Class) (p : Posted), s.units = true ∧ s.oldest c cls = some p) ∧
    (∃ (s : State) (c : Fin 16) (cls : Sys2Proof.Class) (p : Posted), s.units = true ∧ s.oldest c cls = some p ∧
        (let v := s.modPosted c (dropFirst cls);
         let u := if cls = .dram then v.reportDram c p.addr else v;
         let w := u.modCore c fun k => { k with busErr := k.busErr ++ [p.ea] };
         (u.core c).life = .running)) :=
  ⟨⟨(wr.modCore 0 fun k => { k with life := .running, posted := [⟨.sram, 0x10000000, 0x10000000, 4, 7, true⟩] }), 0, .sram,
          ⟨.sram, 0x10000000, 0x10000000, 4, 7, true⟩, by decide⟩,
   ⟨(wr.modCore 0 fun k => { k with life := .running, posted := [⟨.sram, 0x10000000, 0x10000000, 4, 7, true⟩] }), 0, .sram,
          ⟨.sram, 0x10000000, 0x10000000, 4, 7, true⟩, by decide⟩⟩

theorem test_hypotheses_Branches :
    (∃ (s : State) (c : Fin 16) (a : Fin 32) (b : Fin 32) (imm : BitVec 16), s.calm c = true ∧ ((s.ctx c).getG a) = ((s.ctx c).getG b) ∧
            inItcm ((s.ctx c).pc + imm.signExtend 32 * 4) = true) ∧
    (∃ (s : State) (c : Fin 16) (a : Fin 32) (b : Fin 32), s.calm c = true ∧ s.room c = true ∧ ¬(((s.ctx c).getG a) = ((s.ctx c).getG b))) ∧
    (∃ (s : State) (c : Fin 16) (a : Fin 32) (b : Fin 32) (imm : BitVec 16), s.calm c = true ∧ ((s.ctx c).getG a) ≠ ((s.ctx c).getG b) ∧
            inItcm ((s.ctx c).pc + imm.signExtend 32 * 4) = true) ∧
    (∃ (s : State) (c : Fin 16) (a : Fin 32) (b : Fin 32), s.calm c = true ∧ s.room c = true ∧ ¬(((s.ctx c).getG a) ≠ ((s.ctx c).getG b))) ∧
    (∃ (s : State) (c : Fin 16) (a : Fin 32) (b : Fin 32) (imm : BitVec 16), s.calm c = true ∧ ((s.ctx c).getG a).toInt < ((s.ctx c).getG b).toInt ∧
            inItcm ((s.ctx c).pc + imm.signExtend 32 * 4) = true) ∧
    (∃ (s : State) (c : Fin 16) (a : Fin 32) (b : Fin 32), s.calm c = true ∧ s.room c = true ∧ ¬(((s.ctx c).getG a).toInt < ((s.ctx c).getG b).toInt)) ∧
    (∃ (s : State) (c : Fin 16) (a : Fin 32) (b : Fin 32) (imm : BitVec 16), s.calm c = true ∧ ((s.ctx c).getG b).toInt ≤ ((s.ctx c).getG a).toInt ∧
            inItcm ((s.ctx c).pc + imm.signExtend 32 * 4) = true) ∧
    (∃ (s : State) (c : Fin 16) (a : Fin 32) (b : Fin 32), s.calm c = true ∧ s.room c = true ∧ ¬(((s.ctx c).getG b).toInt ≤ ((s.ctx c).getG a).toInt)) ∧
    (∃ (s : State) (c : Fin 16) (a : Fin 32) (b : Fin 32) (imm : BitVec 16), s.calm c = true ∧ ((s.ctx c).getG a).toNat < ((s.ctx c).getG b).toNat ∧
            inItcm ((s.ctx c).pc + imm.signExtend 32 * 4) = true) ∧
    (∃ (s : State) (c : Fin 16) (a : Fin 32) (b : Fin 32), s.calm c = true ∧ s.room c = true ∧ ¬(((s.ctx c).getG a).toNat < ((s.ctx c).getG b).toNat)) ∧
    (∃ (s : State) (c : Fin 16) (a : Fin 32) (b : Fin 32) (imm : BitVec 16), s.calm c = true ∧ ((s.ctx c).getG b).toNat ≤ ((s.ctx c).getG a).toNat ∧
            inItcm ((s.ctx c).pc + imm.signExtend 32 * 4) = true) ∧
    (∃ (s : State) (c : Fin 16) (a : Fin 32) (b : Fin 32), s.calm c = true ∧ s.room c = true ∧ ¬(((s.ctx c).getG b).toNat ≤ ((s.ctx c).getG a).toNat)) :=
  ⟨⟨wc, 0, 0, 0, 0, by decide⟩,
   ⟨(wg 5), 0, 2, 0, by decide⟩,
   ⟨(wg 5), 0, 2, 0, 0, by decide⟩,
   ⟨wc, 0, 0, 0, by decide⟩,
   ⟨(wg 5), 0, 0, 2, 0, by decide⟩,
   ⟨wc, 0, 0, 0, by decide⟩,
   ⟨wc, 0, 0, 0, 0, by decide⟩,
   ⟨(wg 5), 0, 0, 2, by decide⟩,
   ⟨(wg 5), 0, 0, 2, 0, by decide⟩,
   ⟨wc, 0, 0, 0, by decide⟩,
   ⟨wc, 0, 0, 0, 0, by decide⟩,
   ⟨(wg 5), 0, 0, 2, by decide⟩⟩

theorem test_hypotheses_ControlTransfers :
    (∃ (s : State) (c : Fin 16) (off : BitVec 26), s.calm c = true ∧ inItcm (jumpTarget (s.ctx c).pc off) = true) ∧
    (∃ (s : State) (c : Fin 16) (b : Fin 32) (imm : BitVec 16), s.calm c = true ∧ inItcm ((s.ctx c).getG b + imm.signExtend 32) = true) ∧
    (∃ (s : State) (c : Fin 16) (b : Fin 32) (imm : BitVec 16), s.calm c = true ∧ (s.core c).exl = false ∧
            inItcm ((s.ctx c).getG b + imm.signExtend 32) = false) ∧
    (∃ (s : State) (c : Fin 16) (off : BitVec 26), s.calm c = true ∧ (s.core c).exl = false ∧ inItcm (jumpTarget (s.ctx c).pc off) = false) ∧
    (∃ (s : State) (c : Fin 16) (a : Fin 32) (b : Fin 32) (imm : BitVec 16), s.calm c = true ∧ (s.core c).exl = false ∧
            ((s.ctx c).getG a) = ((s.ctx c).getG b) ∧ inItcm ((s.ctx c).pc + imm.signExtend 32 * 4) = false) ∧
    (∃ (s : State) (c : Fin 16) (a : Fin 32) (b : Fin 32) (imm : BitVec 16), s.calm c = true ∧ (s.core c).exl = false ∧
            ((s.ctx c).getG a) ≠ ((s.ctx c).getG b) ∧ inItcm ((s.ctx c).pc + imm.signExtend 32 * 4) = false) ∧
    (∃ (s : State) (c : Fin 16) (a : Fin 32) (b : Fin 32) (imm : BitVec 16), s.calm c = true ∧ (s.core c).exl = false ∧
            ((s.ctx c).getG a).toInt < ((s.ctx c).getG b).toInt ∧ inItcm ((s.ctx c).pc + imm.signExtend 32 * 4) = false) ∧
    (∃ (s : State) (c : Fin 16) (a : Fin 32) (b : Fin 32) (imm : BitVec 16), s.calm c = true ∧ (s.core c).exl = false ∧
            ((s.ctx c).getG b).toInt ≤ ((s.ctx c).getG a).toInt ∧ inItcm ((s.ctx c).pc + imm.signExtend 32 * 4) = false) ∧
    (∃ (s : State) (c : Fin 16) (a : Fin 32) (b : Fin 32) (imm : BitVec 16), s.calm c = true ∧ (s.core c).exl = false ∧
            ((s.ctx c).getG a).toNat < ((s.ctx c).getG b).toNat ∧ inItcm ((s.ctx c).pc + imm.signExtend 32 * 4) = false) ∧
    (∃ (s : State) (c : Fin 16) (a : Fin 32) (b : Fin 32) (imm : BitVec 16), s.calm c = true ∧ (s.core c).exl = false ∧
            ((s.ctx c).getG b).toNat ≤ ((s.ctx c).getG a).toNat ∧ inItcm ((s.ctx c).pc + imm.signExtend 32 * 4) = false) ∧
    (∃ (s : State) (c : Fin 16), s.calm c = true ∧ (s.ctx c).priv = true ∧ (s.core c).inIdle = false ∧ 0x10000 ≤ (s.core c).epc.toNat) ∧
    (∃ (s : State) (c : Fin 16) (f : Ctx → Ctx), s.calm c = true ∧ s.hasContext c ∧ (s.core c).exl = false ∧ (∀ x, (f x).pc = x.pc) ∧
            (s.ctx c).pc = 0xFFFC) ∧
    (∃ (s : State) (c : Fin 16), s.calm c = true) :=
  ⟨⟨wc, 0, 0, by decide⟩,
   ⟨wc, 0, 0, 0, by decide⟩,
   ⟨(wg 0x10000), 0, 2, 0, by decide⟩,
   ⟨wc, 0, 0x2000000, by decide⟩,
   ⟨wc, 0, 0, 0, 0x8000, by decide⟩,
   ⟨(wg 5), 0, 2, 0, 0x8000, by decide⟩,
   ⟨(wg 5), 0, 0, 2, 0x8000, by decide⟩,
   ⟨(wg 5), 0, 2, 0, 0x8000, by decide⟩,
   ⟨(wg 5), 0, 0, 2, 0x8000, by decide⟩,
   ⟨(wg 5), 0, 2, 0, 0x8000, by decide⟩,
   ⟨(wa.modCore 0 fun k => { k with epc := 0x10000 }), 0, by decide⟩,
   ⟨(wx fun x => { x with pc := 0xFFFC }), 0, id, by decide, .inl rfl, rfl, fun _ => rfl, rfl⟩,
   ⟨wc, 0, by decide⟩⟩

theorem test_hypotheses_FloatArithmetic :
    (∃ (s : State) (c : Fin 16) (a : Fin 32) (b : Fin 32) (d : Fin 32), s.calm c = true ∧ s.room c = true ∧ a.val < 16 ∧ b.val < 16 ∧ d.val < 16 ∧
            s.untrapped c (let x := s.ctx c; fAdd (fOf (x.getF b)) (fOf (x.getF d))).2 = true) ∧
    (∃ (s : State) (c : Fin 16) (a : Fin 32) (b : Fin 32) (d : Fin 32), s.calm c = true ∧ s.room c = true ∧ a.val < 16 ∧ b.val < 16 ∧ d.val < 16 ∧
            s.untrapped c (let x := s.ctx c; fAdd (fOf (x.getF b)) (fOf (x.getF d)).neg).2 = true) ∧
    (∃ (s : State) (c : Fin 16) (a : Fin 32) (b : Fin 32) (d : Fin 32), s.calm c = true ∧ s.room c = true ∧ a.val < 16 ∧ b.val < 16 ∧ d.val < 16 ∧
            s.untrapped c (let x := s.ctx c; fMul (fOf (x.getF b)) (fOf (x.getF d))).2 = true) ∧
    (∃ (s : State) (c : Fin 16) (a : Fin 32) (b : Fin 32) (d : Fin 32), s.calm c = true ∧ s.room c = true ∧ a.val < 16 ∧ b.val < 16 ∧ d.val < 16 ∧
            s.untrapped c (let x := s.ctx c; fDiv (fOf (x.getF b)) (fOf (x.getF d))).2 = true) ∧
    (∃ (s : State) (c : Fin 16) (a : Fin 32) (b : Fin 32), s.calm c = true ∧ s.room c = true ∧ a.val < 16 ∧ b.val < 16 ∧
            s.untrapped c (let x := s.ctx c; fSqrt (fOf (x.getF b))).2 = true) ∧
    (∃ (s : State) (c : Fin 16) (a : Fin 32) (b : Fin 32) (d : Fin 32), s.calm c = true ∧ s.room c = true ∧ a.val < 16 ∧ b.val < 16 ∧ d.val < 16 ∧
            s.untrapped c (let x := s.ctx c; fMinMax false (x.getF b) (x.getF d)).2 = true) ∧
    (∃ (s : State) (c : Fin 16) (a : Fin 32) (b : Fin 32) (d : Fin 32), s.calm c = true ∧ s.room c = true ∧ a.val < 16 ∧ b.val < 16 ∧ d.val < 16 ∧
            s.untrapped c (let x := s.ctx c; fMinMax true (x.getF b) (x.getF d)).2 = true) ∧
    (∃ (s : State) (c : Fin 16) (b : Fin 32) (d : Fin 32), s.calm c = true ∧ s.room c = true ∧ b.val < 16 ∧ d.val < 16 ∧
            s.untrapped c (fEq (fOf ((s.ctx c).getF b)) (fOf ((s.ctx c).getF d))).2 = true) ∧
    (∃ (s : State) (c : Fin 16) (b : Fin 32) (d : Fin 32), s.calm c = true ∧ s.room c = true ∧ b.val < 16 ∧ d.val < 16 ∧
            s.untrapped c (fLt (fOf ((s.ctx c).getF b)) (fOf ((s.ctx c).getF d))).2 = true) ∧
    (∃ (s : State) (c : Fin 16) (b : Fin 32) (d : Fin 32), s.calm c = true ∧ s.room c = true ∧ b.val < 16 ∧ d.val < 16 ∧
            s.untrapped c (fLe (fOf ((s.ctx c).getF b)) (fOf ((s.ctx c).getF d))).2 = true) ∧
    (∃ (s : State) (c : Fin 16) (a : Fin 32) (b : Fin 32) (d : Fin 32) (e : Fin 32), s.calm c = true ∧ s.room c = true ∧ a.val < 16 ∧ b.val < 16 ∧
            d.val < 16 ∧ e.val < 16 ∧ s.untrapped c (let x := s.ctx c; fMulAdd (fOf (x.getF b)) (fOf (x.getF d)) (fOf (x.getF e))).2 = true) ∧
    (∃ (s : State) (c : Fin 16) (a : Fin 32) (b : Fin 32) (d : Fin 32) (e : Fin 32), s.calm c = true ∧ s.room c = true ∧ a.val < 16 ∧ b.val < 16 ∧
            d.val < 16 ∧ e.val < 16 ∧ s.untrapped c (let x := s.ctx c; fMulAdd (fOf (x.getF b)) (fOf (x.getF d)) (fOf (x.getF e)).neg).2 = true) ∧
    (∃ (s : State) (c : Fin 16) (a : Fin 32) (b : Fin 32) (d : Fin 32) (e : Fin 32), s.calm c = true ∧ s.room c = true ∧ a.val < 16 ∧ b.val < 16 ∧
            d.val < 16 ∧ e.val < 16 ∧ s.untrapped c (let x := s.ctx c; fNegResult (fMulAdd (fOf (x.getF b)) (fOf (x.getF d)) (fOf (x.getF e)))).2 =
            true) :=
  ⟨⟨wc, 0, 0, 0, 0, by decide⟩,
   ⟨wc, 0, 0, 0, 0, by decide⟩,
   ⟨wc, 0, 0, 0, 0, by decide⟩,
   ⟨wc, 0, 0, 0, 0, by decide⟩,
   ⟨wc, 0, 0, 0, by decide⟩,
   ⟨wc, 0, 0, 0, 0, by decide⟩,
   ⟨wc, 0, 0, 0, 0, by decide⟩,
   ⟨wc, 0, 0, 0, by decide⟩,
   ⟨wc, 0, 0, 0, by decide⟩,
   ⟨wc, 0, 0, 0, by decide⟩,
   ⟨wc, 0, 0, 0, 0, 0, by decide⟩,
   ⟨wc, 0, 0, 0, 0, 0, by decide⟩,
   ⟨wc, 0, 0, 0, 0, 0, by decide⟩⟩

theorem test_hypotheses_FloatMovesAndConversions :
    (∃ (s : State) (c : Fin 16) (a : Fin 32) (b : Fin 32), s.calm c = true ∧ s.room c = true ∧ a.val < 16 ∧ b.val < 16) ∧
    (∃ (s : State) (c : Fin 16) (a : Fin 32), s.calm c = true ∧ s.room c = true ∧ a.val < 16) ∧
    (∃ (s : State) (c : Fin 16) (b : Fin 32), s.calm c = true ∧ s.room c = true ∧ b.val < 16) ∧
    (∃ (s : State) (c : Fin 16) (a : Fin 32) (b : Fin 32), s.calm c = true ∧ s.room c = true ∧ a.val < 16 ∧
            s.untrapped c (fFromInt ((s.ctx c).getG b) 0).2 = true) ∧
    (∃ (s : State) (c : Fin 16) (a : Fin 32) (b : Fin 32), s.calm c = true ∧ s.room c = true ∧ a.val < 16 ∧
            s.untrapped c (fFromInt ((s.ctx c).getG b) (-31)).2 = true) ∧
    (∃ (s : State) (c : Fin 16) (b : Fin 32), s.calm c = true ∧ s.room c = true ∧ b.val < 16 ∧
            s.untrapped c (fToInt false (fOf ((s.ctx c).getF b))).2 = true) ∧
    (∃ (s : State) (c : Fin 16) (b : Fin 32), s.calm c = true ∧ s.room c = true ∧ b.val < 16 ∧
            s.untrapped c (fToInt true (fOf ((s.ctx c).getF b))).2 = true) ∧
    (∃ (s : State) (c : Fin 16) (b : Fin 32), s.calm c = true ∧ s.room c = true ∧ b.val < 16 ∧ s.untrapped c (fToQ (fOf ((s.ctx c).getF b))).2 = true) :=
  ⟨⟨wc, 0, 0, 0, by decide⟩,
   ⟨wc, 0, 0, by decide⟩,
   ⟨wc, 0, 0, by decide⟩,
   ⟨wc, 0, 0, 0, by decide⟩,
   ⟨wc, 0, 0, 0, by decide⟩,
   ⟨wc, 0, 0, by decide⟩,
   ⟨wc, 0, 0, by decide⟩,
   ⟨wc, 0, 0, by decide⟩⟩

theorem test_hypotheses_FixedPointForms :
    ∃ (s : State) (c : Fin 16), s.calm c = true ∧ s.room c = true :=
  ⟨wc, 0, by decide⟩

theorem test_hypotheses_AccumulatorForms :
    (∃ (s : State) (c : Fin 16) (a : Fin 32), s.calm c = true ∧ s.room c = true ∧ a.val < 4) ∧
    (∃ (s : State) (c : Fin 16) (b : Fin 32), s.calm c = true ∧ s.room c = true ∧ b.val < 4) :=
  ⟨⟨wc, 0, 0, by decide⟩,
   ⟨wc, 0, 0, by decide⟩⟩

theorem test_hypotheses_SystemForms :
    (∃ (s : State) (c : Fin 16), s.calm c = true ∧ (s.core c).exl = false) ∧
    (∃ (s : State) (c : Fin 16), s.calm c = true) ∧
    (∃ (s : State) (c : Fin 16) (b : Fin 32), s.calm c = true ∧ s.room c = true ∧ 100 ≤ ((s.ctx c).getG b).toNat) ∧
    (∃ (s : State) (c : Fin 16) (b : Fin 32) (e : Nat), s.calm c = true ∧ ((s.ctx c).getG b).toNat < 100 ∧ (s.core c).inIdle = false ∧
            (s.core c).cur = some e) ∧
    (∃ (s : State) (c : Fin 16), s.calm c = true ∧ s.room c = true ∧ ((s.ctx c).priv || s.on CORE_CTL.SWAP_EN c.val) = true) ∧
    (∃ (s : State) (c : Fin 16) (n : Fin 32), s.calm c = true ∧ s.room c = true ∧ n.val < 16 ∧ (crSup n.val = false ∨ (s.ctx c).priv = true)) ∧
    (∃ (s : State) (c : Fin 16) (b : Fin 32) (n : Fin 32), s.calm c = true ∧ s.room c = true ∧ n.val < 16 ∧
            (crSup n.val = false ∨ (s.ctx c).priv = true) ∧ ((s.core c).crWrite n.val (s.ctx c).priv ((s.ctx c).getG b)).line = none) ∧
    (∃ (s : State) (c : Fin 16), s.calm c = true ∧ s.room c = true ∧ (s.core c).posted = []) ∧
    (∃ (s : State) (c : Fin 16), s.calm c = true ∧ (s.drain c (fun k => k == .periph)).coreRuns c = true) ∧
    (∃ (s : State) (c : Fin 16), s.calm c = true ∧ (s.drain c (fun k => k != .periph)).coreRuns c = true) ∧
    (∃ (s : State) (c : Fin 16), s.calm c = true ∧ (s.drain c (fun _ => true)).coreRuns c = true) :=
  ⟨⟨wc, 0, by decide⟩,
   ⟨wc, 0, by decide⟩,
   ⟨(wg 100), 0, 2, by decide⟩,
   ⟨wa, 0, 0, 4, by decide⟩,
   ⟨wc, 0, by decide⟩,
   ⟨wc, 0, 0, by decide⟩,
   ⟨wc, 0, 0, 0, by decide⟩,
   ⟨wc, 0, by decide⟩,
   ⟨wc, 0, by decide⟩,
   ⟨wc, 0, by decide⟩,
   ⟨wc, 0, by decide⟩⟩

theorem test_hypotheses_ExceptionEntry :
    (∃ (s : State) (c : Fin 16), s.hasContext c) ∧
    (∃ (s : State) (c : Fin 16), (s.core c).exl = false) ∧
    (∃ (s : State) (c : Fin 16), (s.core c).exl = true) :=
  ⟨⟨wc, 0, .inl rfl⟩,
   ⟨wr, 0, by decide⟩,
   ⟨(wc.modCore 0 fun k => { k with exl := true }), 0, by decide⟩⟩

theorem test_hypotheses_PrivilegeChecks :
    (∃ (s : State) (c : Fin 16), s.calm c = true ∧ (s.core c).exl = false ∧ (s.ctx c).priv = false) ∧
    (∃ (s : State) (c : Fin 16) (n : Fin 32), s.calm c = true ∧ (s.core c).exl = false ∧ (s.ctx c).priv = false ∧ n.val < 16 ∧ crSup n.val = true) ∧
    (∃ (s : State) (c : Fin 16), s.calm c = true ∧ (s.core c).exl = false ∧ (s.ctx c).priv = false ∧ s.on CORE_CTL.SWAP_EN c.val = false) ∧
    (∃ (s : State) (c : Fin 16), s.calm c = true ∧ (s.ctx c).priv = true ∧ (s.core c).inIdle = false ∧ (s.core c).epc.toNat < 0x10000) ∧
    (∃ (s : State) (c : Fin 16), s.calm c = true ∧ (s.ctx c).priv = true ∧ (s.core c).inIdle = true) ∧
    (∃ (s : State) (c : Fin 16), s.hasContext c) ∧
    (∃ (n : Nat), n < 16) :=
  ⟨⟨wu, 0, by decide⟩,
   ⟨wu, 0, 8, by decide⟩,
   ⟨wu, 0, by decide⟩,
   ⟨(wa.modCore 0 fun k => { k with epc := 0xFFFC }), 0, by decide⟩,
   ⟨wc, 0, by decide⟩,
   ⟨wa, 0, .inr ⟨4, _, rfl, rfl⟩⟩,
   ⟨0, by decide⟩⟩

theorem test_hypotheses_LocksAndMailboxes :
    (∃ (s : State) (c : Fin 16) (b : Fin 32) (imm : BitVec 16), s.calm c = true ∧ s.room c = true ∧ imm.toNat < 256 ∧ s.lockNo c b imm < 256 ∧
            (s.locks[s.lockNo c b imm % 256]).holder = none) ∧
    (∃ (s : State) (c : Fin 16) (b : Fin 32) (imm : BitVec 16), s.calm c = true ∧ s.room c = true ∧ imm.toNat < 256 ∧ 255 < s.lockNo c b imm) ∧
    (∃ (s : State) (c : Fin 16) (b : Fin 32) (imm : BitVec 16), s.calm c = true ∧ imm.toNat < 256 ∧ s.lockNo c b imm < 256 ∧
            s.holds c (Fin.ofNat 256 (s.lockNo c b imm)) = true) ∧
    (∃ (s : State) (c : Fin 16) (b : Fin 32) (d : Fin 32), s.calm c = true ∧
        (let m := mbOf ((s.ctx c).getG d);
         let n := mbLen ((s.ctx c).getG d);
         let addr := ((s.ctx c).getG b).toNat;
         s.sendCode c m n addr = 0)) ∧
    (∃ (s : State) (c : Fin 16) (b : Fin 32) (d : Fin 32) (g : Msg) (rest : List Msg), s.calm c = true ∧
        (let m := mbOf ((s.ctx c).getG d);
         let n := mbLen ((s.ctx c).getG d);
         let addr := ((s.ctx c).getG b).toNat;
         s.recvCode c m n addr = 0 ∧ s.mbox[m.val] = g :: rest)) ∧
    (∃ (s : State) (c : Fin 16) (lw : LockWait), s.units = true ∧ s.live = true ∧ (s.core c).lockWait = some lw ∧ s.get LK_LIMIT.LIM c.val ≠ 0) :=
  ⟨⟨wc, 0, 0, 0, by decide⟩,
   ⟨(wg 255), 0, 2, 1, by decide⟩,
   ⟨(wc.modLock 0 fun l => { l with holder := some (wc.nodeOf 0) }), 0, 0, 0, by decide⟩,
   ⟨((((wx fun x => (x.setG 3 0x101).setG 2 0x20000).put MB_CFG.EN 1 0 1).put MB_CFG.DEPTH 4 0 1).put MB_PERM.SEND 1 0 1), 0, 2, 3, by decide⟩,
   ⟨(((wx fun x => (x.setG 3 0x101).setG 2 0x20000).put MB_CFG.EN 1 0 1).modMbox 1 fun _ => [⟨5, [7]⟩]), 0, 2, 3, ⟨5, [7]⟩, [], by decide⟩,
   ⟨((wc.modCore 0 fun k => { k with lockWait := some ⟨1, 7⟩ }).put LK_LIMIT.LIM 1), 0, ⟨1, 7⟩, by decide⟩⟩

theorem test_hypotheses_LoopUnitInstructions :
    (∃ (s : State) (c : Fin 16) (imm : BitVec 16), s.calm c = true ∧ s.room c = true ∧ imm.toNat < 32768 ∧ s.trWriting c = false) ∧
    (∃ (s : State) (c : Fin 16) (b : Fin 32) (imm : BitVec 16), s.calm c = true ∧
        (let t := s.trMark c imm.toNat ((s.ctx c).getG b);
         t.calm c = true ∧ t.room c = true)) ∧
    (∃ (s : State) (c : Fin 16) (b : Fin 32), s.calm c = true ∧ s.room c = true ∧
        (let w := (s.ctx c).getG b;
         let r := s.repTab c (Fin.ofNat 8 w.toNat);
         r.len ≠ 0)) ∧
    (∃ (s : State) (c : Fin 16) (b : Fin 32), s.calm c = true ∧ s.room c = true ∧
        (let t := Fin.ofNat 8 ((s.ctx c).getG b).toNat;
         (s.repTab c t).len ≠ 0)) ∧
    (∃ (s : State) (c : Fin 16) (b : Fin 32), s.calm c = true ∧ s.room c = true ∧
        (let w := (s.ctx c).getG b;
         let t := Fin.ofNat 8 w.toNat;
         (s.repTab c t).len ≠ 0)) :=
  ⟨⟨wc, 0, 0, by decide⟩,
   ⟨wc, 0, 0, 0, by decide⟩,
   ⟨(wc.modRepTab 0 0 fun r => { r with len := 8 }), 0, 0, by decide⟩,
   ⟨(wc.modRepTab 0 0 fun r => { r with len := 8 }), 0, 0, by decide⟩,
   ⟨(wc.modRepTab 0 0 fun r => { r with len := 8 }), 0, 0, by decide⟩⟩

theorem test_hypotheses_CoreInstructionFrame :
    ∃ (s : State) (c : Fin 16), s.hasContext c :=
  ⟨wa, 0, .inr ⟨4, _, rfl, rfl⟩⟩

theorem test_hypotheses_CoresEventsAndLockstep :
    (∃ (s : State) (c : Fin 16), s.live = true ∧ s.paired c.val = false ∧ (s.core c).executing = false) ∧
    (∃ (s : State) (pair : Fin 8), s.units = true ∧ s.live = true ∧ s.lockstep (2 * pair.val) = true ∧
            (s.core ⟨2 * pair.val, by omega⟩).life = .running) ∧
    (∃ (s : State), s.units = true ∧ s.live = true) ∧
    (∃ (s : State) (c : Fin 16) (b : Fin 2), s.units = true ∧ (s.core c).validating = some b) ∧
    (∃ (s : State) (c : Fin 16), s.units = true ∧ (s.core c).resetting = true) ∧
    (∃ (s : State), s.units = true) :=
  ⟨⟨wr, 0, by decide⟩,
   ⟨((wr.put LSTEP_CFG.PAIR 1).modCore 0 fun k => { k with life := .running }), 0, by decide⟩,
   ⟨wr, by decide⟩,
   ⟨(wr.modCore 0 fun k => { k with validating := some 0 }), 0, 0, by decide⟩,
   ⟨(wr.modCore 0 fun k => { k with resetting := true }), 0, by decide⟩,
   ⟨wr, by decide⟩⟩

theorem test_hypotheses_SupervisorCommandsOfCores :
    (∃ (s : State) (rq : Req), s.units = true ∧ rq.sup = true) ∧
    (∃ (s : State) (c : Fin 16) (rq : Req), s.units = true ∧ rq.sup = true ∧ s.controls c = true) ∧
    (∃ (s : State) (go : Bool) (rq : Req), s.units = true ∧ rq.sup = true ∧ go = true) ∧
    (∃ (rq : Req), rq.sup = false) ∧
    (∃ (s : State) (core : Fin 16) (itcmBad : Bool), s.units = true ∧
            (s.plat.migrations.find? fun m => m.core == core && m.copied.isNone).isSome = true ∧ itcmBad = true) ∧
    (∃ (s : State) (core : Fin 16) (itcmBad : Bool), s.units = true ∧
            (s.plat.migrations.find? fun m => m.core == core && m.copied.isNone).isSome = true ∧ itcmBad = false) ∧
    (∃ (s : State) (index : Nat), s.units = true ∧ (∃ r, s.plat.replies[index]? = some r ∧ 4 ≤ r.tries)) ∧
    (∃ (s : State) (core : Nat), s.units = true ∧ s.plat.serviceUp = true ∧ 16 ≤ core) ∧
    (∃ (s : State), s.units = true ∧ s.plat.serviceUp = true) ∧
    (∃ (s : State) (q : SvcReq) (c : Fin 16) (addr : Nat) (len : Nat), s.units = true ∧ s.plat.serviceUp = true ∧
        (let t := s.request 61 0x0001 q [c.val, addr % 2 ^ 32, addr / 2 ^ 32, len];
         t.controls c = true ∧ (∀ k < len, fabReaches (addr + k) false true = true) ∧ t.frozen c = false)) :=
  ⟨⟨wr, ⟨0, true⟩, by decide⟩,
   ⟨wr, 0, ⟨0, true⟩, by decide⟩,
   ⟨wr, true, ⟨0, true⟩, by decide⟩,
   ⟨⟨0, false⟩, by decide⟩,
   ⟨(wp fun p => { p with migrations := [⟨0, 15, none⟩] }), 0, true, by decide⟩,
   ⟨(wp fun p => { p with migrations := [⟨0, 15, none⟩] }), 0, false, by decide⟩,
   ⟨(wp fun p => { p with replies := [⟨0, 5, [], 4⟩] }), 0, rfl, ⟨_, rfl, by decide⟩⟩,
   ⟨wr, 16, by decide⟩,
   ⟨wr, by decide⟩,
   ⟨wr, ⟨3, 5, 1, false⟩, 0, 0, 0, by decide⟩⟩

theorem test_hypotheses_LoopsAndTrace :
    (∃ (s : State), s.live = true) ∧
    (∃ (s : State) (c : Fin 16) (l : Fin 8), (s.loop c l).cur = none) ∧
    (∃ (s : State) (q : LoopSample) (u : State), (s.loop 0 0).cur = some q ∧ q.out = some 7 ∧ s.live = true ∧ s.mtc ≤ q.t0 + s.lpDelay 0 0 ∧
    (s.modLoop 0 0 fun x => { x with cur := none }).lpWrite 0 0 7 false = some u) ∧
    (∃ (s : State) (c : Fin 16) (l : Fin 8), s.live = true ∧ (s.loop c l).failing = true ∧
        (let t := (s.modLoop c l fun x => { x with failing := false }).lpFlag c l LP_FLAGS.SRC_ERR;
         t.get LP_STAT.STATE c.val l.val ≠ loopRun)) ∧
    (∃ (s : State) (c : Fin 16) (rq : Req), s.units = true ∧ rq.sup = true ∧ s.controls c = true) :=
  ⟨⟨wr, by decide⟩,
   ⟨wr, 0, 0, by decide⟩,
   ⟨wlp, ⟨0, false, false, false, 0, 0, 0, none, some 7⟩, _, by decide, by decide, by decide, by decide, by rfl⟩,
   ⟨(wr.modLoop 0 0 fun x => { x with failing := true }), 0, 0, by decide⟩,
   ⟨wr, 0, ⟨0, true⟩, by decide⟩⟩

theorem test_hypotheses_AnalogueInputs :
    (∃ (s : State), s.units = true) ∧
    (∃ (s : State) (n : Fin 40), s.units = true ∧ s.ainMode n.val = 4 ∧ (s.ain[n.val]).cnt + 1 < s.ainRev n.val) ∧
    (∃ (s : State) (idx : Fin 40), s.units = true ∧ s.ainMode idx.val ≠ 4) ∧
    (∃ (s : State) (idx : Fin 40), s.units = true ∧ s.ainMode idx.val = 4 ∧ (∀ n : Fin 40, s.get AIN_CFG.IDX_CH n.val ≠ idx.val)) ∧
    (∃ (s : State) (idx : Fin 40), s.units = true ∧ s.ainMode idx.val = 4) :=
  ⟨⟨wr, by decide⟩,
   ⟨((wr.put AIN_CFG.MODE 4).put AIN_ACFG.PPR 2), 0, by decide⟩,
   ⟨wr, 0, by decide⟩,
   ⟨(wr.put AIN_CFG.MODE 4), 0, by decide⟩,
   ⟨(wr.put AIN_CFG.MODE 4), 0, by decide⟩⟩

theorem test_hypotheses_LossPlatesAndImu :
    (∃ (s : State) (n : Fin 16), s.units = true ∧ s.on LS_CFG.EN n.val = false) ∧
    (∃ (s : State) (n : Fin 16) (x : Int), s.units = true ∧ s.on LS_CFG.EN n.val = true ∧ (s.ls[n.val]).restart = false ∧ (s.ls[n.val]).bins ≠ [] ∧
            (s.ls[n.val]).st = .idle ∧ (s.ls[n.val]).pulse ≤ s.mtc ∧ (s.ls[n.val]).clipRun = 0 ∧
        (let env := (s.lsInput n x).2.natAbs;
         s.get LS_THR.ON n.val ≤ env ∧ env < s.get LS_CLIP.CLIP n.val)) ∧
    (∃ (s : State) (n : Fin 16), s.units = true ∧ s.on LS_CFG.EN n.val = true) ∧
    (∃ (s : State) (n : Fin 16) (b : LsBin) (rest : List LsBin), s.units = true ∧ (s.ls[n.val]).bins = b :: rest ∧ b.closed = true ∧
            b.stop ≤ s.mtc - 2400 ∧ ((s.ls[n.val]).st ≠ .inside ∨ (s.ls[n.val]).start < b.start ∨ b.stop ≤ (s.ls[n.val]).start)) ∧
    (∃ (s : State), s.units = true) ∧
    (∃ (s : State) (n : Fin 16), s.units = true ∧ s.on LS_CFG.EN n.val = true ∧ (s.ls[n.val]).st ≠ .idle) ∧
    (∃ (s : State) (n : Fin 16), s.units = true ∧ s.on LS_CFG.EN n.val = true ∧ (s.ls[n.val]).st = .idle) ∧
    (∃ (s : State) (n : Fin 16), s.units = true ∧ s.on LS_CFG.EN n.val = true ∧ s.get LS_TIME.SILENT_T n.val ≠ 0 ∧
            (s.ls[n.val]).heard + 200000000 * s.get LS_TIME.SILENT_T n.val ≤ s.mtc) ∧
    (∃ (s : State) (rq : Req), s.units = true ∧ rq.sup = true) ∧
    (∃ (s : State), s.units = true ∧ s.on IMU_CFG.EN = false) ∧
    (∃ (s : State), s.units = true ∧ s.on IMU_CFG.EN = true) :=
  ⟨⟨wr, 0, by decide⟩,
   ⟨wls, 0, 0, by refine ⟨?_, ?_, ?_, ?_, ?_, ?_, ?_, ?_⟩ <;> first | decide | exact ⟨Nat.zero_le _, wls_envelope _⟩⟩,
   ⟨(wr.put LS_CFG.EN 1), 0, by decide⟩,
   ⟨(late (wr.modLs 0 fun l => { l with bins := [⟨0, 9, true, 1, 0, 0, false, false, 0⟩] })), 0, ⟨0, 9, true, 1, 0, 0, false, false, 0⟩, [],
          by decide⟩,
   ⟨wr, by decide⟩,
   ⟨(((wr.put LS_CFG.EN 1)).modLs 0 fun l => { l with st := .inside }), 0, by decide⟩,
   ⟨(wr.put LS_CFG.EN 1), 0, by decide⟩,
   ⟨(late ((wr.put LS_CFG.EN 1).put LS_TIME.SILENT_T 1)), 0, by decide⟩,
   ⟨wr, ⟨0, true⟩, by decide⟩,
   ⟨(wr.put IMU_CFG.EN 0), by decide⟩,
   ⟨(wr.put IMU_CFG.EN 1), by decide⟩⟩

theorem test_hypotheses_CameraPorts :
    (∃ (s : State) (rq : Req), s.units = true ∧ rq.sup = true) ∧
    (∃ (s : State) (n : Fin 10) (vc : Nat), s.units = true ∧ (s.cams[n.val]).receiving = true ∧ (s.cams[n.val]).closing = false ∧
            camExposure (s.get CAM_CFG.VCBASE n.val) (s.camNexp n.val) vc = some 0 ∧ (s.cams[n.val]).frame = none ∧ (s.cams[n.val]).st ≠ .dropout) ∧
    (∃ (s : State) (n : Fin 10) (p : CamPacket) (f : CamFrame), s.units = true ∧ (s.cams[n.val]).frame = some f ∧ p.eccCorr = false ∧ p.eccBad = true) ∧
    (∃ (s : State) (n : Fin 10) (p : CamPacket) (f : CamFrame), s.units = true ∧ (s.cams[n.val]).frame = some f ∧ p.eccCorr = false ∧
            p.eccBad = false ∧ p.overrun = false ∧ p.crcErr = false ∧ camExposure f.cfg.vcbase f.cfg.nexp p.vc = some 0 ∧ p.dt = f.cfg.dt ∧
            camDtKnown p.dt = true ∧ p.dt ≠ 0x12 ∧ p.codes.length = f.cfg.width ∧ ((f.lines[0]?).getD []).length < f.cfg.height) ∧
    (∃ (s : State) (n : Fin 10) (vc : Nat) (k : Nat) (f : CamFrame), s.units = true ∧ (s.cams[n.val]).frame = some f ∧
            camExposure f.cfg.vcbase f.cfg.nexp vc = some k ∧ f.feSeen ||| 2 ^ k = 2 ^ f.cfg.nexp - 1) ∧
    (∃ (s : State) (n : Fin 10), s.units = true ∧ (s.cams[n.val]).receiving = true ∧ (s.cams[n.val]).frame = none ∧
            (s.cams[n.val]).missRun + 1 < s.get CAM_TOL.MISS_LIMIT n.val) ∧
    (∃ (s : State) (n : Fin 10) (d : CamClosed) (rest : List CamClosed), s.units = true ∧ (s.cams[n.val]).closed = d :: rest ∧ d.headDone = true) ∧
    (∃ (s : State) (n : Fin 10) (d : CamClosed) (rest : List CamClosed), s.units = true ∧ (s.cams[n.val]).closed = d :: rest ∧ d.headDone = false) ∧
    (∃ (s : State) (n : Fin 10), s.units = true ∧ (s.cams[n.val]).st ≠ .linkWait) ∧
    (∃ (s : State) (n : Fin 10), s.units = true ∧ (s.cams[n.val]).st = .linkWait ∧ (s.cams[n.val]).lastSet = none ∧ (s.cams[n.val]).send = none) ∧
    (∃ (s : State), s.units = true) ∧
    (∃ (s : State) (n : Fin 10), s.units = true ∧ (s.cams[n.val]).closing = true) ∧
    (∃ (s : State) (n : Fin 10) (d : CamSend), s.units = true ∧ (s.cams[n.val]).send = some d ∧ d.waitFe = false ∧ d.sent + 1 < d.writes.length) :=
  ⟨⟨wr, ⟨0, true⟩, by decide⟩,
   ⟨(wcam none), 0, 0, by decide⟩,
   ⟨(wcam (some wfr)), 0, ⟨0, 0x2A, [], false, false, true, false, none⟩, wfr, by decide⟩,
   ⟨(wcam (some wfr)), 0, ⟨0, 0x2A, [1, 2, 3, 4], false, false, false, false, none⟩, wfr, by decide⟩,
   ⟨(wcam (some wfr)), 0, 0, 0, wfr, by decide⟩,
   ⟨(wcam none), 0, by decide⟩,
   ⟨((wcam none).modCam 0 fun c => { c with closed := [⟨0, 0, [], [], true⟩] }), 0, ⟨0, 0, [], [], true⟩, [], by decide⟩,
   ⟨((wcam none).modCam 0 fun c => { c with closed := [⟨0, 0, [], [], false⟩] }), 0, ⟨0, 0, [], [], false⟩, [], by decide⟩,
   ⟨(wcam none), 0, by decide⟩,
   ⟨((wcam none).modCam 0 fun c => { c with st := .linkWait, lastSet := none, send := none }), 0, by decide⟩,
   ⟨wr, by decide⟩,
   ⟨((wcam none).modCam 0 fun c => { c with closing := true }), 0, by decide⟩,
   ⟨((wcam none).modCam 0 fun c => { c with send := some ⟨1, [], [(1, 2), (3, 4)], 0, 0, false⟩ }), 0, ⟨1, [], [(1, 2), (3, 4)], 0, 0, false⟩,
          by decide⟩⟩

theorem test_hypotheses_FusionCommands :
    (∃ (s : State) (n : Fin 16), s.units = true ∧ s.sensTakes n.val 1 = false) ∧
    (∃ (s : State) (n : Fin 16) (fseq : Nat) (lost : Bool), s.units = true ∧ s.sensTakes n.val 1 = true ∧ lost = true ∧
            (s.cuvee.sensors[n.val]).seen ≠ some fseq ∧ ((s.fabWords
            (s.addr40 DESC_BASE_LO.ADDR DESC_BASE_HI.ADDR (s.get SENS_CFG.SRC n.val) + 32 * (fseq % 64)) 8)[0]?).getD 0 % 2 ^ 16 = fseq ∧
            bit (((s.fabWords (s.addr40 DESC_BASE_LO.ADDR DESC_BASE_HI.ADDR (s.get SENS_CFG.SRC n.val) + 32 * (fseq % 64)) 8)[0]?).getD 0 / 2 ^ 16) 6
            = false) ∧
    (∃ (s : State) (n : Fin 16) (slot : Nat), s.units = true ∧ s.sensTakes n.val 2 = true ∧
            bit (s.fabN (s.addr40 STR_RING_LO.ADDR STR_RING_HI.ADDR (s.get SENS_CFG.STREAM n.val) + slot % 16 * 0x40000) 4) 19 = true) ∧
    (∃ (s : State) (n : Fin 16), s.units = true ∧ s.sensTakes n.val 2 = true) ∧
    (∃ (s : State), s.units = true ∧ s.on CV_CTL.EN = true ∧ epochStart (s.cuvee.next + 1) + s.waitLimit ≤ s.mtc) ∧
    (∃ (s : State) (n : Fin 16), s.units = true ∧ s.extractNext n.val = none ∧ (s.cuvee.late.find? fun o => o.sensor == n.val) = none) ∧
    (∃ (s : State) (n : Fin 16) (e : CvEpoch) (o : CvObj), s.units = true ∧ s.extractNext n.val = some e ∧
            (e.objs.find? fun o => o.waits n.val) = some o ∧ o.points = []) ∧
    (∃ (s : State) (n : Fin 16) (e : CvEpoch) (o : CvObj), s.units = true ∧ s.extractNext n.val = some e ∧
            (e.objs.find? fun o => o.waits n.val) = some o ∧ o.points ≠ []) ∧
    (∃ (s : State) (e : CvEpoch) (rest : List CvEpoch) (r : Nat), s.units = true ∧ s.cuvee.epochs = e :: rest ∧ e.released = some r ∧
            e.objs.all CvObj.done = true) ∧
    (∃ (s : State) (rq : Req), s.units = true ∧ rq.sup = true) ∧
    (∃ (s : State) (m : Fin 16), s.units = true ∧ s.on MS_STAT.OLD_BUSY m.val = true ∧ s.on MS_STAT.PEND m.val = false ∧
            s.epochsOver (s.get MS_FROM.EPOCH m.val) = true) ∧
    (∃ (s : State) (n : Fin 16) (fseq : Nat), s.units = true ∧ s.sensTakes n.val 1 = true ∧ (s.cuvee.sensors[n.val]).seen ≠ some fseq ∧
        (let p := s.get SENS_CFG.SRC n.val;
         let w := fun k => ((s.fabWords (s.addr40 DESC_BASE_LO.ADDR DESC_BASE_HI.ADDR p + 32 * (fseq % 64)) 8)[k]?).getD 0;
         let fl := w 0 / 2 ^ 16;
         let t := s.modSens n fun d => { d with seen := some fseq };
         w 0 % 2 ^ 16 = fseq ∧ bit fl 6 = false ∧ s.on CAM_FRAME.WACT p = false)) ∧
    (∃ (s : State) (n : Fin 16) (slot : Nat), s.units = true ∧ s.sensTakes n.val 2 = true ∧
        (let k := s.get SENS_CFG.STREAM n.val;
         let a := s.addr40 STR_RING_LO.ADDR STR_RING_HI.ADDR k + slot % 16 * 0x40000;
         k < 16 ∧ s.get STR_CFG.PORT k = s.get SENS_CFG.SRC n.val ∧ bit (s.fabN a 4) 19 = false)) :=
  ⟨⟨wr, 0, by decide⟩,
   ⟨(wcv 1), 0, 0, true, by decide⟩,
   ⟨({ wcv 2 with sram := Mem.writeN [] 0x10010002 1 8 }.put STR_RING_LO.ADDR 0x10010), 0, 0, by decide⟩,
   ⟨(wcv 2), 0, by decide⟩,
   ⟨(late (wcv 1)), by decide⟩,
   ⟨wr, 0, by decide⟩,
   ⟨(wr.modCv fun c => { c with epochs := [⟨1, [wob], none, [], 0, false, 0, []⟩] }), 0, ⟨1, [wob], none, [], 0, false, 0, []⟩, wob, by decide⟩,
   ⟨(wr.modCv fun c => { c with epochs := [⟨1, [{ wob with points := [⟨0, 0, 0, 0, 0⟩] }], some 0, [], 0, false, 0, []⟩] }), 0,
          ⟨1, [{ wob with points := [⟨0, 0, 0, 0, 0⟩] }], some 0, [], 0, false, 0, []⟩, { wob with points := [⟨0, 0, 0, 0, 0⟩] }, by decide⟩,
   ⟨(wr.modCv fun c => { c with epochs := [⟨1, [{ wob with done := true }], some 0, [], 0, false, 0, []⟩] }),
          ⟨1, [{ wob with done := true }], some 0, [], 0, false, 0, []⟩, [], 0, by decide⟩,
   ⟨(wcv 1), ⟨0, true⟩, by decide⟩,
   ⟨(late (wr.put MS_STAT.OLD_BUSY 1)), 0, by decide⟩,
   ⟨(wcv 1), 0, 0, by decide⟩,
   ⟨(wcv 2), 0, 0, by decide⟩⟩

theorem test_hypotheses_RackingLineCommands :
    (∃ (s : State), s.units = true) ∧
    (∃ (s : State), s.units = true ∧ s.cuvee.pub = none) ∧
    (∃ (s : State) (p : CvPub) (ch : Nat) (c : Int), s.units = true ∧ s.cuvee.pub = some p ∧ s.role 0 = some ch ∧ s.on GRID_STAT.VALID = true ∧
            s.travelAt p.tref = some c) ∧
    (∃ (s : State) (rq : Req), s.units = true ∧ rq.sup = true) :=
  ⟨⟨wr, by decide⟩,
   ⟨wr, by decide⟩,
   ⟨((((wr.put ROLE_MAP.W 0x80).put GRID_STAT.VALID 1).modCv fun c => { c with pub := some ⟨0, 0, 0, 0, []⟩ }).modRl fun r =>
          { r with travel := [(0, 5)] }), ⟨0, 0, 0, 0, []⟩, 0, 5, by decide⟩,
   ⟨wr, ⟨0, true⟩, by decide⟩⟩

theorem test_hypotheses_ValveCommands :
    (∃ (s : State), s.units = true) ∧
    (∃ (s : State) (c : Fin 32), s.units = true ∧ (s.valve c).phase = .boost) ∧
    (∃ (s : State) (c : Fin 32), s.units = true ∧ (s.valve c).phase = .peak ∧ (s.valve c).since + 2000 * (s.valve c).prof.pT ≤ s.mtc) ∧
    (∃ (s : State) (c : Fin 32), s.units = true ∧ (s.valve c).phase = .boost ∧ (s.valve c).since + 200 * (s.valve c).prof.bT ≤ s.mtc) ∧
    (∃ (s : State) (c : Fin 32), s.units = true ∧ (s.valve c).phase = .hold ∧ (s.valve c).held = false ∧ (s.valve c).prof.hT ≠ 0 ∧
            (s.valve c).since + 200000 * (s.valve c).prof.hT ≤ s.mtc) ∧
    (∃ (s : State) (c : Fin 32), s.units = true ∧ (s.valve c).phase = .swoff ∧ (s.valve c).decay ≠ 2) ∧
    (∃ (s : State) (c : Fin 32), s.units = true ∧ (s.valve c).phase = .swoff ∧ (s.valve c).decay = 2) ∧
    (∃ (s : State) (b : Fin 8) (rail : Nat) (d : Nat) (w : VWait) (rest : List Nat), s.units = true ∧ (s.railSet b rail).boostFree b = true ∧
            ((s.railSet b rail).bank b).order = d :: rest ∧ ((s.railSet b rail).valve (Fin.ofNat 32 d)).wait = some w ∧ w.deferred = false) ∧
    (∃ (s : State) (c : Fin 32) (w : VWait), s.units = true ∧ (s.valve c).wait = some w ∧ w.deferred = false ∧ s.mtc ≥ w.since + 200 * w.limit ∧
            w.policy = 0) ∧
    (∃ (s : State) (c : Fin 32) (w : VWait), s.units = true ∧ (s.valve c).wait = some w ∧ w.deferred = false ∧ s.mtc ≥ w.since + 200 * w.limit ∧
            w.policy = 1) ∧
    (∃ (s : State) (b : Fin 8) (rail : Nat), s.units = true ∧
        (let t := s.railSet b rail;
         (t.bank b).railFail = false ∧ (t.bank b).waitAt.any (fun w => decide (w + 4000000 ≤ t.mtc)) = true ∧ (t.bank b).order = [])) ∧
    (∃ (s : State) (b : Fin 8) (rail : Nat), s.units = true ∧
        (let t := s.railSet b rail;
         (t.bank b).railFail = true ∧ t.railReady b = true)) ∧
    (∃ (s : State) (c : Fin 32), s.units = true ∧ (s.valve c).prof.chopAt c s.mtc = true ∧ (s.valve c).phase = .peak) ∧
    (∃ (s : State) (c : Fin 32), s.units = true ∧ (s.valve c).prof.chopAt c s.mtc = false) ∧
    (∃ (s : State) (c : Fin 32), s.units = true ∧ (s.valve c).prof.chopAt c s.mtc = true ∧ (s.valve c).phase = .hold) :=
  ⟨⟨wr, by decide⟩,
   ⟨(wr.modValve 0 fun v => { v with phase := .boost }), 0, by decide⟩,
   ⟨(late (wr.modValve 0 fun v => { v with phase := .peak })), 0, by decide⟩,
   ⟨(late (wr.modValve 0 fun v => { v with phase := .boost })), 0, by decide⟩,
   ⟨(late (wr.modValve 0 fun v => { v with phase := .hold, prof := { v.prof with hT := 1 } })), 0, by decide⟩,
   ⟨(wr.modValve 0 fun v => { v with phase := .swoff }), 0, by decide⟩,
   ⟨(wr.modValve 0 fun v => { v with phase := .swoff, decay := 2 }), 0, by decide⟩,
   ⟨((((wr.modValve 0 fun v => { v with wait := some ⟨5, 0, 0, 0, false⟩ })).modBank 0 fun b => { b with order := [0] }).put VB_CFG.EN 1), 0, 255, 0,
          ⟨5, 0, 0, 0, false⟩, [], by decide⟩,
   ⟨(late (wr.modValve 0 fun v => { v with wait := some ⟨5, 0, 0, 0, false⟩ })), 0, ⟨5, 0, 0, 0, false⟩, by decide⟩,
   ⟨(late (wr.modValve 0 fun v => { v with wait := some ⟨5, 0, 1, 0, false⟩ })), 0, ⟨5, 0, 1, 0, false⟩, by decide⟩,
   ⟨(late (wr.modBank 0 fun b => { b with waitAt := some 0 })), 0, 0, by decide⟩,
   ⟨((wr.modBank 0 fun b => { b with railFail := true }).put VB_CFG.EN 1), 0, 255, by decide⟩,
   ⟨(wr.modValve 0 fun v => { v with phase := .peak }), 0, by decide⟩,
   ⟨{ wr with mtc := 1 }, 0, by decide⟩,
   ⟨(wr.modValve 0 fun v => { v with phase := .hold }), 0, by decide⟩⟩

theorem test_hypotheses_ValveProtections :
    (∃ (s : State) (curr : Nat), s.units = true ∧ 28000 < curr) ∧
    (∃ (s : State) (c : Fin 32) (curr : Nat), s.units = true ∧ ((s.valve c).phase = .peak ∨ (s.valve c).phase = .hold) ∧
            (Frac.int (20 * curr : Nat)).lt (s.valve c).aim = true) ∧
    (∃ (s : State), s.units = true) ∧
    (∃ (s : State) (c : Fin 32), s.units = true ∧ (s.valve c).phase = .hold ∧ (s.valve c).astray.any (fun t => decide (t + 4000000 ≤ s.mtc)) = true) ∧
    (∃ (s : State) (c : Fin 32), s.units = true ∧ (s.valve c).phase = .off ∧ s.othersOn c = true) ∧
    (∃ (s : State) (curr : Nat), s.units = true ∧ 45000 < curr) ∧
    (∃ (s : State) (temp : Nat), s.units = true ∧ 170 < temp) ∧
    (∃ (s : State) (low : Bool), s.units = true ∧ low = true) ∧
    (∃ (s : State) (b : Fin 8) (low : Bool), s.units = true ∧ low = false ∧ s.on SUP_STUD.REV (b.val / 2) = false) ∧
    (∃ (s : State) (rq : Req), s.units = true ∧ rq.sup = true) ∧
    (∃ (s : State) (c : Fin 32), s.units = true ∧ (s.valve c).energised = false ∧ s.on VD_STAT.DUTY_ACT c.val = false ∧ regRising s.regs) :=
  ⟨⟨wr, 28001, by decide⟩,
   ⟨(wr.modValve 0 fun v => { v with phase := .peak, aim := ⟨1, 1⟩ }), 0, 0, by exact ⟨by decide, .inl (by decide), by decide⟩⟩,
   ⟨wr, by decide⟩,
   ⟨(late (wr.modValve 0 fun v => { v with phase := .hold, astray := some 0 })), 0, by decide⟩,
   ⟨(wr.modValve 1 fun v => { v with phase := .hold }), 0, by decide⟩,
   ⟨wr, 45001, by decide⟩,
   ⟨wr, 171, by decide⟩,
   ⟨(wr.modValve 0 fun v => { v with phase := .hold }), true, by decide⟩,
   ⟨wr, 0, false, by decide⟩,
   ⟨(wr.modValve 0 fun v => { v with phase := .hold }), ⟨0, true⟩, by decide⟩,
   ⟨wr, 0, by exact ⟨by decide, by decide, by decide, by unfold regRising; decide⟩⟩⟩

theorem test_hypotheses_LoadCommands :
    (∃ (s : State), s.units = true) ∧
    (∃ (s : State) (n : Fin 48), s.units = true ∧ s.on LC_STAT.INRUSH n.val = true ∧ (s.load n).winAt + 200000 * s.inrushMs n ≤ s.mtc) ∧
    (∃ (s : State) (n : Fin 48), s.units = true ∧ (s.load n).isOn = true ∧
            (s.load n).limAt.any (fun t => decide (t + 200000 * s.limTms n ≤ s.mtc)) = true) ∧
    (∃ (s : State) (n : Fin 48) (hard : Bool) (curr : Nat), s.units = true ∧ (s.load n).isOn = true ∧ (hard = true → hardTrip n < curr) ∧
            (hard = false → 100 * s.limitInForce n ≤ curr)) ∧
    (∃ (s : State) (x : LoadAt), s.units = true ∧
        (let t := s.senses x.n x.m;
         (t.load x.n).isOn = true ∧ x.m.curr < t.openThreshold x.n)) ∧
    (∃ (s : State) (x : LoadAt), s.units = true ∧
        (let t := s.senses x.n x.m;
         (t.load x.n).isOn = false ∧ t.on LC_CFG.OFF_DIAG x.n.val = true ∧ 6 * x.m.feed < x.m.vout)) ∧
    (∃ (s : State) (n : Fin 48), s.units = true ∧ (s.load n).st = .off ∧ (s.load n).lockShort = false ∧ s.mtc < 10000) ∧
    (∃ (s : State) (g : Fin 12) (feed : Nat), s.units = true ∧ s.on SUP_STUD.REV (lgStudReset g.val) = false ∧
            (s.put LG_STAT.FEED_V (min feed 1023) g.val).uvOff g.val ≤ feed) ∧
    (∃ (s : State) (g : Fin 12), s.units = true ∧ (∀ n ∈ loadsOf g, (s.load n).isOn = false)) ∧
    (∃ (s : State) (n : Fin 48) (feed : Nat), s.units = true ∧ s.on SUP_STUD.REV (lgStudReset (n.val / 4)) = false ∧ (s.load n).st = .uvWait ∧
            (s.load n).locked = false ∧
        (let u := s.put LG_STAT.FEED_V (min feed 1023) (n.val / 4);
         (s.load n).offAt + 200000 * (u.uvDly (n.val / 4) + 2 * (n.val % 4)) ≤ s.mtc ∧ u.uvOff (n.val / 4) + u.uvHys (n.val / 4) ≤ feed)) ∧
    (∃ (s : State) (die : Int), s.units = true ∧ die < 170) ∧
    (∃ (s : State) (rq : Req), s.units = true ∧ rq.sup = true) ∧
    (∃ (s : State) (n : Fin 48) (d : Nat), s.units = true ∧ (s.load n).st = .pwm ∧ (s.load n).cmd = .pwm d ∧
            200000000 ≤ (s.mtc - (s.load n).perAt) * s.pwmHz n) ∧
    (∃ (s : State) (g : Fin 12) (feed : Nat), s.units = true ∧ s.on SUP_STUD.REV (lgStudReset g.val) = false ∧
        (let t := s.put LG_STAT.FEED_V (min feed 1023) g.val;
         let u := ((t.putB LG_STAT.UV_ACT true g.val).lgFlag g LG_FLAGS.UV).count LG_CNT.UV_EVENTS 1 g.val;
         let mask := (loadsOf g).foldl (fun m n => m + (if (u.load n).isOn then 2 ^ (n.val % 4) else 0)) 0;
         feed < t.uvOff g.val)) ∧
    (∃ (s : State) (die : Int), s.units = true ∧ 170 ≤ die) :=
  ⟨⟨wr, by decide⟩,
   ⟨(late (wr.put LC_STAT.INRUSH 1)), 0, by decide⟩,
   ⟨(late (wr.modLoad 0 fun v => { v with st := .on, limAt := some 0 })), 0, by decide⟩,
   ⟨(wr.modLoad 0 fun v => { v with st := .on }), 0, true, 90001, by decide⟩,
   ⟨(wr.modLoad 0 fun v => { v with st := .on }), ⟨0, 0, 0, 0⟩, by decide⟩,
   ⟨(wr.put LC_CFG.OFF_DIAG 1), ⟨0, 0, 1, 0⟩, by decide⟩,
   ⟨wr, 0, by decide⟩,
   ⟨wr, 0, 500, by decide⟩,
   ⟨wr, 0, by decide⟩,
   ⟨(late (wr.modLoad 0 fun v => { v with st := .uvWait })), 0, 500, by decide⟩,
   ⟨wr, 0, by decide⟩,
   ⟨wr, ⟨0, true⟩, by decide⟩,
   ⟨(late (wr.modLoad 0 fun v => { v with st := .pwm, cmd := .pwm 5 })), 0, 5, by decide⟩,
   ⟨wr, 0, 0, by decide⟩,
   ⟨wr, 170, by decide⟩⟩

theorem test_hypotheses_GnssChannels :
    (∃ (s : State) (n : Fin 96), s.units = true ∧ (s.gc[n.val]).due = none) ∧
    (∃ (s : State) (n : Fin 96) (d : GcDue), s.units = true ∧ (s.gc[n.val]).due = some d ∧
        (let t := ((((((s.modGc n fun g => { g with due := none }).put GC_CODE_PH.CHIP d.chip n.val).put GC_CODE_PH.FRAC d.frac n.val).putZ
            GC_CARR_CYC.W (asr d.carr 32) n.val).putZ GC_CARR_FR.W d.carr n.val).put64 GC_DUMP_MTC_LO.MTC d.mtc n.val);
         t.gcOwner n.val = 16)) ∧
    (∃ (s : State), s.units = true) ∧
    (∃ (s : State) (n : Fin 96), s.units = true ∧ (s.gc[n.val]).force.en = true ∧ (s.gcForce n.val).2 = false) ∧
    (∃ (s : State) (a : Fin 2), s.units = true ∧ s.bias a.val = true) ∧
    (∃ (s : State) (stream : Fin 4) (gain : AgcGain), s.units = true ∧ stream = 2 ∧
            gain.now + (s.put GF_AGC.S2 gain.now).get GF_CFG.JAM_THR < gain.clear) ∧
    (∃ (s : State), s.units = true ∧ s.pos.drFrom.any (fun t => decide (t + 200000000 * s.pos.drMax ≤ s.mtc)) = true) ∧
    (∃ (s : State), s.units = true ∧ s.pos.sol = none) ∧
    (∃ (s : State) (mtc : Nat) (v : Solution) (cfg : SolCfg), s.units = true ∧ s.pos.sol = some cfg ∧ mtc % solPeriod cfg.rate = 0 ∧ mtc ≤ s.mtc ∧
            v.fix = 0 ∧ (s.get GF_SOL.SEQ + 1) % 2 ^ cfg.log2n = s.get GF_SOL_RD.IDX % 2 ^ cfg.log2n) ∧
    (∃ (s : State) (n : Fin 96) (sums : List Int) (d : GcDue), s.units = true ∧ (s.gc[n.val]).due = some d ∧
        (let t := ((((((s.modGc n fun g => { g with due := none }).put GC_CODE_PH.CHIP d.chip n.val).put GC_CODE_PH.FRAC d.frac n.val).putZ
            GC_CARR_CYC.W (asr d.carr 32) n.val).putZ GC_CARR_FR.W d.carr n.val).put64 GC_DUMP_MTC_LO.MTC d.mtc n.val);
         let size := 2 ^ clampN 6 14 (t.get GF_DUMP_CFG.LOG2N);
         let wr := t.get GF_DUMP_WR.IDX;
         let a := t.addr40 GF_DUMP_BASE_LO.ADDR GF_DUMP_BASE_HI.ADDR + 128 * wr;
         let w := dumpWords t.pos.dumpSeq n.val d sums;
         let u := (((((t.fabWrite (a + 4) (w.drop 1)).fabWrite a (w.take 1)).put GF_DUMP_WR.IDX ((wr + 1) % size)).modPos fun p =>
            { p with dumpSeq := p.dumpSeq + 1 }).count GC_CNT.DUMPS 1 n.val);
         t.gcOwner n.val ≠ 16 ∧ (wr + 1) % size ≠ t.get GF_DUMP_RD.IDX % size)) ∧
    (∃ (s : State) (mtc : Nat) (v : Solution) (cfg : SolCfg), s.units = true ∧ s.pos.sol = some cfg ∧ mtc % solPeriod cfg.rate = 0 ∧ mtc ≤ s.mtc ∧
            s.mtc ≤ mtc + solLimit cfg.rate ∧ v.fix = 1 ∧
        (let t := (s.modPos fun p => { p with drOver := false, drFrom := none }).fresh;
         let seq := s.get GF_SOL.SEQ + 1;
         let a := cfg.ring + 64 * (seq % 2 ^ cfg.log2n);
         let w3 := 1 + 2 ^ 4 * t.codeAt mtc + 2 ^ 8 * s.headingSource v + 2 ^ 10 * min v.nsat 63 + 2 ^ 16 * min v.corrAge 65535;
         seq % 2 ^ cfg.log2n ≠ s.get GF_SOL_RD.IDX % 2 ^ cfg.log2n)) :=
  ⟨⟨wr, 0, by decide⟩,
   ⟨(wr.modGc 0 fun g => { g with due := some ⟨0, 1, 2, 3, 4, 5⟩ }), 0, ⟨0, 1, 2, 3, 4, 5⟩, by decide⟩,
   ⟨wr, by decide⟩,
   ⟨((wr.put GC_CFG.EN 0).modGc 0 fun g => { g with force := { g.force with en := true } }), 0, by decide⟩,
   ⟨wr, 0, by decide⟩,
   ⟨wr, 2, ⟨0, 11⟩, by decide⟩,
   ⟨(late (wr.modPos fun p => { p with drFrom := some 0 })), by decide⟩,
   ⟨wr, by decide⟩,
   ⟨((wr.modPos fun p => { p with sol := some ⟨1, 4, 0x10000000, 0, 0, 0⟩ }).put GF_SOL_RD.IDX 1), 0, ⟨0, 0, 0, 0, 0, 0, 0, 0, 0, 0, 0, 0, 0, 0, 0⟩,
          ⟨1, 4, 0x10000000, 0, 0, 0⟩, by decide⟩,
   ⟨((wr.modGc 0 fun g => { g with due := some ⟨0, 1, 2, 3, 4, 5⟩ }).put GC_CFG.OWNER 0), 0, [], ⟨0, 1, 2, 3, 4, 5⟩, by decide⟩,
   ⟨(wr.modPos fun p => { p with sol := some ⟨1, 4, 0x10000000, 0, 0, 0⟩ }), 0, ⟨1, 0, 0, 0, 0, 0, 0, 0, 0, 0, 0, 0, 0, 0, 0⟩,
          ⟨1, 4, 0x10000000, 0, 0, 0⟩, by decide⟩⟩

theorem test_hypotheses_PositioningService :
    (∃ (s : State) (first : Nat) (count : Nat) (owner : Nat), s.units = true ∧ s.plat.serviceUp = true ∧
            (count = 0 ∨ 48 < count ∨ 96 < first + count ∨ 16 ≤ owner)) ∧
    (∃ (s : State) (q : SvcReq) (first : Nat) (count : Nat) (owner : Nat), s.units = true ∧ s.plat.serviceUp = true ∧ 0 < count ∧ count ≤ 48 ∧
            first + count ≤ 96 ∧ owner < 16 ∧
        (let t := s.request 56 0x0001 q [first, count, owner];
         ((List.range 96).filter t.claimed).length + count ≤ 48 ∧ (∀ k < count, t.claimed (first + k) = false) ∧
            (∀ k : Fin 96, (t.gc[k.val]).force.en = false))) ∧
    (∃ (s : State), s.units = true ∧ s.plat.serviceUp = true) ∧
    (∃ (s : State) (hdgEn : Bool), s.units = true ∧ s.plat.serviceUp = true ∧ hdgEn = false) ∧
    (∃ (s : State) (a : Xyz) (b : Xyz) (hdgEn : Bool), s.units = true ∧ s.plat.serviceUp = true ∧ hdgEn = true ∧
            (a.x - b.x) * (a.x - b.x) + (a.y - b.y) * (a.y - b.y) + (a.z - b.z) * (a.z - b.z) < 250000) ∧
    (∃ (s : State) (src : Nat) (len : Nat), s.units = true ∧ s.plat.serviceUp = true ∧ rtcmInOk src len = false) ∧
    (∃ (s : State) (q : SvcReq) (len : Nat) (dest : Nat) (addr : Nat), s.units = true ∧ s.plat.serviceUp = true ∧
        (let t := s.request 56 0x0030 q ([len, dest] ++ two addr);
         t.pos.snap.isSome = true)) ∧
    (∃ (s : State) (q : SvcReq) (len : Nat) (dest : Nat) (addr : Nat), s.units = true ∧ s.plat.serviceUp = true ∧ 2 ≤ len ∧ len ≤ 32 ∧ dest ≤ 1 ∧
        (let t := s.request 56 0x0030 q ([len, dest] ++ two addr);
         t.pos.snap = none)) ∧
    (∃ (s : State) (src : Nat) (len : Nat), s.units = true ∧ s.plat.serviceUp = true ∧ rtcmInOk src len = true) :=
  ⟨⟨wr, 0, 0, 0, by decide⟩,
   ⟨wr, ⟨3, 5, 1, false⟩, 0, 1, 15, by decide⟩,
   ⟨wr, by decide⟩,
   ⟨wr, false, by decide⟩,
   ⟨wr, ⟨0, 0, 0⟩, ⟨499, 0, 0⟩, true, by decide⟩,
   ⟨wr, 0, 0, by decide⟩,
   ⟨(wr.modPos fun p => { p with snap := some ⟨⟨3, 5, 1, false⟩, 2, 0, 0, 0⟩ }), ⟨3, 5, 1, false⟩, 0, 0, 0, by decide⟩,
   ⟨wr, ⟨3, 5, 1, false⟩, 32, 1, 0, by decide⟩,
   ⟨wr, 2, 1, by decide⟩⟩

theorem test_hypotheses_TimeUnitCommands :
    (∃ (s : State), s.units = true) ∧
    (∃ (s : State), s.units = true ∧ s.time.st = .locked ∧ s.time.last + 200000000 * s.lossT ≤ s.mtc) ∧
    (∃ (s : State), s.units = true ∧ s.time.st ≠ .locked) ∧
    (∃ (s : State), s.units = true ∧ s.time.st = .holdover ∧ s.time.step = none ∧ s.time.last + 200000000 * s.holdoverLimit ≤ s.mtc) ∧
    (∃ (s : State) (phi : Int), s.units = true ∧ s.time.step = some phi ∧ s.tnow.stepDue phi s.mtc = true) ∧
    (∃ (s : State), s.units = true ∧ s.time.step = none) ∧
    (∃ (s : State), s.units = true ∧ s.time.slew ≠ 0) ∧
    (∃ (s : State) (p : Fin 2), s.units = true ∧ s.tpActive p.val = false) ∧
    (∃ (s : State) (p : Fin 2) (frac : Fin 50) (e : Int × Int), s.units = true ∧ s.tpActive p.val = true ∧
            s.tpEdgeIn p (s.tpForce p s.mtc).1 (s.tpForce p s.mtc).2.1 s.mtc (s.mtc + 1) = some e ∧ e.2 = 50 * s.mtc + frac.val) ∧
    (∃ (s : State) (p : Fin 2), s.units = true ∧ (s.time.out[p.val]).fall ≤ s.mtc) ∧
    (∃ (s : State) (dly : Bool) (sup : Bool), s.units = true ∧ sup = true ∧ dly = true) :=
  ⟨⟨wr, by decide⟩,
   ⟨(late (wr.modTime fun t => { t with st := .locked })), by decide⟩,
   ⟨wr, by decide⟩,
   ⟨(late (wr.modTime fun t => { t with st := .holdover })), by decide⟩,
   ⟨(late (wr.modTime fun t => { t with step := some 0 })), 0, by decide⟩,
   ⟨wr, by decide⟩,
   ⟨(wr.modTime fun t => { t with slew := 5 }), by decide⟩,
   ⟨wr, 0, by decide⟩,
   ⟨((wr.modTime fun t => { t with st := .locked }).put TP_CFG.EN 1), 0, 0, (0, 0), by decide⟩,
   ⟨wr, 0, by decide⟩,
   ⟨wr, true, true, by decide⟩⟩

theorem test_hypotheses_TrellisCommands :
    (∃ (s : State), s.units = true ∧ s.on TL_CTL.EN = false) ∧
    (∃ (s : State), s.units = true ∧ s.on TL_CTL.EN = true ∧ s.plat.serviceUp = true ∧ (s.readStrips 32768).trellis.strips = []) ∧
    (∃ (s : State), s.units = true ∧ s.on TL_CTL.EN = true ∧ s.plat.serviceUp = true ∧ s.racking.written + runTicks ≤ s.mtc) ∧
    (∃ (s : State), s.units = true ∧ s.cuvee.pub = none) ∧
    (∃ (s : State) (p : CvPub), s.units = true ∧ s.cuvee.pub = some p ∧ s.on TL_CTL.EN = true ∧ s.get TL_FIELD.STATE = 1 ∧ s.plat.serviceUp = true ∧
            s.cuvee.grid = []) ∧
    (∃ (s : State), s.units = true ∧ s.cuvee.revs = []) ∧
    (∃ (s : State) (o : CvObj) (rest : List CvObj), s.units = true ∧ s.cuvee.revs = o :: rest ∧ s.on TL_CTL.EN = false) ∧
    (∃ (s : State), s.units = true) ∧
    (∃ (s : State), s.units = true ∧ s.trellis.flush = none ∧ s.get TL_FIELD.STATE ≠ 0) ∧
    (∃ (s : State) (x : TlFlush), s.units = true ∧ s.trellis.flush = some x ∧ s.flushTicks < s.mtc - x.start) ∧
    (∃ (s : State) (c : Nat), s.units = true ∧ s.trellis.closed = some c ∧ s.get TL_FIELD.STATE = 2 ∧ c + drainTicks ≤ s.mtc) ∧
    (∃ (s : State) (t : PeerTile) (rest : List PeerTile), s.units = true ∧ s.trellis.peer = t :: rest ∧ s.on TL_CTL.FLEET_EN = false) ∧
    (∃ (s : State), s.units = true ∧ s.trellis.cover = []) ∧
    (∃ (s : State), s.units = true ∧ s.on TL_CTL.FLEET_EN = true ∧ s.fleet.on = true ∧ s.trellis.cover ≠ [] ∧ s.get TL_FIELD.STATE ≠ 0 ∧
            s.trellis.offered = none) ∧
    (∃ (s : State) (r : TlStrip) (last : TlStrip), s.units = true ∧ s.on TL_CTL.EN = true ∧ s.plat.serviceUp = true ∧
        (let t := s.readStrips 32768;
         (t.trellis.strips.filter fun r => !r.placed).getLast? = some r ∧ t.trellis.strips.head? = some last ∧ r.no + 8 ≤ last.no)) ∧
    (∃ (s : State) (p : CvPub) (sol : SolRec), s.units = true ∧ s.cuvee.pub = some p ∧
            (s.solRecs.find? fun r => r.mtc == p.tref && r.placed) = some sol ∧ s.on TL_CTL.EN = true ∧ s.get TL_FIELD.STATE = 1 ∧
            s.plat.serviceUp = true) ∧
    (∃ (s : State) (o : CvObj) (rest : List CvObj) (sol : SolRec), s.units = true ∧ s.cuvee.revs = o :: rest ∧ s.on TL_CTL.EN = true ∧
            s.on TL_CTL.REV_EN = true ∧ s.get TL_FIELD.STATE = 1 ∧ s.plat.serviceUp = true ∧
        (let u := s.modCv fun c => { c with revs := rest };
         let tref := epochStart (o.epoch + 1);
         let hg := ((tableAt u.cuvee.hg o.epoch).map CvTable.words).getD [];
         let placed := (sensorCells (u.get SENS_STAT.HEALTH o.sensor) [o]).map fun p => (u.gridCellAt sol hg p.cell, p);
         let cells := (placed.map Prod.fst).eraseDups;
         let t := cells.foldl (fun (t : State) (c : Int × Int) => t.reviseCell c ((placed.filter fun e => e.1 == c).map Prod.snd)
            (Config.quot 25 (o.arrival - tref) msTicks)) u;
         (u.solRecs.find? fun r => r.mtc == tref && r.placed) = some sol)) ∧
    (∃ (s : State) (p : PeerTile) (rest : List PeerTile) (f : TlField), s.units = true ∧ s.trellis.peer = p :: rest ∧ s.on TL_CTL.FLEET_EN = true ∧
            (s.trellis.fields.find? fun f => f.id == p.field && f.lat == p.lat && f.lon == p.lon && f.edge == p.edge) = some f ∧
            bit f.layers lyCover = true ∧ s.get TL_FIELD.STATE ≠ 0 ∧ f.id = s.get TL_FIELD_ID.ID ∧ s.trellis.tiles.contains p.tile = true) :=
  ⟨⟨(wr.put TL_FIELD.STATE 2), by decide⟩,
   ⟨(wr.put TL_CTL.EN 1), by decide⟩,
   ⟨(late (wr.put TL_CTL.EN 1)), by decide⟩,
   ⟨wr, by decide⟩,
   ⟨(((wr.put TL_CTL.EN 1).put TL_FIELD.STATE 1).modCv fun c => { c with pub := some ⟨0, 0, 0, 0, []⟩ }), ⟨0, 0, 0, 0, []⟩, by decide⟩,
   ⟨wr, by decide⟩,
   ⟨(wr.modCv fun c => { c with revs := [wob] }), wob, [], by decide⟩,
   ⟨wr, by decide⟩,
   ⟨(wr.put TL_FIELD.STATE 1), by decide⟩,
   ⟨({ wr.modTl fun l => { l with flush := some ⟨1, 0, [], []⟩ } with mtc := 10 ^ 10 + 1 }), ⟨1, 0, [], []⟩, by decide⟩,
   ⟨(late ((wr.put TL_FIELD.STATE 2).modTl fun l => { l with closed := some 0 })), 0, by decide⟩,
   ⟨((wr.put TL_CTL.FLEET_EN 0).modTl fun l => { l with peer := [⟨1, 0, 0, 0, 0, 0, []⟩] }), ⟨1, 0, 0, 0, 0, 0, []⟩, [], by decide⟩,
   ⟨wr, by decide⟩,
   ⟨((((wr.put TL_FIELD.STATE 1).put TL_CTL.FLEET_EN 1).modFleet fun f => { f with on := true }).modTl fun l => { l with cover := [5] }), by decide⟩,
   ⟨((wr.put TL_CTL.EN 1).modTl fun l => { l with strips := [⟨9, 0, [], false⟩, ⟨1, 0, [], false⟩] }), ⟨1, 0, [], false⟩, ⟨9, 0, [], false⟩,
          by decide⟩,
   ⟨((wtl 0).modCv fun c => { c with pub := some ⟨0, 0, 0, 0, []⟩ }), ⟨0, 0, 0, 0, []⟩, ⟨0, 1, 0, 0, 0, 0, 0, 0⟩,
          by refine ⟨?_, ?_, ?_, ?_, ?_, ?_⟩ <;> first | decide | rfl⟩,
   ⟨((wtl (epochStart 2)).modCv fun c => { c with revs := [wob] }), wob, [], ⟨epochStart 2, 1, 0, 0, 0, 0, 0, 0⟩,
          by refine ⟨?_, ?_, ?_, ?_, ?_, ?_, ?_⟩ <;> first | decide | rfl⟩,
   ⟨wpt, ⟨1, 0, 0, 0, 0, 0, []⟩, [], ⟨1, 0, 65535, 0, 0, 0, [], [], []⟩, by decide⟩⟩

theorem test_hypotheses_TrellisService :
    (∃ (s : State) (q : SvcReq) (id : Nat) (create : Bool) (edge : Nat) (layers : Nat) (lat : Int) (lon : Int) (height : Int), s.units = true ∧
            s.plat.serviceUp = true ∧
        (let t := s.request tlBox 0x0001 q ([id, b2n create + 16 * (edge % 16) + 65536 * (layers % 65536)] ++ two (low 64 lat) ++ two (low 64 lon) ++
            [low 32 height]);
         t.get TL_FIELD.STATE = 1 ∧ t.get TL_FIELD_ID.ID ≠ id)) ∧
    (∃ (s : State) (q : SvcReq) (id : Nat) (create : Bool) (edge : Nat) (layers : Nat) (lat : Int) (lon : Int) (height : Int), s.units = true ∧
            s.plat.serviceUp = true ∧ create = true ∧
        (let t := s.request tlBox 0x0001 q ([id, b2n create + 16 * (edge % 16) + 65536 * (layers % 65536)] ++ two (low 64 lat) ++ two (low 64 lon) ++
            [low 32 height]);
         t.get TL_FIELD.STATE = 0 ∧ (t.trellis.fields.find? fun f => f.id == id) = none ∧
            (t.tlEndDrain.tlFlushNow.trellis.fields.find? fun f => f.id == id) = none)) ∧
    (∃ (s : State) (q : SvcReq), s.units = true ∧ s.plat.serviceUp = true ∧
        (let t := s.request tlBox 0x0002 q;
         t.get TL_FIELD.STATE = 0)) ∧
    (∃ (s : State) (q : SvcReq), s.units = true ∧ s.plat.serviceUp = true ∧
        (let t := s.request tlBox 0x0002 q;
         t.get TL_FIELD.STATE = 1)) ∧
    (∃ (s : State), s.units = true ∧ s.plat.serviceUp = true) ∧
    (∃ (s : State) (q : SvcReq) (id : Nat), s.units = true ∧ s.plat.serviceUp = true ∧
        (let t := s.request tlBox 0x0004 q [id];
         t.get TL_FIELD.STATE = 0 ∧ (t.trellis.fields.any fun f => f.id == id) = true)) ∧
    (∃ (s : State) (q : SvcReq) (id : Nat), s.units = true ∧ s.plat.serviceUp = true ∧
        (let t := s.request tlBox 0x0004 q [id];
         (t.trellis.fields.any fun f => f.id == id) = false)) ∧
    (∃ (s : State) (q : SvcReq) (layer : Nat) (i0 : Int) (j0 : Int) (i1 : Int) (j1 : Int) (addr : Nat), s.units = true ∧ s.plat.serviceUp = true ∧
            layer < 16 ∧ cellIn i0 j0 = true ∧ cellIn i1 j1 = true ∧
        (let t := s.request tlBox 0x0020 q ([layer] ++ [i0, j0, i1, j1].map (low 32) ++ two addr);
         t.get TL_FIELD.STATE ≠ 0)) ∧
    (∃ (s : State) (layer : Nat), s.units = true ∧ s.plat.serviceUp = true ∧ (layer < 12 ∨ 16 ≤ layer)) ∧
    (∃ (s : State) (q : SvcReq) (layer : Nat) (i0 : Int) (j0 : Int) (i1 : Int) (j1 : Int) (addr : Nat), s.units = true ∧ s.plat.serviceUp = true ∧
            12 ≤ layer ∧ layer < 16 ∧ cellIn i0 j0 = true ∧ cellIn i1 j1 = true ∧
        (let t := s.request tlBox 0x0021 q ([layer] ++ [i0, j0, i1, j1].map (low 32) ++ two addr);
         t.get TL_FIELD.STATE ≠ 0)) ∧
    (∃ (s : State) (q : SvcReq) (id : Nat) (dry : Nat) (addr : Nat) (limit : Nat), s.units = true ∧ s.plat.serviceUp = true ∧
        (let t := s.request tlBox 0x0030 q ([id, dry] ++ two addr ++ [limit]);
         (t.trellis.fields.find? fun f => f.id == id) = none)) ∧
    (∃ (s : State) (q : SvcReq) (id : Nat) (dry : Nat) (addr : Nat) (limit : Nat) (f : TlField), s.units = true ∧ s.plat.serviceUp = true ∧
        (let t := s.request tlBox 0x0030 q ([id, dry] ++ two addr ++ [limit]);
         let x := t.tlExport f (if t.get TL_FIELD.STATE != 0 && f.id == t.get TL_FIELD_ID.ID then t.trellis.cells else f.cells) dry;
         (t.trellis.fields.find? fun f => f.id == id) = some f ∧ x.1.length ≤ limit)) :=
  ⟨⟨((wr.put TL_FIELD.STATE 1).put TL_FIELD_ID.ID 5), ⟨3, 5, 1, false⟩, 6, true, 0, 0, 0, 0, 0, by decide⟩,
   ⟨wr, ⟨3, 5, 1, false⟩, 0, true, 0, 0, 0, 0, 0, by decide⟩,
   ⟨wr, ⟨3, 5, 1, false⟩, by decide⟩,
   ⟨(wr.put TL_FIELD.STATE 1), ⟨3, 5, 1, false⟩, by decide⟩,
   ⟨wr, by decide⟩,
   ⟨(wr.modTl fun l => { l with fields := [⟨7, 0, 0, 0, 0, 0, [], [], []⟩] }), ⟨3, 5, 1, false⟩, 7, by decide⟩,
   ⟨wr, ⟨3, 5, 1, false⟩, 0, by decide⟩,
   ⟨(wr.put TL_FIELD.STATE 1), ⟨3, 5, 1, false⟩, 15, 0, 0, 0, 0, 0, by decide⟩,
   ⟨wr, 0, by decide⟩,
   ⟨(wr.put TL_FIELD.STATE 1), ⟨3, 5, 1, false⟩, 15, 0, 0, 0, 0, 0, by decide⟩,
   ⟨wr, ⟨3, 5, 1, false⟩, 0, 0, 0, 0, by decide⟩,
   ⟨wfd, ⟨3, 5, 1, false⟩, 7, 0, 0, (wfd.tlExport ⟨7, 0, 0, 0, 0, 0, [], [], []⟩ [] 0).1.length, ⟨7, 0, 0, 0, 0, 0, [], [], []⟩,
          by exact ⟨by decide, by decide, rfl, Nat.le_refl _⟩⟩⟩

theorem test_hypotheses_CanControllers :
    (∃ (s : State) (n : Fin 8) (f : CanFrame), s.units = true ∧ (s.canFrame n f).netOn n = none) ∧
    (∃ (s : State) (n : Fin 8), s.units = true ∧ 2 ≤ s.get CAN_STAT.STATE n.val) ∧
    (∃ (s : State), s.units = true) ∧
    (∃ (s : State) (n : Fin 8) (k : Fin 32), s.units = true ∧ s.canSends n.val = true ∧ (s.can[n.val]).attempt = none ∧ s.txChoose n = some k ∧
            s.on CAN_TDC.TDC_EN n.val = false) ∧
    (∃ (s : State) (n : Fin 8), s.units = true ∧ s.get CAN_STAT.STATE n.val = canBusOff ∧
            (s.on CAN_CTL.BO_AUTO n.val = true ∨ (s.can[n.val]).recover = true)) ∧
    (∃ (s : State) (rq : Req), s.units = true ∧ rq.sup = true) ∧
    (∃ (s : State) (n : Fin 8), s.units = true ∧ s.get CAN_STAT.ACT n.val = 3) :=
  ⟨⟨wr, 0, ⟨0x100, false, false, 0, false, false, false, [], 0⟩, by decide⟩,
   ⟨(wr.put CAN_STAT.STATE 3), 0, by decide⟩,
   ⟨wr, by decide⟩,
   ⟨((((wr.modCan 0 fun c => { c with tx := c.tx.set 5 ⟨[0x100, 0, 0, 0], 1, false, false⟩ }).put CAN_TX_REQ.W 0x20).put CAN_STAT.STATE 0).put
          CAN_TDC.TDC_EN 0), 0, 5, by decide⟩,
   ⟨((wr.put CAN_STAT.STATE 2).modCan 0 fun c => { c with recover := true }), 0, by decide⟩,
   ⟨wr, ⟨0, true⟩, by decide⟩,
   ⟨(wr.put CAN_STAT.ACT 3), 0, by decide⟩⟩

theorem test_hypotheses_IsobusService :
    (∃ (s : State) (q : SvcReq) (can : Nat) (kind : Nat) (rate : Nat) (notify : Nat) (leave : Nat), s.units = true ∧ s.plat.serviceUp = true ∧
        (let t := s.request netBox 0x0001 q [can, kind + 2 ^ 8 * rate, notify, leave];
         ((List.finRange 4).find? fun k => (t.nets[k.val]).isNone) = none)) ∧
    (∃ (s : State) (can : Nat), s.units = true ∧ s.plat.serviceUp = true ∧ 8 ≤ can) ∧
    (∃ (s : State) (net : Nat), s.units = true ∧ s.plat.serviceUp = true ∧ 4 ≤ net) ∧
    (∃ (s : State) (k : Fin 4) (cf : Fin 4), s.units = true ∧ ((s.nets[k.val]).bind fun x => x.cfs[cf.val]?) = none) ∧
    (∃ (s : State) (k : Fin 4) (cf : Fin 4) (c : IntCf) (w : SvcWait), s.units = true ∧ ((s.nets[k.val]).bind fun x => x.cfs[cf.val]?) = some c ∧
            c.held = false ∧ c.claimed + claimTicks ≤ s.mtc ∧ c.req = some w) ∧
    (∃ (s : State) (q : SvcReq) (net : Fin 4) (pgn : Nat) (source : Nat) (addr : Nat) (size : Nat), s.units = true ∧ s.plat.serviceUp = true ∧
        (let t := s.request netBox 0x0020 q ([net.val, pgn, source] ++ two addr ++ [size]);
         (t.nets[net.val]).isSome = true)) ∧
    (∃ (s : State) (q : SvcReq) (k : Fin 4) (name : Nat) (pairs : List (Nat × Nat)) (x : Net), s.units = true ∧ s.plat.serviceUp = true ∧
        (let t := s.request netBox 0x0040 q (k.val :: two name);
         t.nets[k.val] = some x ∧ x.maps = [] ∧ pairs.length ≤ 8 ∧ (pairs.any fun p => decide (64 ≤ p.2)) = false)) ∧
    (∃ (s : State) (k : Fin 4) (name : Nat), s.units = true ∧ s.cfSilent k name = true) ∧
    (∃ (s : State), s.units = true ∧ s.plat.serviceUp = true) ∧
    (∃ (s : State) (q : SvcReq) (n : Fin 8) (kind : Nat) (rate : Nat) (notify : Nat) (leave : Nat) (k : Fin 4), s.units = true ∧
            s.plat.serviceUp = true ∧
        (let t := s.request netBox 0x0001 q [n.val, kind + 2 ^ 8 * rate, notify, leave];
         ((List.finRange 4).find? fun k => (t.nets[k.val]).isNone) = some k ∧ kind ≤ 1 ∧ rate ≤ 1 ∧ 0 < leave ∧ leave ≤ 30 ∧
            t.on CAN_CTL.INIT n.val = true)) ∧
    (∃ (s : State) (q : SvcReq) (k : Fin 4), s.units = true ∧ s.plat.serviceUp = true ∧
        (let t := s.request netBox 0x0002 q [k.val];
         (t.nets[k.val]).isSome = true)) ∧
    (∃ (s : State) (q : SvcReq) (k : Fin 4) (record : Nat) (addr : Nat) (x : Net) (r : Tag), s.units = true ∧ s.plat.serviceUp = true ∧
        (let t := s.request netBox 0x0010 q [k.val, record, addr];
         let name := leNat ((r.value.drop 4).take 8);
         t.nets[k.val] = some x ∧ (t.tags.recs.find? fun t => t.type == 0x0010 && t.index == record) = some r ∧ x.cfs.length < 4)) ∧
    (∃ (s : State) (q : SvcReq) (k : Fin 4) (cf : Fin 4) (out : PgnOut) (c : IntCf), s.units = true ∧ s.plat.serviceUp = true ∧
        (let t := s.request netBox 0x0021 q ([k.val, cf.val, out.pgn, out.dest, out.prio, out.len] ++ two out.addr);
         let d := t.fabBytes out.addr out.len;
         let u := t.reply q netCore 0x0021 stAccepted false [];
         ((t.nets[k.val]).bind fun x => x.cfs[cf.val]?) = some c ∧ c.held = true)) ∧
    (∃ (s : State) (q : SvcReq) (k : Fin 4) (cf : Fin 4) (addr : Nat) (len : Nat) (v : Nat) (label : List Nat) (x : Net) (c : IntCf),
            s.units = true ∧ s.plat.serviceUp = true ∧
        (let t := s.request netBox 0x0030 q ([k.val, cf.val] ++ two addr ++ [len, dataWord label 0, dataWord label 1]);
         t.nets[k.val] = some x ∧ x.cfs[cf.val]? = some c ∧ x.vtAddr = some v ∧ x.vt = none)) ∧
    (∃ (s : State) (q : SvcReq) (k : Fin 4) (addr : Nat) (x : Net), s.units = true ∧ s.plat.serviceUp = true ∧
        (let t := s.request netBox 0x0050 q (k.val :: two addr);
         let pad := fun (l : List Nat) => (l ++ List.replicate 8 0).take 8;
         t.nets[k.val] = some x)) :=
  ⟨⟨{ wr with nets := Vector.replicate 4 (some ⟨0, true, false, 5, 2, [], [], 0, [], [], [], [], [], none, []⟩) }, ⟨3, 5, 1, false⟩, 0, 0, 0, 0, 0,
          by decide⟩,
   ⟨wr, 8, by decide⟩,
   ⟨wr, 4, by decide⟩,
   ⟨wr, 0, 0, by decide⟩,
   ⟨(late { wr with nets := #v[some ⟨0, true, false, 5, 2, [⟨1, 2, 0x80, false, 0, some ⟨3, 5, 1, false⟩⟩], [], 0, [], [], [], [], [], none, []⟩,
          none, none, none] }), 0, 0, ⟨1, 2, 0x80, false, 0, some ⟨3, 5, 1, false⟩⟩, ⟨3, 5, 1, false⟩, by decide⟩,
   ⟨{ wr with nets := #v[some ⟨0, true, false, 5, 2, [], [], 0, [], [], [], [], [], none, []⟩, none, none, none] }, ⟨3, 5, 1, false⟩, 0, 0, 0, 0, 0,
          by decide⟩,
   ⟨{ wr with nets := #v[some ⟨0, true, false, 5, 2, [], [], 0, [], [], [], [], [], none, []⟩, none, none, none] }, ⟨3, 5, 1, false⟩, 0, 0,
          [(1, 63)], ⟨0, true, false, 5, 2, [], [], 0, [], [], [], [], [], none, []⟩, by decide⟩,
   ⟨(late { wr with nets := #v[some ⟨0, true, false, 5, 2, [], [⟨7, 0x80, true, 0, false, false⟩], 0, [], [], [], [], [], none, []⟩, none, none,
          none] }), 0, 7, by decide⟩,
   ⟨wr, by decide⟩,
   ⟨(wr.put CAN_CTL.INIT 1), ⟨3, 5, 1, false⟩, 0, 0, 0, 0, 1, 0, by decide⟩,
   ⟨{ wr with nets := #v[some ⟨0, true, false, 5, 2, [], [], 0, [], [], [], [], [], none, []⟩, none, none, none] }, ⟨3, 5, 1, false⟩, 0, by decide⟩,
   ⟨{ { wr with nets := #v[some ⟨0, true, false, 5, 2, [], [], 0, [], [], [], [], [], none, []⟩, none, none, none] } with tags :=
          ⟨[⟨0x10, 1, []⟩], 0, false, []⟩ }, ⟨3, 5, 1, false⟩, 0, 1, 0, ⟨0, true, false, 5, 2, [], [], 0, [], [], [], [], [], none, []⟩,
          ⟨0x10, 1, []⟩, by decide⟩,
   ⟨{ wr with nets := #v[some ⟨0, true, false, 5, 2, [⟨1, 2, 0x80, true, 0, none⟩], [], 0, [], [], [], [], [], none, []⟩, none, none, none] },
          ⟨3, 5, 1, false⟩, 0, 0, ⟨0, 0, 0, 0, 0⟩, ⟨1, 2, 0x80, true, 0, none⟩, by decide⟩,
   ⟨{ wr with nets := #v[some ⟨0, true, false, 5, 2, [⟨1, 2, 0x80, false, 0, some ⟨3, 5, 1, false⟩⟩], [⟨29 * 2 ^ 40, 0x26, true, 0, false, false⟩],
          0, [], [], [], [], [], none, []⟩, none, none, none] }, ⟨3, 5, 1, false⟩, 0, 0, 0, 0, 0x26, [],
          ⟨0, true, false, 5, 2, [⟨1, 2, 0x80, false, 0, some ⟨3, 5, 1, false⟩⟩], [⟨29 * 2 ^ 40, 0x26, true, 0, false, false⟩], 0, [], [], [], [],
          [], none, []⟩, ⟨1, 2, 0x80, false, 0, some ⟨3, 5, 1, false⟩⟩, by decide⟩,
   ⟨{ wr with nets := #v[some ⟨0, true, false, 5, 2, [], [], 0, [], [], [], [], [], none, []⟩, none, none, none] }, ⟨3, 5, 1, false⟩, 0, 0,
          ⟨0, true, false, 5, 2, [], [], 0, [], [], [], [], [], none, []⟩, by decide⟩⟩

theorem test_hypotheses_EthernetCommands :
    (∃ (s : State) (p : Fin 10) (fcsBad : Bool) (stamp : Nat), s.units = true ∧ fcsBad = true ∧ bit (s.ethCfgAt p.val stamp) 0 = true) ∧
    (∃ (s : State) (p : Fin 10) (d : List Nat) (fcsBad : Bool) (stamp : Nat), s.units = true ∧ s.ethTakes p.val (s.ethCfgAt p.val stamp) = true ∧
            fcsBad = false ∧ 1518 < d.length) ∧
    (∃ (s : State) (p : Fin 10) (d : List Nat) (fcsBad : Bool) (stamp : Nat), s.units = true ∧ s.ethTakes p.val (s.ethCfgAt p.val stamp) = true ∧
            fcsBad = false ∧ d.length ≤ 1518 ∧ ethPtp d = false) ∧
    (∃ (s : State) (p : Fin 10) (d : List Nat) (fcsBad : Bool) (stamp : Nat), s.units = true ∧ s.ethTakes p.val (s.ethCfgAt p.val stamp) = true ∧
            fcsBad = false ∧ d.length ≤ 1518 ∧ ethPtp d = true) ∧
    (∃ (s : State), s.units = true) ∧
    (∃ (s : State) (p : Fin 10), s.units = true ∧ s.on ETH_CFG.EN p.val = true) ∧
    (∃ (s : State), s.units = true ∧ s.syncDue = true ∧ clockClass s.time.st = none) ∧
    (∃ (s : State) (p : Fin 10), s.units = true ∧ s.on ETH_CFG.PTP_EN p.val = true ∧ s.portUp p.val = true ∧ s.pdelayDue p = true) ∧
    (∃ (s : State) (k : Fin 16), s.units = true ∧ (s.switch.strs[k.val]).cur.any (fun b => decide (b.mtc + s.blkTmo k.val ≤ s.mtc)) = true) ∧
    (∃ (s : State) (k : Fin 16), s.units = true ∧ (s.switch.strs[k.val]).closed = []) ∧
    (∃ (s : State) (k : Fin 16), s.units = true ∧ (s.switch.strs[k.val]).closed ≠ []) ∧
    (∃ (s : State) (q : Fin 2), s.units = true ∧ s.get HQ_TX_RD.IDX q.val % s.hqSize q.val = s.get HQ_TX_WR.IDX q.val % s.hqSize q.val) ∧
    (∃ (s : State) (q : Fin 2), s.units = true ∧
        (let rd := s.get HQ_TX_RD.IDX q.val % s.hqSize q.val;
         let a := s.addr40 HQ_TX_LO.ADDR HQ_TX_HI.ADDR q.val + 2048 * rd;
         rd ≠ s.get HQ_TX_WR.IDX q.val % s.hqSize q.val ∧ bits (s.fabN a 4) 0 12 < 60)) ∧
    (∃ (s : State) (q : Fin 2), s.units = true ∧
        (let rd := s.get HQ_TX_RD.IDX q.val % s.hqSize q.val;
         let a := s.addr40 HQ_TX_LO.ADDR HQ_TX_HI.ADDR q.val + 2048 * rd;
         let w0 := s.fabN a 4;
         let d := s.fabBytes (a + 16) (bits w0 0 12);
         let u := if bits w0 12 4 = 0xF then s.ethSwitch 10 1 d s.mtc else s.egressFrame (bits w0 12 4) d;
         rd ≠ s.get HQ_TX_WR.IDX q.val % s.hqSize q.val ∧ 60 ≤ bits w0 0 12 ∧ bits w0 0 12 ≤ 1518)) :=
  ⟨⟨((wr.put ETH_CFG.EN 1).put ETH_STAT.LINK 1), 0, true, 0, by decide⟩,
   ⟨((wr.put ETH_CFG.EN 1).put ETH_STAT.LINK 1), 0, (List.replicate 1519 0), false, 0, by decide⟩,
   ⟨((wr.put ETH_CFG.EN 1).put ETH_STAT.LINK 1), 0, (List.replicate 60 0), false, 0, by decide⟩,
   ⟨((wr.put ETH_CFG.EN 1).put ETH_STAT.LINK 1), 0, (List.replicate 12 0 ++ [0x88, 0xF7, 0, 0]), false, 0, by decide⟩,
   ⟨wr, by decide⟩,
   ⟨((wr.put ETH_CFG.EN 1).put ETH_STAT.LINK 1), 0, by decide⟩,
   ⟨((wr.put ETH_CFG.EN 1).put ETH_STAT.LINK 1), by decide⟩,
   ⟨(((wr.put ETH_CFG.EN 1).put ETH_STAT.LINK 1).put ETH_CFG.PTP_EN 1), 0, by decide⟩,
   ⟨(late (wr.modStr 0 fun t => { t with cur := some ⟨1, 0, [], none, [], false, false, 0⟩ })), 0, by decide⟩,
   ⟨wr, 0, by decide⟩,
   ⟨(wr.modStr 0 fun t => { t with closed := [⟨1, 0, [], none, [(1, 2, 3)], false, false, 0⟩] }), 0, by decide⟩,
   ⟨wr, 0, by decide⟩,
   ⟨(wr.put HQ_TX_WR.IDX 1), 0, by decide⟩,
   ⟨(({ wr with sram := Mem.writeN [] 0x10000000 4 60 }.put HQ_TX_LO.ADDR 0x10000).put HQ_TX_WR.IDX 1), 0, by decide⟩⟩

theorem test_hypotheses_FleetMessages :
    (∃ (s : State) (h : JfxHead), s.units = true ∧ (s.jfxTake h).2 = false) ∧
    (∃ (s : State) (h : JfxHead), s.units = true ∧
        (let r := s.jfxTake h;
         let t := r.1;
         r.2 = true)) ∧
    (∃ (s : State) (h : JfxHead) (no : Nat), s.units = true ∧
        (let r := s.jfxTake h;
         let t := r.1;
         r.2 = true ∧ (t.dialog no).isSome = true)) ∧
    (∃ (s : State) (h : JfxHead) (no : Nat), s.units = true ∧
        (let r := s.jfxTake h;
         let t := r.1;
         r.2 = true ∧ (t.dialog no) = none)) ∧
    (∃ (s : State) (h : JfxHead) (no : Nat) (d : Dialog), s.units = true ∧
        (let r := s.jfxTake h;
         let t := r.1;
         r.2 = true ∧ t.dialog no = some d ∧ d.peer = some h.sender)) ∧
    (∃ (s : State) (h : JfxHead) (src : Nat) (bytes : List Nat), s.units = true ∧
        (let r := s.jfxTake h;
         let m := r.1.rtcmNew src bytes;
         let u := m.1.foldl (fun (u : State) (f : List Nat) => u.rtcmFrom 1 f) m.2;
         r.2 = true)) ∧
    (∃ (s : State) (h : JfxHead) (seq : Nat), s.units = true ∧ (s.jfxTake h).2 = true ∧
    (((s.jfxTake h).1.fleet.acks.filter fun e => e.1 == seq).foldl (fun (u : State) (e : Nat × SvcWait) => u.done e.2.req jfxCore 0x0020 stOk [])
      ((s.jfxTake h).1.modFleet fun f => { f with acks := f.acks.filter fun e => e.1 != seq })).fleet.snap = none) ∧
    (∃ (s : State) (h : JfxHead) (f : TileFrag), s.units = true ∧
        (let r := s.jfxTake h;
         r.2 = true ∧ r.1.fleet.parts = [] ∧ 1 < f.nfrag)) ∧
    (∃ (s : State) (h : JfxHead), s.units = true ∧ (s.jfxEnter h).2 = false) ∧
    (∃ (s : State) (h : JfxHead), s.units = true ∧ (s.jfxEnter h).2 = true) ∧
    (∃ (s : State) (h : JfxHead) (na : Nat) (a : Admit), s.units = true ∧ (s.jfxEnter h).2 = true ∧ (s.jfxEnter h).1.jfxShut h.sender = false ∧
            (s.jfxEnter h).1.fleet.admits.find? (fun a => a.id == h.sender && a.na == na && decide ((s.jfxEnter h).1.mtc ≤ a.at_ + admitTicks)) =
            some a ∧ (((s.jfxEnter h).1.modFleet fun f => { f with admits := f.admits.filter fun x => x.id != h.sender }).jfxPeer h.sender).isSome =
            true) ∧
    (∃ (s : State) (h : JfxHead) (p : Peer), s.units = true ∧ (s.jfxEnter h).2 = true ∧ (s.jfxEnter h).1.jfxShut h.sender = false ∧
            (s.jfxEnter h).1.jfxPeer h.sender = some p ∧ p.session = h.session) ∧
    (∃ (s : State) (h : JfxHead), s.units = true ∧
        (let t := (s.jfxEnter h).1;
         let na := Config.random t.free % 2 ^ 64;
         (s.jfxEnter h).2 = true ∧ t.jfxShut h.sender = false ∧ t.jfxPeer h.sender = none)) :=
  ⟨⟨wr, wh, by decide⟩,
   ⟨wfl, wh, by decide⟩,
   ⟨wdl, wh, 7, by decide⟩,
   ⟨wfl, wh, 0, by decide⟩,
   ⟨wdl, wh, 7, ⟨7, some 2, 0⟩, by decide⟩,
   ⟨wfl, wh, 0, [], by decide⟩,
   ⟨(wfl.modFleet fun f => { f with acks := [(3, ⟨3, 5, 1, false⟩)] }), wh, 3, by decide, by decide, by rfl⟩,
   ⟨wfl, wh, ⟨1, 0, 0, 0, 0, 0, 3, 0, 2, []⟩, by decide⟩,
   ⟨wr, wh, by decide⟩,
   ⟨wfl, wh, by decide⟩,
   ⟨(wfl.modFleet fun f => { f with admits := [⟨2, 9, 1, 0, 55, 0⟩] }), wh, 55, ⟨2, 9, 1, 0, 55, 0⟩, by decide⟩,
   ⟨wfl, wh, (((wfl.jfxEnter wh).1.jfxPeer 2).getD ⟨2, 1, 0, true, 9, 4, 0, 0⟩), by decide⟩,
   ⟨(wr.modFleet fun f => { f with on := true }), wh, by decide⟩⟩

theorem test_hypotheses_FleetServiceAndTimers :
    (∃ (s : State), s.units = true ∧ s.fleet.on = true ∧ s.plat.serviceUp = true ∧ since s.fleet.helloAt (s.fleet.helloT * secTicks) s.mtc = true) ∧
    (∃ (s : State), s.units = true ∧ s.fleet.on = false) ∧
    (∃ (s : State), s.units = true ∧ s.fleet.on = true ∧ s.plat.serviceUp = true ∧ since s.fleet.stateAt secTicks s.mtc = true) ∧
    (∃ (s : State) (id : Nat), s.units = true ∧ (s.fleet.admits.any fun a => a.id == id && decide (a.at_ + admitTicks ≤ s.mtc)) = false) ∧
    (∃ (s : State) (id : Nat), s.units = true ∧ (s.fleet.admits.any fun a => a.id == id && decide (a.at_ + admitTicks ≤ s.mtc)) = true) ∧
    (∃ (s : State), s.units = true) ∧
    (∃ (s : State) (id : Nat), s.units = true ∧ (s.jfxPeer id).any (fun p => decide (p.last + s.fleet.ageT * secTicks ≤ s.mtc)) = true) ∧
    (∃ (s : State) (id : Nat), s.units = true ∧ s.jfxPeer id = none) ∧
    (∃ (s : State) (no : Nat) (d : Dialog), s.units = true ∧ s.dialog no = some d ∧ d.last + 3 * secTicks ≤ s.mtc) ∧
    (∃ (s : State) (p : TilePart) (b : TileFrag) (r : List TileFrag), s.units = true ∧ s.fleet.parts = [p] ∧ p.frags = b :: r ∧
            p.at_ + tileTicks ≤ s.mtc) ∧
    (∃ (s : State) (x : SnapTx), s.units = true ∧ s.fleet.snap = some x ∧ x.tries < 3) ∧
    (∃ (s : State) (helloT : Nat) (ageT : Nat), s.units = true ∧ s.plat.serviceUp = true ∧ (helloT = 0 ∨ 10 < helloT ∨ ageT < 3 ∨ 120 < ageT)) ∧
    (∃ (s : State) (q : SvcReq) (cls : Nat) (notify : Nat) (helloT : Nat) (ageT : Nat), s.units = true ∧ s.plat.serviceUp = true ∧ 0 < helloT ∧
            helloT ≤ 10 ∧ 3 ≤ ageT ∧ ageT ≤ 120 ∧
        (let t := s.request jfxBox 0x0001 q [cls, notify, helloT, ageT];
         (t.tagWord 0x0020).isSome = true ∧ (t.tagWord 0x0021).isSome = true ∧ (t.tagWord 0x0022).isSome = true ∧ t.get SW_CFG.JFX_VID ≠ 0)) ∧
    (∃ (s : State) (q : SvcReq), s.units = true ∧ s.plat.serviceUp = true ∧
        (let t := s.request jfxBox 0x0002 q;
         t.fleet.on = false)) ∧
    (∃ (s : State), s.units = true ∧ s.plat.serviceUp = true) ∧
    (∃ (s : State) (block : Bool), s.units = true ∧ s.plat.serviceUp = true ∧ block = false) ∧
    (∃ (s : State) (len : Nat), s.units = true ∧ s.plat.serviceUp = true ∧ 1192 < len) ∧
    (∃ (s : State) (q : SvcReq) (dest : Nat) (len : Nat) (addr : Nat) (ackreq : Bool), s.units = true ∧ s.plat.serviceUp = true ∧ len ≤ 1192 ∧
            ackreq = false ∧
        (let t := s.request jfxBox 0x0020 q ([dest, len] ++ two addr);
         t.fleet.on = true)) ∧
    (∃ (s : State) (q : SvcReq) (no : Nat), s.units = true ∧ s.plat.serviceUp = true ∧
        (let t := s.request jfxBox 0x0030 q [no];
         t.fleet.on = true ∧ ((t.dialog no).isSome = true ∨ t.fleet.dialogs.length < 8))) ∧
    (∃ (s : State) (q : SvcReq) (no : Nat), s.units = true ∧ s.plat.serviceUp = true ∧
        (let t := s.request jfxBox 0x0031 q [no];
         t.fleet.on = true ∧ ((t.dialog no).isSome = true ∨ t.fleet.dialogs.length < 8))) ∧
    (∃ (s : State) (q : SvcReq) (no : Nat), s.units = true ∧ s.plat.serviceUp = true ∧
        (let t := s.request jfxBox 0x0032 q [no];
         t.fleet.on = true ∧ ((t.dialog no).isSome = true ∨ t.fleet.dialogs.length < 8))) ∧
    (∃ (s : State) (q : SvcReq) (no : Nat), s.units = true ∧ s.plat.serviceUp = true ∧
        (let t := s.request jfxBox 0x0033 q [no];
         t.fleet.on = true ∧ ((t.dialog no).isSome = true ∨ t.fleet.dialogs.length < 8))) ∧
    (∃ (s : State) (q : SvcReq) (no : Nat), s.units = true ∧ s.plat.serviceUp = true ∧
        (let t := s.request jfxBox 0x0034 q [no];
         t.fleet.on = false)) ∧
    (∃ (s : State) (q : SvcReq) (no : Nat) (d : Dialog), s.units = true ∧ s.plat.serviceUp = true ∧
        (let t := s.request jfxBox 0x0034 q [no];
         t.fleet.on = true ∧ t.dialog no = some d)) ∧
    (∃ (s : State) (hopMax : Nat), s.units = true ∧ s.plat.serviceUp = true ∧ 1 ≤ hopMax ∧ hopMax ≤ 4) ∧
    (∃ (s : State) (q : SvcReq) (no : Nat), s.units = true ∧ s.plat.serviceUp = true ∧
        (let t := s.request jfxBox 0x0030 q [no];
         t.fleet.on = true ∧ t.dialog no = none ∧ 8 ≤ t.fleet.dialogs.length)) ∧
    (∃ (s : State) (q : SvcReq) (no : Nat), s.units = true ∧ s.plat.serviceUp = true ∧
        (let t := s.request jfxBox 0x0031 q [no];
         t.fleet.on = true ∧ t.dialog no = none ∧ 8 ≤ t.fleet.dialogs.length)) ∧
    (∃ (s : State) (q : SvcReq) (no : Nat), s.units = true ∧ s.plat.serviceUp = true ∧
        (let t := s.request jfxBox 0x0032 q [no];
         t.fleet.on = true ∧ t.dialog no = none ∧ 8 ≤ t.fleet.dialogs.length)) ∧
    (∃ (s : State) (q : SvcReq) (no : Nat), s.units = true ∧ s.plat.serviceUp = true ∧
        (let t := s.request jfxBox 0x0033 q [no];
         t.fleet.on = true ∧ t.dialog no = none ∧ 8 ≤ t.fleet.dialogs.length)) ∧
    (∃ (s : State) (q : SvcReq) (no : Nat), s.units = true ∧ s.plat.serviceUp = true ∧
        (let t := s.request jfxBox 0x0034 q [no];
         t.fleet.on = true ∧ t.dialog no = none ∧ 8 ≤ t.fleet.dialogs.length)) ∧
    (∃ (s : State) (q : SvcReq), s.units = true ∧ s.plat.serviceUp = true ∧
        (let t := s.request jfxBox 0x0002 q;
         t.fleet.on = true)) ∧
    (∃ (s : State) (q : SvcReq) (id : Nat) (block : Bool), s.units = true ∧ s.plat.serviceUp = true ∧ block = true ∧
        (let t := s.request jfxBox 0x0011 q [id, 1];
         (t.fleet.blocked.filter fun x => x != id).length < 32)) :=
  ⟨⟨wfl, by decide⟩,
   ⟨wr, by decide⟩,
   ⟨wfl, by decide⟩,
   ⟨wr, 0, by decide⟩,
   ⟨(late (wfl.modFleet fun f => { f with peers := [], admits := [⟨2, 9, 1, 0, 55, 0⟩] })), 2, by decide⟩,
   ⟨wfl, by decide⟩,
   ⟨(late wfl), 2, by decide⟩,
   ⟨wr, 0, by decide⟩,
   ⟨(late wdl), 7, ⟨7, some 2, 0⟩, by decide⟩,
   ⟨(late (wfl.modFleet fun f => { f with parts := [⟨2, 0, [⟨1, 0, 0, 0, 0, 0, 3, 0, 2, []⟩]⟩] })), ⟨2, 0, [⟨1, 0, 0, 0, 0, 0, 3, 0, 2, []⟩]⟩,
          ⟨1, 0, 0, 0, 0, 0, 3, 0, 2, []⟩, [], by decide⟩,
   ⟨(wfl.modFleet fun f => { f with snap := some ⟨0, [], 0, 0, 2⟩ }), ⟨0, [], 0, 0, 2⟩, by decide⟩,
   ⟨wr, 0, 0, by decide⟩,
   ⟨({ wr with tags := ⟨[⟨0x20, 0, [1]⟩, ⟨0x21, 0, [2]⟩, ⟨0x22, 0, [3]⟩], 0, false, []⟩ }.put SW_CFG.JFX_VID 5), ⟨3, 5, 1, false⟩, 0, 0, 10, 3,
          by decide⟩,
   ⟨wr, ⟨3, 5, 1, false⟩, by decide⟩,
   ⟨wfl, by decide⟩,
   ⟨wr, false, by decide⟩,
   ⟨wr, 1193, by decide⟩,
   ⟨wfl, ⟨3, 5, 1, false⟩, 0, 1192, 0, false, by decide⟩,
   ⟨wdl, ⟨3, 5, 1, false⟩, 7, by decide⟩,
   ⟨wdl, ⟨3, 5, 1, false⟩, 7, by decide⟩,
   ⟨wdl, ⟨3, 5, 1, false⟩, 7, by decide⟩,
   ⟨wdl, ⟨3, 5, 1, false⟩, 7, by decide⟩,
   ⟨wr, ⟨3, 5, 1, false⟩, 0, by decide⟩,
   ⟨wdl, ⟨3, 5, 1, false⟩, 7, ⟨7, some 2, 0⟩, by decide⟩,
   ⟨wr, 4, by decide⟩,
   ⟨(wfl.modFleet fun f => { f with dialogs := [⟨1, none, 0⟩, ⟨2, none, 0⟩, ⟨3, none, 0⟩, ⟨4, none, 0⟩, ⟨5, none, 0⟩, ⟨6, none, 0⟩, ⟨7, none, 0⟩,
          ⟨8, none, 0⟩] }), ⟨3, 5, 1, false⟩, 9, by decide⟩,
   ⟨(wfl.modFleet fun f => { f with dialogs := [⟨1, none, 0⟩, ⟨2, none, 0⟩, ⟨3, none, 0⟩, ⟨4, none, 0⟩, ⟨5, none, 0⟩, ⟨6, none, 0⟩, ⟨7, none, 0⟩,
          ⟨8, none, 0⟩] }), ⟨3, 5, 1, false⟩, 9, by decide⟩,
   ⟨(wfl.modFleet fun f => { f with dialogs := [⟨1, none, 0⟩, ⟨2, none, 0⟩, ⟨3, none, 0⟩, ⟨4, none, 0⟩, ⟨5, none, 0⟩, ⟨6, none, 0⟩, ⟨7, none, 0⟩,
          ⟨8, none, 0⟩] }), ⟨3, 5, 1, false⟩, 9, by decide⟩,
   ⟨(wfl.modFleet fun f => { f with dialogs := [⟨1, none, 0⟩, ⟨2, none, 0⟩, ⟨3, none, 0⟩, ⟨4, none, 0⟩, ⟨5, none, 0⟩, ⟨6, none, 0⟩, ⟨7, none, 0⟩,
          ⟨8, none, 0⟩] }), ⟨3, 5, 1, false⟩, 9, by decide⟩,
   ⟨(wfl.modFleet fun f => { f with dialogs := [⟨1, none, 0⟩, ⟨2, none, 0⟩, ⟨3, none, 0⟩, ⟨4, none, 0⟩, ⟨5, none, 0⟩, ⟨6, none, 0⟩, ⟨7, none, 0⟩,
          ⟨8, none, 0⟩] }), ⟨3, 5, 1, false⟩, 9, by decide⟩,
   ⟨wfl, ⟨3, 5, 1, false⟩, by decide⟩,
   ⟨wr, ⟨3, 5, 1, false⟩, 0, true, by decide⟩⟩

theorem test_hypotheses_FabricAndDecanter :
    (∃ (s : State), s.units = true ∧ s.windowDue = true) ∧
    (∃ (s : State), s.units = true ∧ s.windowDue = false) ∧
    (∃ (s : State) (r : Fin 88) (rq : Req), s.units = true ∧ rq.sup = true ∧ s.isControl r.val = true) ∧
    (∃ (s : State) (p : Fin 5), s.units = true ∧ s.on FP_CFG.PREEMPT_EN p.val = false) ∧
    (∃ (s : State) (p : Fin 5) (owner : Fin 88) (r : Fin 88), s.units = true ∧ s.on FP_CFG.PREEMPT_EN p.val = true ∧ s.isControl r.val = true ∧
            s.outranks r.val owner.val = true ∧ r ≠ owner) ∧
    (∃ (s : State) (rq : Req), s.units = true ∧ rq.sup = true) ∧
    (∃ (s : State), s.units = true) ∧
    (∃ (s : State) (n : Fin 32) (ok : Bool), s.units = true ∧ s.live = true ∧ s.dcState n = dcFetch ∧ ok = false) ∧
    (∃ (s : State) (n : Fin 32), s.units = true ∧ s.live = true ∧ s.dcState n = dcFetch ∧ fabReaches (s.dcCur n) false false = true ∧
        (let d := s.dcRead n (s.dcCur n);
         let t := ((s.put DC_STAT.HOPS (s.get DC_STAT.HOPS n.val + 1) n.val).put DC_REMAIN.LEN d.len n.val).modDc n fun c =>
            { c.rest with desc := some d };
         d.stop = true ∧ d.op ≤ 2 ∧ d.misaligned = false ∧ d.len ≠ 0 ∧ (s.dcCh n).until_ ≤ s.fabNow)) ∧
    (∃ (s : State) (n : Fin 32) (d : DcDesc), s.units = true ∧ (s.dcCh n).desc = some d ∧ s.dcMoving n = true) ∧
    (∃ (s : State) (n : Fin 32) (d : DcDesc), s.units = true ∧ s.live = true ∧ s.dcState n = dcWriteback ∧ (s.dcCh n).desc = some d ∧
            (s.dcCh n).tries < s.get DC_CFG.RETRY_MAX n.val) ∧
    (∃ (s : State) (n : Fin 32), s.units = true ∧ s.live = true ∧ s.dcState n = dcRateWait ∧ (s.dcCh n).until_ ≤ s.fabNow) ∧
    (∃ (s : State) (n : Fin 32), s.units = true ∧ s.dcReady n = false) ∧
    (∃ (s : State) (n : Fin 32) (a : Fin 32) (b : Fin 32), s.units = true ∧ s.dc.movers[0] = some a ∧ s.dc.movers[1] = some b ∧ s.live = true ∧
            s.dcReady n = true ∧ a < b ∧ s.on DC_CFG.HI n.val = true ∧ s.on DC_CFG.HI a.val = false ∧ s.on DC_CFG.HI b.val = false) ∧
    (∃ (s : State) (n : Fin 32) (d : DcDesc), s.units = true ∧ s.live = true ∧ s.dcState n = dcWriteback ∧ (s.dcCh n).desc = some d ∧
            (s.dcCh n).status = dcOk ∧ d.ev = false ∧ (s.dcCh n).stopping = true) ∧
    (∃ (s : State) (n : Fin 32) (d : DcDesc), s.units = true ∧ s.live = true ∧ s.dcState n = dcWriteback ∧ (s.dcCh n).desc = some d ∧
            (s.dcCh n).status = dcOk ∧ d.ev = false ∧ (s.dcCh n).stopping = false ∧ d.stop = false) :=
  ⟨⟨wr, by decide⟩,
   ⟨{ wr with dc := { wr.dc with window := some 0 } }, by decide⟩,
   ⟨(wr.put REQ_CFG.TC 1), 0, ⟨0, true⟩, by decide⟩,
   ⟨((wr.put FP_CFG.PREEMPT_EN 0 0)), 0, by decide⟩,
   ⟨((((wr.put REQ_CFG.TC 1 1).put REQ_CFG.TC 0 0).put FP_CFG.PREEMPT_EN 1).put REQ_CFG.PRIO 3 1), 0, 0, 1, by decide⟩,
   ⟨wr, ⟨0, true⟩, by decide⟩,
   ⟨wr, by decide⟩,
   ⟨(wr.put DC_STAT.STATE dcFetch), 0, false, by decide⟩,
   ⟨(({ wr with sram := (((Mem.writeN [] 0x10000000 4 0x100).writeN 0x10000004 4 0x10000000).writeN 0x1000000C 4 0x10000040).writeN 0x10000010 4 32
          }.put DC_STAT.STATE dcFetch).put DC_CUR_LO.ADDR (0x10000000 / 32)), 0, by decide⟩,
   ⟨(wdc #v[some 0, none]), 0, wdd, by decide +kernel⟩,
   ⟨(((wr.put DC_STAT.STATE dcWriteback).modDc 0 fun x => { x with desc := some ⟨0, true, false, 0x10000000, 0x10000040, 0, 32, 0, 0⟩ }).put
          DC_CFG.RETRY_MAX 3), 0, ⟨0, true, false, 0x10000000, 0x10000040, 0, 32, 0, 0⟩, by decide⟩,
   ⟨(wr.put DC_STAT.STATE dcRateWait), 0, by decide⟩,
   ⟨wr, 0, by decide⟩,
   ⟨((wdc #v[some 1, some 2]).put DC_CFG.HI 1), 0, 1, 2, by decide +kernel⟩,
   ⟨(((wr.put DC_STAT.STATE dcMove).modDc 0 fun x => { x with desc := some wdd, status := dcOk, stopping := true }).put DC_STAT.STATE dcWriteback),
          0, wdd, by decide⟩,
   ⟨(((wr.put DC_STAT.STATE dcMove).modDc 0 fun x => { x with desc := some { wdd with stop := false }, status := dcOk }).put DC_STAT.STATE
          dcWriteback), 0, { wdd with stop := false }, by decide⟩⟩

theorem test_hypotheses_ErrorControllerCommands :
    (∃ (src : Nat), errKnown src = true) ∧
    (∃ (src : Nat), errKnown src = false) ∧
    (∃ (rq : Req), rq.sup = true) ∧
    (∃ (s : State) (level : Fin 4) (e : Err), s.errs.stack.reverse[level.val]? = some e ∧ s.on ERR_CFG.ARM = true ∧ s.errLimit e ≤ e.age s.mtc) ∧
    (∃ (s : State) (level : Fin 4), s.errs.stack.reverse[level.val]? = none) ∧
    (∃ (s : State) (f : Fatal), s.errs.fatal = some f ∧ s.svcRuns = true ∧ s.mtc ≤ f.mtc + dumpTicks) ∧
    (∃ (s : State) (f : Fatal), s.errs.fatal = some f ∧ f.mtc + dumpTicks ≤ s.mtc) ∧
    (∃ (s : State), s.recording = true) ∧
    (∃ (s : State) (q : SvcReq), s.serves q false = true ∧ q.src ≠ portId) ∧
    (∃ (s : State) (q : SvcReq) (slot : Nat), s.serves q false = true ∧ q.src ≠ portId ∧ 4 ≤ slot) ∧
    (∃ (s : State), s.plat.serviceUp = true) ∧
    (∃ (s : State) (q : SvcReq) (slot : Fin 4) (ofs : Nat) (len : Nat) (addr : Nat) (d : Dump), s.serves q false = true ∧ q.src ≠ portId ∧
        (let t := (s.request 61 0x0011 q ([slot.val, ofs, len] ++ two addr)).portFrame q;
         let n := if dumpSize ≤ ofs then 0 else min len (dumpSize - ofs);
         t.errs.dumps[slot.val] = some d)) :=
  ⟨⟨0xC, by decide⟩,
   ⟨0, by decide⟩,
   ⟨⟨0, true⟩, by decide⟩,
   ⟨(late ({ wr with errs := { wr.errs with stack := [⟨3, 2, 0, 0, 17, 0, some 0⟩] } }.put ERR_CFG.ARM 1)), 0, ⟨3, 2, 0, 0, 17, 0, some 0⟩, by decide⟩,
   ⟨wr, 0, by decide⟩,
   ⟨{ wr with errs := { wr.errs with fatal := some ⟨1, 0, 0, 0, 0, false, [], [], false, false, false⟩ } },
          ⟨1, 0, 0, 0, 0, false, [], [], false, false, false⟩, by decide⟩,
   ⟨(late ({ wr with errs := { wr.errs with fatal := some ⟨1, 0, 0, 0, 0, false, [], [], false, false, false⟩ } })),
          ⟨1, 0, 0, 0, 0, false, [], [], false, false, false⟩, by decide⟩,
   ⟨wr, by decide⟩,
   ⟨wr, ⟨3, 5, 1, false⟩, by decide⟩,
   ⟨wr, ⟨3, 5, 1, false⟩, 4, by decide⟩,
   ⟨wr, by decide⟩,
   ⟨{ wr with errs := { wr.errs with dumps := #v[some ⟨1, ⟨1, 0, 0, 0, 0, false, [], [], false, false, false⟩, 0, true, 0, [], [], [], []⟩, none,
          none, none] } }, ⟨3, 5, 1, false⟩, 0, 0, 0, 0, ⟨1, ⟨1, 0, 0, 0, 0, false, [], [], false, false, false⟩, 0, true, 0, [], [], [], []⟩,
          by decide⟩⟩

theorem test_hypotheses_UpdateAndTagCommands :
    (∃ (s : State) (q : SvcReq), s.serves q false = true ∧ q.src ≠ portId ∧ tagSender q = false) ∧
    (∃ (s : State) (q : SvcReq) (type : Nat) (index : Nat), s.serves q false = true ∧ q.src ≠ portId ∧ tagSender q = true ∧
        (let t := (s.request 61 0x0031 q [type, index]).portFrame q;
         (t.tagBase.any fun x => x.is type index) = false)) ∧
    (∃ (s : State) (q : SvcReq) (type : Nat) (index : Nat), s.serves q false = true ∧ q.src ≠ portId ∧ tagSender q = true ∧
        (let t := (s.request 61 0x0031 q [type, index]).portFrame q;
         (t.tagBase.any fun x => x.is type index) = true)) ∧
    (∃ (s : State), s.units = true ∧ s.tags.waits = []) ∧
    (∃ (s : State) (w : TagWait) (rest : List TagWait), s.units = true ∧ s.tags.waits = w :: rest) ∧
    (∃ (s : State) (q : SvcReq) (size : UpdSize), s.serves q true = true ∧ q.src ≠ portId ∧
        (let t := (s.request 60 0x0001 q [size.setId, size.blocks]).portFrame q;
         t.ownsUpdate q = true ∧ t.updState ≠ updActivating ∧ t.updState ≠ updTrial)) ∧
    (∃ (s : State) (q : SvcReq) (index : Nat) (addr : Nat) (len : Nat) (crc : Nat), s.serves q true = true ∧ q.src ≠ portId ∧
        (let t := (s.request 60 0x0002 q ([index] ++ two addr ++ [len, crc])).portFrame q;
         t.ownsUpdate q = true ∧ t.updState ≠ updReceiving ∧ t.updState ≠ updVerified)) ∧
    (∃ (s : State) (q : SvcReq) (index : Nat) (addr : Nat) (len : Nat) (crc : Nat) (data : List Nat) (bs : List Nat), s.serves q true = true ∧
            q.src ≠ portId ∧
        (let t := (s.request 60 0x0002 q ([index] ++ two addr ++ [len, crc])).portFrame q;
         t.ownsUpdate q = true ∧ t.updState = updReceiving ∧ t.payload q addr len data = some bs ∧ bs ≠ [] ∧ bs.length ≤ 65536 ∧ 0 < index ∧
            index < 131072 ∧ crc32c bs = crc % 2 ^ 32)) ∧
    (∃ (s : State) (q : SvcReq), s.serves q true = true ∧ q.src ≠ portId ∧
        (let t := (s.request 60 0x0003 q []).portFrame q;
         t.ownsUpdate q = true ∧ t.updState = updReceiving)) ∧
    (∃ (s : State), s.units = true ∧ s.updState = updVerifying ∧ s.manager.wait = none) ∧
    (∃ (s : State) (q : SvcReq) (force : Bool) (x : SoftSet), s.serves q true = true ∧ q.src ≠ portId ∧
        (let t := (s.request 60 0x0004 q [b2n force]).portFrame q;
         t.ownsUpdate q = true ∧ t.updState = updVerified ∧ t.manager.staged = some x)) ∧
    (∃ (s : State) (a : Activation) (x : SoftSet), s.units = true ∧ s.manager.act = some a ∧ s.manager.staged = some x ∧ a.full = false ∧
            a.switched = false ∧ a.at_ ≤ s.mtc + frameTicks ∧ s.mtc < a.at_) ∧
    (∃ (s : State) (x : SoftSet), s.units = true ∧ s.manager.copy = some x) ∧
    (∃ (s : State) (q : SvcReq), s.serves q true = true ∧ q.src ≠ portId ∧
        (let t := (s.request 60 0x0005 q []).portFrame q;
         t.ownsUpdate q = true ∧ t.updState = updTrial)) ∧
    (∃ (s : State) (q : SvcReq), s.serves q true = true ∧ q.src ≠ portId ∧
        (let t := (s.request 60 0x0006 q []).portFrame q;
         t.ownsUpdate q = true ∧ t.updState = updTrial)) ∧
    (∃ (s : State) (q : SvcReq), s.serves q true = true ∧ q.src ≠ portId ∧
        (let t := (s.request 60 0x0007 q []).portFrame q;
         t.ownsUpdate q = true ∧ t.updState ≠ updActivating ∧ t.updState ≠ updTrial)) ∧
    (∃ (s : State) (q : SvcReq) (addr : Nat), s.serves q true = true ∧ q.src ≠ portId ∧
        (let t := (s.request 60 0x0010 q (two addr)).portFrame q;
         t.manager.locked = true)) ∧
    (∃ (s : State) (q : SvcReq) (addr : Nat) (data : List Nat) (bs : List Nat), s.serves q true = true ∧ q.src ≠ portId ∧
        (let t := (s.request 60 0x0010 q (two addr)).portFrame q;
         t.manager.locked = false ∧ t.payload q addr 64 data = some bs ∧ bs.length = 64)) ∧
    (∃ (s : State) (q : SvcReq), s.serves q true = true ∧ q.src ≠ portId) ∧
    (∃ (s : State) (q : SvcReq) (type : Nat) (len : Nat) (addr : Nat) (data : List Nat) (v : List Nat), s.serves q false = true ∧ q.src ≠ portId ∧
            tagSender q = true ∧ type ≠ tagIsoName ∧
        (let t := (s.request 61 0x0030 q ([type, len] ++ two addr)).portFrame q;
         t.payload q addr len data = some v ∧ tagFits type v.length = true ∧ tagUsed (tagPut t.tagBase ⟨type, 0, v⟩) ≤ 8192)) :=
  ⟨⟨wr, ⟨3, 5, 1, false⟩, by decide⟩,
   ⟨wr, ⟨0, 5, 1, false⟩, 0, 0, by decide⟩,
   ⟨{ wr with tags := ⟨[⟨0x20, 0, [1]⟩], 0, false, []⟩ }, ⟨0, 5, 1, false⟩, 0x20, 0, by decide⟩,
   ⟨wr, by decide⟩,
   ⟨{ wr with tags := ⟨[], 0, false, [⟨⟨3, 5, 1, false⟩, 0x30, [], 1, 0⟩]⟩ }, ⟨⟨3, 5, 1, false⟩, 0x30, [], 1, 0⟩, [], by decide⟩,
   ⟨wr, ⟨3, 5, 1, false⟩, ⟨1, 1⟩, by decide⟩,
   ⟨wr, ⟨3, 5, 1, false⟩, 0, 0, 0, 0, by decide⟩,
   ⟨(wr.put UPD_STAT.STATE updReceiving), ⟨3, 5, 1, false⟩, 1, 0x10000000, 2, crc32c [0, 0], [], [0, 0], by decide⟩,
   ⟨(wr.put UPD_STAT.STATE updReceiving), ⟨3, 5, 1, false⟩, by decide⟩,
   ⟨(wr.put UPD_STAT.STATE updVerifying), by decide⟩,
   ⟨((wr.put UPD_STAT.STATE updVerified).modMgr fun m => { m with staged := some ⟨1, 0, []⟩ }), ⟨3, 5, 1, false⟩, true, ⟨1, 0, []⟩, by decide⟩,
   ⟨(wr.modMgr fun m => { m with act := some ⟨false, 1, false⟩, staged := some ⟨1, 0, []⟩ }), ⟨false, 1, false⟩, ⟨1, 0, []⟩, by decide⟩,
   ⟨(wr.modMgr fun m => { m with copy := some ⟨1, 0, []⟩ }), ⟨1, 0, []⟩, by decide⟩,
   ⟨(wr.put UPD_STAT.STATE updTrial), ⟨3, 5, 1, false⟩, by decide⟩,
   ⟨(wr.put UPD_STAT.STATE updTrial), ⟨3, 5, 1, false⟩, by decide⟩,
   ⟨wr, ⟨3, 5, 1, false⟩, by decide⟩,
   ⟨(wr.modMgr fun m => { m with locked := true }), ⟨3, 5, 1, false⟩, 0, by decide⟩,
   ⟨wr, ⟨3, 5, 1, false⟩, 0x10000000, [], (List.replicate 64 0), by decide⟩,
   ⟨wr, ⟨3, 5, 1, false⟩, by decide⟩,
   ⟨wr, ⟨0, 5, 1, false⟩, 1, 1, 0x10000000, [], ((wr.payload ⟨0, 5, 1, false⟩ 0x10000000 1 []).getD []), by decide⟩⟩

theorem test_hypotheses_ServicePort :
    (∃ (s : State) (q : SvcReq), q.src = portId ∧ s.svcPortUp true = true ∧ s.manager.session.isSome = true) ∧
    (∃ (s : State) (q : SvcReq), q.src = portId ∧ s.svcPortUp true = true ∧ s.manager.session = none) ∧
    (∃ (s : State) (q : SvcReq), q.src = portId ∧ s.svcPortUp true = true ∧ (s.portFrame q).portMay q false = true) ∧
    (∃ (s : State) (q : SvcReq) (addr : Nat) (count : Nat), q.src = portId ∧ s.svcPortUp false = true ∧ (s.portFrame q).portMay q false = true ∧
            1 ≤ count ∧ count ≤ 1024 ∧ portFault addr count = none) ∧
    (∃ (s : State) (q : SvcReq), q.src = portId ∧ s.svcPortUp false = true ∧ (s.portFrame q).portMay q true = false) ∧
    (∃ (s : State) (q : SvcReq) (addr : Nat) (words : List Nat), q.src = portId ∧ s.svcPortUp false = true ∧ (s.portFrame q).portMay q true = true ∧
            words ≠ [] ∧ portFault addr words.length = none) ∧
    (∃ (s : State) (q : SvcReq), q.src = portId ∧ s.svcPortUp false = true ∧ (s.portFrame q).portMay q false = true) ∧
    (∃ (s : State), s.manager.session.any (fun x => decide (x.last + sessionTicks ≤ s.mtc)) = true) ∧
    (∃ (s : State) (rq : Req), s.units = true ∧ rq.sup = true) ∧
    (∃ (s : State), s.plat.power ≠ .off) :=
  ⟨⟨(wr.modMgr fun m => { m with session := some ⟨false, false, none, 0⟩ }), ⟨portId, 0, 1, false⟩, by decide⟩,
   ⟨wr, ⟨portId, 0, 1, false⟩, by decide⟩,
   ⟨(wr.modMgr fun m => { m with session := some ⟨false, false, none, 0⟩ }), ⟨portId, 0, 1, false⟩, by decide⟩,
   ⟨(wr.modMgr fun m => { m with session := some ⟨false, false, none, 0⟩ }), ⟨portId, 0, 1, false⟩, 0x20000000, 1, by decide⟩,
   ⟨(wr.modMgr fun m => { m with session := some ⟨false, false, none, 0⟩ }), ⟨portId, 0, 1, false⟩, by decide⟩,
   ⟨(wr.modMgr fun m => { m with session := some ⟨true, false, none, 0⟩ }), ⟨portId, 0, 1, false⟩, 0x20000000, [1], by decide⟩,
   ⟨(wr.modMgr fun m => { m with session := some ⟨false, false, none, 0⟩ }), ⟨portId, 0, 1, false⟩, by decide⟩,
   ⟨(late (wr.modMgr fun m => { m with session := some ⟨false, false, none, 0⟩ })), by decide⟩,
   ⟨wr, ⟨0, true⟩, by decide⟩,
   ⟨wr, by decide⟩⟩

theorem test_hypotheses_SuppliesAndRegisterWrite :
    (∃ (s : State) (rev : Bool), s.plat.power ≠ .off ∧ rev = true) ∧
    (∃ (s : State) (v : Nat), s.plat.power ≠ .off ∧ 60 ≤ v) ∧
    (∃ (s : State) (v : Nat), s.plat.power ≠ .off ∧ v < 60) ∧
    (∃ (s : State) (i : Nat), s.plat.power ≠ .off ∧ i ≤ 4 * clampN 1 60 (s.get SUP_CFG.STUD_LIM)) ∧
    (∃ (s : State) (k : Fin 4), s.sensorSupplyOn k.val = true) ∧
    (∃ (s : State) (k : Fin 4) (ok : Bool), s.sensorSupplyOn k.val = true ∧ bit (s.get SUP_STAT.SS_ACT) k.val = true ∧ ok = true) ∧
    (∃ (s : State), s.plat.power ≠ .off) ∧
    (∃ (s : State) (v : Nat), s.plat.power ≠ .off ∧ 90 ≤ v) ∧
    (∃ (s : State) (v : Nat), s.plat.power ≠ .off ∧ v < 90 ∧ s.on PWR_STATE.FEED_LOW = false) ∧
    (∃ (s : State) (addr : Nat) (value : Nat) (rq : Req) (t : State), s.units = true ∧ addr % 4 = 0 ∧ s.busWrite addr value rq = some t) ∧
    (∃ (s : State) (addr : Nat), s.units = true ∧ addr % 4 ≠ 0) ∧
    (∃ (s : State) (v : Nat) (rq : Req), s.units = true ∧ rq.sup = false ∧ s.busWrite 0x20000304 v rq = none) ∧
    (∃ (s : State) (i : Nat), s.plat.power ≠ .off ∧ 4 * clampN 1 60 (s.get SUP_CFG.STUD_LIM) < i) :=
  ⟨⟨wr, true, by decide⟩,
   ⟨wr, 60, by decide⟩,
   ⟨wr, 59, by decide⟩,
   ⟨wr, 4, by decide⟩,
   ⟨(wr.put SUP_CFG.SS_EN 1), 0, by decide⟩,
   ⟨(wr.put SUP_STAT.SS_ACT 1), 0, true, by decide⟩,
   ⟨wr, by decide⟩,
   ⟨wr, 90, by decide⟩,
   ⟨wr, 89, by decide⟩,
   ⟨wr, 0x20000004, 0, ⟨0, true⟩, wr, by decide, by decide, by rfl⟩,
   ⟨wr, 0x20000001, by decide⟩,
   ⟨wr, 0, ⟨0, false⟩, by decide⟩,
   ⟨wr, 241, by decide⟩⟩

theorem test_hypotheses_MemoriesStayCanonical :
    ∃ (s : State) (t : State), s.memWf ∧ regRising s.regs ∧ step s = .next t :=
  ⟨State.reset, State.reset.idleTick, by unfold State.memWf; decide, by unfold regRising; decide, rfl⟩

theorem test_hypotheses_EncodingRoundTrip :
    (∃ (i : Instr) (c : Fin 16) (e : Env) (w : Word), encode i = some (c, e, w)) ∧
    (∃ (i : Instr) (c : Fin 16) (e : Env) (w : Word), decodeWord c e w = some i) :=
  ⟨⟨(.add 3 1 2 4), 3, ⟨0, false, false⟩, 69345280, by decide⟩,
   ⟨(.add 3 1 2 4), 3, ⟨0, false, false⟩, 69345280, by decide⟩⟩

theorem test_hypotheses_ErrDonePops :
    (∃ (s : State) (seq : Nat) (rq : Req), rq.sup = true ∧ (seq % 2 ^ 32 ≠ s.get ERR_TOP_C.SEQ ∨ s.errs.stack = [])) ∧
    (∃ (s : State) (rq : Req) (top : Err) (r : List Err), rq.sup = true ∧ s.errs.stack = top :: r ∧ top.seq = s.get ERR_TOP_C.SEQ ∧ top.seq < 2 ^ 32) :=
  ⟨⟨wr, 0, ⟨0, true⟩, by decide⟩,
   ⟨({ wr with errs := { wr.errs with stack := [⟨3, 2, 0, 0, 17, 0, some 0⟩] } }.put ERR_TOP_C.SEQ 17), ⟨0, true⟩, ⟨3, 2, 0, 0, 17, 0, some 0⟩, [],
          by decide⟩⟩

theorem test_hypotheses_RegistersAndMemoriesReadBack :
    (∃ (s : State), regRising s.regs) ∧
    (∃ (m : Mem) (w : Nat) (v : Nat), m.wf = true ∧ v < 256 ^ w) ∧
    (∃ (m : Mem) (a : Nat) (w : Nat) (x : Nat), m.wf = true ∧ (x < a ∨ a + w ≤ x)) ∧
    (∃ (m : Mem), m.wf = true) :=
  ⟨⟨wr, by unfold regRising; decide⟩,
   ⟨[(4, 7)], 2, 65535, by decide⟩,
   ⟨[(4, 7)], 3, 2, 5, by decide⟩,
   ⟨[(4, 7)], by decide⟩⟩

theorem test_hypotheses_UnitsAreStillWithoutPower :
    ∃ (s : State), s.units = false :=
  ⟨(wp fun p => { p with power := .watch }), by decide⟩

end Sys2Proof.Tests
end

/-! PROOFS.  The scope of the model: what a write leaves to read, the state after reset, the supervisor's commands to the cores, and
why a canonical state may step to one that is not. -/

namespace Sys2Proof.Machine

open Sys2Proof.Reg

/-! ### A register field and its writes -/

/-- A field reads as it was last written, modulo its width. -/
theorem State.get_put_same {s : State} (h : regRising s.regs) (f : Fld) (v i j k : Nat) :
    (s.put f v i j k).get f i j k = v % 2 ^ f.w := regFind_regStore h _ _ _

/-- A write leaves every field under another key as it reads. -/
theorem State.get_put_other {s : State} (h : regRising s.regs) {f g : Fld} {i j k i' j' k' : Nat}
    (ne : g.key i' j' k' ≠ f.key i j k) (v : Nat) : (s.put f v i j k).get g i' j' k' = s.get g i' j' k' :=
  congrArg (Option.getD · (g.reset i' j' k')) (regFind_regStore_other h ne _ _)

/-- A write of a field keeps the register map rising. -/
theorem State.put_rising {s : State} (h : regRising s.regs) (f : Fld) (v i j k : Nat) : regRising (s.put f v i j k).regs :=
  regStore_rising h _ _ _

/-- Settles O59: the laws of the register map lifted to fields, and those of the byte memories. -/
theorem registersAndMemoriesReadBack : Obligations.RegistersAndMemoriesReadBack := by
  unfold Obligations.RegistersAndMemoriesReadBack
  refine ⟨fun s f v i j k h => ⟨State.get_put_same h f v i j k, fun g i' j' k' ne => State.get_put_other h ne v⟩,
    fun m a w v h hv => ?_, fun m a w v x h out => Mem.byte_writeN_outside h a w v x out,
    fun m a w v h => Mem.writeN_wf h a w v, fun s f v i j k h => State.put_rising h f v i j k⟩
  rw [Mem.readN_writeN h, Nat.mod_eq_of_lt hv]

/-! ### The state after reset -/

/-- After reset every core is as Table 3.18 and R34 leave it. -/
theorem State.reset_core (c : Fin 16) : State.reset.core c = Core.zero := Vector.getElem_replicate c.isLt

/-- After reset nothing is energised, and nothing waits to be. -/
theorem State.reset_outputsOff : State.reset.outputsOff :=
  ⟨fun _ hv => Vector.eq_of_mem_replicate hv ▸ rfl, fun _ hl => Vector.eq_of_mem_replicate hl ▸ rfl⟩

/-- After reset every memory is canonical. -/
theorem State.reset_memWf : State.reset.memWf := ⟨rfl, rfl, fun k hk => ⟨(cores_zero_tidy k hk).itcm, (cores_zero_tidy k hk).dtcm⟩⟩

/-- The register map after reset lists the count of the START record alone. -/
theorem State.reset_regs : State.reset.regs = [(CB_CNT.RECORDS.key 0 0 0, 1)] := rfl

/-- After reset every field but that count reads its Reset value. -/
theorem State.reset_get {f : Fld} {i j k : Nat} (ne : f.key i j k ≠ CB_CNT.RECORDS.key 0 0 0) :
    State.reset.get f i j k = f.reset i j k := by
  simp [State.get, State.reset_regs, regFind, ne.symm]

/-- Settles O3, field by field of the reset state; what no rule states stands at log entry 1. -/
theorem resetLeavesTheModuleAtT0 : Obligations.ResetLeavesTheModuleAtT0 := by
  unfold Obligations.ResetLeavesTheModuleAtT0
  exact ⟨rfl, rfl, rfl, rfl, rfl, State.reset_outputsOff, State.reset_memWf, State.reset_core, rfl, rfl, rfl, rfl,
    fun _ _ _ _ ne => State.reset_get ne⟩

/-! ### The supervisor's commands -/

/-- A command to a unit has its effect while the units run. -/
theorem State.act_of_units {s : State} (h : s.units = true) (t : State) : s.act t = .next t := by
  simp [State.act, h]

/-- A command to a unit that has no effect leaves the state as it is, whether or not the units run. -/
theorem State.act_self (s : State) : s.act s = .next s := by simp [State.act]

/-- A command guarded by `b` has its effect where the guard holds and the units run. -/
theorem State.next_of_guard {s t : State} {o : Host.Outcome State Fault Refusal} {b : Bool} (e : o = s.act (if b then t else s))
    (hu : s.units = true) (hb : b = true) : o = .next t := by
  rw [e, if_pos hb, State.act_of_units hu]

/-- A command guarded by `b` has no effect where the guard fails. -/
theorem State.next_self_of_guard {s t : State} {o : Host.Outcome State Fault Refusal} {b : Bool}
    (e : o = s.act (if b then t else s)) (hb : b = false) : o = .next s := by
  rw [e, if_neg (by simp [hb]), State.act_self]

/-- None of the supervisor's commands to cores, locks and mailboxes has an effect at program privilege (R5). -/
theorem exec_of_program_privilege (s : State) (c : Fin 16) (run : Bool) (mask pair w : Nat) (n : Fin 256) (m : Fin 64) (rq : Req)
    (hq : rq.sup = false) :
    exec (.validate c rq) s = .next s ∧ exec (.invalidate c rq) s = .next s ∧ exec (.coreRunWrite c run rq) s = .next s ∧
      exec (.coreReset c rq) s = .next s ∧ exec (.swapSet mask rq) s = .next s ∧ exec (.lstepCfgWrite pair rq) s = .next s ∧
      exec (.migGo c run rq) s = .next s ∧ exec (.lkFree n rq) s = .next s ∧ exec (.mbCfgWrite m w rq) s = .next s :=
  have refused (b : Bool) : (rq.sup && b) = false := by rw [hq, Bool.false_and]
  ⟨State.next_self_of_guard rfl hq, State.next_self_of_guard rfl hq, State.next_self_of_guard rfl (refused _),
    State.next_self_of_guard rfl hq, State.next_self_of_guard rfl hq, State.next_self_of_guard rfl hq,
    State.next_self_of_guard rfl (refused _), State.next_self_of_guard rfl hq, State.next_self_of_guard rfl hq⟩

/-! ### The end of a migration's copy, replies, BANK_LOAD -/

/-- What the end of the copy does to a migration that waits for it (R82). -/
theorem exec_migrationCopyDone {s : State} {core : Fin 16} {itcmBad : Bool} {dtcmBad : List Nat} (hu : s.units = true)
    (hm : (s.plat.migrations.find? fun m => m.core == core && m.copied.isNone).isSome = true) :
    exec (.migrationCopyDone core itcmBad dtcmBad) s = .next (
      if itcmBad then
        { s with plat := { s.plat with migrations := s.plat.migrations.filter fun m => m.core != core } }.migBusy.migFail core 3
      else
        { (s.put MIG_STAT.DTCM_BAD (min 4095 dtcmBad.length)) with
          plat := { s.plat with migrations := s.plat.migrations.map fun (m : Migration) =>
            if m.core = core then { m with copied := some (s.copyOf core dtcmBad) } else m } }.migBusy) := by
  obtain ⟨m, hm⟩ := Option.isSome_iff_exists.mp hm
  refine (State.act_of_units hu _).trans (congrArg _ ?_)
  simp only [hm]

/-- A reply refused four times is dropped with its record (R89). -/
theorem exec_serviceReplyDrop {s : State} {index : Nat} {r : Reply} (hu : s.units = true) (hr : s.plat.replies[index]? = some r)
    (ht : 4 ≤ r.tries) :
    exec (.serviceReplyDrop index) s = .next
      ({ s with plat := { s.plat with replies := s.plat.replies.eraseIdx index } }.record .mbDrop (node domPlatform r.mb none8)
        [r.core, (r.words[0]?).getD 0, (r.words[1]?).getD 0]) := by
  refine (State.act_of_units hu _).trans (congrArg _ ?_)
  simp only [hr, if_pos ht]

/-- BANK_LOAD of no core is answered BAD_PARAM (R89). -/
theorem exec_bankLoad_of_no_core {s : State} {q : SvcReq} {core addr len : Nat} (hu : s.units = true)
    (hs : s.plat.serviceUp = true) (hc : 16 ≤ core) :
    exec (.bankLoad q core addr len) s =
      .next ((s.request 61 0x0001 q [core, addr % 2 ^ 32, addr / 2 ^ 32, len]).done q platCore 0x0001 stBadParam []) := by
  refine (State.act_of_units hu _).trans (congrArg _ ?_)
  simp only [hs, Bool.not_true, Bool.false_eq_true, if_false]
  exact dif_neg (Nat.not_lt.mpr hc)

/-- BANK_LOAD of a core that takes one, from memory that can be read: the image is loaded, or it is none (R34, R89). -/
theorem exec_bankLoad_of_core {s t : State} {q : SvcReq} {c : Fin 16} {addr len : Nat} (hu : s.units = true)
    (hs : s.plat.serviceUp = true) (ht : t = s.request 61 0x0001 q [c.val, addr % 2 ^ 32, addr / 2 ^ 32, len])
    (hc : t.controls c = true) (ha : ∀ k < len, fabReaches (addr + k) false true = true) (hf : t.frozen c = false) :
    exec (.bankLoad q c.val addr len) s = .next (
      if Config.imageOk (t.fabBytes addr len) then
        (t.loadBank c (t.core c).other (t.fabBytes addr len)).done q platCore 0x0001 stOk
          [(t.loadBank c (t.core c).other (t.fabBytes addr len)).bankCtl c.val]
      else t.done q platCore 0x0001 stBadParam []) := by
  subst ht
  have all : ((List.range len).all fun k => fabReaches (addr + k) false true) = true := by
    simpa only [List.all_eq_true, List.mem_range] using ha
  refine (State.act_of_units hu _).trans (congrArg _ ?_)
  simp only [hs, Bool.not_true, Bool.false_eq_true, if_false, c.isLt, dif_pos, hc, all, hf, Bool.false_or]
  cases Config.imageOk _ <;> rfl

/-- PART_LIST writes one entry a part (R347). -/
theorem exec_partList {s : State} {q : SvcReq} {addr : Nat} (hu : s.units = true) (hs : s.plat.serviceUp = true) :
    let t := s.request 61 0x0002 q [addr % 2 ^ 32, addr / 2 ^ 32]
    exec (.partList q addr) s = .next ((t.fabWrite addr (t.manager.placed.flatMap fun p =>
      [p.part.kind + 2 ^ 8 * p.part.target + 2 ^ 16 * p.part.gen, p.addr % 2 ^ 32, p.addr / 2 ^ 32, p.part.data.length])).done q
        platCore 0x0002 stOk [t.manager.placed.length]) := by
  refine (State.act_of_units hu _).trans (congrArg _ ?_)
  simp only [hs, Bool.not_true, Bool.false_eq_true, if_false]

/-- Settles O30: each command is its guard, with the effect where the guard holds. -/
theorem supervisorCommandsOfCores : Obligations.SupervisorCommandsOfCores := by
  unfold Obligations.SupervisorCommandsOfCores
  refine ⟨fun s c rq hu hq => State.next_of_guard rfl hu hq, fun s c rq hu hq => State.next_of_guard rfl hu hq,
    fun s c run rq hu hq hc => State.next_of_guard rfl hu (by rw [hq, hc, Bool.and_self]),
    fun s c rq hu hq => State.next_of_guard rfl hu hq, fun s mask rq hu hq => State.next_of_guard rfl hu hq,
    fun s pair rq hu hq => State.next_of_guard rfl hu hq,
    fun s core go rq hu hq hg => State.next_of_guard rfl hu (by rw [hq, hg, Bool.and_self]),
    fun s n rq hu hq => State.next_of_guard rfl hu hq, fun s m w rq hu hq => State.next_of_guard rfl hu hq,
    exec_of_program_privilege, ?copyBad, ?copyGood, ?replyDrop, fun s q core addr len => exec_bankLoad_of_no_core,
    fun s q addr => exec_partList, fun s q c addr len hu hs hc ha hf => exec_bankLoad_of_core hu hs rfl hc ha hf⟩
  case copyBad =>
    intro s core itcmBad dtcmBad hu hm hb
    rw [exec_migrationCopyDone hu hm, if_pos hb]
  case copyGood =>
    intro s core itcmBad dtcmBad hu hm hb
    rw [exec_migrationCopyDone hu hm, if_neg (by simp [hb])]
  case replyDrop =>
    rintro s index hu ⟨r, hr, ht⟩
    rw [exec_serviceReplyDrop hu hr ht, hr]

/-! ### A memory that a state holds and `State.memWf` does not name -/

/-- The module at t0 with the copy of one migration ended, in which ITCM lists an address at the value of an unlisted one.  The
model makes a copy by `State.copyOf` alone, from a core's own ITCM, but neither `State.memWf` nor `regRising` speaks of it. -/
def State.blankInCopy : State :=
  { State.reset with
    plat := { State.reset.plat with migrations := [⟨2, 4, some ⟨[], [(0, Mem.blank)], []⟩⟩] }
    pending := [.majorFrameBoundary []] }

/-- The step of that state is the major frame at whose boundary the migration takes over (R82). -/
theorem State.step_blankInCopy :
    step State.blankInCopy = .next ({ State.blankInCopy with pending := [] }.frameBegin fun a => [].contains a) :=
  State.act_of_units (s := { State.blankInCopy with pending := [] }) rfl _

/-- After it the core of the failed identity has the copy's ITCM. -/
theorem State.frameBegin_blankInCopy :
    (({ State.blankInCopy with pending := [] }.frameBegin fun a => [].contains a).core 2).itcm.wf = false := by
  decide +kernel

/-- Refutes O56: a takeover (`State.takeOver`) gives a core the ITCM that the migration's copy holds, and the hypotheses leave that
copy free.  The state is `State.blankInCopy`. -/
theorem not_memoriesStayCanonical : ¬ Obligations.MemoriesStayCanonical := by
  unfold Obligations.MemoriesStayCanonical
  intro h
  -- outside the copy the state holds the memories of the reset state, and one register entry
  obtain ⟨⟨-, -, cores⟩, -⟩ := h State.blankInCopy _ State.reset_memWf (List.pairwise_singleton _ _) State.step_blankInCopy
  have wf := (cores _ (Vector.getElem_mem (i := 2) (by decide))).1
  exact Bool.false_ne_true (State.frameBegin_blankInCopy.symm.trans wf)

end Sys2Proof.Machine

/-! PROOFS.  The machine architecture: the accesses that take ACCESS, and the words and fields that take ILLEGAL. -/

namespace Sys2Proof.Machine

open Sys2Proof.Reg

/-! ### The accesses that fault (Table 3.20) -/

/-- A misaligned access is MISALIGNED, before every other detail (DESIGN CHOICE, log entry 58). -/
theorem State.place_misaligned {s : State} {c : Fin 16} {sup store : Bool} {ea w : Nat} (h : ea % w ≠ 0) :
    s.place c sup ea w store = .inr 0x01 :=
  if_pos h

/-- Shared SRAM ends at 0x1040_0000. -/
theorem inSram_of_ge {ea : Nat} (h : 0x10400000 ≤ ea) : inSram ea = false := by simp [inSram]; omega

/-- The peripheral window ends at 0x3000_0000. -/
theorem inPeriph_of_ge {ea : Nat} (h : 0x30000000 ≤ ea) : inPeriph ea = false := by simp [inPeriph]; omega

/-- Above the peripheral window an aligned access is one of a DRAM window or of no region (Table 1.6). -/
theorem State.place_above_periph {s : State} {c : Fin 16} {sup store : Bool} {ea w : Nat} (aligned : ea % w = 0)
    (high : 0x30000000 ≤ ea) :
    s.place c sup ea w store = if 0x40000000 ≤ ea ∧ ea < 0x80000000 then s.windowPlace c ea store else .inr 0x03 := by
  have noSram : inSram ea = false := inSram_of_ge (by omega)
  rw [State.place, if_neg (by omega), if_neg (by omega), if_neg (by omega), if_neg (by simp [noSram]),
    if_neg (by simp [inPeriph_of_ge high])]

/-- An aligned access above the DRAM windows falls outside every region. -/
theorem State.place_outside {s : State} {c : Fin 16} {sup store : Bool} {ea w : Nat} (aligned : ea % w = 0)
    (high : 0x80000000 ≤ ea) : s.place c sup ea w store = .inr 0x03 := by
  rw [State.place_above_periph aligned (by omega), if_neg (by omega)]

/-- ITCM takes no store of user code. -/
theorem State.place_itcm_user_store {s : State} {c : Fin 16} {ea w : Nat} (aligned : ea % w = 0) (low : ea < 0x10000) :
    s.place c false ea w true = .inr 0x04 := by
  simp [State.place, aligned, low]

/-- The peripheral window takes whole words alone. -/
theorem State.place_periph_width {s : State} {c : Fin 16} {sup store : Bool} {ea w : Nat} (aligned : ea % w = 0)
    (periph : inPeriph ea = true) (narrow : w ≠ 4) : s.place c sup ea w store = .inr 0x02 := by
  have ⟨lo, _⟩ : 0x20000000 ≤ ea ∧ ea < 0x30000000 := by simpa [inPeriph] using periph
  have noSram : inSram ea = false := inSram_of_ge (by omega)
  rw [State.place, if_neg (by omega), if_neg (by omega), if_neg (by omega), if_neg (by simp [noSram]),
    if_pos periph, if_pos narrow]

/-- An aligned access between 0x4000_0000 and 0x8000_0000 is one of a DRAM window (R25). -/
theorem State.place_window {s : State} {c : Fin 16} {sup store : Bool} {ea w : Nat} (aligned : ea % w = 0)
    (lo : 0x40000000 ≤ ea) (hi : ea < 0x80000000) : s.place c sup ea w store = s.windowPlace c ea store := by
  rw [State.place_above_periph aligned (by omega), if_pos ⟨lo, hi⟩]

/-- A window that is not enabled is WINDOW_DISABLED, before the other details of windows (DESIGN CHOICE, log entry 58). -/
theorem State.windowPlace_disabled {s : State} {c : Fin 16} {ea : Nat} {store : Bool}
    (off : s.on DWIN.EN c.val (ea / 2 ^ 28 % 4) = false) : s.windowPlace c ea store = .inr 0x05 :=
  if_pos (by simpa [bits] using off)

/-! ### The instruction whose access faults -/

/-- A load whose access faults is ACCESS at its address, and no more. -/
theorem State.loadAt_fault {s : State} {c : Fin 16} {b : Fin 32} {imm : BitVec 16} {w d : Nat} {env : Env} {dest : Ctx → Nat → Ctx}
    (h : s.place c (s.ctx c).priv ((s.ctx c).ea b imm).toNat w false = .inr d) :
    s.loadAt c b imm w env dest = s.access c d ((s.ctx c).ea b imm) := by
  simp only [State.loadAt, State.loadFrom, h]

/-- A store whose access faults is ACCESS at its address, and no more. -/
theorem State.storeAt_fault {s : State} {c : Fin 16} {b : Fin 32} {imm : BitVec 16} {w d wait : Nat} {v : Word}
    (h : s.place c (s.ctx c).priv ((s.ctx c).ea b imm).toNat w true = .inr d) :
    s.storeAt c b imm w v wait = s.access c d ((s.ctx c).ea b imm) := by
  simp only [State.storeAt, h]

section Calm

variable {s : State} {c : Fin 16} (calm : s.calm c = true) (exl : (s.core c).exl = false)

include calm exl

/-- A calm core outside a handler enters an exception of its instruction. -/
theorem issue_except_calm (x : Exc) : s.issue c (s.except c x) = .next (s.modCore c fun k => k.enter (s.status c) x) := by
  rw [issue_calm calm, exc_calm exl]

/-- A load of a calm core whose access faults enters ACCESS. -/
theorem issue_loadAt_fault {b : Fin 32} {imm : BitVec 16} {w d : Nat} {env : Env} {dest : Ctx → Nat → Ctx}
    (h : s.place c (s.ctx c).priv ((s.ctx c).ea b imm).toNat w false = .inr d) :
    s.issue c (s.loadAt c b imm w env dest) =
      .next (s.modCore c fun k => k.enter (s.status c) ⟨0x04, d, false, (s.ctx c).pc, (s.ctx c).ea b imm⟩) := by
  rw [State.loadAt_fault h]
  exact issue_except_calm calm exl _

/-- A store of a calm core whose access faults enters ACCESS. -/
theorem issue_storeAt_fault {b : Fin 32} {imm : BitVec 16} {w d wait : Nat} {v : Word}
    (h : s.place c (s.ctx c).priv ((s.ctx c).ea b imm).toNat w true = .inr d) :
    s.issue c (s.storeAt c b imm w v wait) =
      .next (s.modCore c fun k => k.enter (s.status c) ⟨0x04, d, false, (s.ctx c).pc, (s.ctx c).ea b imm⟩) := by
  rw [State.storeAt_fault h]
  exact issue_except_calm calm exl _

end Calm

/-! ### The words and fields that name nothing (R49) -/

/-- An instruction whose fields all name something has its own effect. -/
theorem State.checked_of_ok {s t : State} {c : Fin 16} {ok : Bool} {w : Word} (h : ok = true) : s.checked c ok w t = s.issue c t := by
  rw [State.checked, if_pos h]

/-- An instruction with a field that names nothing is ILLEGAL. -/
theorem State.checked_of_not_ok {s t : State} {c : Fin 16} {ok : Bool} {w : Word} (h : ok = false) :
    s.checked c ok w t = s.issue c (s.illegal c w) := by
  simp [State.checked, h]

/-- An instruction with a field that can name nothing checks its fields, with its own word, before any effect: one case for each
command of `fieldsOk`, and `case43` for every other command, whose fields always name something. -/
theorem exec_eq_checked {i : Instr} {c : Fin 16} {e : Env} {w : Word} (enc : encode i = some (c, e, w)) (s : State) :
    fieldsOk i = false → ∃ t, exec i s = s.checked c (fieldsOk i) w t := by
  fun_cases fieldsOk i
  case case43 => exact fun bad => Bool.noConfusion bad
  all_goals
    intro _
    cases enc
    exact ⟨_, rfl⟩

/-- A word that spells an instruction executes as its command. -/
theorem State.execWord_of_decode {s : State} {c : Fin 16} {e : Env} {w : Word} {i : Instr} (h : decodeWord c e w = some i) :
    s.execWord c e w = exec i s := by
  rw [State.execWord, h]

/-- A word that spells no instruction is ILLEGAL. -/
theorem State.execWord_of_not_decode {s : State} {c : Fin 16} {e : Env} {w : Word} (h : decodeWord c e w = none) :
    s.execWord c e w = s.issue c (s.illegal c w) := by
  rw [State.execWord, h]

/-- Settles O15: the place of an access decides its fault, and the check of the fields or the decoder decides ILLEGAL.  The order of
the details where several hold is log entry 58; that a lock increment above 255 is ILLEGAL is log entry 46. -/
theorem accessAndIllegalRules : Obligations.AccessAndIllegalRules := by
  unfold Obligations.AccessAndIllegalRules
  refine ⟨?lw, ?lh, ?lhu, ?lb, ?lbu, ?flw, ?sw, ?sh, ?sb, ?fsw, ?misaligned, ?outside, ?itcm, ?width, ?window, ?fields, ?noWord,
    ?word, ?zero⟩
  case lw | lh | lhu | lb | lbu => exact fun s c a b imm env d calm exl h => issue_loadAt_fault calm exl h
  case sw | sh | sb => exact fun s c a b imm wait d calm exl h => issue_storeAt_fault calm exl h
  case flw =>
    exact fun s c a b imm env d calm exl ha h =>
      (State.checked_of_ok (decide_eq_true ha)).trans (issue_loadAt_fault calm exl h)
  case fsw =>
    exact fun s c a b imm wait d calm exl ha h =>
      (State.checked_of_ok (decide_eq_true ha)).trans (issue_storeAt_fault calm exl h)
  case misaligned => exact fun s c sup store ea w h => State.place_misaligned h
  case outside => exact fun s c sup store ea w aligned high => State.place_outside aligned high
  case itcm => exact fun s c ea w aligned low => State.place_itcm_user_store aligned low
  case width => exact fun s c sup store ea w aligned periph narrow => State.place_periph_width aligned periph narrow
  case window =>
    exact fun s c sup store ea w aligned lo hi off => (State.place_window aligned lo hi).trans (State.windowPlace_disabled off)
  case fields =>
    intro s i c e w enc calm exl bad
    obtain ⟨t, checks⟩ := exec_eq_checked enc s bad
    rw [checks, State.checked_of_not_ok bad]
    exact issue_except_calm calm exl _
  case noWord =>
    intro s c e w h calm exl
    rw [State.execWord_of_not_decode h]
    exact issue_except_calm calm exl _
  case word => exact fun s c e w i h => State.execWord_of_decode h
  case zero => exact fun c e => rfl

end Sys2Proof.Machine

/-! PROOFS.  Startup, reset and hold: the key, SHUTDOWN and WATCH; why a wake may have the cause ROLLBACK; clocks, the ends of hold
and the ESTOP loop. -/

namespace Sys2Proof.Machine

open Sys2Proof.Reg

/-! ### A command with a condition -/

/-- A command has its effect where its condition holds. -/
theorem State.next_of_pos {o : Host.Outcome State Fault Refusal} {p : Prop} [Decidable p] {t u : State}
    (e : o = .next (if p then t else u)) (h : p) : o = .next t := by
  rw [e, if_pos h]

/-- A command has its other effect where its condition fails. -/
theorem State.next_of_neg {o : Host.Outcome State Fault Refusal} {p : Prop} [Decidable p] {t u : State}
    (e : o = .next (if p then t else u)) (h : ¬p) : o = .next u := by
  rw [e, if_neg h]

/-! ### Records, rails and events: what they leave -/

/-- A record touches the register map, the book and Trellis. -/
theorem State.record_eq (s : State) (t : RecType) (nd : Nat) (items : List Nat) :
    ∃ r b f, s.record t nd items = { s with regs := r, book := b, trellis := f } := by
  have keepTime : ∃ f, s.keepTime s.mtc t items = { s with trellis := f } := by
    unfold State.keepTime
    split
    · exact ⟨_, rfl⟩
    · exact ⟨s.trellis, rfl⟩
  obtain ⟨f, e⟩ := keepTime
  simp only [State.record, State.recordAt, e]
  split
  · exact ⟨_, _, f, rfl⟩
  · exact ⟨s.regs, s.book, f, rfl⟩

@[simp] theorem State.record_plat (s : State) (t : RecType) (nd : Nat) (items : List Nat) :
    (s.record t nd items).plat = s.plat := by
  obtain ⟨r, b, f, e⟩ := s.record_eq t nd items
  rw [e]

@[simp] theorem State.record_valves (s : State) (t : RecType) (nd : Nat) (items : List Nat) :
    (s.record t nd items).valves = s.valves := by
  obtain ⟨r, b, f, e⟩ := s.record_eq t nd items
  rw [e]

@[simp] theorem State.record_loads (s : State) (t : RecType) (nd : Nat) (items : List Nat) :
    (s.record t nd items).loads = s.loads := by
  obtain ⟨r, b, f, e⟩ := s.record_eq t nd items
  rw [e]

/-- Whether a rail's charger goes on or off leaves the platform. -/
theorem State.railTrack_plat (s : State) (b : Fin 8) : (s.railTrack b).plat = s.plat := by
  unfold State.railTrack
  split <;> rfl

@[simp] theorem State.railTrackAll_plat (s : State) : s.railTrackAll.plat = s.plat := by
  unfold State.railTrackAll
  refine List.foldlRecOn (motive := fun (t : State) => t.plat = s.plat) _ _ rfl ?_
  exact fun t h b _ => (t.railTrack_plat b).trans h

/-- A core that takes its event line touches the cores and the locks. -/
theorem State.takeEvent_eq (s : State) (c : Fin 16) : ∃ k l, s.takeEvent c = { s with cores := k, locks := l } := by
  unfold State.takeEvent
  dsimp only
  repeat' split
  all_goals exact ⟨_, _, rfl⟩

/-- An event touches the cores and the locks. -/
theorem State.raise_eq (s : State) (ev : Nat) : ∃ k l, s.raise ev = { s with cores := k, locks := l } := by
  unfold State.raise
  split
  · exact ⟨s.cores, s.locks, rfl⟩
  · unfold State.eventsNow
    refine List.foldlRecOn (motive := fun (t : State) => ∃ k l, t = { s with cores := k, locks := l }) _ _ ⟨_, s.locks, rfl⟩ ?_
    rintro t ⟨k, l, rfl⟩ c -
    unfold State.eventNow
    split
    · obtain ⟨k', l', e⟩ := State.takeEvent_eq { s with cores := k, locks := l } c
      exact ⟨k', l', e⟩
    · exact ⟨k, l, rfl⟩

/-- A sticky flag touches the register map, the cores and the locks. -/
theorem State.flag_eq (s : State) (fl mask : Fld) (b ev i j : Nat) :
    ∃ r k l, s.flag fl mask b ev i j = { s with regs := r, cores := k, locks := l } := by
  unfold State.flag
  dsimp only
  split
  · exact ⟨s.regs, s.cores, s.locks, rfl⟩
  · split
    · obtain ⟨k, l, e⟩ := State.raise_eq (s.put fl (s.get fl i j + 2 ^ b) i j) ev
      exact ⟨_, k, l, e⟩
    · exact ⟨_, s.cores, s.locks, rfl⟩

/-! ### The key, SHUTDOWN and WATCH -/

/-- SHUTDOWN is entered, whatever its cause. -/
theorem State.shutdown_power (s : State) (cause : Nat) : (s.shutdown cause).plat.power = .shutdown := by
  simp [State.shutdown]

/-- A request with the passcode acts in RUN with no fatal sequence in progress (Table 2.8). -/
theorem State.rstReq_of_run {s : State} (run : s.plat.power = .run) (ok : s.errs.fatal = none) (cmd : Nat) :
    s.rstReq cmd 0x6B0D = if cmd = 1 then s.warmNow .supReq else if cmd = 2 then s.shutdown 0 else s := by
  simp [State.rstReq, run, ok]

/-- A source judged with an earlier wake does nothing where no start is in progress. -/
theorem State.wakeToo_of_not_starting {s : State} (h : s.plat.power ≠ .starting) (src : Nat) (en : Woken → Bool) :
    s.wakeToo src en = s := by
  unfold State.wakeToo
  split
  · exact if_neg fun w => h w.1
  · rfl

/-- The WAKE line wakes from WATCH where WAKE_EN is set, and shows the level of WAKE_POL (log entry 45). -/
theorem exec_wakeLine_of_armed {s : State} (watch : s.plat.power = .watch) (en : s.on WAKE_CFG.WAKE_EN = true) :
    exec .wakeLine s = .next ((s.put PWR_STATE.WAKE (b2n (!s.on WAKE_CFG.WAKE_POL))).wake 1) := by
  refine (State.next_of_neg rfl (by simp [watch])).trans ?_
  simp [watch, en, State.putB]

/-- Where the WAKE line does not wake, and no start is in progress, a change of its level shows (log entry 45). -/
theorem exec_wakeLine_of_not_armed {s : State} (power : s.plat.power ≠ .off) (idle : s.plat.power ≠ .starting)
    (off : s.plat.power = .watch → s.on WAKE_CFG.WAKE_EN = false) :
    exec .wakeLine s = .next (s.put PWR_STATE.WAKE (b2n (!s.on PWR_STATE.WAKE))) := by
  have unarmed : (decide (s.plat.power = .watch) && s.on WAKE_CFG.WAKE_EN) = false := by simpa using off
  refine (State.next_of_neg rfl power).trans ?_
  simp only [unarmed, Bool.false_eq_true, if_false, State.putB]
  split
  · rfl
  · exact congrArg _ (State.wakeToo_of_not_starting (s := s.put PWR_STATE.WAKE _) idle _ _)

/-- SNAP_MIN runs in minutes of 60 s, 200,000,000 ticks each (Table 2.8). -/
theorem State.snapTicks_eq (s : State) : s.snapTicks = 200000000 * (60 * clampN 1 60 (s.get WAKE_CFG.SNAP_MIN)) := by
  unfold State.snapTicks
  omega

/-- Settles O5: each command is its condition, with the effect where that holds.  That WAKE_KEY shows KEY = 1 and what WAKE_LINE
shows of the line is log entry 45. -/
theorem keyShutdownAndWatch : Obligations.KeyShutdownAndWatch := by
  unfold Obligations.KeyShutdownAndWatch
  refine ⟨?keyOff, ?keyOn, ?keyoffLimit, ?warm, ?toWatch, ?flushed, ?wakeKey, fun s => exec_wakeLine_of_armed, ?lineUnarmed, ?lineInRun,
    ?wakeCan, ?wakePort, ?snapshotBegins, ?snapshotSolved⟩
  case keyOff => exact fun s run key => State.next_of_pos rfl ⟨run, key⟩
  case keyOn => exact fun s units key => State.next_of_pos rfl ⟨units, key⟩
  case keyoffLimit =>
    intro s run key due idle ok
    exact ⟨_, State.next_of_pos rfl ⟨run, key, due, idle, by simp [ok]⟩, s.shutdown_power 1, rfl⟩
  case warm =>
    intro s rq sup run ok
    refine (State.next_of_pos rfl sup).trans ?_
    rw [State.rstReq_of_run run ok, if_pos rfl]
  case toWatch =>
    intro s rq sup run ok
    refine (State.next_of_pos rfl sup).trans ?_
    rw [State.rstReq_of_run run ok, if_neg (by decide), if_pos rfl]
  case flushed =>
    intro s down ok
    exact ⟨s.toWatch, State.next_of_pos rfl ⟨down, by simp [ok]⟩, rfl⟩
  case wakeKey =>
    intro s watch stood
    exact (State.next_of_pos rfl watch).trans (congrArg _ (if_neg (Nat.not_lt.mpr stood)))
  case lineUnarmed =>
    exact fun s watch off => exec_wakeLine_of_not_armed (by simp [watch]) (by simp [watch]) fun _ => off
  case lineInRun => exact fun s run => exec_wakeLine_of_not_armed (by simp [run]) (by simp [run]) (by simp [run])
  case wakeCan =>
    intro s n watch en sel
    exact (State.next_of_pos rfl watch).trans (congrArg _ (if_pos ⟨en, sel⟩))
  case wakePort => exact fun s watch en gone => State.next_of_pos rfl ⟨watch, en, by simp [gone]⟩
  case snapshotBegins =>
    intro s watch en due
    exact State.next_of_pos rfl ⟨watch, en, by rwa [State.snapTicks_eq]⟩
  case snapshotSolved =>
    intro s lat lon hu time unc watch snap fresh
    exact (State.next_of_pos rfl ⟨watch, snap⟩).trans (congrArg _ (if_pos (by simpa using fresh)))

/-! ### The cause of a wake -/

/-- The module in WATCH with a set on trial that has been started CONFIRM_STARTS times, 3 as reset leaves it, and not confirmed. -/
def State.watchOnTrial : State :=
  { State.reset with
    plat := { State.reset.plat with power := .watch }
    manager := { State.reset.manager with trial := true, tries := 3 } }

/-- KEY wakes that module into the set before, with cause ROLLBACK (R354). -/
theorem State.wake_watchOnTrial_cause : (State.watchOnTrial.wake 0).plat.cause = .rollback := by
  decide +kernel

/-- Refutes O6: a wake whose start would make TRIES exceed CONFIRM_STARTS has the cause ROLLBACK and not WAKE, as R354 demands.  The
state is `State.watchOnTrial`. -/
theorem not_wakingEntersStarting : ¬ Obligations.WakingEntersStarting := by
  unfold Obligations.WakingEntersStarting
  intro h
  obtain ⟨-, -, cause, -⟩ := h State.watchOnTrial 0 (by decide)
  rw [State.wake_watchOnTrial_cause] at cause
  exact StartCause.noConfusion cause

/-! ### Every output off -/

/-- From `s` to `t` no valve channel changes and no load channel that is off goes on. -/
structure StaysOff (s t : State) : Prop where
  valves : t.valves = s.valves
  loads : ∀ n, (s.load n).st = .off → (t.load n).st = .off

theorem StaysOff.same {s t : State} (v : t.valves = s.valves) (l : t.loads = s.loads) : StaysOff s t :=
  ⟨v, fun n h => by rwa [State.load, l]⟩

theorem StaysOff.trans {s t u : State} (a : StaysOff s t) (b : StaysOff t u) : StaysOff s u :=
  ⟨b.valves.trans a.valves, fun n h => b.loads n (a.loads n h)⟩

theorem StaysOff.refl (s : State) : StaysOff s s := .same rfl rfl

theorem State.load_modLoad_same (s : State) (n : Fin 48) (f : Load → Load) : (s.modLoad n f).load n = f (s.load n) :=
  upd_same _ _ _

theorem State.load_modLoad_other (s : State) {n m : Fin 48} (ne : m ≠ n) (f : Load → Load) : (s.modLoad n f).load m = s.load m :=
  upd_other _ _ _ _ ne

/-- A change of a load channel that does not switch it on. -/
theorem StaysOff.modLoad (s : State) (n : Fin 48) {f : Load → Load} (hf : ∀ l, l.st = .off → (f l).st = .off) :
    StaysOff s (s.modLoad n f) := by
  refine ⟨rfl, fun m h => ?_⟩
  by_cases e : m = n
  · rw [e, State.load_modLoad_same]
    exact hf _ (e ▸ h)
  · rwa [State.load_modLoad_other _ e]

/-- The stamp of a change of STATE is a register's. -/
theorem State.setLoad_loads (s : State) (n : Fin 48) (f : Load → Load) : (s.setLoad n f).loads = (s.modLoad n f).loads := by
  unfold State.setLoad
  dsimp only
  split <;> rfl

theorem State.setLoad_valves (s : State) (n : Fin 48) (f : Load → Load) : (s.setLoad n f).valves = s.valves := by
  unfold State.setLoad
  dsimp only
  split <;> rfl

theorem State.load_setLoad_same (s : State) (n : Fin 48) (f : Load → Load) : (s.setLoad n f).load n = f (s.load n) := by
  rw [State.load, State.setLoad_loads]
  exact s.load_modLoad_same n f

theorem StaysOff.setLoad (s : State) (n : Fin 48) {f : Load → Load} (hf : ∀ l, l.st = .off → (f l).st = .off) :
    StaysOff s (s.setLoad n f) :=
  (StaysOff.modLoad s n hf).trans (.same (s.setLoad_valves n f) (s.setLoad_loads n f))

theorem StaysOff.lcFlag (s : State) (n : Fin 48) (k : Nat) : StaysOff s (s.lcFlag n k) := by
  obtain ⟨r, c, l, e⟩ : ∃ r c l, s.lcFlag n k = { s with regs := r, cores := c, locks := l } := s.flag_eq ..
  exact .same (e ▸ rfl) (e ▸ rfl)

/-- The clamp energy of a switch-off may lock the channel, and switches nothing on (R213). -/
theorem StaysOff.clampIn (s : State) (n : Fin 48) (e : Nat) : StaysOff s (s.clampIn n e) := by
  unfold State.clampIn
  dsimp only
  generalize t₀ : (s.count LC_CLAMP_E.E e n.val).modLoad n (fun l => { l with acc := (s.load n).acc.add (Frac.of e 100) }) = t
  have counted : StaysOff s t :=
    t₀ ▸ (StaysOff.same rfl rfl : StaysOff s (s.count LC_CLAMP_E.E e n.val)).trans (.modLoad _ n fun _ h => h)
  have flagged (p : Prop) [Decidable p] : StaysOff s (if p then t.lcFlag n LC_FLAGS.CLAMP_OVER else t) := by
    split
    · exact counted.trans (.lcFlag t n _)
    · exact counted
  split
  · exact (flagged _).trans ((StaysOff.lcFlag _ n _).trans ((StaysOff.setLoad _ n fun _ _ => rfl).trans
      (.same (State.record_valves ..) (State.record_loads ..))))
  · exact flagged _

/-- A switch that opens into OFF leaves its channel off. -/
theorem State.openSwitch_off (s : State) (n : Fin 48) (e : Nat) :
    StaysOff s (s.openSwitch n .off e) ∧ ((s.openSwitch n .off e).load n).st = .off := by
  unfold State.openSwitch
  dsimp only
  generalize t₀ : s.setLoad n _ = t
  have opened : StaysOff s t ∧ (t.load n).st = .off :=
    t₀ ▸ ⟨StaysOff.setLoad s n fun _ _ => rfl, by rw [State.load_setLoad_same]⟩
  obtain ⟨kept, off⟩ := opened
  split
  · have clamped := StaysOff.clampIn ((t.putB LC_STAT.INRUSH false n.val).putB LC_STAT.AT_LIMIT false n.val) n e
    have shown : StaysOff t ((t.putB LC_STAT.INRUSH false n.val).putB LC_STAT.AT_LIMIT false n.val) := .same rfl rfl
    exact ⟨kept.trans (shown.trans clamped), clamped.loads n off⟩
  · exact ⟨kept.trans (.same rfl rfl), off⟩

/-- The step of `State.loadsDead`: one load channel goes off. -/
def State.loadDead (s : State) (n : Fin 48) : State :=
  ((s.openSwitch n .off (Config.clampEnergy n.val s.free)).setLoad n fun l => { l with held := false, cmd := .off, duty := 0 }).fresh

theorem State.loadDead_off (s : State) (n : Fin 48) : StaysOff s (s.loadDead n) ∧ ((s.loadDead n).load n).st = .off := by
  obtain ⟨kept, off⟩ := s.openSwitch_off n (Config.clampEnergy n.val s.free)
  have cleared := StaysOff.setLoad (s.openSwitch n .off (Config.clampEnergy n.val s.free)) n
    (f := fun l => { l with held := false, cmd := .off, duty := 0 }) fun _ h => h
  exact ⟨(kept.trans cleared).trans (.same rfl rfl), cleared.loads n off⟩

/-- Each load channel that goes off in turn stays off as the others follow. -/
theorem State.foldl_loadDead_off (l : List (Fin 48)) (s : State) :
    StaysOff s (l.foldl State.loadDead s) ∧ ∀ n ∈ l, ((l.foldl State.loadDead s).load n).st = .off := by
  induction l generalizing s with
  | nil => exact ⟨.refl s, fun n h => absurd h List.not_mem_nil⟩
  | cons m l ih =>
    obtain ⟨kept, off⟩ := s.loadDead_off m
    obtain ⟨rest, offs⟩ := ih (s.loadDead m)
    refine ⟨kept.trans rest, fun n h => ?_⟩
    rcases List.mem_cons.mp h with rfl | h
    · exact rest.loads n off
    · exact offs n h

theorem Load.live_of_off {l : Load} (h : l.st = .off) : l.live = false := by
  rw [Load.live, h]

/-- As at power loss, nothing is energised and nothing waits to be (R37). -/
theorem State.outputsDead_outputsOff (s : State) : s.outputsDead.outputsOff := by
  obtain ⟨kept, off⟩ : StaysOff s.valveDead s.outputsDead ∧ ∀ n ∈ List.finRange 48, (s.outputsDead.load n).st = .off :=
    State.foldl_loadDead_off (List.finRange 48) s.valveDead
  constructor
  · intro v hv
    have hv : v ∈ s.valveDead.valves := kept.valves ▸ hv
    obtain ⟨w, -, rfl⟩ := Vector.mem_map.mp hv
    rfl
  · intro l hl
    obtain ⟨k, hk, rfl⟩ := Vector.mem_iff_getElem.mp hl
    have st : (s.outputsDead.load ⟨k, hk⟩).st = .off := off ⟨k, hk⟩ (List.mem_finRange _)
    exact Load.live_of_off st

/-! ### Clocks, the ends of hold, the ESTOP loop -/

/-- The hold of a valve channel whose mode is not the other one ends at its time, with a switch-off. -/
theorem State.valveTimeOut_of_due {s : State} {c : Fin 32} {why : HoldEnd} {mode : Nat} (held : (s.valve c).held = true)
    (other : s.osvVd c % 4 ≠ mode) (due : (s.valve c).onset + s.holdTicks why ≤ s.mtc) :
    s.valveTimeOut c why mode = ((s.endValveHold c why).switchFast c).count OSV_STAT.TIMEOUT_CNT :=
  if_pos (by simp [held, other, due])

/-- A valve channel is found by its number. -/
theorem State.holdTimeOut_valve (s : State) (c : Fin 32) (why : HoldEnd) (mode : Nat) :
    s.holdTimeOut false c.val why mode = s.valveTimeOut c why mode :=
  dif_pos c.isLt

/-- A loop that was open closes: PWR_STATE shows it, and a record, and no channel changes (R40). -/
theorem exec_estopClose_of_open {s : State} (power : s.plat.power ≠ .off) (isOpen : s.plat.loopClosed = false) :
    exec .estopClose s =
      .next ((s.modPlat fun p => { p with loopClosed := true }).estopShow.record .estop platNode [1, 0, 0, 0]) :=
  (State.next_of_neg rfl power).trans (congrArg _ (if_neg (by simp [isOpen])))

/-- The end of a test pulse in which the loop did not open (R369). -/
theorem exec_estopTestPulseEnd_of_not_opening {s : State} (power : s.plat.power ≠ .off) (test : s.plat.estopTest = true)
    (shut : s.plat.loopOpening = false) (fed : Bool) :
    exec (.estopTestPulseEnd fed) s = .next (
      let t := s.modPlat fun p => { p with estopTest := false, loopOpening := false }
      if fed then t.estopFault else t.estopPassed) := by
  refine (State.next_of_neg rfl (by simp [power, test])).trans ?_
  simp [shut]

/-- A test pulse passed by a loop that stands in no fault only counts. -/
theorem State.estopPassed_of_not_fed {s : State} (h : s.plat.estopFed = false) :
    s.estopPassed = s.modPlat fun p => { p with estopPass := min 3 (p.estopPass + 1) } :=
  if_neg (by simp [h])

/-- Settles O7: each command is its condition, with the effect where that holds; the outputs go off channel by channel.  That
TCXO_STOP leaves the rest of the state, and that either time ends the hold of a rewritten mode, is log entry 57; that an opening in a
test pulse waits for its end is log entry 45. -/
theorem clocksHoldAndEstop : Obligations.ClocksHoldAndEstop := by
  unfold Obligations.ClocksHoldAndEstop
  refine ⟨fun s run => State.next_of_neg rfl run, fun s => ⟨rfl, s.outputsDead_outputsOff⟩, ?holdTime, ?abortTime, ?sealed, ?sealRefused,
    ?opens, ?closes, fun s power => State.next_of_neg rfl power, ?testFed, ?testPassed⟩
  case holdTime =>
    intro s c held mode due
    exact congrArg _ ((s.holdTimeOut_valve c _ _).trans (State.valveTimeOut_of_due (why := .timeout) held mode due))
  case abortTime =>
    intro s c held mode due
    exact congrArg _ ((s.holdTimeOut_valve c _ _).trans (State.valveTimeOut_of_due (why := .abort) held mode due))
  case sealed =>
    intro s rq sup good
    exact (State.next_of_pos rfl sup).trans (congrArg _ (if_neg (by simp [good])))
  case sealRefused => exact fun s rq sup bad => (State.next_of_pos rfl sup).trans (congrArg _ (if_pos bad))
  case opens =>
    intro s power closed test
    exact (State.next_of_neg rfl (by simp [power, closed])).trans (congrArg _ (if_neg (by simp [test])))
  case closes =>
    intro s power isOpen
    refine ⟨_, exec_estopClose_of_open power isOpen, ?_, ?_, ?_⟩ <;> simp [State.estopShow]
  case testFed => exact fun s power test shut => exec_estopTestPulseEnd_of_not_opening power test shut true
  case testPassed =>
    intro s power test shut fed
    exact (exec_estopTestPulseEnd_of_not_opening power test shut false).trans (congrArg _ (State.estopPassed_of_not_fed fed))

end Sys2Proof.Machine

/-! PROOFS.  The words of Mavalor: what the encoder writes the decoder reads back, and no other word decodes (R48, R49). -/

namespace Sys2Proof.Machine

/-! ### The fields of a word in its four formats (Table 3.2) -/

section Fields

variable {op fn : Nat} (a b d e : Fin 32) (imm : BitVec 16) (off : BitVec 26)

@[simp] theorem wordField_wordReg_op (hop : op < 64) (hfn : fn < 2048) : wordField (wordReg op a b d fn) 26 6 = op := by
  simp only [wordField, wordReg, BitVec.toNat_ofNat]; omega

@[simp] theorem wordRegNo_wordReg_a (hfn : fn < 2048) : wordRegNo (wordReg op a b d fn) 21 = a := by
  simp only [wordRegNo, wordField, wordReg, BitVec.toNat_ofNat, Fin.ext_iff]; omega

@[simp] theorem wordRegNo_wordReg_b (hfn : fn < 2048) : wordRegNo (wordReg op a b d fn) 16 = b := by
  simp only [wordRegNo, wordField, wordReg, BitVec.toNat_ofNat, Fin.ext_iff]; omega

@[simp] theorem wordRegNo_wordReg_c (hfn : fn < 2048) : wordRegNo (wordReg op a b d fn) 11 = d := by
  simp only [wordRegNo, wordField, wordReg, BitVec.toNat_ofNat, Fin.ext_iff]; omega

@[simp] theorem wordField_wordReg_fn (hfn : fn < 2048) : wordField (wordReg op a b d fn) 0 11 = fn := by
  simp only [wordField, wordReg, BitVec.toNat_ofNat]; omega

@[simp] theorem wordField_wordImm_op (hop : op < 64) : wordField (wordImm op a b imm) 26 6 = op := by
  simp only [wordField, wordImm, BitVec.toNat_ofNat]; omega

@[simp] theorem wordRegNo_wordImm_a : wordRegNo (wordImm op a b imm) 21 = a := by
  simp only [wordRegNo, wordField, wordImm, BitVec.toNat_ofNat, Fin.ext_iff]; omega

@[simp] theorem wordRegNo_wordImm_b : wordRegNo (wordImm op a b imm) 16 = b := by
  simp only [wordRegNo, wordField, wordImm, BitVec.toNat_ofNat, Fin.ext_iff]; omega

@[simp] theorem wordField_wordImm_imm : BitVec.ofNat 16 (wordField (wordImm op a b imm) 0 16) = imm := by
  apply BitVec.eq_of_toNat_eq
  simp only [wordField, wordImm, BitVec.toNat_ofNat]; omega

@[simp] theorem wordField_wordQuad_op (hop : op < 64) (hfn : fn < 64) : wordField (wordQuad op a b d e fn) 26 6 = op := by
  simp only [wordField, wordQuad, BitVec.toNat_ofNat]; omega

@[simp] theorem wordRegNo_wordQuad_a (hfn : fn < 64) : wordRegNo (wordQuad op a b d e fn) 21 = a := by
  simp only [wordRegNo, wordField, wordQuad, BitVec.toNat_ofNat, Fin.ext_iff]; omega

@[simp] theorem wordRegNo_wordQuad_b (hfn : fn < 64) : wordRegNo (wordQuad op a b d e fn) 16 = b := by
  simp only [wordRegNo, wordField, wordQuad, BitVec.toNat_ofNat, Fin.ext_iff]; omega

@[simp] theorem wordRegNo_wordQuad_c (hfn : fn < 64) : wordRegNo (wordQuad op a b d e fn) 11 = d := by
  simp only [wordRegNo, wordField, wordQuad, BitVec.toNat_ofNat, Fin.ext_iff]; omega

@[simp] theorem wordRegNo_wordQuad_d (hfn : fn < 64) : wordRegNo (wordQuad op a b d e fn) 6 = e := by
  simp only [wordRegNo, wordField, wordQuad, BitVec.toNat_ofNat, Fin.ext_iff]; omega

@[simp] theorem wordField_wordQuad_fn (hfn : fn < 64) : wordField (wordQuad op a b d e fn) 0 6 = fn := by
  simp only [wordField, wordQuad, BitVec.toNat_ofNat]; omega

@[simp] theorem wordField_wordJump_op (hop : op < 64) : wordField (wordJump op off) 26 6 = op := by
  simp only [wordField, wordJump, BitVec.toNat_ofNat]; omega

@[simp] theorem wordField_wordJump_off : BitVec.ofNat 26 (wordField (wordJump op off) 0 26) = off := by
  apply BitVec.eq_of_toNat_eq
  simp only [wordField, wordJump, BitVec.toNat_ofNat]; omega

end Fields

/-! ### A word is made of its fields -/

section Word

variable {w : Word} {op : Nat} (h : wordField w 26 6 = op)

include h

theorem wordReg_fields : wordReg op (wordRegNo w 21) (wordRegNo w 16) (wordRegNo w 11) (wordField w 0 11) = w := by
  apply BitVec.eq_of_toNat_eq
  simp only [← h, wordRegNo, wordField, wordReg, BitVec.toNat_ofNat]
  omega

theorem wordImm_fields : wordImm op (wordRegNo w 21) (wordRegNo w 16) (BitVec.ofNat 16 (wordField w 0 16)) = w := by
  apply BitVec.eq_of_toNat_eq
  simp only [← h, wordRegNo, wordField, wordImm, BitVec.toNat_ofNat]
  omega

theorem wordQuad_fields :
    wordQuad op (wordRegNo w 21) (wordRegNo w 16) (wordRegNo w 11) (wordRegNo w 6) (wordField w 0 6) = w := by
  apply BitVec.eq_of_toNat_eq
  simp only [← h, wordRegNo, wordField, wordQuad, BitVec.toNat_ofNat]
  omega

theorem wordJump_fields : wordJump op (BitVec.ofNat 26 (wordField w 0 26)) = w := by
  apply BitVec.eq_of_toNat_eq
  simp only [← h, wordField, wordJump, BitVec.toNat_ofNat]
  omega

end Word

/-! ### What is encoded decodes -/

/-- The decoder finds in an encoded word the OP, FN, registers and immediate that the encoder put there, and its tables answer the
command.  A command that is no instruction has no word. -/
theorem decodeWord_of_encode {i : Instr} {c : Fin 16} {env : Env} {w : Word} (h : encode i = some (c, env, w)) :
    decodeWord c env w = some i := by
  cases i
  all_goals cases h
  -- the fields are read back; what is left of a register form is its table at a number of FN
  all_goals simp [decodeWord]
  all_goals rfl

/-! ### What decodes is the encoding -/

/-- The answer `t` of a table for the word `w`, where it is a command, is one that `w` encodes. -/
def Spells (c : Fin 16) (w : Word) (t : Option Instr) : Prop := ∀ i, t = some i → ∃ env, encode i = some (c, env, w)

section Tables

variable {c : Fin 16} {w : Word} {i : Instr}

@[simp] theorem spells_none : Spells c w none := fun _ h => nomatch h

@[simp] theorem spells_some : Spells c w (some i) ↔ ∃ env, encode i = some (c, env, w) :=
  ⟨fun h => h i rfl, by rintro h _ ⟨⟩; exact h⟩

/-- A word whose fields marked "0" are not zero spells nothing. -/
@[simp] theorem spells_only {p : Bool} : Spells c w (only p i) ↔ (p = true → ∃ env, encode i = some (c, env, w)) := by
  cases p <;> simp [only]

theorem spells_of_eq {v : Word} {t : Option Instr} (e : v = w) (h : Spells c v t) : Spells c w t := e ▸ h

variable {env : Env} {op fn : Nat} {a b d e : Fin 32} {imm : BitVec 16}

/-! Row by row of each table, the row's command has the row's OP and FN, and zero where a field is marked "0". -/

theorem decode01_spells : Spells c (wordReg 0x01 a b d fn) (decode01 c env fn a b d) := by
  fun_cases decode01 c env fn a b d <;> simp +contextual [encode]

theorem decode0A_spells : Spells c (wordReg 0x0A a b d fn) (decode0A c env fn a b d) := by
  fun_cases decode0A c env fn a b d <;> simp [encode]

theorem decode20_spells : Spells c (wordReg 0x20 a b d fn) (decode20 c env fn a b d) := by
  fun_cases decode20 c env fn a b d <;> simp +contextual [encode]

theorem decode24_spells : Spells c (wordReg 0x24 a b d fn) (decode24 c env fn a b d) := by
  fun_cases decode24 c env fn a b d <;> simp +contextual [encode]

theorem decode25_spells : Spells c (wordReg 0x25 a b d fn) (decode25 c env fn a b d) := by
  fun_cases decode25 c env fn a b d <;> simp +contextual [encode]

theorem decode28_spells : Spells c (wordReg 0x28 a b d fn) (decode28 c env fn a b d) := by
  fun_cases decode28 c env fn a b d <;> simp +contextual [encode]

theorem decode2C_spells : Spells c (wordReg 0x2C a b d fn) (decode2C c env fn a b d) := by
  fun_cases decode2C c env fn a b d <;> simp [encode]

theorem decode2D_spells : Spells c (wordReg 0x2D a b d fn) (decode2D c env fn a b d) := by
  fun_cases decode2D c env fn a b d <;> simp [encode]

theorem decode2E_spells : Spells c (wordReg 0x2E a b d fn) (decode2E c env fn a b d) := by
  fun_cases decode2E c env fn a b d <;> simp [encode]

theorem decode31_spells : Spells c (wordReg 0x31 a b d fn) (decode31 c env fn a b d) := by
  fun_cases decode31 c env fn a b d <;> simp +contextual [encode]

theorem decode21_spells : Spells c (wordQuad 0x21 a b d e fn) (decode21 c fn a b d e) := by
  fun_cases decode21 c fn a b d e <;> simp [encode]

theorem decodeImm_spells : Spells c (wordImm op a b imm) (decodeImm c env op a b imm) := by
  fun_cases decodeImm c env op a b imm <;> simp +contextual [encode]

end Tables

/-- A word is the encoding of the command that it decodes to: its OP names its table. -/
theorem decodeWord_spells (c : Fin 16) (env : Env) (w : Word) : Spells c w (decodeWord c env w) := by
  fun_cases decodeWord c env w
  case case1 op => exact spells_of_eq (wordReg_fields op) decode01_spells
  case case2 op => exact spells_of_eq (wordReg_fields op) decode0A_spells
  case case3 op => exact spells_of_eq (wordReg_fields op) decode20_spells
  case case4 op => exact spells_of_eq (wordReg_fields op) decode24_spells
  case case5 op => exact spells_of_eq (wordReg_fields op) decode25_spells
  case case6 op => exact spells_of_eq (wordReg_fields op) decode28_spells
  case case7 op => exact spells_of_eq (wordReg_fields op) decode2C_spells
  case case8 op => exact spells_of_eq (wordReg_fields op) decode2D_spells
  case case9 op => exact spells_of_eq (wordReg_fields op) decode2E_spells
  case case10 op => exact spells_of_eq (wordReg_fields op) decode31_spells
  case case11 op => exact spells_of_eq (wordQuad_fields op) decode21_spells
  case case12 op | case13 op => exact spells_some.mpr ⟨_, congrArg (fun v => some (c, _, v)) (wordJump_fields op)⟩
  case case14 => exact spells_of_eq (wordImm_fields rfl) decodeImm_spells

/-- Settles O57: the fields of a word are read back as they were written, and a word is made of its fields. -/
theorem encodingRoundTrip : Obligations.EncodingRoundTrip := by
  unfold Obligations.EncodingRoundTrip
  exact ⟨fun _ _ _ _ => decodeWord_of_encode, fun i c env w h => decodeWord_spells c env w i h⟩

end Sys2Proof.Machine

/-! PROOFS.  The integer instructions of Mavalor: the register and immediate forms, the multiplies, division, branches and jumps. -/

namespace Sys2Proof.Machine

/-! ### Register forms, immediates, multiplies (Tables 3.4 to 3.6) -/

theorem wordB_eq_ite (b : Bool) : wordB b = if b then 1 else 0 := by cases b <;> rfl

/-- Settles O8: a register form changes the context alone, and of its program counter nothing, so that a calm core with room does that
and steps to the next address (`plain_calm`). -/
theorem integerRegisterForms : Obligations.IntegerRegisterForms := by
  unfold Obligations.IntegerRegisterForms
  refine ⟨?add, ?sub, ?and, ?or, ?xor, ?nor, ?slt, ?sltu, ?sll, ?srl, ?sra, ?slli, ?srli, ?srai, ?adds, ?subs, ?min, ?max, ?minu,
    ?maxu, ?clz, ?sextb, ?sexth, ?nop⟩
  case slt | sltu =>
    exact fun s c a b d calm room => (plain_calm calm room (setG_pc ..)).trans (by simp only [wordB_eq_ite])
  case clz | sextb | sexth => exact fun s c a b calm room => plain_calm calm room (setG_pc ..)
  case nop => exact fun s c calm room => plain_calm calm room rfl
  all_goals exact fun s c a b d calm room => plain_calm calm room (setG_pc ..)

theorem asr_eq_div (v : Int) (n : Nat) : asr v n = v / 2 ^ n := Int.fdiv_eq_ediv_of_nonneg v (Int.pow_nonneg (by decide))

/-- Settles O10: like the register forms, each changes one register of the context. -/
theorem immediateAndMultiplyForms : Obligations.ImmediateAndMultiplyForms := by
  unfold Obligations.ImmediateAndMultiplyForms
  refine ⟨?addi, ?andi, ?ori, ?xori, ?slti, ?sltiu, ?lui, ?mul, ?mulh, ?mulhu⟩
  case addi | andi | ori | xori => exact fun s c a b imm calm room => plain_calm calm room (setG_pc ..)
  case slti | sltiu =>
    exact fun s c a b imm calm room => (plain_calm calm room (setG_pc ..)).trans (by simp only [wordB_eq_ite, sext16])
  case lui => exact fun s c a imm calm room => plain_calm calm room (setG_pc ..)
  case mul | mulhu => exact fun s c a b d calm room => plain_calm calm room (setG_pc ..)
  case mulh =>
    exact fun s c a b d calm room => (plain_calm calm room (setG_pc ..)).trans (by simp only [asr_eq_div, wordZ])

/-! ### Branches and jumps (Table 3.8, R55) -/

/-- A transfer to a target in ITCM goes there. -/
theorem issue_transfer_calm {s : State} {c : Fin 16} {n : Nat} {target : Word} {f : Ctx → Ctx} (calm : s.calm c = true)
    (good : inItcm target = true) : s.issue c (s.transfer c n target f) = .next (s.went c n target f) := by
  rw [issue_calm calm, transfer_calm calm good]

/-- A transfer to a bad target takes FETCH. -/
theorem issue_transfer_bad {s : State} {c : Fin 16} {n : Nat} {target : Word} {f : Ctx → Ctx} (calm : s.calm c = true)
    (exl : (s.core c).exl = false) (bad : inItcm target = false) :
    s.issue c (s.transfer c n target f) =
      .next (s.modCore c fun k => k.enter (s.status c) ⟨0x03, 0, false, (s.ctx c).pc, target⟩) := by
  rw [issue_calm calm, transfer_bad exl bad]

/-- A branch whose condition holds goes to its target, where that lies in ITCM. -/
theorem branch_taken {s : State} {c : Fin 16} {a b : Fin 32} {imm : BitVec 16} {p : Word → Word → Bool} (calm : s.calm c = true)
    (cond : p ((s.ctx c).getG a) ((s.ctx c).getG b) = true) (target : inItcm ((s.ctx c).pc + imm.signExtend 32 * 4) = true) :
    s.branch c a b imm p = .next (s.went c 2 ((s.ctx c).pc + imm.signExtend 32 * 4) fun x => x) := by
  rw [State.branch, if_pos cond]
  exact issue_transfer_calm calm target

/-- A branch whose condition fails is followed by the next instruction. -/
theorem branch_not_taken {s : State} {c : Fin 16} {a b : Fin 32} {imm : BitVec 16} {p : Word → Word → Bool} (calm : s.calm c = true)
    (room : s.room c = true) (cond : p ((s.ctx c).getG a) ((s.ctx c).getG b) = false) :
    s.branch c a b imm p = .next (s.did c 1 fun x => x) := by
  rw [State.branch, if_neg (by simp [cond])]
  exact plain_calm calm room rfl

/-- A branch that is taken to a bad target takes FETCH. -/
theorem branch_bad {s : State} {c : Fin 16} {a b : Fin 32} {imm : BitVec 16} {p : Word → Word → Bool} (calm : s.calm c = true)
    (exl : (s.core c).exl = false) (cond : p ((s.ctx c).getG a) ((s.ctx c).getG b) = true)
    (target : inItcm ((s.ctx c).pc + imm.signExtend 32 * 4) = false) :
    s.branch c a b imm p =
      .next (s.modCore c fun k => k.enter (s.status c) ⟨0x03, 0, false, (s.ctx c).pc, (s.ctx c).pc + imm.signExtend 32 * 4⟩) := by
  rw [State.branch, if_pos cond]
  exact issue_transfer_bad calm exl target

/-- Settles O17: each branch is `State.branch` with its own condition. -/
theorem branches : Obligations.Branches := by
  unfold Obligations.Branches
  refine ⟨?beqT, ?beqN, ?bneT, ?bneN, ?bltT, ?bltN, ?bgeT, ?bgeN, ?bltuT, ?bltuN, ?bgeuT, ?bgeuN⟩
  case beqT | bneT => exact fun s c a b imm calm cond target => branch_taken calm (by simpa using cond) target
  case beqN | bneN => exact fun s c a b imm calm room cond => branch_not_taken calm room (by simpa using cond)
  case bltT => exact fun s c a b imm calm cond target => branch_taken calm (BitVec.slt_iff_toInt_lt.mpr cond) target
  case bltN =>
    exact fun s c a b imm calm room cond => branch_not_taken calm room (by simpa [BitVec.slt_eq_decide] using cond)
  case bgeT =>
    exact fun s c a b imm calm cond target =>
      branch_taken (p := fun x y => !x.slt y) calm (by simpa [BitVec.slt_eq_decide] using cond) target
  case bgeN =>
    exact fun s c a b imm calm room cond =>
      branch_not_taken (p := fun x y => !x.slt y) calm room (by simpa [BitVec.slt_eq_decide] using cond)
  case bltuT => exact fun s c a b imm calm cond target => branch_taken calm (BitVec.ult_iff_toNat_lt.mpr cond) target
  case bltuN =>
    exact fun s c a b imm calm room cond => branch_not_taken calm room (by simpa [BitVec.ult_eq_decide] using cond)
  case bgeuT =>
    exact fun s c a b imm calm cond target =>
      branch_taken (p := fun x y => !x.ult y) calm (by simpa [BitVec.ult_eq_decide] using cond) target
  case bgeuN =>
    exact fun s c a b imm calm room cond =>
      branch_not_taken (p := fun x y => !x.ult y) calm room (by simpa [BitVec.ult_eq_decide] using cond)

/-! ### Control transfers and the end of ITCM (R55) -/

/-- A core that executes in a context has that context changed. -/
theorem Core.ctx_modCtx_of_context {k : Core} (h : k.inIdle = true ∨ ∃ e a, k.cur = some e ∧ k.act e = some a) (f : Ctx → Ctx) :
    (k.modCtx f).ctx = f k.ctx := by
  rcases k.ctx_modCtx f with changed | ⟨-, idle, absent⟩
  · exact changed
  · obtain inIdle | ⟨e, a, cur, act⟩ := h
    · exact absurd inIdle (by simp [idle])
    · exact absurd act (by simp [absent e cur])

/-- The context after an instruction that ends normally. -/
theorem State.ctx_did {s : State} {c : Fin 16} (h : s.hasContext c) (n : Nat) (f : Ctx → Ctx) :
    (s.did c n f).ctx c = (f (s.ctx c)).next := by
  rw [State.ctx, State.did, State.modCtx, core_modCore_same, State.spend, core_modCore_same]
  exact Core.ctx_modCtx_of_context (k := { s.core c with cyc := (s.core c).cyc + n }) h _

/-- An instruction that ends normally leaves the rest of its core alone. -/
theorem State.core_did_fields (s : State) (c : Fin 16) (n : Nat) (f : Ctx → Ctx) :
    ((s.did c n f).core c).busErr = (s.core c).busErr ∧ ((s.did c n f).core c).exl = (s.core c).exl := by
  obtain ⟨-, busErr, -, -, -, -, -, exl, -⟩ := modCtx_fields { s.core c with cyc := (s.core c).cyc + n } fun x => (f x).next
  simp only [State.did, State.modCtx, State.spend, core_modCore_same]
  exact ⟨busErr, exl⟩

/-- The instruction at 0xFFFC completes, and FETCH follows it. -/
theorem retire_last {s : State} {c : Fin 16} {n : Nat} {f : Ctx → Ctx} (calm : s.calm c = true) (ctx : s.hasContext c)
    (exl : (s.core c).exl = false) (keeps : ∀ x, (f x).pc = x.pc) (last : (s.ctx c).pc = 0xFFFC) :
    s.retire c n f = (((s.did c n f).modCtx c fun x => { x with pc := 0xFFFC }).modCore c fun k =>
      k.enter (((s.did c n f).modCtx c fun x => { x with pc := 0xFFFC }).status c) ⟨0x03, 0, false, 0xFFFC, 0x10000⟩) := by
  have pc : ((s.did c n f).ctx c).pc = 0x10000 := by
    rw [State.ctx_did ctx, Ctx.next, keeps, last]; rfl
  have past : ((s.did c n f).ctx c).past = true := by rw [Ctx.past, pc]; rfl
  obtain ⟨busErr, exl'⟩ := s.core_did_fields c n f
  have noErr : (s.core c).busErr = [] := by
    simp only [State.calm, Bool.and_eq_true, List.isEmpty_iff] at calm
    exact calm.1.1.1.2
  rw [noErr] at busErr
  change (s.did c n f).bound c = _
  rw [State.bound, State.cause, past, Bool.or_true, if_pos rfl, State.takeCause]
  simp only [busErr, past, if_true]
  refine exc_calm ?_
  rw [State.modCtx, core_modCore_same]
  obtain ⟨-, -, -, -, -, -, -, kept, -⟩ := modCtx_fields ((s.did c n f).core c) fun x => { x with pc := 0xFFFC }
  rw [kept, exl', exl]

/-- Settles O18: jumps are transfers, taken branches too; a faulting transfer counts no cycles of its own (log entry 46). -/
theorem controlTransfers : Obligations.ControlTransfers := by
  unfold Obligations.ControlTransfers
  refine ⟨?jump, ?jalr, ?jalrBad, ?jumpBad, ?beq, ?bne, ?blt, ?bge, ?bltu, ?bgeu, ?eret, ?last, ?add, fun _ _ => rfl⟩
  case jump => exact fun s c off calm good => ⟨issue_transfer_calm calm good, issue_transfer_calm calm good⟩
  case jalr => exact fun s c a b imm calm good => issue_transfer_calm calm good
  case jalrBad => exact fun s c a b imm calm exl bad => issue_transfer_bad calm exl bad
  case jumpBad => exact fun s c off calm exl bad => ⟨issue_transfer_bad calm exl bad, issue_transfer_bad calm exl bad⟩
  case beq | bne => exact fun s c a b imm calm exl cond bad => branch_bad calm exl (by simpa using cond) bad
  case blt => exact fun s c a b imm calm exl cond bad => branch_bad calm exl (BitVec.slt_iff_toInt_lt.mpr cond) bad
  case bltu => exact fun s c a b imm calm exl cond bad => branch_bad calm exl (BitVec.ult_iff_toNat_lt.mpr cond) bad
  case bge =>
    exact fun s c a b imm calm exl cond bad =>
      branch_bad (p := fun x y => !x.slt y) calm exl (by simpa [BitVec.slt_eq_decide] using cond) bad
  case bgeu =>
    exact fun s c a b imm calm exl cond bad =>
      branch_bad (p := fun x y => !x.ult y) calm exl (by simpa [BitVec.ult_eq_decide] using cond) bad
  case eret =>
    intro s c calm priv idle bad
    refine (issue_calm calm _).trans (congrArg _ ?_)
    simp only [priv, if_true, State.eret, idle, Bool.false_eq_true, if_false, decide_eq_true bad]
    rfl
  case last => exact fun s c n f calm ctx exl keeps last => retire_last calm ctx exl keeps last
  case add => exact fun s c a b d calm => issue_calm calm _

end Sys2Proof.Machine

/-! PROOFS.  A core whose list holds two activations of one entry: an instruction acts on each with that one's registers, not with the
registers of the context in which the core executes. -/

namespace Sys2Proof.Machine

/-- A second activation of entry 0, whose registers differ from those of the first. -/
def secondTwin : Act := ⟨0, (Ctx.zero.setG 3 1).setF 2 0x3F800000, none, 0, false⟩

/-- A module in RUN whose core 0 executes entry 0, and lists two activations of it: one as a start leaves it, then `secondTwin`. -/
def State.twins : State :=
  { State.reset with plat := { State.reset.plat with power := .run } }.modCore 0 fun k =>
    { k with life := .running, cur := some 0, acts := [⟨0, Ctx.zero, none, 0, false⟩, secondTwin] }

theorem State.twins_calm : State.twins.calm 0 = true := by decide

theorem State.twins_room : State.twins.room 0 = true := by decide

/-- What an instruction does, it does to the second activation too, from that one's own context. -/
theorem State.twins_did (n : Nat) (f : Ctx → Ctx) :
    ((State.twins.did 0 n f).core 0).acts[1]?.map Act.ctx = some (f secondTwin.ctx).next := rfl

/-- Two effects that lead to one state agree on the second activation. -/
theorem State.twins_did_inj {n : Nat} {f g : Ctx → Ctx} {o : Host.Outcome State Fault Refusal}
    (hf : o = .next (State.twins.did 0 n f)) (hg : o = .next (State.twins.did 0 n g)) :
    (f secondTwin.ctx).next = (g secondTwin.ctx).next := by
  have same := Host.Outcome.next.inj (hf.symm.trans hg)
  exact Option.some.inj (by rw [← State.twins_did n f, ← State.twins_did n g, same])

/-- Refutes O11: the quotient is that of the activation which executes, and `State.did` writes it into every listed activation of that
entry, where the instruction divides the registers of each.  The state is `State.twins`: 0 / 0 in the first, 0 / 1 in the second. -/
theorem not_divisionTakes18Cycles : ¬ Obligations.DivisionTakes18Cycles := by
  unfold Obligations.DivisionTakes18Cycles
  rintro ⟨division, -⟩
  obtain ⟨div, -⟩ := division State.twins 0 1 2 3 State.twins_calm State.twins_room
  have same := congrArg (·.getG 1) (State.twins_did_inj (plain_calm State.twins_calm State.twins_room (setG_pc ..)) div)
  revert same
  decide

/-! ### Float results -/

section Calm

variable {s : State} {c : Fin 16} (calm : s.calm c = true) (room : s.room c = true)

include calm room

/-- A float result of a calm core that takes no FLOAT: one word and its flags, of the context in which the core executes. -/
theorem floated_calm {n : Nat} {r : Word × Nat} {dest : Ctx → Word → Ctx} (free : s.untrapped c r.2 = true)
    (keeps : ∀ y v, (dest y v).pc = y.pc) :
    s.issue c (s.floated c n r dest) = .next (s.did c n fun y => (dest y r.1).raised r.2) := by
  rw [State.floated, if_neg (by simpa only [State.untrapped, Bool.not_eq_true', Bool.not_eq_true] using free)]
  exact plain_calm calm room (keeps _ _)

theorem floatCmp_calm {fn : Nat} {a b d : Fin 32} {f : FVal → FVal → Nat × Nat} (ok : (okF b && okF d) = true)
    (free : s.untrapped c (f (fOf ((s.ctx c).getF b)) (fOf ((s.ctx c).getF d))).2 = true) :
    s.floatCmp c fn a b d f = .next (s.did c 1 fun y =>
      (y.setG a (BitVec.ofNat 32 (f (fOf ((s.ctx c).getF b)) (fOf ((s.ctx c).getF d))).1)).raised
        (f (fOf ((s.ctx c).getF b)) (fOf ((s.ctx c).getF d))).2) := by
  rw [State.floatCmp, State.checked_of_ok ok]
  exact floated_calm calm room free fun _ _ => setG_pc ..

theorem float2_calm {n fn : Nat} {a b : Fin 32} {f : Word → Word × Nat} (ok : (okF a && okF b) = true)
    (free : s.untrapped c (f ((s.ctx c).getF b)).2 = true) :
    s.float2 c n fn a b f = .next (s.did c n fun y => (y.setF a (f ((s.ctx c).getF b)).1).raised (f ((s.ctx c).getF b)).2) := by
  rw [State.float2, State.checked_of_ok ok]
  exact floated_calm calm room free fun _ _ => rfl

end Calm

/-- Refutes O19: the model compares the f registers of the context in which the core executes and writes the result into every listed
activation of that entry, where the statement has each one's own comparison.  In `State.twins` 0 = 0 holds of the first, and 1.0 = 0
fails of the second. -/
theorem not_floatArithmetic : ¬ Obligations.FloatArithmetic := by
  unfold Obligations.FloatArithmetic
  rintro ⟨-, -, -, -, -, -, -, feq, -⟩
  have own := feq State.twins 0 1 2 3 State.twins_calm State.twins_room (by decide) (by decide) (by decide)
  have same := congrArg (·.getG 1) (State.twins_did_inj
    (floatCmp_calm (fn := 0x00A) (a := 1) (b := 2) (d := 3) (f := fEq) State.twins_calm State.twins_room rfl (by decide)) own)
  revert same
  decide

/-- Refutes O20: as with the arithmetic, FMOV writes the f register of the context in which the core executes into every listed
activation of that entry.  In `State.twins` f2 is 0 in the first and 1.0 in the second. -/
theorem not_floatMovesAndConversions : ¬ Obligations.FloatMovesAndConversions := by
  unfold Obligations.FloatMovesAndConversions
  rintro ⟨-, -, fmov, -⟩
  have own := fmov State.twins 0 1 2 State.twins_calm State.twins_room (by decide) (by decide)
  have same := congrArg (·.getF 1) (State.twins_did_inj
    (float2_calm (n := 1) (fn := 0x009) (a := 1) (b := 2) (f := fun x => (x, 0)) State.twins_calm State.twins_room rfl (by decide)) own)
  revert same
  decide

end Sys2Proof.Machine

/-! PROOFS.  Loads and stores of Mavalor: each region's load and store, posted stores, and why a store to a DTCM may not read back. -/

namespace Sys2Proof.Machine

open Sys2Proof.Reg

/-! ### Loads (Table 3.7, R53) -/

/-- An aligned address below 0x1_0000 is one of ITCM, which every core may read. -/
theorem place_itcm {s : State} {c : Fin 16} {sup : Bool} {ea w : Nat} (aligned : ea % w = 0) (low : ea < 0x10000) :
    s.place c sup ea w false = .inl (.itcm ea) := by
  simp [State.place, aligned, low]

section LoadFrom

variable {s : State} {c : Fin 16} {ea w wait x : Nat} {fx : Bool}

theorem loadFrom_itcm (place : s.place c (s.ctx c).priv ea w false = .inl (.itcm x)) :
    s.loadFrom c ea w ⟨wait, false, fx⟩ = .value ((s.core c).itcm.readN x w) 2 (s.fixedTcm c fx) := by
  rw [State.loadFrom, place]; rfl

theorem loadFrom_sram (place : s.place c (s.ctx c).priv ea w false = .inl (.sram x)) :
    let t := (s.drain c fun k => k == .sram).beat x (s.requester c)
    s.loadFrom c ea w ⟨wait, false, fx⟩ = .value (t.fabN x w) (10 + wait) t := by
  rw [State.loadFrom, place]; rfl

theorem loadFrom_dram (place : s.place c (s.ctx c).priv ea w false = .inl (.dram x)) :
    let t := (s.drain c fun k => k == .dram).beat x (s.requester c)
    s.loadFrom c ea w ⟨wait, false, fx⟩ = .value (t.fabN x w) (56 + wait) (t.fixedDram c fx) := by
  rw [State.loadFrom, place]; rfl

theorem loadFrom_periph (place : s.place c (s.ctx c).priv ea w false = .inl (.periph x)) :
    let t := (s.drain c fun k => k == .periph).beat x (s.requester c)
    s.loadFrom c ea w ⟨wait, false, fx⟩ = .value (t.busRead x).1 (14 + wait) (t.busRead x).2 := by
  rw [State.loadFrom, place]; rfl

end LoadFrom

section Loads

variable {s : State} {c : Fin 16} {b : Fin 32} {imm : BitVec 16} {w wait : Nat} {fx : Bool} {dest : Ctx → Nat → Ctx}
  (calm : s.calm c = true)

include calm

/-- A load that gives a value completes, with its cycles, where the core still runs after the accesses made for it. -/
theorem issue_loadAt_value {env : Env} {v n : Nat} {t : State} (load : s.loadFrom c ((s.ctx c).ea b imm).toNat w env = .value v n t)
    (runs : t.coreRuns c = true) : s.issue c (s.loadAt c b imm w env dest) = .next (t.retire c n fun y => dest y v) := by
  rw [issue_calm calm, State.loadAt, load]
  exact congrArg _ (if_pos runs)

theorem issue_loadAt_dtcm (room : s.room c = true) (aligned : ((s.ctx c).ea b imm).toNat % w = 0)
    (lo : 0x20000 ≤ ((s.ctx c).ea b imm).toNat) (hi : ((s.ctx c).ea b imm).toNat < 0x40000) (keeps : ∀ y v, (dest y v).pc = y.pc) :
    s.issue c (s.loadAt c b imm w ⟨wait, false, fx⟩ dest) =
      .next ((s.fixedTcm c fx).did c 2 fun y => dest y ((s.core c).dtcm.readN (((s.ctx c).ea b imm).toNat - 0x20000) w)) := by
  rw [issue_calm calm, loadAt_dtcm calm room aligned lo hi keeps]

theorem issue_loadAt_itcm (room : s.room c = true) (aligned : ((s.ctx c).ea b imm).toNat % w = 0)
    (low : ((s.ctx c).ea b imm).toNat < 0x10000) (keeps : ∀ y v, (dest y v).pc = y.pc) :
    s.issue c (s.loadAt c b imm w ⟨wait, false, fx⟩ dest) =
      .next ((s.fixedTcm c fx).did c 2 fun y => dest y ((s.core c).itcm.readN ((s.ctx c).ea b imm).toNat w)) := by
  have calm' : (s.fixedTcm c fx).calm c = true := (fixedTcm_calm s c fx).trans calm
  rw [issue_loadAt_value calm (loadFrom_itcm (place_itcm aligned low)) (calm_runs calm')]
  exact congrArg _ (plain_calm' calm' ((fixedTcm_room s c fx).trans room) (keeps _ _))

end Loads

/-- Settles O12: a load is its region's value under the form's extension.  Where the count of corrected TCM errors stands is log
entry 66. -/
theorem loadsFromTheDtcm : Obligations.LoadsFromTheDtcm := by
  unfold Obligations.LoadsFromTheDtcm
  refine ⟨?lwDtcm, ?lhDtcm, ?lhuDtcm, ?lbDtcm, ?lbuDtcm, ?flwDtcm, ?lwItcm, ?lhItcm, ?lhuItcm, ?lbItcm, ?lbuItcm, ?flwItcm,
    ?lwSram, ?lhSram, ?lhuSram, ?lbSram, ?lbuSram, ?flwSram, ?lwDram, ?lhDram, ?lhuDram, ?lbDram, ?lbuDram, ?flwDram,
    ?lwPeriph, ?flwPeriph⟩
  case lwDtcm | lhDtcm | lhuDtcm =>
    exact fun s c a b imm wait fx calm room aligned lo hi => issue_loadAt_dtcm calm room aligned lo hi fun _ _ => setG_pc ..
  case lbDtcm | lbuDtcm =>
    exact fun s c a b imm wait fx calm room lo hi => issue_loadAt_dtcm calm room (Nat.mod_one _) lo hi fun _ _ => setG_pc ..
  case flwDtcm =>
    exact fun s c a b imm wait fx calm room ha aligned lo hi =>
      (State.checked_of_ok (decide_eq_true ha)).trans (issue_loadAt_dtcm calm room aligned lo hi fun _ _ => rfl)
  case lwItcm | lhItcm | lhuItcm | lbItcm | lbuItcm =>
    rintro s c a b imm wait _ fx calm room aligned rfl low
    exact issue_loadAt_itcm calm room aligned low fun _ _ => setG_pc ..
  case flwItcm =>
    rintro s c a b imm wait _ fx calm ha room aligned rfl low
    exact (State.checked_of_ok (decide_eq_true ha)).trans (issue_loadAt_itcm calm room aligned low fun _ _ => rfl)
  case lwSram | lhSram | lhuSram | lbSram | lbuSram =>
    exact fun s c a b imm wait x fx calm place => issue_loadAt_value calm (loadFrom_sram place)
  case lwDram | lhDram | lhuDram | lbDram | lbuDram =>
    exact fun s c a b imm wait x fx calm place => issue_loadAt_value calm (loadFrom_dram place)
  case lwPeriph => exact fun s c a b imm wait x fx calm place => issue_loadAt_value calm (loadFrom_periph place)
  case flwSram =>
    exact fun s c a b imm wait x fx calm ha place runs =>
      (State.checked_of_ok (decide_eq_true ha)).trans (issue_loadAt_value calm (loadFrom_sram place) runs)
  case flwDram =>
    exact fun s c a b imm wait x fx calm ha place runs =>
      (State.checked_of_ok (decide_eq_true ha)).trans (issue_loadAt_value calm (loadFrom_dram place) runs)
  case flwPeriph =>
    exact fun s c a b imm wait x fx calm ha place runs =>
      (State.checked_of_ok (decide_eq_true ha)).trans (issue_loadAt_value calm (loadFrom_periph place) runs)

/-! ### Stores (R53) -/

section Stores

variable {s : State} {c : Fin 16} {b : Fin 32} {imm : BitVec 16} {w wait : Nat} {v : Word} (calm : s.calm c = true)

include calm

theorem issue_storeAt_dtcm (room : s.room c = true) (aligned : ((s.ctx c).ea b imm).toNat % w = 0)
    (lo : 0x20000 ≤ ((s.ctx c).ea b imm).toNat) (hi : ((s.ctx c).ea b imm).toNat < 0x40000) :
    s.issue c (s.storeAt c b imm w v wait) = .next ((s.modCore c fun k =>
      { k with dtcm := k.dtcm.writeN (((s.ctx c).ea b imm).toNat - 0x20000) w (v.toNat % 2 ^ (8 * w)) }).did c 1 fun y => y) := by
  rw [issue_calm calm, storeAt_dtcm calm room aligned lo hi]

/-- A store that may be made is made or posted, and ends in one cycle where the core still runs. -/
theorem issue_storeAt_place {p : Place} (place : s.place c (s.ctx c).priv ((s.ctx c).ea b imm).toNat w true = .inl p)
    (runs : (s.storeTo c p ((s.ctx c).ea b imm) w (v.toNat % 2 ^ (8 * w)) wait).coreRuns c = true) :
    s.issue c (s.storeAt c b imm w v wait) =
      .next ((s.storeTo c p ((s.ctx c).ea b imm) w (v.toNat % 2 ^ (8 * w)) wait).retire c 1 fun y => y) := by
  rw [issue_calm calm, State.storeAt, place]
  exact congrArg _ (if_pos runs)

end Stores

/-- A store is posted behind the others while fewer than eight are outstanding. -/
theorem State.post_of_few {s : State} {c : Fin 16} (few : (s.core c).posted.length < 8) (p : Posted) (wait : Nat) :
    s.post c p wait = s.modPosted c fun l => l ++ [p] := by
  fun_cases State.post s c p wait
  case case1 q r stores full => exact absurd few (Nat.not_lt.mpr full)
  case case2 | case3 => rfl

/-- Settles O13: a store is its region's, of the low bytes of the form's source. -/
theorem storesToTheDtcm : Obligations.StoresToTheDtcm := by
  unfold Obligations.StoresToTheDtcm
  refine ⟨?swDtcm, ?shDtcm, ?sbDtcm, ?fswDtcm, ?sw, ?sh, ?sb, ?fsw, ?sram, ?dram, ?periph, fun _ _ _ _ _ _ _ => rfl⟩
  case swDtcm | shDtcm =>
    exact fun s c a b imm wait calm room aligned lo hi => issue_storeAt_dtcm calm room aligned lo hi
  case sbDtcm => exact fun s c a b imm wait calm room lo hi => issue_storeAt_dtcm calm room (Nat.mod_one _) lo hi
  case fswDtcm =>
    exact fun s c a b imm wait calm room ha aligned lo hi =>
      (State.checked_of_ok (decide_eq_true ha)).trans (issue_storeAt_dtcm calm room aligned lo hi)
  case sw | sh | sb => exact fun s c a b imm wait p calm place runs => issue_storeAt_place calm place runs
  case fsw =>
    exact fun s c a b imm wait p calm ha place runs =>
      (State.checked_of_ok (decide_eq_true ha)).trans (issue_storeAt_place calm place runs)
  case sram | dram | periph => exact fun s c x w v wait ea few => State.post_of_few few _ _

/-! ### Posted stores (R53, R65) -/

/-- Settles O16: the response is for the oldest store of its class, and only an error of DRAM has a source in Table 17.1 (the reading
of R71 and Table 3.21 in SPEC.md). -/
theorem postedStores : Obligations.PostedStores := by
  unfold Obligations.PostedStores
  refine ⟨?complete, ?error⟩
  case complete =>
    intro s c cls p units oldest
    refine (State.act_of_units units _).trans (congrArg _ ?_)
    rw [State.postedDone, oldest]
  case error =>
    intro s c cls p units oldest v u w running
    refine (State.act_of_units units _).trans (congrArg _ ?_)
    rw [State.postedError, oldest]
    exact if_neg fun stopped => bne_iff_ne.mp stopped running

/-! ### A DTCM that lists an address twice -/

/-- A module in RUN whose core 0 executes in its idle context, with 0x2_0000 in g2, and whose DTCM lists its first byte twice. -/
def State.doubledByte : State :=
  { State.reset with plat := { State.reset.plat with power := .run } }.modCore 0 fun k =>
    { k with life := .running, inIdle := true, idle := k.idle.setG 2 0x20000, dtcm := [(0, 1), (0, 2)] }

theorem State.doubledByte_calm : State.doubledByte.calm 0 = true := by decide

theorem State.doubledByte_room : State.doubledByte.room 0 = true := by decide

/-- Refutes O14: the hypotheses do not ask that the DTCM be canonical (`Mem.wf`).  A zero stored at an address takes its cell off the
list, and where the list holds a second cell for it, that one is read.  The state is `State.doubledByte`, and SB stores 0 from g0. -/
theorem not_storesLeaveOtherBytes : ¬ Obligations.StoresLeaveOtherBytes := by
  unfold Obligations.StoresLeaveOtherBytes
  intro h
  obtain ⟨t, stored, readsBack, -⟩ := h State.doubledByte 0 0 2 0 0 State.doubledByte_calm State.doubledByte_room (by decide) (by decide)
    (.sb 0 0 2 0 0) 1 0 (.inr (.inr (.inl ⟨rfl, rfl, rfl⟩))) (by decide)
  have done := issue_storeAt_dtcm (b := 2) (imm := 0) (w := 1) (wait := 0) (v := 0) State.doubledByte_calm State.doubledByte_room
    (by decide) (by decide) (by decide)
  obtain rfl := Host.Outcome.next.inj (done.symm.trans stored)
  revert readsBack
  decide

end Sys2Proof.Machine

/-! PROOFS.  The fixed-point and accumulator instructions of Mavalor (R57). -/

namespace Sys2Proof.Machine

/-! ### Saturation and rounding -/

theorem clampZ_eq_max_min {lo hi : Int} (h : lo ≤ hi) (v : Int) : clampZ lo hi v = max lo (min hi v) := by
  unfold clampZ; omega

theorem clampZ_eq_self_iff (lo hi v : Int) : clampZ lo hi v = v ↔ lo ≤ v ∧ v ≤ hi := by
  unfold clampZ; omega

/-- The flag of a saturation is set where the value lies outside the range. -/
theorem flagIf_clampZ_ne (lo hi v : Int) (m : Nat) :
    flagIf (clampZ lo hi v != v) m = if lo ≤ v ∧ v ≤ hi then 0 else m := by
  simp only [flagIf, bne_iff_ne, ne_eq, clampZ_eq_self_iff, ite_not]

/-- Settles O21: each form is exact, then rounded and saturated as R57 says. -/
theorem fixedPointForms : Obligations.FixedPointForms := by
  unfold Obligations.FixedPointForms
  refine ⟨?qadd15, ?qsub15, ?qmul15, ?qneg15, ?qabs15, ?qsat15, ?qadd31, ?qsub31, ?qmul31, ?qneg31, ?qabs31, ?qshl31, ?satHalf,
    ?satWord, ?rnd⟩
  case qneg15 | qabs15 | qsat15 | qneg31 | qabs31 => exact fun s c a b calm room => plain_calm calm room (setG_pc ..)
  case satHalf | satWord => exact fun v => ⟨congrArg wordZ (clampZ_eq_max_min (by decide) v), flagIf_clampZ_ne ..⟩
  case rnd => exact fun v n => by rw [rnd, asr_eq_div]
  all_goals exact fun s c a b d calm room => plain_calm calm room (setG_pc ..)

/-- An instruction whose fields name what the tables list does its effect on a calm core with room. -/
theorem checked_calm {s : State} {c : Fin 16} {ok : Bool} {w : Word} {n : Nat} {f : Ctx → Ctx} (calm : s.calm c = true)
    (room : s.room c = true) (good : ok = true) (keeps : (f (s.ctx c)).pc = (s.ctx c).pc) :
    s.checked c ok w (s.retire c n f) = .next (s.did c n f) :=
  (State.checked_of_ok good).trans (plain_calm calm room keeps)

/-- Settles O22: each form with an accumulator that exists changes one accumulator or one register; the accumulator is clamped to 40
bits by `accWord`. -/
theorem accumulatorForms : Obligations.AccumulatorForms := by
  unfold Obligations.AccumulatorForms
  refine ⟨?mac15, ?msu15, ?mula15, ?mac31, ?msu31, ?mula31, ?aclr, ?ald, ?ardl, ?ardh, ?aext, ?aext15⟩
  case aclr => exact fun s c a calm room ha => checked_calm calm room (decide_eq_true ha) rfl
  case ardl | ardh => exact fun s c a b calm room hb => checked_calm calm room (decide_eq_true hb) (setG_pc ..)
  case aext | aext15 => exact fun s c a b sh calm room hb => checked_calm calm room (decide_eq_true hb) (setG_pc ..)
  all_goals exact fun s c a b d calm room ha => checked_calm calm room (decide_eq_true ha) rfl

end Sys2Proof.Machine

/-! PROOFS.  The system, control-register and loop-unit instructions of Mavalor (R58 to R65, R67, R70, R107), and privilege (R47). -/

namespace Sys2Proof.Machine

open Sys2Proof.Reg

/-! ### What leaves a core calm -/

/-- What `State.calm` asks of the core itself, beside that no enabled event line is pending. -/
def Core.still (k : Core) : Bool :=
  k.life == .running && !k.resetting && k.executing && k.lockWait.isNone && k.busErr.isEmpty && k.slotEnd.isNone &&
    decide (k.ctx.pc.toNat < 0x10000)

/-- Beside the core, it is a matter of the units being live and of lockstep whether the core is calm. -/
theorem State.calm_iff (s : State) (c : Fin 16) :
    s.calm c = true ↔ (s.live = true ∧ s.paired c.val = false) ∧ (s.core c).still = true ∧ (s.core c).line = none := by
  simp only [State.calm, State.coreRuns, Core.still, Bool.and_eq_true, Bool.not_eq_true', Option.isNone_iff_eq_none, decide_eq_true_eq,
    and_assoc, and_comm (a := (s.core c).line = none)]
  exact Iff.rfl

theorem State.room_iff (s : State) (c : Fin 16) : s.room c = true ↔ (s.core c).ctx.pc.toNat < 0xFFFC := decide_eq_true_iff

/-- A change of a context that keeps its program counter keeps the core's. -/
theorem Core.ctx_modCtx_pc (k : Core) {f : Ctx → Ctx} (keeps : ∀ x, (f x).pc = x.pc) : (k.modCtx f).ctx.pc = k.ctx.pc := by
  rcases k.ctx_modCtx f with e | ⟨e, -⟩ <;> rw [e]
  exact keeps _

theorem Core.still_modCtx (k : Core) {f : Ctx → Ctx} (keeps : ∀ x, (f x).pc = x.pc) : (k.modCtx f).still = k.still := by
  obtain ⟨life, busErr, slotEnd, -, lockWait, executing, resetting, -⟩ := modCtx_fields k f
  simp only [Core.still, life, busErr, slotEnd, lockWait, executing, resetting, k.ctx_modCtx_pc keeps]

/-- A calm core has no enabled event line pending. -/
theorem calm_line {s : State} {c : Fin 16} (calm : s.calm c = true) : (s.core c).line = none := ((s.calm_iff c).mp calm).2.2

section Frame

variable {s t : State} {c : Fin 16} {n : Nat} {g : Ctx → Ctx} (calm : s.calm c = true) (room : s.room c = true)

include calm

/-- A change outside the core, of the units' power or of lockstep leaves a core calm. -/
theorem calm_of_core_eq (core : t.core c = s.core c) (live : t.live = s.live) (paired : t.paired c.val = s.paired c.val) :
    t.calm c = true := by
  rw [State.calm_iff] at calm ⊢
  rw [core, live, paired]
  exact calm

include room

/-- After a change of a calm core that leaves it still, with no event line to take, an instruction does its effect and no more. -/
theorem retire_modCore_calm {f : Core → Core} (still : ∀ k, (f k).still = k.still) (line : (f (s.core c)).line = none)
    (pc : ∀ k, (f k).ctx.pc = k.ctx.pc) (keeps : ∀ x, (g x).pc = x.pc) :
    (s.modCore c f).retire c n g = (s.modCore c f).did c n g := by
  rw [State.calm_iff] at calm
  rw [State.room_iff] at room
  obtain ⟨outside, was, -⟩ := calm
  refine plain_calm' ((State.calm_iff ..).mpr ⟨outside, ?_⟩) ((State.room_iff ..).mpr ?_) (keeps _)
  · rw [core_modCore_same, still, line]
    exact ⟨was, rfl⟩
  · rwa [core_modCore_same, pc]

end Frame

/-! ### SWAP, control registers, barriers -/

section Calm

variable {s : State} {c : Fin 16} (calm : s.calm c = true) (room : s.room c = true)

/-- The cycles of an instruction do not show in STATUS. -/
theorem State.status_spend (s : State) (c : Fin 16) (n : Nat) : (s.spend c n).status c = s.status c := by
  unfold State.status
  rw [State.spend, core_modCore_same]
  rfl

include calm in
/-- An exception whose instruction counts cycles of its own, as TRAP does, is entered with STATUS as it stands (log entry 46). -/
theorem issue_spend_except (exl : (s.core c).exl = false) (n : Nat) (x : Exc) :
    s.issue c ((s.spend c n).except c x) = .next ((s.spend c n).modCore c fun k => k.enter (s.status c) x) := by
  rw [issue_calm calm, exc_calm (by rw [State.spend, core_modCore_same]; exact exl), State.status_spend]

/-- A barrier on a core with no store outstanding waits for none. -/
theorem State.drain_of_no_posted (none : (s.core c).posted = []) (p : Class → Bool) : s.drain c p = s := by
  have same : (s.modPosted c fun l => l.filter fun x => !p x.cls) = s := by
    rw [State.modPosted, State.modCore]
    have core : upd s.cores c (fun k => { k with posted := k.posted.filter fun x => !p x.cls }) = s.cores := by
      refine Vector.ext fun i hi => ?_
      by_cases e : i = c.val
      · subst e
        have none : s.cores[c.val].posted = [] := none
        rw [upd_same, none, List.filter_nil, ← none]
      · exact upd_other s.cores c ⟨i, hi⟩ _ fun h => e (congrArg Fin.val h)
    rw [core]
  rw [State.drain, none, same]
  rfl

include calm

theorem issue_barrier_of_no_posted (room : s.room c = true) (none : (s.core c).posted = []) (p : Class → Bool) (wait : Nat) :
    s.issue c (s.barrier c p wait) = .next (s.did c (1 + wait) fun x => x) := by
  rw [State.barrier, State.drain_of_no_posted none, if_pos (calm_runs calm)]
  exact plain_calm calm room rfl

theorem issue_barrier {p : Class → Bool} (runs : (s.drain c p).coreRuns c = true) (wait : Nat) :
    s.issue c (s.barrier c p wait) = .next ((s.drain c p).retire c (1 + wait) fun x => x) := by
  rw [issue_calm calm, State.barrier, if_pos runs]

include room

/-- A permitted SWAP (R60). -/
theorem execSwap_permitted {a : Fin 32} (may : ((s.ctx c).priv || s.on CORE_CTL.SWAP_EN c.val) = true) :
    execSwap c a s = .next ((if s.swapCode c = 0 then s.acceptSwap c else s).did c 4 fun x =>
      x.setG a (BitVec.ofNat 32 (s.swapCode c))) := by
  rw [execSwap, issue_calm calm, if_neg (by rw [← Bool.not_or, may]; decide)]
  refine congrArg _ ?_
  split
  · exact retire_modCore_calm calm room (fun _ => rfl) (calm_line calm) (fun _ => rfl) fun _ => setG_pc ..
  · exact plain_calm' calm room (setG_pc ..)

/-- A read of a control register, with the high word that it latches. -/
theorem retire_crLatch (n : Nat) {a : Fin 32} {v : Word} :
    (s.crLatch c n).retire c 1 (setGA a v) = (s.crLatch c n).did c 1 fun x => x.setG a v := by
  fun_cases State.crLatch s c n
  case case1 | case2 => exact retire_modCore_calm calm room (fun _ => rfl) (calm_line calm) (fun _ => rfl) fun _ => setG_pc ..
  case case3 => exact plain_calm' calm room (setG_pc ..)

end Calm

/-- A control register of Table 3.18 is reached where its privilege is met. -/
theorem crAccess_permitted {s t : State} {c : Fin 16} {n : Fin 32} {w : Word} (listed : n.val < 16)
    (may : crSup n.val = false ∨ (s.ctx c).priv = true) : s.crAccess c n w t = s.issue c t := by
  rw [State.crAccess, State.checked_of_ok (decide_eq_true listed), if_neg]
  rcases may with h | h <;> simp [h]

/-- A write of a control register leaves the core's program counter, and the core still. -/
theorem Core.crWrite_pc (k : Core) (n : Nat) (sup : Bool) (v : Word) : (k.crWrite n sup v).ctx.pc = k.ctx.pc := by
  fun_cases Core.crWrite k n sup v
  case case1 | case2 => exact k.ctx_modCtx_pc (f := fun x => x.writeStatus v) fun _ => rfl
  all_goals rfl

theorem Core.crWrite_still (k : Core) (n : Nat) (sup : Bool) (v : Word) : (k.crWrite n sup v).still = k.still := by
  fun_cases Core.crWrite k n sup v
  case case1 | case2 => exact k.still_modCtx (f := fun x => x.writeStatus v) fun _ => rfl
  all_goals rfl

/-- Settles O23, form by form. -/
theorem systemForms : Obligations.SystemForms := by
  unfold Obligations.SystemForms
  refine ⟨?trap, ?yield, ?noSlot, ?waits, ?swap, ?crd, ?cwr, ?ioNone, ?memNone, ?allNone, ?io, ?mem, ?all⟩
  case trap => exact fun s c imm calm exl => issue_spend_except calm exl 1 _
  case yield => exact fun s c calm => issue_calm calm _
  case noSlot =>
    intro s c a b calm room none
    refine (issue_calm calm _).trans (congrArg _ ?_)
    rw [State.waitSlot, if_pos none]
    exact plain_calm' calm room (setG_pc ..)
  case waits =>
    intro s c a b e calm slot active cur
    refine (issue_calm calm _).trans (congrArg _ ?_)
    rw [State.waitSlot, if_neg (Nat.not_le.mpr slot), active, cur]
  case swap => exact fun s c a calm room may => execSwap_permitted calm room may
  case crd =>
    intro s c a n calm room listed may
    refine (crAccess_permitted listed may).trans ((issue_calm calm _).trans (congrArg _ ?_))
    exact retire_crLatch calm room n.val
  case cwr =>
    intro s c b n calm room listed may line
    refine (crAccess_permitted listed may).trans ((issue_calm calm _).trans (congrArg _ ?_))
    exact retire_modCore_calm (f := fun k => k.crWrite n.val (s.ctx c).priv ((s.ctx c).getG b)) calm room
      (fun k => k.crWrite_still ..) line (fun k => k.crWrite_pc ..) fun _ => rfl
  case ioNone | memNone | allNone => exact fun s c wait calm room none => issue_barrier_of_no_posted calm room none _ wait
  case io | mem | all => exact fun s c wait calm runs => issue_barrier calm runs wait

end Sys2Proof.Machine

/-! ### Privilege (R47) -/

namespace Sys2Proof.Machine

open Sys2Proof.Reg

section Calm

variable {s : State} {c : Fin 16} (calm : s.calm c = true)

include calm

section Refused

variable (exl : (s.core c).exl = false) (user : (s.ctx c).priv = false)

include exl user

/-- ERET at user privilege. -/
theorem execEret_user :
    execEret c s = .next (s.modCore c fun k => k.enter (s.status c) ⟨0x02, 0, false, (s.ctx c).pc, 0xA0000003⟩) := by
  rw [execEret, if_neg (by simp [user])]
  exact issue_except_calm calm exl _

/-- An access at user privilege to a control register that Table 3.18 marks S. -/
theorem crAccess_user {t : State} {n : Fin 32} {w : Word} (listed : n.val < 16) (sup : crSup n.val = true) :
    s.crAccess c n w t = .next (s.modCore c fun k => k.enter (s.status c) ⟨0x02, 0, false, (s.ctx c).pc, w⟩) := by
  rw [State.crAccess, State.checked_of_ok (decide_eq_true listed), if_pos (by simp [sup, user])]
  exact issue_except_calm calm exl _

/-- SWAP of user code on a core without SWAP_EN. -/
theorem execSwap_user {a : Fin 32} (off : s.on CORE_CTL.SWAP_EN c.val = false) :
    execSwap c a s =
      .next (s.modCore c fun k => k.enter (s.status c) ⟨0x02, 0, false, (s.ctx c).pc, wordReg 0x28 a 0 0 0x002⟩) := by
  rw [execSwap, if_pos (by simp [off, user])]
  exact issue_except_calm calm exl _

end Refused

variable (sup : (s.ctx c).priv = true)

include sup

/-- ERET of supervisor code from a handler of an activation goes to EPC (R67). -/
theorem execEret_active (active : (s.core c).inIdle = false) (low : (s.core c).epc.toNat < 0x10000) :
    let t := (s.spend c 3).modCore c fun x => (x.modCtx fun y => { y.restore x.xstatus with pc := x.epc }).popStatus
    execEret c s = .next (if (s.core c).guest then
      ((t.modCore c fun x => { x with cur := none, guest := false, overSlots := none, slotEnd := none }).settle c).takeEvent c
    else t.bound c) := by
  rw [execEret, issue_calm calm, if_pos sup, State.eret]
  simp only [active, Bool.false_eq_true, if_false, decide_eq_false (Nat.not_le.mpr low)]

/-- ERET of supervisor code from a handler of the idle context goes back to idle (R69). -/
theorem execEret_idle (idle : (s.core c).inIdle = true) :
    execEret c s = .next ((((s.spend c 3).modCore c fun x =>
      { x.popStatus with idle := x.idle.restore x.xstatus, inIdle := false }).settle c).takeEvent c) := by
  rw [execEret, issue_calm calm, if_pos sup, State.eret]
  simp only [idle, if_true]

end Calm

/-- Exception entry raises the privilege of the context in which it is taken (R66). -/
theorem Core.enter_priv {k : Core} (h : k.inIdle = true ∨ ∃ e a, k.cur = some e ∧ k.act e = some a) (st : Word) (x : Exc) :
    (k.enter st x).ctx.priv = true :=
  congrArg Ctx.priv (Core.ctx_modCtx_of_context h fun y => { y with priv := true, pc := k.vbase + if x.code = 0x10 then 0x80 else 0 })

/-- STATUS shows PRIV in bit 0 (Table 3.18). -/
theorem statusWord_priv (k : Core) (x : Ctx) (lstep : Bool) : (statusWord k x lstep).getLsbD 0 = x.priv := by
  rw [statusWord, BitVec.getLsbD_ofNat, Nat.testBit_zero]
  have small : ∀ b, b2n b < 2 := by decide
  have one : ∀ b, b2n b = 1 ↔ b = true := by decide
  have := small x.priv
  rw [Bool.eq_iff_iff, ← one x.priv]
  simp only [Bool.and_eq_true, decide_eq_true_eq]
  omega

/-- Settles O25: the check of each form, the effect of ERET, and the privilege that entry sets and ERET restores.  A faulting form counts
no cycles of its own (log entry 46). -/
theorem privilegeChecks : Obligations.PrivilegeChecks := by
  unfold Obligations.PrivilegeChecks
  refine ⟨fun s c calm exl user => execEret_user calm exl user, ?crd, ?cwr,
    fun s c a calm exl user off => execSwap_user calm exl user off,
    fun s c calm sup active low => execEret_active calm sup active low, fun s c calm sup idle => execEret_idle calm sup idle,
    fun _ _ => rfl, fun s c st x ctx => Core.enter_priv ctx st x, fun s c => statusWord_priv .., fun n _ => decide_eq_true_iff⟩
  case crd => exact fun s c a n calm exl user listed sup => crAccess_user calm exl user listed sup
  case cwr => exact fun s c b n calm exl user listed sup => crAccess_user calm exl user listed sup

end Sys2Proof.Machine

/-! ### The trace ring and the replicated tables (R63, R106, R107) -/

namespace Sys2Proof.Machine

open Sys2Proof.Reg

/-- A counter that has counted differs from its reset value of 0. -/
theorem satAdd_one_mod_ne_zero {w : Nat} (h : 0 < w) (v : Nat) : satAdd w v 1 % 2 ^ w ≠ 0 := by
  have wide : 2 ≤ 2 ^ w := Nat.le_self_pow (Nat.ne_of_gt h) 2
  rw [satAdd, Nat.mod_eq_of_lt (by omega)]
  omega

/-- A counted mark leaves the other registers as they are, the map of the registers in order or not. -/
theorem get_count_markLost_other (s : State) (c : Fin 16) {f : Fld} {i j k : Nat} (other : f.key i j k ≠ TR_LOST.MARK_LOST.key c.val 0 0) :
    (s.count TR_LOST.MARK_LOST 1 c.val).get f i j k = s.get f i j k := by
  have counted : satAdd 16 (s.get TR_LOST.MARK_LOST c.val) 1 % 2 ^ 16 ≠ 0 := satAdd_one_mod_ne_zero (by decide) _
  have stored : (s.count TR_LOST.MARK_LOST 1 c.val).regs =
      regSet s.regs (TR_LOST.MARK_LOST.key c.val 0 0) (satAdd 16 (s.get TR_LOST.MARK_LOST c.val) 1 % 2 ^ 16) := if_neg counted
  rw [State.get, State.get, stored, regFind_regSet_other _ other]

/-- A mark that is not written is counted (Table 5.9). -/
theorem trMark_of_not_writing {s : State} {c : Fin 16} {imm : Nat} {g : Word} (mark : imm < 32768) (off : s.trWriting c = false) :
    s.trMark c imm g = s.count TR_LOST.MARK_LOST 1 c.val := by
  have plain : bit imm 15 = false := by simp [bit, Nat.div_eq_of_lt mark]
  simp [State.trMark, plain, off]

section Calm

variable {s : State} {c : Fin 16} (calm : s.calm c = true)

include calm

/-- Counting a lost mark leaves a core calm. -/
theorem calm_count_markLost : (s.count TR_LOST.MARK_LOST 1 c.val).calm c = true := by
  have pairs : (s.count TR_LOST.MARK_LOST 1 c.val).get LSTEP_CFG.PAIR = s.get LSTEP_CFG.PAIR :=
    get_count_markLost_other s c ((by decide : ∀ c : Fin 16, LSTEP_CFG.PAIR.key 0 0 0 ≠ TR_LOST.MARK_LOST.key c.val 0 0) c)
  exact calm_of_core_eq calm rfl rfl (by rw [State.paired, State.paired, State.lockstep, State.lockstep, pairs])

/-- TMARK where the core is calm, with room, after the mark. -/
theorem execTmark_calm {b : Fin 32} {imm : BitVec 16} (after : (s.trMark c imm.toNat ((s.ctx c).getG b)).calm c = true)
    (room : (s.trMark c imm.toNat ((s.ctx c).getG b)).room c = true) :
    execTmark c b imm s = .next ((s.trMark c imm.toNat ((s.ctx c).getG b)).did c 2 fun x => x) :=
  (issue_calm calm _).trans (congrArg _ (plain_calm' after room rfl))

/-- An instruction on a table that is not absent. -/
theorem issue_withTable {w : Word} {f : Fin 8 → RepTable → State} (there : (s.repTab c (Fin.ofNat 8 w.toNat)).len ≠ 0) :
    s.issue c (s.withTable c w f) = .next (f (Fin.ofNat 8 w.toNat) (s.repTab c (Fin.ofNat 8 w.toNat))) :=
  (issue_calm calm _).trans (congrArg _ (if_neg there))

end Calm

/-- Settles O27, form by form. -/
theorem loopUnitInstructions : Obligations.LoopUnitInstructions := by
  unfold Obligations.LoopUnitInstructions
  refine ⟨?lost, ?mark, ?rtrd, ?rtwr, ?rttag⟩
  case lost =>
    intro s c b imm calm room mark off
    have marked := trMark_of_not_writing (g := (s.ctx c).getG b) mark off
    refine (execTmark_calm calm ?_ ?_).trans ?_
    · exact marked ▸ calm_count_markLost calm
    · exact marked ▸ room
    · rw [marked]
  case mark => exact fun s c b imm calm after room => execTmark_calm calm after room
  case rtrd =>
    intro s c a b d calm room w r there
    exact (issue_withTable calm there).trans (congrArg _ (plain_calm' calm room (setG_pc ..)))
  case rtwr =>
    intro s c a b d calm room t there
    exact (issue_withTable calm there).trans (congrArg _ (plain_calm' (calm_of_core_eq calm rfl rfl rfl) room rfl))
  case rttag =>
    intro s c a b calm room w t there
    exact (issue_withTable calm there).trans (congrArg _ (plain_calm' calm room (setG_pc ..)))

end Sys2Proof.Machine

/-! PROOFS.  The services of the module: what each request is answered, and what the timers of the services do. -/

namespace Sys2Proof.Machine

open Sys2Proof.Reg

/-! ### Requests to a service (R88) -/

/-- While the units and its service run, a request does what the service makes of it. -/
theorem State.next_of_service {s t u : State} {o : Host.Outcome State Fault Refusal}
    (e : o = s.act (if !s.plat.serviceUp then s else t)) (hu : s.units = true) (hs : s.plat.serviceUp = true) (h : t = u) :
    o = .next u := by
  rw [e, State.act_of_units hu, hs, ← h]; rfl

/-! ### The positioning service (R225 to R230) -/

/-- CLAIM of channels that are free and idle completes at once (DEDUCED, log entry 48). -/
theorem exec_claim_of_idle {s t : State} {q : SvcReq} {first count owner : Nat} (hu : s.units = true) (hs : s.plat.serviceUp = true)
    (pos : 0 < count) (few : count ≤ 48) (inside : first + count ≤ 96) (member : owner < 16)
    (ht : t = s.request 56 0x0001 q [first, count, owner]) (room : ((List.range 96).filter t.claimed).length + count ≤ 48)
    (free : ∀ k < count, t.claimed (first + k) = false) (off : ∀ k : Fin 96, (t.gc[k.val]).force.en = false) :
    exec (.claim q first count owner) s = .next
      ((((List.range count).map fun k => first + k).foldl (fun t k => t.gcGive (Fin.ofNat 96 k) owner) t).done
        q posCore 0x0001 stOk []) := by
  subst ht
  have idle (l : List Nat) : (l.filter fun k => !((s.request 56 0x0001 q [first, count, owner]).gc[k % 96]'(by omega)).force.en) = l :=
    List.filter_eq_self.mpr fun k _ => by simp [off ⟨k % 96, by omega⟩]
  have unclaimed : ((List.range count).map fun k => first + k).any (s.request 56 0x0001 q [first, count, owner]).claimed = false := by
    simpa using free
  refine State.next_of_service rfl hu hs ((if_neg ?_).trans ?_)
  · simp only [unclaimed, Bool.false_eq_true, or_false]
    omega
  · rw [idle]
    exact if_pos (by simp)

/-- RTCM_IN with parameters in range is taken as corrections of its source (R227). -/
theorem State.rtcmIn_of_ok {s : State} {q : SvcReq} {src addr len : Nat} (ok : rtcmInOk src len = true) :
    s.rtcmIn q src addr len = ((s.request 56 0x0020 q ([src] ++ two addr ++ [len])).rtcmFrom src
      ((s.request 56 0x0020 q ([src] ++ two addr ++ [len])).fabBytes addr len)).done q posCore 0x0020 stOk [] := if_pos ok

/-- Settles O41, request by request.  That CLAIM of idle channels completes at once is DEDUCED (log entry 48), and the layout of an
entry of the watch log a free value (log entry 16). -/
theorem positioningService : Obligations.PositioningService := by
  unfold Obligations.PositioningService
  refine ⟨?claimBad, fun s q first count owner hu hs pos few inside own => exec_claim_of_idle hu hs pos few inside own rfl,
    fun s q first count hu hs => State.next_of_service rfl hu hs rfl,
    fun s q rate log2n ring point hu hs => State.next_of_service rfl hu hs rfl, ?antOff, ?antNear, ?rtcmBad,
    fun s q prio srcTmo corrMax drMax hu hs => State.next_of_service rfl hu hs rfl, ?snapBusy, ?snap,
    fun s q addr hu hs => State.next_of_service rfl hu hs rfl, ?rtcmIn⟩
  case claimBad =>
    intro s q first count owner hu hs bad
    exact State.next_of_service rfl hu hs (if_pos (bad.imp_right (Or.imp_right (Or.imp_right Or.inl))))
  case antOff =>
    intro s q a b hdgEn hu hs off
    exact State.next_of_service rfl hu hs ((if_neg (by simp [off])).trans (by rw [off]))
  case antNear =>
    intro s q a b hdgEn hu hs on near
    exact State.next_of_service rfl hu hs (if_pos (by simp [on, near]))
  case rtcmBad =>
    intro s q src addr len hu hs bad
    exact State.next_of_service rfl hu hs (if_neg (by simp [bad]))
  case snapBusy => exact fun s q len dest addr hu hs busy => State.next_of_service rfl hu hs (if_pos busy)
  case snap =>
    intro s q len dest addr hu hs lo hi inRange t idle
    have notBusy : t.pos.snap.isSome ≠ true := fun busy => Bool.false_ne_true ((congrArg Option.isSome idle).symm.trans busy)
    exact State.next_of_service rfl hu hs ((if_neg notBusy).trans (if_neg (by omega)))
  case rtcmIn =>
    intro s q src addr len hu hs ok t u r
    have taken : s.rtcmIn q src addr len = u := State.rtcmIn_of_ok ok
    refine ⟨fun off => ?_, fun on relay new => ?_⟩
    · refine State.next_of_service rfl hu hs ?_
      rw [taken]
      exact if_neg (by rcases off with off | off <;> simp [off])
    · refine State.next_of_service rfl hu hs ?_
      rw [taken]
      exact (if_pos (by simp [ok, on, relay])).trans (if_neg (by simpa using new))

/-! ### The Trellis service (R257) -/

/-- A field that CREATE makes while none is open: what the cache holds goes to the backing first (R243, R257). -/
theorem exec_openField_create {s t : State} {q : SvcReq} {id edge layers : Nat} {lat lon height : Int} (hu : s.units = true)
    (hs : s.plat.serviceUp = true)
    (ht : t = s.request tlBox 0x0001 q
      ([id, b2n true + 16 * (edge % 16) + 65536 * (layers % 65536)] ++ two (low 64 lat) ++ two (low 64 lon) ++ [low 32 height]))
    (closed : t.get TL_FIELD.STATE = 0) (new : (t.trellis.fields.find? fun f => f.id == id) = none)
    (new' : (t.tlEndDrain.tlFlushNow.trellis.fields.find? fun f => f.id == id) = none) :
    exec (.openField q id true edge layers lat lon height) s = .next
      (let u := t.tlEndDrain.tlFlushNow.tlOpenField ⟨id, edge % 16, layers % 65536, lat, lon, height, [], [], []⟩
       u.done q tlCore 0x0001 stOk [u.get TL_FIELD.SESSION]) := by
  subst ht
  refine State.next_of_service rfl hu hs ((if_neg fun h => Nat.zero_ne_one (closed.symm.trans h.1)).trans ?_)
  simp only [new, new']

/-- Settles O44, request by request.  That CLOSE_FIELD with no field open is OK and DELETE_FIELD of an unknown field BAD_PARAM, and the
layout of the entries of LIST_FIELDS, are DEDUCED (log entry 39); that parameters out of range are BAD_PARAM too (log entry 54). -/
theorem trellisService : Obligations.TrellisService := by
  unfold Obligations.TrellisService
  refine ⟨?openOther, ?openNew, ?closeNone, ?closeOpen, fun s q addr hu hs => State.next_of_service rfl hu hs rfl, ?delete,
    ?deleteUnknown, ?readCells, ?writeBadLayer, ?writeCells, ?exportUnknown, fun s q hu hs => State.next_of_service rfl hu hs rfl,
    ?exported⟩
  case openOther =>
    exact fun s q id create edge layers lat lon height hu hs isOpen other => State.next_of_service rfl hu hs (if_pos ⟨isOpen, other⟩)
  case openNew =>
    intro s q id create edge layers lat lon height hu hs make
    subst make
    exact fun closed new new' => exec_openField_create hu hs rfl closed new new'
  case closeNone =>
    intro s q hu hs t closed
    subst t
    refine State.next_of_service rfl hu hs ?_
    simp only [closed]
  case closeOpen =>
    intro s q hu hs t isOpen
    subst t
    refine State.next_of_service rfl hu hs ?_
    simp only [isOpen]
  case delete =>
    intro s q id hu hs t closed known
    exact State.next_of_service rfl hu hs (if_neg (not_or.mpr ⟨fun h => h.1 closed,
      fun h => Bool.false_ne_true ((congrArg Bool.not known).symm.trans h)⟩))
  case deleteUnknown =>
    intro s q id hu hs t unknown
    exact State.next_of_service rfl hu hs (if_pos (.inr (congrArg Bool.not unknown)))
  case readCells =>
    intro s q layer i0 j0 i1 j1 addr hu hs listed first last t isOpen
    subst t
    refine State.next_of_service rfl hu hs ((if_neg ?_).trans (by simp only [List.length_map]))
    simp only [first, last, Bool.not_true, Bool.false_eq_true, or_false]
    omega
  case writeBadLayer =>
    intro s q layer i0 j0 i1 j1 addr hu hs bad
    exact State.next_of_service rfl hu hs (if_pos (bad.imp_right Or.inl))
  case writeCells =>
    intro s q layer i0 j0 i1 j1 addr hu hs lo hi first last t isOpen
    subst t
    refine State.next_of_service rfl hu hs (if_neg ?_)
    simp only [first, last, Bool.not_true, Bool.false_eq_true, or_false]
    omega
  case exportUnknown =>
    intro s q id dry addr limit hu hs t unknown
    subst t
    refine State.next_of_service rfl hu hs ?_
    simp only [unknown]
  case exported =>
    intro s q id dry addr limit f hu hs t x known fits
    subst t x
    refine State.next_of_service rfl hu hs ?_
    simp only [known]
    exact if_neg (Nat.not_lt.mpr fits)

/-! ### The ISOBUS service (R276 to R280) -/

/-- Settles O46, request by request and timer by timer.  The messages on the bus follow ISO 11783 and SAE J1939 (PRESUMED, log entry 31);
the result word of a refused PGN_SEND is a free value (log entry 18). -/
theorem isobusService : Obligations.IsobusService := by
  unfold Obligations.IsobusService
  refine ⟨?openFifth, ?openBadCan, ?closeUnknown, ?cfAddUnknown, ?claimNone, ?claimHeld, ?pgnSub, ?pgnSendUnknown, ?vtPoolUnknown,
    ?tcMapUnknown, ?tcMap, ?netListUnknown, ?leave, ?refresh, ?netOpen, ?netClose, ?cfAdd, ?pgnSend, ?vtPool, ?netList⟩
  case openFifth =>
    intro s q can kind rate notify leave hu hs t full
    subst t
    refine State.next_of_service rfl hu hs ?_
    simp only [full]
  case openBadCan =>
    intro s q can kind rate notify leave hu hs bad
    refine State.next_of_service rfl hu hs ?_
    dsimp only
    split
    · rfl
    · exact if_pos (.inl bad)
  case closeUnknown =>
    intro s q net hu hs far
    exact State.next_of_service rfl hu hs (dif_neg (Nat.not_lt.mpr far))
  case cfAddUnknown =>
    intro s q net record addr hu hs far
    refine State.next_of_service rfl hu hs ?_
    simp only [dif_neg (Nat.not_lt.mpr far)]
  case claimNone =>
    intro s k cf hu unknown
    refine (State.act_of_units hu _).trans (congrArg _ ?_)
    simp only [unknown]
  case claimHeld =>
    intro s k cf c w hu there fresh due waits
    refine (State.act_of_units hu _).trans (congrArg _ ?_)
    simp only [there, fresh, waits]
    exact if_neg (by simp [due])
  case pgnSub =>
    intro s q net pgn source addr size hu hs t there
    subst t
    refine State.next_of_service rfl hu hs ((dif_pos net.isLt).trans (if_neg ?_))
    simpa using Option.isSome_iff_ne_none.mp there
  case pgnSendUnknown =>
    intro s q net cf out hu hs far
    refine ⟨_, State.next_of_service rfl hu hs ?_, rfl⟩
    simp only [dif_neg (Nat.not_lt.mpr far)]
  case vtPoolUnknown =>
    intro s q net cf addr len label hu hs far
    refine State.next_of_service rfl hu hs ?_
    simp only [dif_neg (Nat.not_lt.mpr far)]
  case tcMapUnknown =>
    intro s q net name pairs hu hs far
    refine State.next_of_service rfl hu hs ?_
    simp only [dif_neg (Nat.not_lt.mpr far)]
  case tcMap =>
    intro s q k name pairs x hu hs t there empty few listed
    subst t
    refine State.next_of_service rfl hu hs ?_
    simp only [dif_pos k.isLt, there, Option.map_some, empty]
    refine if_neg ?_
    simp only [listed, Bool.false_eq_true, false_or, List.length_nil]
    omega
  case netListUnknown =>
    intro s q net addr hu hs far
    refine State.next_of_service rfl hu hs ?_
    simp only [dif_neg (Nat.not_lt.mpr far)]
  case leave =>
    intro s k name hu silent
    exact State.next_of_guard rfl hu silent
  case refresh =>
    intro s k hu hs
    exact State.next_of_guard rfl hu hs
  case netOpen =>
    intro s q n kind rate notify leave k hu hs t free kinds rates pos few init
    subst t
    refine ⟨_, State.next_of_service rfl hu hs ?_, rfl⟩
    simp only [free]
    refine (if_neg ?_).trans ?_
    · simp only [init, Bool.not_true, Bool.false_eq_true, or_false]
      omega
    · simp
  case netClose =>
    intro s q k hu hs t there
    subst t
    refine State.next_of_service rfl hu hs ((dif_pos k.isLt).trans (if_neg ?_))
    simpa using Option.isSome_iff_ne_none.mp there
  case cfAdd =>
    intro s q k record addr x r hu hs t name there known room
    subst t
    refine State.next_of_service rfl hu hs ?_
    simp only [dif_pos k.isLt, there, Option.map_some, known]
    exact if_neg (Nat.not_le.mpr room)
  case pgnSend =>
    intro s q k cf out c hu hs t d u there held
    subst t
    refine ⟨fun short => ?_, fun long => ?_⟩
    · refine State.next_of_service rfl hu hs ?_
      simp only [dif_pos k.isLt, there, Option.map_some, held]
      exact (if_neg (by simp)).trans (if_pos short)
    · refine State.next_of_service rfl hu hs ?_
      simp only [dif_pos k.isLt, there, Option.map_some, held]
      exact (if_neg (by simp)).trans (if_neg (by omega))
  case vtPool =>
    intro s q k cf addr len v label x c hu hs t there claimed terminal idle
    subst t
    refine State.next_of_service rfl hu hs ?_
    simp only [dif_pos k.isLt, there, claimed, terminal, idle, Option.bind_some, Option.map_some]
    exact if_neg (by simp)
  case netList =>
    intro s q k addr x hu hs t pad there
    subst t
    refine State.next_of_service rfl hu hs ?_
    simp only [dif_pos k.isLt, there]
    rfl

/-! ### The fleet service (R291 to R299) -/

/-- Sending a message leaves the dialogs as they are. -/
@[simp] theorem State.jfxSend_dialog (s : State) (type dest : Nat) (ack : Bool) (payload : List Nat) (no : Nat) :
    (s.jfxSend type dest ack payload).dialog no = s.dialog no := rfl

/-- A message to the other side of a dialog leaves the dialogs as they are. -/
@[simp] theorem State.toDialog_dialog (s : State) (no type n : Nat) (fields : List Nat) :
    (s.toDialog no type fields).dialog n = s.dialog n := by
  rw [State.toDialog]
  split <;> simp

section Unload

variable {s t u : State} {q : SvcReq} {op no : Nat} {o : Host.Outcome State Fault Refusal} {f : State → State}

/-- In a service that does not run an unload message is refused (R297). -/
theorem unloadOut_of_off (e : o = s.act (s.unloadOut q op no f)) (hu : s.units = true) (hs : s.plat.serviceUp = true)
    (ht : t = s.request jfxBox op q [no]) (off : t.fleet.on = false) : o = .next (t.done q jfxCore op stBadParam []) := by
  subst ht
  exact State.next_of_service e hu hs (if_pos (by simp [off]))

/-- With its dialog open, or room for one, an unload message of a running service is sent (R297). -/
theorem unloadOut_of_room (e : o = s.act (s.unloadOut q op no f)) (hu : s.units = true) (hs : s.plat.serviceUp = true)
    (ht : t = s.request jfxBox op q [no]) (on : t.fleet.on = true)
    (room : (t.dialog no).isSome = true ∨ t.fleet.dialogs.length < 8) (h : f t = u) : o = .next (u.done q jfxCore op stOk []) := by
  subst ht h
  refine State.next_of_service e hu hs ((if_neg (by simp [on])).trans (if_neg ?_))
  rcases room with there | room
  · simp [Option.isSome_iff_ne_none.mp there]
  · simp [room]

/-- With eight dialogs open an unload message that would open another is BUSY (R297). -/
theorem unloadOut_of_full (e : o = s.act (s.unloadOut q op no f)) (hu : s.units = true) (hs : s.plat.serviceUp = true)
    (ht : t = s.request jfxBox op q [no]) (on : t.fleet.on = true) (new : t.dialog no = none) (full : 8 ≤ t.fleet.dialogs.length) :
    o = .next (t.done q jfxCore op stBusy []) := by
  subst ht
  exact State.next_of_service e hu hs ((if_neg (by simp [on])).trans (if_pos (by simp [new, full])))

end Unload

/-- Settles O49, request by request and timer by timer.  The entries of PEER_LIST are free functions of the peers (log entry 21), and the
session number is a random draw (log entry 24). -/
theorem fleetServiceAndTimers : Obligations.FleetServiceAndTimers := by
  unfold Obligations.FleetServiceAndTimers
  refine ⟨?hello, ?stateOff, ?state, ?admissionRuns, ?admissionEnds, fun s id hu => State.act_of_units hu _,
    fun s id hu silent => State.next_of_guard rfl hu silent, ?ageUnknown, ?lost, ?tile, ?snap, ?startBad, ?start, ?stopOff,
    fun s q addr hu hs => State.next_of_service rfl hu hs rfl, ?unblock, ?userLong, ?user,
    fun s q no fields hu hs on room => unloadOut_of_room rfl hu hs rfl on room rfl,
    fun s q no fields hu hs on room => unloadOut_of_room rfl hu hs rfl on room rfl,
    fun s q no member fields hu hs on room => unloadOut_of_room rfl hu hs rfl on room rfl,
    fun s q no fields hu hs on room => unloadOut_of_room rfl hu hs rfl on room rfl,
    fun s q no hu hs off => unloadOut_of_off rfl hu hs rfl off, ?unloadEnd, ?relay,
    fun s q id hu hs => State.next_of_service rfl hu hs rfl,
    fun s q no fields hu hs on new full => unloadOut_of_full rfl hu hs rfl on new full,
    fun s q no fields hu hs on new full => unloadOut_of_full rfl hu hs rfl on new full,
    fun s q no member fields hu hs on new full => unloadOut_of_full rfl hu hs rfl on new full,
    fun s q no fields hu hs on new full => unloadOut_of_full rfl hu hs rfl on new full,
    fun s q no hu hs on new full => unloadOut_of_full rfl hu hs rfl on new full, ?stopOn, ?block⟩
  case hello =>
    intro s hu on up due
    exact State.next_of_guard rfl hu (by simp [on, up, due])
  case stateOff =>
    intro s hu off
    exact State.next_self_of_guard rfl (by simp [off])
  case state =>
    intro s hu on up due
    exact ⟨_, State.next_of_guard rfl hu (by simp [on, up, due]), rfl, rfl, rfl⟩
  case admissionRuns =>
    intro s id hu young
    exact (State.act_of_units hu _).trans (congrArg _ (if_pos (congrArg Bool.not young)))
  case admissionEnds =>
    intro s id hu due
    exact ⟨_, (State.act_of_units hu _).trans (congrArg _ (if_neg (by simp only [due]; decide))), rfl, rfl⟩
  case ageUnknown =>
    intro s id hu unknown
    exact State.next_self_of_guard rfl (by simp [unknown])
  case lost =>
    intro s no d hu there silent
    refine (State.act_of_units hu _).trans (congrArg _ ?_)
    simp only [there, if_pos silent]
  case tile =>
    intro s p b r hu only frags late
    refine (State.act_of_units hu _).trans (congrArg _ ?_)
    simp [only, frags, late, State.modFleet]
  case snap =>
    intro s x hu sending few
    refine (State.act_of_units hu _).trans (congrArg _ ?_)
    simp only [sending]
    exact if_neg (Nat.not_le.mpr few)
  case startBad =>
    intro s q cls notify helloT ageT hu hs bad
    exact State.next_of_service rfl hu hs (if_pos (.inr (.inr bad)))
  case start =>
    intro s q cls notify helloT ageT hu hs lo hi lo' hi' t fleet member key vid
    subst t
    refine State.next_of_service rfl hu hs (if_neg ?_)
    simp only [fleet, member, key, Bool.and_self, Bool.not_true, Bool.false_eq_true, false_or]
    omega
  case stopOff =>
    intro s q hu hs t off
    subst t
    refine State.next_of_service rfl hu hs ?_
    simp only [off]
    rfl
  case stopOn =>
    intro s q hu hs t on
    subst t
    refine State.next_of_service rfl hu hs ?_
    simp only [on, if_true]
  case unblock =>
    intro s q id block hu hs off
    subst off
    exact State.next_of_service rfl hu hs rfl
  case block =>
    intro s q id block hu hs on t room
    subst on t
    exact State.next_of_service rfl hu hs (if_neg fun full => Nat.not_le.mpr room (of_decide_eq_true full))
  case userLong =>
    intro s q dest len addr ackreq hu hs long
    exact State.next_of_service rfl hu hs (if_pos (.inr long))
  case user =>
    intro s q dest len addr ackreq hu hs short noAck t on
    subst noAck t
    refine State.next_of_service rfl hu hs ((if_neg ?_).trans (if_neg Bool.false_ne_true))
    simp only [on, Bool.not_true, Bool.false_eq_true, false_or]
    omega
  case unloadEnd =>
    intro s q no d hu hs t on there
    subst t
    refine unloadOut_of_room rfl hu hs rfl on (.inl (by simp [there])) ?_
    simp only [State.toDialog_dialog, there]
  case relay =>
    intro s q en hopMax hu hs lo hi
    exact State.next_of_service rfl hu hs (if_neg (by omega))

end Sys2Proof.Machine

/-! PROOFS.  The valve drive: the phases of Table 10.1, the boost and its rail, and the protections of Table 10.2 with their
rearming. -/

namespace Sys2Proof.Machine

open Sys2Proof.Reg

/-! ### Channels and banks under a change, a flag and a record -/

/-- The changed channel. -/
@[simp] theorem State.valve_modValve_same (s : State) (c : Fin 32) (f : Valve → Valve) : (s.modValve c f).valve c = f (s.valve c) :=
  upd_same _ _ _

/-- The changed bank. -/
@[simp] theorem State.bank_modBank_same (s : State) (b : Fin 8) (f : Bank → Bank) : (s.modBank b f).bank b = f (s.bank b) :=
  upd_same _ _ _

/-- A write of a register leaves the channels. -/
@[simp] theorem State.put_valve (s : State) (f : Fld) (v i j k : Nat) (c : Fin 32) : (s.put f v i j k).valve c = s.valve c := rfl

/-- A record leaves the channels. -/
@[simp] theorem State.record_valve (s : State) (t : RecType) (nd : Nat) (items : List Nat) (c : Fin 32) :
    (s.record t nd items).valve c = s.valve c := by
  simp only [State.valve, State.record_valves]

/-- A record leaves the banks. -/
@[simp] theorem State.record_bank (s : State) (t : RecType) (nd : Nat) (items : List Nat) (b : Fin 8) :
    (s.record t nd items).bank b = s.bank b := by
  obtain ⟨r, k, f, e⟩ := s.record_eq t nd items
  rw [e]
  rfl

/-- A flag of a channel leaves the channels. -/
@[simp] theorem State.vdFlag_valve (s : State) (c d : Fin 32) (k : Nat) : (s.vdFlag c k).valve d = s.valve d := by
  obtain ⟨r, q, l, e⟩ := s.flag_eq VD_FLAGS.F VD_EVMASK.F k 0x30 c.val 0
  rw [State.vdFlag, e]
  rfl

/-- A flag of a channel leaves the load channels. -/
@[simp] theorem State.vdFlag_loads (s : State) (c : Fin 32) (k : Nat) : (s.vdFlag c k).loads = s.loads := by
  obtain ⟨r, q, l, e⟩ := s.flag_eq VD_FLAGS.F VD_EVMASK.F k 0x30 c.val 0
  rw [State.vdFlag, e]

/-- A flag of a bank leaves the banks. -/
@[simp] theorem State.vbFlag_bank (s : State) (b d : Fin 8) (k : Nat) : (s.vbFlag b k).bank d = s.bank d := by
  obtain ⟨r, q, l, e⟩ := s.flag_eq VB_FLAGS.F VB_EVMASK.F k 0x31 b.val 0
  rw [State.vbFlag, e]
  rfl

/-! ### Waits for the boost and for the rail -/

/-- The boost is free with a channel waiting that has not waited on under DEFER: the first of the order boosts (R198). -/
theorem exec_boostFree_of_waiting {s t : State} {b : Fin 8} {rail d : Nat} {w : VWait} {rest : List Nat} (hu : s.units = true)
    (ht : t = s.railSet b rail) (free : t.boostFree b = true) (first : (t.bank b).order = d :: rest)
    (waits : (t.valve (Fin.ofNat 32 d)).wait = some w) (fresh : w.deferred = false) :
    exec (.boostFree b rail) s = .next (t.runProfile (Fin.ofNat 32 d) w.level false false) := by
  subst ht
  refine (State.next_of_pos (State.act_of_units hu _) free).trans (congrArg _ ?_)
  simp only [first, waits, fresh, Bool.false_eq_true, if_false]

/-- BOOST_WAIT expires: the policy that the wait began with acts, once (R198). -/
theorem exec_boostWaitExpiry_of_due {s : State} {c : Fin 32} {w : VWait} (hu : s.units = true) (waits : (s.valve c).wait = some w)
    (fresh : w.deferred = false) (due : w.since + 200 * w.limit ≤ s.mtc) :
    exec (.boostWaitExpiry c) s = .next (match w.policy with
      | 0 => s.modValve c fun v => { v with wait := some { w with deferred := true } }
      | 1 => s.skipBoost c w.level
      | _ =>
        ((((s.leaveWait c).bankSync (bankOf c)).vdFlag c VD_FLAGS.REJECTED).count VD_CNT1.LIMITED 1 c.val).count VB_CNT1.REJECTED 1
          (bankOf c).val) := by
  refine (State.act_of_units hu _).trans (congrArg _ ?_)
  simp only [waits]
  exact if_neg (by simp [fresh, Nat.not_lt.mpr due])

/-- The rail fails once, 20 ms after a request first waited for it, and with no channel waiting that is all (R191). -/
theorem exec_railFail_of_due {s t : State} {b : Fin 8} {rail : Nat} (hu : s.units = true) (ht : t = s.railSet b rail)
    (stands : (t.bank b).railFail = false) (due : (t.bank b).waitAt.any (fun w => decide (w + 4000000 ≤ t.mtc)) = true)
    (empty : (t.bank b).order = []) :
    exec (.railFail b rail) s = .next (((t.modBank b fun k => { k with railFail := true }).vbFlag b VB_FLAGS.RAIL_FAIL).record
      .valveRail (bankNode b) [1 + 2 ^ 8 * rail]) := by
  obtain ⟨w, waits, due⟩ := (Option.any_eq_true _ _).mp due
  have late : ((t.bank b).railFail || (t.bank b).waitAt.all fun w => decide (t.mtc < w + 4000000)) = false := by
    rw [stands, waits, Option.all_some, decide_eq_false (Nat.not_lt.mpr (of_decide_eq_true due))]
    rfl
  subst ht
  refine (State.next_of_neg (State.act_of_units hu _) (by simp [late])).trans (congrArg _ ?_)
  simp [empty]

/-- Settles O37: each command is its guard, with the effect where the guard holds.  How the rail falls without its charger, and the
clamp energy of a FAST decay that a START cuts short, are free values (log entry 64). -/
theorem valveCommands : Obligations.ValveCommands := by
  unfold Obligations.ValveCommands
  refine ⟨fun s c hold hu => State.act_of_units hu _, fun s c hold hu => State.act_of_units hu _,
    fun s c hold hu => State.act_of_units hu _, ?boostEnd, ?peakEnd, ?boostTimeout, ?holdEnd, ?decayEnd, ?clampEnd,
    fun s b rail d w rest hu => exec_boostFree_of_waiting hu rfl, ?defer, ?skip, fun s b rail hu => exec_railFail_of_due hu rfl,
    ?railBack, ?chopPeak, ?chopNone, ?chopHold⟩
  case boostEnd => exact fun s c hu boost => State.next_of_guard rfl hu (by simp [boost])
  case peakEnd => exact fun s c hu peak due => State.next_of_guard rfl hu (by simp [peak, due])
  case boostTimeout => exact fun s c curr hu boost due => State.next_of_guard rfl hu (by simp [boost, due])
  case holdEnd => exact fun s c hu hold free limited due => State.next_of_guard rfl hu (by simp [hold, free, limited, due])
  case decayEnd =>
    intro s c e hu decays slow
    exact (State.next_of_guard rfl hu (by simp [decays])).trans (congrArg _ (if_neg slow))
  case clampEnd =>
    intro s c e hu decays fast
    exact (State.next_of_guard rfl hu (by simp [decays])).trans (congrArg _ (if_pos fast))
  case defer =>
    intro s c w hu waits fresh due policy
    simp only [exec_boostWaitExpiry_of_due hu waits fresh due, policy]
  case skip =>
    intro s c w hu waits fresh due policy
    simp only [exec_boostWaitExpiry_of_due hu waits fresh due, policy]
  case railBack =>
    intro s b rail hu t failed ready
    exact State.next_of_pos (State.act_of_units hu _) (Bool.and_eq_true_iff.mpr ⟨failed, ready⟩)
  case chopPeak =>
    intro s c mean res hu grid peak
    refine (State.next_of_neg (State.act_of_units hu _) (by simp [grid])).trans (congrArg _ ?_)
    simp only [peak]
    rfl
  case chopNone => exact fun s c mean res hu off => State.next_of_pos (State.act_of_units hu _) (by simp [off])
  case chopHold =>
    intro s c mean res hu grid hold
    refine (State.next_of_neg (State.act_of_units hu _) (by simp [grid])).trans (congrArg _ ?_)
    simp only [hold, beq_self_eq_true, Bool.true_or, if_true]
    rfl

/-! ### The duty estimate -/

/-- A write of a field leaves every field under another key as it stands. -/
theorem State.on_put_other {s : State} (h : regRising s.regs) {f g : Fld} {i j k i' j' k' : Nat}
    (ne : g.key i' j' k' ≠ f.key i j k) (v : Nat) : (s.put f v i j k).on g i' j' k' = s.on g i' j' k' :=
  congrArg (· == 1) (State.get_put_other h ne v)

/-- The duty limit and the duty estimate of a channel are kept apart. -/
theorem dutyAct_key_ne_irmsEst (c : Nat) : VD_STAT.DUTY_ACT.key c 0 0 ≠ VD_DUTY_STAT.IRMS_EST.key c 0 0 := by
  simp only [Fld.key, Fld.at, VD_STAT.DUTY_ACT, VD_DUTY_STAT.IRMS_EST]
  omega

/-- A channel that is not energised is not in hold. -/
theorem Valve.not_hold_of_not_energised {v : Valve} (off : v.energised = false) : (v.phase == .hold) = false :=
  beq_false_of_ne fun hold => by simp [Valve.energised, hold] at off

/-- With the channel off and no duty limit active, the estimate moves, and the limit may become active (R199). -/
theorem exec_dutyUpdate_of_off {s : State} {c : Fin 32} {m : Nat} (hu : s.units = true) (off : (s.valve c).energised = false)
    (inactive : s.on VD_STAT.DUTY_ACT c.val = false) (rising : regRising s.regs) :
    ∃ t, exec (.dutyUpdate c m) s = .next t ∧ t.loads = s.loads ∧
      (t.valve c).q = (s.valve c).q.add (((Frac.int m).sub (s.valve c).q).divN (10 * (s.valve c).prof.win)) ∧
      (t.valve c).phase = (s.valve c).phase := by
  have unlimited (f : Valve → Valve) (est : Nat) :
      ((s.modValve c f).put VD_DUTY_STAT.IRMS_EST est c.val).on VD_STAT.DUTY_ACT c.val = false :=
    (State.on_put_other (s := s.modValve c f) rising (dutyAct_key_ne_irmsEst c.val) est).trans inactive
  refine ⟨_, State.act_of_units hu _, ?_⟩
  simp only [unlimited, Valve.not_hold_of_not_energised off, Bool.false_eq_true, if_false]
  split
  case isTrue => simp [State.putB]
  case isFalse => simp

/-- Settles O38: each command is its guard, with the effect where the guard holds.  That the record of a hold which a bank reset ends
says WRITE is log entry 64. -/
theorem valveProtections : Obligations.ValveProtections := by
  unfold Obligations.ValveProtections
  refine ⟨?short, ?openLoad, fun s c curr hu => State.act_of_units hu _, ?regFail, ?leak, ?bankShort, ?bankHot, ?feedLow, ?feedBack,
    fun s b curr hu => State.act_of_units hu _, fun s b temp rq hu sup => State.next_of_guard rfl hu sup,
    fun s b rq hu sup => State.next_of_guard rfl hu sup, fun s c word temp rq hu sup => State.next_of_guard rfl hu sup,
    fun s c m hu => exec_dutyUpdate_of_off hu⟩
  case short => exact fun s c curr hu high => State.next_of_pos (State.act_of_units hu _) high
  case openLoad => exact fun s c curr hu chops low => State.next_of_guard rfl hu (by rw [low, Bool.and_true]; simpa using chops)
  case regFail => exact fun s c hu hold astray => State.next_of_guard rfl hu (by rw [hold, astray]; rfl)
  case leak => exact fun s c hu off others => State.next_of_guard rfl hu (by simp [off, others])
  case bankShort => exact fun s b curr hu high => State.next_of_pos (State.act_of_units hu _) high
  case bankHot => exact fun s b curr temp hu hot => State.next_of_pos (State.act_of_units hu _) hot
  case feedLow => exact fun s b curr low hu isLow => State.next_of_pos (State.act_of_units hu _) (by simp [isLow])
  case feedBack =>
    intro s b curr low hu high straight
    exact State.next_of_neg (State.act_of_units hu _) (by simp [high, straight])

end Sys2Proof.Machine

/-! PROOFS.  The Trellis map: strips, grids, revisions, flushes, drains and the tiles of the fleet. -/

namespace Sys2Proof.Machine

open Sys2Proof.Reg

/-! ### Commands to a unit, and changes of a unit that leave the registers as they are -/

/-- While the units run, a command to a unit has its effect, whatever that effect comes to. -/
theorem State.next_of_units {s t u : State} {o : Host.Outcome State Fault Refusal} (e : o = s.act t) (hu : s.units = true)
    (h : t = u) : o = .next u := by
  rw [e, State.act_of_units hu, h]

@[simp] theorem State.modCv_get (s : State) (g : Cuvee → Cuvee) (f : Fld) (i j k : Nat) : (s.modCv g).get f i j k = s.get f i j k := rfl
@[simp] theorem State.modCv_on (s : State) (g : Cuvee → Cuvee) (f : Fld) (i j k : Nat) : (s.modCv g).on f i j k = s.on f i j k := rfl
@[simp] theorem State.modTl_get (s : State) (g : Trellis → Trellis) (f : Fld) (i j k : Nat) : (s.modTl g).get f i j k = s.get f i j k := rfl
@[simp] theorem State.modTl_on (s : State) (g : Trellis → Trellis) (f : Fld) (i j k : Nat) : (s.modTl g).on f i j k = s.on f i j k := rfl

/-! ### The Trellis service (R243, R244, R247 to R256) -/

/-- A peer tile that the open field holds already is merged into the cells; the tile is cached and dirty (R256). -/
theorem exec_fleetTileMerge_of_held {s : State} {p : PeerTile} {rest : List PeerTile} {f : TlField} (hu : s.units = true)
    (peer : s.trellis.peer = p :: rest) (on : s.on TL_CTL.FLEET_EN = true)
    (known : (s.trellis.fields.find? fun f => f.id == p.field && f.lat == p.lat && f.lon == p.lon && f.edge == p.edge) = some f)
    (cover : bit f.layers lyCover = true) (isOpen : s.get TL_FIELD.STATE ≠ 0) (same : f.id = s.get TL_FIELD_ID.ID)
    (held : s.trellis.tiles.contains p.tile = true) :
    exec .fleetTileMerge s = .next (((s.modTl fun l => { l with peer := rest }).count TL_CNT2.FLEET_MERGED).modTl fun l =>
      { l with cells := mergeTile l.cells p, tiles := l.tiles.insert p.tile, cached := l.cached.insert p.tile,
               dirty := l.dirty.insert p.tile }) := by
  have opened : (s.get TL_FIELD.STATE != 0 && f.id == s.get TL_FIELD_ID.ID) = true := by simp [isOpen, same]
  refine State.next_of_units rfl hu ?_
  simp only [peer]
  refine (if_neg (by simp [on])).trans ?_
  simp only [State.modTl_trellis, State.modTl_get, known, cover, opened, held, Bool.not_true, Bool.false_and, Bool.false_eq_true,
    if_true, if_false]
  rfl

/-- Settles O43, command by command; flush and drain are those of R244 and R243.  That strips which wait at a gap, a restart or a close are
placed as the end of their run, and that a flush writes the content at its start, are DEDUCED (log entry 39).  A mean of total
confidence 0 is a free value (log entry 18), and so is the rounding of the other means and of a lateness in ms (log entry 7). -/
theorem trellisCommands : Obligations.TrellisCommands := by
  unfold Obligations.TrellisCommands
  refine ⟨?stripOff, ?stripNone, ?stripTimeout, ?gridNone, ?gridOff, ?gridEmpty, ?revNone, ?revOff,
    fun s k hu => State.act_of_units hu _, ?flushStarts, ?flushLate, fun s hu => State.act_of_units hu _, ?drainEnds, ?peerOff,
    ?coverNone, ?coverOffered, ?strip, ?grid, ?revision, ?peer⟩
  case stripOff => exact fun s hu off => State.next_of_pos (State.act_of_units hu _) (by simp [off])
  case stripNone =>
    intro s hu on up noStrips
    refine State.next_of_units rfl hu ((if_neg (by simp [on, up])).trans ?_)
    simp only [noStrips]
    rfl
  case strip =>
    intro s r last hu on up t oldest newest complete
    subst t
    refine State.next_of_units rfl hu ((if_neg (by simp [on, up])).trans (congrArg State.trimStrips ?_))
    simp only [oldest, newest]
    exact if_pos complete
  case stripTimeout =>
    exact fun s hu on up due => State.next_of_neg (State.act_of_units hu _) (by simp [on, up, due])
  case gridNone => exact fun s hu unpublished => State.next_of_units rfl hu (by rw [unpublished])
  case gridOff =>
    intro s hu off
    refine State.next_of_units rfl hu ?_
    split
    · rfl
    · split
      · rfl
      · exact if_pos (by simp [off])
  case gridEmpty =>
    intro s p hu pub on isOpen up empty
    refine State.next_of_units rfl hu ?_
    simp only [pub, empty]
    split
    · rfl
    · exact if_neg (by simp [on, isOpen, up])
  case grid =>
    intro s p sol hu pub found on isOpen up
    refine State.next_of_units rfl hu ?_
    simp only [pub, found]
    exact if_neg (by simp [on, isOpen, up])
  case revNone => exact fun s hu noRevs => State.next_of_units rfl hu (by rw [noRevs])
  case revOff =>
    intro s o rest hu revs off
    refine State.next_of_units rfl hu ?_
    simp only [revs]
    split
    · rfl
    · exact if_pos (by simp [off])
  case revision =>
    intro s o rest sol hu revs on revOn isOpen up u tref hg placed cells t found
    subst t cells placed hg tref u
    refine State.next_of_units rfl hu ?_
    simp only [revs, found]
    exact if_neg (by simp [on, revOn, isOpen, up])
  case flushStarts => exact fun s hu idle isOpen => State.next_of_units rfl hu (by rw [idle]; exact if_neg isOpen)
  case flushLate => exact fun s x hu runs late => State.next_of_units rfl hu (by rw [runs]; exact if_pos late)
  case drainEnds => exact fun s c hu closed drain due => State.next_of_units rfl hu (by rw [closed]; exact if_pos ⟨drain, due⟩)
  case peerOff => exact fun s t rest hu peer off => State.next_of_units rfl hu (by rw [peer]; exact if_pos (congrArg Bool.not off))
  case peer =>
    intro s p rest f hu peer on known cover isOpen same held
    exact ⟨_, exec_fleetTileMerge_of_held hu peer on known cover isOpen same held, rfl, rfl,
      List.insert_of_mem (List.contains_iff_mem.mp held), rfl⟩
  case coverNone => exact fun s hu unchanged => State.next_of_pos (State.act_of_units hu _) (by simp [unchanged])
  case coverOffered =>
    intro s hu on fleet changed isOpen never
    exact State.next_of_neg (State.act_of_units hu _) (by simp [on, fleet, changed, isOpen, never])

end Sys2Proof.Machine

/-! PROOFS.  The Ethernet ports, the switch, its streams and host queues, and the messages of the fleet. -/

namespace Sys2Proof.Machine

open Sys2Proof.Reg

/-! ### Stores over the fabric: what they touch -/

/-- The states that differ from `s` in the registers, the cores, SRAM and DRAM alone. -/
def State.MemoryOnly (s t : State) : Prop := ∃ r c m d, t = { s with regs := r, cores := c, sram := m, dram := d }

theorem State.MemoryOnly.refl (s : State) : s.MemoryOnly s := ⟨_, _, _, _, rfl⟩

theorem State.MemoryOnly.trans {s t u : State} (a : s.MemoryOnly t) (b : t.MemoryOnly u) : s.MemoryOnly u := by
  obtain ⟨_, _, _, _, rfl⟩ := a
  obtain ⟨_, _, _, _, rfl⟩ := b
  exact ⟨_, _, _, _, rfl⟩

theorem State.MemoryOnly.switch {s t : State} (a : s.MemoryOnly t) : t.switch = s.switch := by
  obtain ⟨_, _, _, _, rfl⟩ := a
  rfl

theorem State.MemoryOnly.valves {s t : State} (a : s.MemoryOnly t) : t.valves = s.valves := by
  obtain ⟨_, _, _, _, rfl⟩ := a
  rfl

theorem State.MemoryOnly.mtc {s t : State} (a : s.MemoryOnly t) : t.mtc = s.mtc := by
  obtain ⟨_, _, _, _, rfl⟩ := a
  rfl

theorem State.put_memoryOnly (s : State) (f : Fld) (v i j k : Nat) : s.MemoryOnly (s.put f v i j k) := ⟨_, _, _, _, rfl⟩

theorem State.itcmStore_memoryOnly (s : State) (c : Fin 16) (ofs width v : Nat) : s.MemoryOnly (s.itcmStore c ofs width v) := by
  simp only [State.itcmStore, State.setBankValid]
  repeat' split
  all_goals exact ⟨_, _, _, _, rfl⟩

theorem State.fabPut_memoryOnly (s : State) (a : Nat) (b : Byte) : s.MemoryOnly (s.fabPut a b) := by
  unfold State.fabPut
  split
  case isTrue => exact ⟨_, _, _, _, rfl⟩
  split
  case isTrue => exact ⟨_, _, _, _, rfl⟩
  split
  case isTrue => exact ⟨_, _, _, _, rfl⟩
  split
  case isTrue => exact s.itcmStore_memoryOnly _ _ _ _
  case isFalse => exact .refl s

theorem State.fabWriteBytes_memoryOnly (bytes : List Nat) : ∀ (s : State) (a : Nat), s.MemoryOnly (s.fabWriteBytes a bytes) := by
  induction bytes with
  | nil => exact fun s _ => .refl s
  | cons b rest ih => exact fun s a => (s.fabPut_memoryOnly a _).trans (ih _ _)

theorem State.fabWrite_memoryOnly (words : List Nat) : ∀ (s : State) (a : Nat), s.MemoryOnly (s.fabWrite a words) := by
  induction words with
  | nil => exact fun s _ => .refl s
  | cons w rest ih =>
    intro s a
    refine State.MemoryOnly.trans ?_ (ih _ _)
    split
    · exact s.itcmStore_memoryOnly _ _ _ _
    · exact State.fabWriteBytes_memoryOnly _ s a

/-! ### What leaves the MTC as it is -/

@[simp] theorem State.fabWriteBytes_mtc (s : State) (a : Nat) (bytes : List Nat) : (s.fabWriteBytes a bytes).mtc = s.mtc :=
  (State.fabWriteBytes_memoryOnly bytes s a).mtc

@[simp] theorem State.fabWrite_mtc (s : State) (a : Nat) (words : List Nat) : (s.fabWrite a words).mtc = s.mtc :=
  (State.fabWrite_memoryOnly words s a).mtc

@[simp] theorem State.raise_mtc (s : State) (ev : Nat) : (s.raise ev).mtc = s.mtc := by
  obtain ⟨k, l, e⟩ := s.raise_eq ev
  rw [e]

@[simp] theorem State.ethFlag_mtc (s : State) (p b : Nat) : (s.ethFlag p b).mtc = s.mtc := by
  obtain ⟨r, k, l, e⟩ := s.flag_eq ETH_FLAGS.F ETH_EVMASK.F b 0x24 p 0
  rw [State.ethFlag, e]

@[simp] theorem State.egress_mtc (s : State) (p n : Nat) : (s.egress p n).mtc = s.mtc := by
  unfold State.egress
  repeat' split
  all_goals simp

@[simp] theorem State.egressFrame_mtc (s : State) (p : Nat) (d : List Nat) : (s.egressFrame p d).mtc = s.mtc := by
  unfold State.egressFrame
  dsimp only
  repeat' split
  all_goals simp

@[simp] theorem State.macLearn_mtc (s : State) (vid mac p : Nat) : (s.macLearn vid mac p).mtc = s.mtc := by
  unfold State.macLearn
  dsimp only
  repeat' split
  all_goals simp

@[simp] theorem State.ethForward_mtc (s : State) (v vid dst p : Nat) (d : List Nat) : (s.ethForward v vid dst p d).mtc = s.mtc := by
  unfold State.ethForward
  split
  · split <;> simp
  · refine List.foldlRecOn (motive := fun (t : State) => t.mtc = s.mtc) _ _ rfl fun t ht q _ => ?_
    dsimp only
    split
    · simp [ht]
    · exact ht

@[simp] theorem State.hqReceive_mtc (s : State) (q p stamp : Nat) (d : List Nat) : (s.hqReceive q p stamp d).mtc = s.mtc := by
  have written (u : State) (a i w x : Nat) :
      ((((u.fabWrite (a + 4) (two stamp)).fabWriteBytes (a + 16) d).fabWrite a [x]).put HQ_RX_WR.IDX (w % i) q).mtc = u.mtc := by simp
  unfold State.hqReceive
  dsimp only
  split
  · rfl
  · split
    · exact (State.raise_mtc _ _).trans (written _ _ _ _ _)
    · exact written _ _ _ _ _

@[simp] theorem State.strClose_mtc (s : State) (k : Fin 16) (by_ : Option Nat) : (s.strClose k by_).mtc = s.mtc := by
  unfold State.strClose
  dsimp only
  repeat' split
  all_goals simp

@[simp] theorem State.strPacket_mtc (s : State) (k : Fin 16) (d : List Nat) (stamp : Nat) : (s.strPacket k d stamp).mtc = s.mtc := by
  have ended (u : State) (last : Bool) : (if last then u.strClose k none else u).mtc = u.mtc := by
    split <;> simp
  unfold State.strPacket
  dsimp only
  split
  · simp
  · split
    · rfl
    · refine (ended _ _).trans ?_
      simp only [State.count_mtc, State.putB_mtc, State.modStr_mtc]
      split
      · split <;> simp
      · rfl

@[simp] theorem State.ethSwitch_mtc (s : State) (p pvid : Nat) (d : List Nat) (stamp : Nat) :
    (s.ethSwitch p pvid d stamp).mtc = s.mtc := by
  unfold State.ethSwitch
  dsimp only
  repeat' split
  all_goals simp

/-! ### The stream engine (R288) -/

/-- The write of the oldest closed block takes it off the stream's list; beyond that it touches registers and memory alone. -/
theorem exec_lidarBlockWrite_of_closed {s : State} {k : Fin 16} {b : StrBlock} {rest : List StrBlock} (hu : s.units = true)
    (closed : (s.switch.strs[k.val]).closed = b :: rest) :
    ∃ t, exec (.lidarBlockWrite k) s = .next t ∧ (s.modStr k fun x => { x with closed := rest }).MemoryOnly t := by
  refine ⟨_, State.act_of_units hu _, ?_⟩
  simp only [closed]
  have flags (u : State) (l : List Nat) (p : Nat → Bool) :
      u.MemoryOnly (l.foldl (fun (t : State) (f : Nat) => if p f then t.sticky STR_FLAGS.F f k.val else t) u) := by
    refine List.foldlRecOn (motive := fun (t : State) => u.MemoryOnly t) _ _ (.refl u) fun t ht f _ => ?_
    split
    · exact ht.trans (t.put_memoryOnly _ _ _ _ _)
    · exact ht
  have counted (u : State) (g n : Nat) :
      u.MemoryOnly (((u.count STR_CNT0.BLOCKS n k.val).count STR_CNT0.GAPS g k.val).bumpMod STR_STAT.BSEQ k.val) :=
    ⟨_, _, _, _, rfl⟩
  split
  · exact ((flags _ _ _).trans (counted _ _ _)).trans (State.put_memoryOnly _ _ _ _ _ _)
  · exact ((((flags _ _ _).trans (counted _ _ _)).trans (State.fabWrite_memoryOnly _ _ _)).trans
      (State.fabWrite_memoryOnly _ _ _)).trans (State.put_memoryOnly _ _ _ _ _ _)

/-! ### The host queues (R289) -/

/-- Sending an entry takes no time: its stamp is the MTC at which the sending began. -/
theorem State.fabWrite_stamp_of_sent {s u : State} {p : Prop} [Decidable p] {d : List Nat} {port : Nat}
    (sent : (if p then s.ethSwitch 10 1 d s.mtc else s.egressFrame port d) = u) (a w : Nat) :
    u.fabWrite a (w :: two u.mtc) = u.fabWrite a (w :: two s.mtc) := by
  have kept : u.mtc = s.mtc := by
    rw [← sent]
    split
    · exact State.ethSwitch_mtc _ _ _ _ _
    · exact State.egressFrame_mtc _ _ _
  rw [kept]

/-- Settles O47, command by command.  That an untagged frame of a host queue (port 10) is of VLAN 1 is PRESUMED (log entry 32); that RX
counts the frames past the checks of FCS and size is DEDUCED, for Table 15.7 says only that it counts frames. -/
theorem ethernetCommands : Obligations.EthernetCommands := by
  unfold Obligations.EthernetCommands
  refine ⟨?badFcs, ?oversize, ?received, ?foreignTime, fun s p hu => State.act_of_units hu _,
    fun s p sqi hu enabled => State.next_of_guard rfl hu enabled, fun s vid mac hu => State.act_of_units hu _, ?sync,
    ?peerDelay, fun s k hu late => State.next_of_guard rfl hu late, ?noBlock, ?block, fun s q v rq hu => State.act_of_units hu _,
    ?queueEmpty, ?skipped, ?sent⟩
  case badFcs => exact fun s p d fcsBad stamp hu bad enabled => State.next_of_pos (State.act_of_units hu _) (by simp [bad, enabled])
  case oversize =>
    intro s p d fcsBad stamp hu takes good long
    refine State.next_of_units rfl hu ((if_neg (by simp [good])).trans ((if_neg (by simp [takes])).trans (if_pos ?_)))
    omega
  case received =>
    intro s p d fcsBad stamp hu takes good short noTime
    refine State.next_of_units rfl hu ((if_neg (by simp [good])).trans ((if_neg (by simp [takes])).trans ((if_neg ?_).trans ?_)))
    · omega
    · exact if_neg (by simp [noTime])
  case foreignTime =>
    intro s p d fcsBad stamp hu takes good short time
    refine State.next_of_units rfl hu ((if_neg (by simp [good])).trans ((if_neg (by simp [takes])).trans ((if_neg ?_).trans ?_)))
    · omega
    · exact if_pos time
  case sync =>
    intro s hu due silent
    refine ⟨_, State.next_of_units rfl hu (if_neg (by simp [due])), ?_⟩
    simp only [silent, State.modSw_switch]
  case peerDelay => exact fun s p ns hu en up due => State.next_of_guard rfl hu (by simp [en, up, due])
  case noBlock => exact fun s k hu empty => State.next_of_units rfl hu (by rw [empty])
  case block =>
    intro s k hu waits
    obtain ⟨b, rest, closed⟩ := List.exists_cons_of_ne_nil waits
    obtain ⟨t, written, touched⟩ := exec_lidarBlockWrite_of_closed hu closed
    refine ⟨t, written, ?_, touched.valves⟩
    rw [touched.switch, closed]
    exact congrArg Str.closed (upd_same s.switch.strs k _)
  case queueEmpty => exact fun s q hu empty => State.next_of_pos (State.act_of_units hu _) empty
  case skipped =>
    intro s q hu rd a waits short
    refine State.next_of_units rfl hu ((if_neg waits).trans (congrArg (State.put · _ _ _) ?_))
    exact if_pos (.inl short)
  case sent =>
    intro s q hu rd a w0 d u waits lo hi
    refine State.next_of_units rfl hu ((if_neg waits).trans (congrArg (State.put · _ _ _) ?_))
    exact (if_neg (not_or.mpr ⟨Nat.not_lt.mpr lo, Nat.not_lt.mpr hi⟩)).trans (State.fabWrite_stamp_of_sent rfl _ _)

/-! ### Taking a message (R291, R292) -/

section Taken

variable {s u : State} {h : JfxHead} {o : Host.Outcome State Fault Refusal} {f : State → State}

/-- A message that is taken has its effect on the state that taking it leaves. -/
theorem State.next_of_taken (e : o = s.act (s.jfxOn h f)) (hu : s.units = true) (taken : (s.jfxTake h).2 = true)
    (effect : f (s.jfxTake h).1 = u) : o = .next u :=
  State.next_of_units e hu ((if_pos taken).trans effect)

/-- A message that is not taken changes what taking it counts, and no more. -/
theorem State.next_of_not_taken (e : o = s.act (s.jfxOn h f)) (hu : s.units = true) (lost : (s.jfxTake h).2 = false) :
    o = .next (s.jfxTake h).1 :=
  State.next_of_units e hu (if_neg (by simp [lost]))

end Taken

/-- The first of several fragments of a tile begins its reassembly (R296). -/
theorem exec_jfxTile_of_first {s : State} {h : JfxHead} {f : TileFrag} (hu : s.units = true) (taken : (s.jfxTake h).2 = true)
    (noPart : (s.jfxTake h).1.fleet.parts = []) (more : 1 < f.nfrag) :
    exec (.jfxTile h f) s = .next ((((s.jfxTake h).1.modFleet fun l => { l with parts := [] }).count SW_JFX1.TILE_DROP 0).modFleet
      fun l => { l with parts := [⟨h.sender, (s.jfxTake h).1.mtc, [f]⟩] }) := by
  refine State.next_of_taken rfl hu taken ?_
  simp [noPart, State.modFleet, Nat.not_le.mpr more]

/-- Settles O48, message by message.  The order of the words of a notification is DEDUCED (log entry 43), the code of a received STATE is
a free value (log entry 18), and the challenge's number is a random draw (log entry 24). -/
theorem fleetMessages : Obligations.FleetMessages := by
  unfold Obligations.FleetMessages
  refine ⟨?notTaken, fun s h hu taken => State.next_of_taken rfl hu taken rfl, fun s h hu taken => State.next_of_taken rfl hu taken rfl,
    fun s h hu taken => State.next_of_taken rfl hu taken rfl, fun s h fields hu taken => State.next_of_taken rfl hu taken rfl,
    fun s h bytes hu taken => State.next_of_taken rfl hu taken rfl, fun s h no fields hu taken => State.next_of_taken rfl hu taken rfl,
    fun s h no fields hu taken isOpen => State.next_of_taken rfl hu taken (if_pos isOpen),
    fun s h no fields hu taken isOpen => State.next_of_taken rfl hu taken (if_pos isOpen),
    fun s h no fields hu taken unknown => State.next_of_taken rfl hu taken (by rw [unknown]),
    fun s h no hu taken unknown => State.next_of_taken rfl hu taken (by rw [unknown]), ?ofPeer, ?rtcm, ?ack, ?tile, ?notEntered,
    ?challenge, ?response, ?helloKnown, ?helloNew⟩
  case notTaken =>
    exact fun s h hu lost => ⟨State.next_of_not_taken rfl hu lost, State.next_of_not_taken rfl hu lost,
      State.next_of_not_taken rfl hu lost⟩
  case ofPeer =>
    intro s h no fields d hu r t taken there peer
    subst t r
    exact ⟨State.next_of_taken rfl hu taken (by rw [there]; exact if_pos peer),
      State.next_of_taken rfl hu taken (by rw [there]; exact if_pos peer)⟩
  case rtcm =>
    intro s h src hop bytes hu r m u taken
    subst u m r
    refine ⟨fun last => State.next_of_taken rfl hu taken (if_neg ?_),
      fun relay within new => State.next_of_taken rfl hu taken (if_pos ?_)⟩
    · simp [Nat.not_lt.mpr last]
    · simp [relay, within, new]
  case ack =>
    intro s h seq hu r t u taken idle
    subst u t r
    exact State.next_of_taken rfl hu taken (by dsimp only; rw [idle])
  case tile => exact fun s h f hu taken noPart more => ⟨_, exec_jfxTile_of_first hu taken noPart more, rfl, rfl, rfl⟩
  case notEntered =>
    intro s h fleet cls field na hu lost
    exact ⟨State.next_of_units rfl hu (if_pos (by simp [lost])), State.next_of_units rfl hu (if_neg (by simp [lost])),
      State.next_of_units rfl hu (if_pos (by simp [lost]))⟩
  case challenge => exact fun s h na hu entered => State.next_of_units rfl hu (if_pos entered)
  case response =>
    intro s h na a hu entered free asked known
    refine State.next_of_units rfl hu ((if_neg (by simp [entered, free])).trans ?_)
    simp only [asked]
    exact if_pos (by simp [known])
  case helloKnown =>
    intro s h cls field p hu entered free there same
    refine State.next_of_units rfl hu ((if_neg (by simp [entered, free])).trans ?_)
    simp only [there]
    exact if_pos same
  case helloNew =>
    intro s h cls field hu t na entered free unknown
    refine State.next_of_units rfl hu ((if_neg (by simp [entered, free, t])).trans ?_)
    rw [unknown]
    rfl

end Sys2Proof.Machine

/-! PROOFS.  The error controller: what a write to ERR_DONE pops, and which error is handled next. -/

namespace Sys2Proof.Machine

open Sys2Proof.Reg

@[simp] theorem State.record_errs (s : State) (t : RecType) (nd : Nat) (items : List Nat) :
    (s.record t nd items).errs = s.errs := by
  obtain ⟨r, b, f, e⟩ := s.record_eq t nd items
  rw [e]

theorem exec_errDone_of_sup (s : State) (seq : Nat) {rq : Req} (sup : rq.sup = true) :
    exec (.errDone seq rq) s = .next (s.errDone (seq % 2 ^ 32)) :=
  State.next_of_pos rfl sup

/-! ### What is handled next (R330) -/

/-- The state after a pop that leaves the stack `r`: an error is pushed or delivered. -/
def State.errNext (t : State) (r : List Err) : State :=
  match t.errs.queue with
  | h :: q =>
    if (r.head?.map fun e => decide (e.sev < h.sev)).getD true then { t with errs := { t.errs with queue := q } }.errPush h
    else t.errDeliver
  | [] => if r.isEmpty then t.errShow else t.errDeliver

section Next

variable {t : State} {r q : List Err} {h : Err}

theorem State.errNext_of_higher (queue : t.errs.queue = h :: q) (higher : ∀ e ∈ r.head?, e.sev < h.sev) :
    t.errNext r = { t with errs := { t.errs with queue := q } }.errPush h := by
  simp only [State.errNext, queue]
  refine if_pos ?_
  cases r with
  | nil => rfl
  | cons top r => simpa using higher

theorem State.errNext_of_not_higher (queue : t.errs.queue = h :: q) (lower : ∃ e ∈ r.head?, h.sev ≤ e.sev) :
    t.errNext r = t.errDeliver := by
  obtain ⟨e, top, le⟩ := lower
  simp only [State.errNext, queue, Option.mem_def.mp top]
  exact if_neg (by simpa using le)

theorem State.errNext_of_no_queue (queue : t.errs.queue = []) :
    t.errNext r = if r = [] then t.errShow else t.errDeliver := by
  simp only [State.errNext, queue, List.isEmpty_iff]

end Next

/-! ### ERR_DONE (R330) -/

/-- A value that ERR_TOP_C does not show is ignored, and so is every value while the stack is empty. -/
theorem State.errDone_of_ignored {s : State} {seq : Nat} (ignored : seq ≠ s.get ERR_TOP_C.SEQ ∨ s.errs.stack = []) :
    s.errDone seq = s.count ERR_CNT2.DONE_IGN := by
  cases stack : s.errs.stack with
  | nil => simp only [State.errDone, stack]
  | cons top r =>
    have other : seq ≠ s.get ERR_TOP_C.SEQ := ignored.resolve_right (by simp [stack])
    simp only [State.errDone, stack]
    exact if_pos (.inl other)

/-- The value that ERR_TOP_C shows pops the top level, which carries it, with its record. -/
theorem State.errDone_of_top {s : State} {top : Err} {r : List Err} (stack : s.errs.stack = top :: r)
    (shown : top.seq = s.get ERR_TOP_C.SEQ) :
    s.errDone top.seq = ({ s with errs := { s.errs with stack := r } }.record .errDone platNode [top.seq]).errNext r := by
  simp only [State.errDone, stack]
  exact if_neg (by simp [← shown])

/-- Settles O58.  That a write while the stack is empty is ignored, whatever ERR_TOP_C shows, and that the top level itself must carry
the value written are DEDUCED (log entry 34). -/
theorem errDonePops : Obligations.ErrDonePops := by
  unfold Obligations.ErrDonePops
  refine ⟨?ignored, ?popped⟩
  case ignored =>
    intro s seq rq sup ignored
    rw [exec_errDone_of_sup s seq sup, State.errDone_of_ignored ignored]
  case popped =>
    intro s rq top r sup stack shown small t
    have done : exec (.errDone top.seq rq) s = .next (t.errNext r) := by
      rw [exec_errDone_of_sup s top.seq sup, Nat.mod_eq_of_lt small, State.errDone_of_top stack shown]
    have queue : t.errs.queue = s.errs.queue := by simp [t]
    refine ⟨by simp [t], queue, fun h q waits higher => ?_, fun h q waits lower => ?_, fun none left => ?_, fun none left => ?_⟩
    · rw [done, State.errNext_of_higher (queue.trans waits) higher]
    · rw [done, State.errNext_of_not_higher (queue.trans waits) lower]
    · rw [done, State.errNext_of_no_queue (queue.trans none), if_neg left]
    · rw [done, State.errNext_of_no_queue (queue.trans none), if_pos left]

end Sys2Proof.Machine

/-! PROOFS.  The queue of commands: no operation of a unit touches it.  One lemma for each operation; a proof splits where its operation
matches on data, and the lemmas on what it calls do the rest.  Where an operation's values hold numbers like 2 ^ 32, a step of `simp`
that holds by definition would make the kernel compare those values; `-implicitDefEqProofs` has such a step proved by its lemma. -/

namespace Sys2Proof.Machine

open Sys2Proof.Reg

/-! ### Operations that leave the queue -/

/-- An operation that leaves the queue of commands as it is. -/
def KeepsQueue (f : State → State) : Prop := ∀ s, (f s).pending = s.pending

@[simp] theorem keepsQueue_iff {f : State → State} : KeepsQueue f ↔ ∀ s, (f s).pending = s.pending := Iff.rfl

@[simp] theorem State.ite_pending {c : Prop} [Decidable c] (s t : State) :
    (if c then s else t).pending = if c then s.pending else t.pending :=
  apply_ite State.pending c s t

/-- A part of the accumulator that no element changes is that of the start. -/
theorem foldl_part {α β γ : Type} (part : β → γ) {f : β → α → β} (h : ∀ b a, part (f b a) = part b) (l : List α) (b : β) :
    part (l.foldl f b) = part b := by
  induction l generalizing b with
  | nil => rfl
  | cons a l ih => exact (ih (f b a)).trans (h b a)

@[simp] theorem State.foldl_pending {α : Type} {f : State → α → State} (h : ∀ a, KeepsQueue fun t => f t a) (l : List α) (s : State) :
    (l.foldl f s).pending = s.pending :=
  foldl_part State.pending (fun t a => h a t) l s

theorem foldl_fst_pending {α β : Type} {f : State × β → α → State × β} (h : ∀ p a, (f p a).1.pending = p.1.pending) (l : List α)
    (p : State × β) : (l.foldl f p).1.pending = p.1.pending :=
  foldl_part (fun p => p.1.pending) h l p

/-- The state that an operation answers, if it answers one, has the queue of `s`. -/
def State.QueueOf (s : State) (o : Option State) : Prop := ∀ t, o = some t → t.pending = s.pending

@[simp] theorem State.queueOf_none {s : State} : s.QueueOf none := fun _ h => nomatch h

@[simp] theorem State.queueOf_some {s t : State} : s.QueueOf (some t) ↔ t.pending = s.pending :=
  ⟨fun h => h t rfl, fun h _ e => Option.some.inj e ▸ h⟩

section QueueOf

variable {s t : State} {o p : Option State}

theorem State.QueueOf.orElse (ho : s.QueueOf o) (hp : s.QueueOf p) : s.QueueOf (o <|> p) := by
  cases o with
  | none => exact hp
  | some t => exact ho

theorem State.QueueOf.ite {c : Prop} [Decidable c] (ho : s.QueueOf o) (hp : s.QueueOf p) : s.QueueOf (if c then o else p) := by
  split
  · exact ho
  · exact hp

theorem State.QueueOf.getD (ho : s.QueueOf o) (ht : t.pending = s.pending) : (o.getD t).pending = s.pending := by
  cases o with
  | none => exact ht
  | some u => exact ho u rfl

theorem State.QueueOf.of_eq (ho : t.QueueOf o) (h : t.pending = s.pending) : s.QueueOf o := fun u e => (ho u e).trans h

end QueueOf

/-- The state of a load that reaches its region has the queue of `s`. -/
def State.QueueOfLoad (s : State) : Loaded → Prop
  | .access _ => True
  | .bus _ t | .value _ _ t => t.pending = s.pending

/-! ### Registers and fields -/

@[simp] theorem State.putWord_pending (s : State) (fs v i j k) : (s.putWord fs v i j k).pending = s.pending := by simp [State.putWord]

@[simp] theorem State.copyRange_pending (s : State) (lo hi delta) : (s.copyRange lo hi delta).pending = s.pending := rfl

@[simp] theorem forUpTo_pending {f : Nat → State → State} (h : ∀ i, KeepsQueue (f i)) (n) (s : State) :
    (forUpTo n f s).pending = s.pending :=
  State.foldl_pending h _ s

/-! ### Locks and events of a core -/

@[simp] theorem State.withdraw_pending (s : State) (n d) : (s.withdraw n d).pending = s.pending := rfl

@[simp] theorem State.eventHere_pending (s : State) (c l) : (s.eventHere c l).pending = s.pending := rfl

@[simp] theorem State.takeEvent_pending (s : State) (c) : (s.takeEvent c).pending = s.pending := by
  unfold State.takeEvent
  dsimp only
  split
  · simp
  · split
    · simp
    · split
      · split <;> simp
      · split <;> simp

@[simp] theorem State.eventNow_pending (s : State) (c) : (s.eventNow c).pending = s.pending := by simp [State.eventNow]

@[simp] theorem State.eventsNow_pending (s : State) : s.eventsNow.pending = s.pending := by simp [State.eventsNow]

/-! ### Events, flags and records -/

@[simp] theorem State.raise_pending (s : State) (ev) : (s.raise ev).pending = s.pending := by simp [State.raise]

@[simp] theorem State.flag_pending (s : State) (fl mask b ev i j) : (s.flag fl mask b ev i j).pending = s.pending := by simp [State.flag]

@[simp] theorem State.keepTime_pending (s : State) (mtc t items) : (s.keepTime mtc t items).pending = s.pending := by simp [State.keepTime]

@[simp] theorem State.recordAt_pending (s : State) (mtc t nd items) : (s.recordAt mtc t nd items).pending = s.pending := by
  simp [State.recordAt]

@[simp] theorem State.record_pending (s : State) (t nd items) : (s.record t nd items).pending = s.pending := by simp [State.record]

/-! ### Stores over the fabric -/

@[simp] theorem State.setBankValid_pending (s : State) (c bank v) : (s.setBankValid c bank v).pending = s.pending := by
  simp [State.setBankValid]

@[simp] theorem State.tableIgn_pending (s : State) (c) : (s.tableIgn c).pending = s.pending := rfl

@[simp] theorem State.itcmStore_pending (s : State) (c ofs width v) : (s.itcmStore c ofs width v).pending = s.pending := by
  simp [State.itcmStore]

@[simp] theorem State.fabPut_pending (s : State) (a b) : (s.fabPut a b).pending = s.pending := by simp [State.fabPut]

@[simp] theorem State.fabWriteBytes_pending (s : State) (a bs) : (s.fabWriteBytes a bs).pending = s.pending := by
  induction bs generalizing s a with
  | nil => rfl
  | cons b bs ih => simp [State.fabWriteBytes, ih]

@[simp] theorem State.fabWrite_pending (s : State) (a ws) : (s.fabWrite a ws).pending = s.pending := by
  induction ws generalizing s a with
  | nil => rfl
  | cons w ws ih => simp [State.fabWrite, ih]

/-! ### Sensors and the release of epochs -/

@[simp] theorem State.cvFlag_pending (s : State) (b) : (s.cvFlag b).pending = s.pending := by simp [State.cvFlag]

@[simp] theorem State.sensGo_pending (s : State) (n st why) : (s.sensGo n st why).pending = s.pending := by simp [State.sensGo]

@[simp] theorem State.unhold_pending (s : State) (o) : (s.unhold o).pending = s.pending := by
  unfold State.unhold
  split <;> simp

@[simp] theorem State.holdSlot_pending (s : State) (o) : (s.holdSlot o).pending = s.pending := by
  unfold State.holdSlot
  split <;> simp

@[simp] theorem State.revise_pending (s : State) (o held) : (s.revise o held).pending = s.pending := by simp [State.revise]

@[simp] theorem State.sensDropouts_pending (s : State) (k objs) : (s.sensDropouts k objs).pending = s.pending := by
  simp [State.sensDropouts]

@[simp] theorem State.cvDropWaiting_pending (s : State) : s.cvDropWaiting.pending = s.pending := by
  unfold State.cvDropWaiting
  split <;> simp

@[simp] theorem State.cvRelease_pending (s : State) (tmo) : (s.cvRelease tmo).pending = s.pending := by simp [State.cvRelease]

@[simp] theorem State.cvTryRelease_pending (s : State) (n) : (s.cvTryRelease n).pending = s.pending := by
  induction n generalizing s with
  | zero => rfl
  | succ n ih => simp [State.cvTryRelease, ih]

@[simp] theorem State.cvReleaseAll_pending (s : State) : s.cvReleaseAll.pending = s.pending := by simp [State.cvReleaseAll]

/-! ### Cameras and pipes -/

@[simp] theorem State.camFlag_pending (s : State) (n b) : (s.camFlag n b).pending = s.pending := by simp [State.camFlag]

@[simp] theorem State.camFlagIf_pending (s : State) (n c b) : (s.camFlagIf n c b).pending = s.pending := by simp [State.camFlagIf]

@[simp] theorem State.camGo_pending (s : State) (n st) : (s.camGo n st).pending = s.pending := by simp [State.camGo]

@[simp] theorem State.camLoads_pending (s : State) : s.camLoads.pending = s.pending := by simp [State.camLoads]

@[simp] theorem State.camPredict_pending (s : State) (n d) : (s.camPredict n d).pending = s.pending := by simp [State.camPredict]

@[simp] theorem State.camMayClose_pending (s : State) (n) : (s.camMayClose n).pending = s.pending := by simp [State.camMayClose]

@[simp] theorem State.camSend_pending (s : State) (n base) : (s.camSend n base).pending = s.pending := rfl

@[simp] theorem State.camAdmit_pending (s : State) (n) : (s.camAdmit n).pending = s.pending := by simp [State.camAdmit]

@[simp] theorem State.camReplay_pending (s : State) (n) : (s.camReplay n).pending = s.pending := by
  unfold State.camReplay
  dsimp only
  split
  · split <;> simp
  · simp

@[simp] theorem State.pipeSettle_pending (s : State) (p) : (s.pipeSettle p).pending = s.pending := by simp [State.pipeSettle]

@[simp] theorem State.camClose_pending (s : State) (n overrun link hdr cut) : (s.camClose n overrun link hdr cut).pending = s.pending := by
  unfold State.camClose
  split <;> simp

@[simp] theorem State.camOpen_pending (s : State) (n) : (s.camOpen n).pending = s.pending := by simp [State.camOpen]

@[simp] theorem State.camHeader_pending (s : State) (n eccCorr eccBad) : (s.camHeader n eccCorr eccBad).pending = s.pending := by
  simp [State.camHeader]

@[simp] theorem State.camCfgWrite_pending (s : State) (n reg value) : (s.camCfgWrite n reg value).pending = s.pending := by
  unfold State.camCfgWrite
  dsimp only
  split
  · simp
  · split
    · split <;> simp
    · simp

@[simp] theorem State.camSetIgnored_pending (s : State) (n) : (s.camSetIgnored n).pending = s.pending := by simp [State.camSetIgnored]

@[simp] theorem State.camSetGo_pending (s : State) (n nw) : (s.camSetGo n nw).pending = s.pending := by simp [State.camSetGo]

@[simp] theorem State.tblSwitch_pending (s : State) (p) : (s.tblSwitch p).pending = s.pending := by simp [State.tblSwitch]

/-! ### Activations, waits and replies -/

@[simp] theorem State.startAct_pending (s : State) (c e) : (s.startAct c e).pending = s.pending := by simp [State.startAct]

@[simp] theorem State.payOwed_pending (s : State) (c) : (s.payOwed c).pending = s.pending := by simp [State.payOwed]

@[simp] theorem State.settle_pending (s : State) (c) : (s.settle c).pending = s.pending := by
  unfold State.settle
  dsimp only
  split
  · simp
  · split
    · simp
    · split <;> simp

@[simp] theorem State.boundary_pending (s : State) (c) : (s.boundary c).pending = s.pending := by
  unfold State.boundary
  dsimp only
  split
  · simp
  · split <;> simp

@[simp] theorem State.endLockWait_pending (s : State) (c w) : (s.endLockWait c w).pending = s.pending := by
  unfold State.endLockWait
  split <;> simp

@[simp] theorem State.passLock_pending (s : State) (n) : (s.passLock n).pending = s.pending := by
  unfold State.passLock
  dsimp only
  split
  · simp
  · split <;> simp

@[simp] theorem State.releaseAll_pending (s : State) (d) : (s.releaseAll d).pending = s.pending := by simp [State.releaseAll]

@[simp] theorem State.endAct_pending (s : State) (c e) : (s.endAct c e).pending = s.pending := by
  unfold State.endAct
  dsimp only
  split
  · simp
  · split <;> simp

@[simp] theorem State.endAllActs_pending (s : State) (c) : (s.endAllActs c).pending = s.pending := by simp [State.endAllActs]

@[simp] theorem State.toDtcm_pending (s : State) (c addr limit g) : (s.toDtcm c addr limit g).pending = s.pending := rfl

@[simp] theorem State.endWait_pending (s : State) (c e a w) : (s.endWait c e a w).pending = s.pending := by simp [State.endWait]

@[simp] theorem State.serveReceiver_pending (s : State) (m) : (s.serveReceiver m).pending = s.pending := by
  unfold State.serveReceiver
  split
  · split <;> simp
  · simp

@[simp] theorem State.pushMsg_pending (s : State) (m sender words) : (s.pushMsg m sender words).pending = s.pending := by
  simp [State.pushMsg]

@[simp] theorem State.platEvent_pending (s : State) (code param) : (s.platEvent code param).pending = s.pending := by simp [State.platEvent]

@[simp] theorem State.svcSend_pending (s : State) (k m words) : (s.svcSend k m words).pending = s.pending := by simp [State.svcSend]

@[simp] theorem State.request_pending (s : State) (m op q params) : (s.request m op q params).pending = s.pending := by
  unfold State.request
  split <;> simp

@[simp] theorem State.reply_pending (s : State) (q k op status final results) :
    (s.reply q k op status final results).pending = s.pending := by
  simp [State.reply]

@[simp] theorem State.done_pending (s : State) (q k op status results) : (s.done q k op status results).pending = s.pending := by
  simp [State.done]

/-! ### CAN controllers -/

@[simp] theorem State.canFlag_pending (s : State) (n b) : (s.canFlag n b).pending = s.pending := by simp [State.canFlag]

@[simp] theorem State.canOwnerIgn_pending (s : State) (n) : (s.canOwnerIgn n).pending = s.pending := by simp [State.canOwnerIgn]

@[simp] theorem State.canCounters_pending (s : State) (n) : (s.canCounters n).pending = s.pending := rfl

@[simp] theorem State.canGo_pending (s : State) (n st) : (s.canGo n st).pending = s.pending := by simp [State.canGo]

@[simp] theorem State.clearBit_pending (s : State) (f k i) : (s.clearBit f k i).pending = s.pending := rfl

@[simp] theorem State.txFinish_pending (s : State) (n k result late stamp) : (s.txFinish n k result late stamp).pending = s.pending := by
  unfold State.txFinish
  dsimp only
  split <;> simp

@[simp] theorem State.txComplete_pending (s : State) (n k result late stamp) :
    (s.txComplete n k result late stamp).pending = s.pending := by
  simp [State.txComplete]

@[simp] theorem State.txAll_pending (s : State) (n result) : (s.txAll n result).pending = s.pending := by simp [State.txAll]

@[simp] theorem State.txwWrite_pending (s : State) (n word v id) : (s.txwWrite n word v id).pending = s.pending := by simp [State.txwWrite]

@[simp] theorem State.txRequest_pending (s : State) (n mask id) : (s.txRequest n mask id).pending = s.pending := by simp [State.txRequest]

@[simp] theorem State.txCancelOne_pending (s : State) (n k) : (s.txCancelOne n k).pending = s.pending := by
  unfold State.txCancelOne
  dsimp only
  split
  · simp
  · split
    · split
      · split
        · split <;> simp
        · simp
      · simp
    · simp

@[simp] theorem State.txCancel_pending (s : State) (n mask id) : (s.txCancel n mask id).pending = s.pending := by simp [State.txCancel]

@[simp] theorem State.canReset_pending (s : State) (n) : (s.canReset n).pending = s.pending := rfl

@[simp] theorem State.canKeep_pending (s : State) (n) : (s.canKeep n).pending = s.pending := rfl

@[simp] theorem State.canAsOf_pending (s : State) (n t) : (s.canAsOf n t).pending = s.pending := by
  unfold State.canAsOf
  split <;> simp

@[simp] theorem State.canLeave_pending (s : State) (n rst) : (s.canLeave n rst).pending = s.pending := by simp [State.canLeave]

@[simp] theorem State.canFrameEnd_pending (s : State) (n) : (s.canFrameEnd n).pending = s.pending := by simp [State.canFrameEnd]

@[simp] theorem State.txEnd_pending (s : State) (n ok) : (s.txEnd n ok).pending = s.pending := by
  unfold State.txEnd
  dsimp only
  split
  · simp
  · split
    · simp
    · split
      · simp
      · split
        · simp
        · split
          · simp
          · split <;> simp

@[simp] theorem State.canSetNew_pending (s : State) (n b v) : (s.canSetNew n b v).pending = s.pending := by simp [State.canSetNew]

@[simp] theorem State.canPut_pending (s : State) (n b ws) : (s.canPut n b ws).pending = s.pending := by simp [State.canPut]

@[simp] theorem State.canLockOvf_pending (s : State) (n) : (s.canLockOvf n).pending = s.pending := by simp [State.canLockOvf]

@[simp] theorem State.canRxEv_pending (s : State) (n) : (s.canRxEv n).pending = s.pending := by simp [State.canRxEv]

@[simp] theorem State.canQueue_pending (s : State) (n ws) : (s.canQueue n ws).pending = s.pending := by simp [State.canQueue]

@[simp] theorem State.canStore_pending (s : State) (n b ws) : (s.canStore n b ws).pending = s.pending := by simp [State.canStore]

@[simp] theorem State.canReceive_pending (s : State) (n f) : (s.canReceive n f).pending = s.pending := by
  unfold State.canReceive
  dsimp only
  split
  · split
    · simp
    · split
      · split
        · simp
        · split
          · split <;> simp
          · split <;> simp
        · simp
      · split
        · split <;> simp
        · split <;> simp
  · split
    · simp
    · split
      · split <;> simp
      · simp

@[simp] theorem State.canFrameLate_pending (s : State) (n f) : (s.canFrameLate n f).pending = s.pending := by
  unfold State.canFrameLate
  split <;> simp

@[simp] theorem State.canFrame_pending (s : State) (n f) : (s.canFrame n f).pending = s.pending := by simp [State.canFrame]

@[simp] theorem State.rxwLock_pending (s : State) (n w) : (s.rxwLock n w).pending = s.pending := by simp [State.rxwLock]

@[simp] theorem State.rxwRelease_pending (s : State) (n w) : (s.rxwRelease n w).pending = s.pending := rfl

@[simp] theorem State.rxwConsume_pending (s : State) (n w) : (s.rxwConsume n w).pending = s.pending := by
  unfold State.rxwConsume
  split <;> simp

@[simp] theorem State.rxwAbandon_pending (s : State) (n w) : (s.rxwAbandon n w).pending = s.pending := by simp [State.rxwAbandon]

@[simp] theorem State.rxwSelect_pending (s : State) (n w v id) : (s.rxwSelect n w v id).pending = s.pending := by simp [State.rxwSelect]

@[simp] theorem State.rxwRel_pending (s : State) (n w v id) : (s.rxwRel n w v id).pending = s.pending := by simp [State.rxwRel]

@[simp] theorem State.txEvPop_pending (s : State) (n) : (s.txEvPop n).pending = s.pending := rfl

@[simp] theorem State.canOff_pending (s : State) (n) : (s.canOff n).pending = s.pending := by simp [State.canOff]

@[simp] theorem State.canError_pending (s : State) (n kind tx inc) : (s.canError n kind tx inc).pending = s.pending := by
  unfold State.canError
  dsimp only
  split
  · simp
  · split
    · split
      · split <;> simp
      · split <;> simp
    · split
      · split <;> simp
      · split <;> simp

@[simp] theorem State.canRecover_pending (s : State) (n) : (s.canRecover n).pending = s.pending := by simp [State.canRecover]

@[simp] theorem State.canInitWrite_pending (s : State) (n init) : (s.canInitWrite n init).pending = s.pending := by
  simp [State.canInitWrite]

@[simp] theorem State.canRstWrite_pending (s : State) (n) : (s.canRstWrite n).pending = s.pending := by simp [State.canRstWrite]

/-! ### The time unit -/

@[simp] theorem State.tuFlag_pending (s : State) (b) : (s.tuFlag b).pending = s.pending := by simp [State.tuFlag]

@[simp] theorem State.tuShow_pending (s : State) : s.tuShow.pending = s.pending := rfl

@[simp] theorem State.tuGo_pending (s : State) (st) : (s.tuGo st).pending = s.pending := by
  unfold State.tuGo
  split <;> simp

/-- A solution that carries the leap seconds is one that does not, taken once they are written. -/
theorem State.timeSolution_leap (s : State) (time u0 y l) :
    s.timeSolution time u0 y (some l) = ((s.put TU_LEAP.LEAP l).putB TU_LEAP.VALID true).timeSolution time u0 y none := rfl

theorem State.timeSolution_none_pending (s : State) (time u0 y) : (s.timeSolution time u0 y none).pending = s.pending := by
  unfold State.timeSolution
  dsimp only
  split
  · exact State.put_pending ..
  · split
    case h_1 => simp only [State.tuShow_pending, State.modTime_pending, State.put_pending]
    case h_2 =>
      split
      · simp only [State.tuGo_pending, State.modTime_pending, State.put_pending]
      · exact State.put_pending ..
    case h_3 =>
      split
      · exact State.put_pending ..
      · split
        · refine (State.tuGo_pending ..).trans ?_
          split
          · simp only [State.modTime_pending, State.put_pending]
          · simp only [State.tuFlag_pending, State.modTime_pending, State.put_pending]
        · simp only [State.modTime_pending, State.put_pending]

@[simp] theorem State.timeSolution_pending (s : State) (time u0 y leap) : (s.timeSolution time u0 y leap).pending = s.pending := by
  cases leap with
  | none => exact s.timeSolution_none_pending ..
  | some l =>
    rw [State.timeSolution_leap, State.timeSolution_none_pending]
    simp only [State.putB_pending, State.put_pending]

@[simp] theorem State.tuWarm_pending (s : State) : s.tuWarm.pending = s.pending := by
  unfold State.tuWarm
  split <;> simp

@[simp] theorem State.tuLatch_pending (s : State) : s.tuLatch.pending = s.pending := rfl

@[simp] theorem State.convLatch_pending (s : State) : s.convLatch.pending = s.pending := rfl

@[simp] theorem State.modTp_pending (s : State) (p f) : (s.modTp p f).pending = s.pending := rfl

@[simp] theorem State.tpChanged_pending (s t : State) (p) : (s.tpChanged t p).pending = t.pending := by simp [State.tpChanged]

/-! ### The Ethernet switch and its streams -/

@[simp] theorem State.ethFlag_pending (s : State) (p b) : (s.ethFlag p b).pending = s.pending := by simp [State.ethFlag]

@[simp] theorem State.egress_pending (s : State) (p n) : (s.egress p n).pending = s.pending := by
  unfold State.egress
  split <;> simp

@[simp] theorem State.egressFrame_pending (s : State) (p d) : (s.egressFrame p d).pending = s.pending := by
  unfold State.egressFrame
  split <;> simp

@[simp] theorem State.macLearn_pending (s : State) (vid mac p) : (s.macLearn vid mac p).pending = s.pending := by simp [State.macLearn]

@[simp] theorem State.ethForward_pending (s : State) (v vid dst p d) : (s.ethForward v vid dst p d).pending = s.pending := by
  unfold State.ethForward
  split <;> simp

@[simp] theorem State.hqReceive_pending (s : State) (q p stamp d) : (s.hqReceive q p stamp d).pending = s.pending := by
  simp -implicitDefEqProofs [State.hqReceive]

@[simp] theorem State.strClose_pending (s : State) (k by_) : (s.strClose k by_).pending = s.pending := by
  unfold State.strClose
  split <;> simp

@[simp] theorem State.strPacket_pending (s : State) (k d stamp) : (s.strPacket k d stamp).pending = s.pending := by
  unfold State.strPacket
  split <;> simp

@[simp] theorem State.ethSwitch_pending (s : State) (p pvid d stamp) : (s.ethSwitch p pvid d stamp).pending = s.pending := by
  unfold State.ethSwitch
  dsimp only
  split
  · simp
  · split
    · simp
    · split
      · simp
      · split
        · simp
        · split
          · simp
          · split
            · split <;> simp
            · split <;> simp

@[simp] theorem State.ethCfgKeep_pending (s : State) (p) : (s.ethCfgKeep p).pending = s.pending := rfl

@[simp] theorem State.linkLoss_pending (s : State) (p) : (s.linkLoss p).pending = s.pending := by simp [State.linkLoss]

@[simp] theorem State.hqTxWrite_pending (s : State) (q v id) : (s.hqTxWrite q v id).pending = s.pending := by simp [State.hqTxWrite]

/-! ### GNSS channels and the positioning service -/

@[simp] theorem State.gfCfgWrite_pending (s : State) (word) : (s.gfCfgWrite word).pending = s.pending := by simp [State.gfCfgWrite]

@[simp] theorem State.gcWrite_pending (s : State) (n reg word id) : (s.gcWrite n reg word id).pending = s.pending := by
  unfold State.gcWrite
  split
  · split <;> simp
  · simp

@[simp] theorem State.gcCodeAdj_pending (s : State) (n word id) : (s.gcCodeAdj n word id).pending = s.pending := by simp [State.gcCodeAdj]

@[simp] theorem State.gcCarrAdj_pending (s : State) (n word id) : (s.gcCarrAdj n word id).pending = s.pending := by simp [State.gcCarrAdj]

@[simp] theorem State.gcGive_pending (s : State) (n owner) : (s.gcGive n owner).pending = s.pending := rfl

@[simp] theorem State.claimStep_pending (s : State) (n) : (s.claimStep n).pending = s.pending := by
  unfold State.claimStep
  split <;> simp

@[simp] theorem State.rtkSelect_pending (s : State) : s.rtkSelect.pending = s.pending := by simp [State.rtkSelect]

@[simp] theorem State.rtcmFrom_pending (s : State) (src bs) : (s.rtcmFrom src bs).pending = s.pending := by simp [State.rtcmFrom]

@[simp] theorem State.rtcmIn_pending (s : State) (q src addr len) : (s.rtcmIn q src addr len).pending = s.pending := by simp [State.rtcmIn]

@[simp] theorem State.snapCaptured_pending (s : State) (samples) : (s.snapCaptured samples).pending = s.pending := by
  unfold State.snapCaptured
  split <;> simp

/-! ### Extraction and the tables of Cuvee -/

@[simp] theorem State.cvTake_pending (s : State) (n o) : (s.cvTake n o).pending = s.pending := by simp [State.cvTake]

@[simp] theorem State.cvLost_pending (s : State) (n acq) : (s.cvLost n acq).pending = s.pending := rfl

@[simp] theorem State.extractEpoch_pending (s : State) (n out e) : (s.extractEpoch n out e).pending = s.pending := by
  unfold State.extractEpoch
  split <;> simp

@[simp] theorem State.extractLate_pending (s : State) (o out) : (s.extractLate o out).pending = s.pending := by simp [State.extractLate]

@[simp] theorem State.ttCommit_pending (s : State) (n) : (s.ttCommit n).pending = s.pending := by simp [State.ttCommit]

@[simp] theorem State.hgCommit_pending (s : State) : s.hgCommit.pending = s.pending := by simp [State.hgCommit]

@[simp] theorem State.modelSwap_pending (s : State) (m) : (s.modelSwap m).pending = s.pending := by
  simp -implicitDefEqProofs [State.modelSwap]

@[simp] theorem State.cvUsed_pending (s : State) : s.cvUsed.pending = s.pending := by simp [State.cvUsed]

@[simp] theorem State.cvEpochBegin_pending (s : State) : s.cvEpochBegin.pending = s.pending := by
  unfold State.cvEpochBegin
  extract_lets k t u
  have tables : t.pending = s.pending := by
    refine State.foldl_pending (fun n t => ?_) _ _
    dsimp only
    split <;> simp
  have transform : u.pending = t.pending := by
    simp only [u]
    split <;> simp
  refine (State.foldl_pending (fun m t => ?_) _ _).trans (transform.trans tables)
  dsimp only
  split <;> simp

@[simp] theorem State.cvCtlWrite_pending (s : State) (word) : (s.cvCtlWrite word).pending = s.pending := by simp [State.cvCtlWrite]

@[simp] theorem State.sensConfigured_pending (s : State) (n word) : (s.sensConfigured n word).pending = s.pending := by
  simp [State.sensConfigured]

@[simp] theorem State.sensCfgWrite_pending (s : State) (n word) : (s.sensCfgWrite n word).pending = s.pending := by
  simp [State.sensCfgWrite]

@[simp] theorem State.cvMotion_pending (s : State) (spd yaw) : (s.cvMotion spd yaw).pending = s.pending := by simp [State.cvMotion]

/-! ### Residuals, pairs and the grid -/

@[simp] theorem State.judgeResidual_pending (s : State) (n r) : (s.judgeResidual n r).pending = s.pending := by
  unfold State.judgeResidual
  split <;> simp

@[simp] theorem State.setPair_pending (s : State) (p) : (s.setPair p).pending = s.pending := rfl

@[simp] theorem State.judgePair_pending (s : State) (k a b ca cb) : (s.judgePair k a b ca cb).1.pending = s.pending := by
  unfold State.judgePair
  dsimp only
  split
  · split
    · split <;> simp
    · simp
  · split
    · split
      · split <;> simp
      · simp
    · split
      · split <;> simp
      · simp

@[simp] theorem State.readmission_pending (s : State) (n judged had) : (s.readmission n judged had).pending = s.pending := by
  simp [State.readmission]

@[simp] theorem State.writeGrid_pending (s : State) (base g) : (s.writeGrid base g).pending = s.pending := by simp [State.writeGrid]

@[simp] theorem State.cvPublish_pending (s : State) (e rel gm) : (s.cvPublish e rel gm).pending = s.pending := by
  simp -implicitDefEqProofs [State.cvPublish, foldl_fst_pending]

/-! ### Analog inputs and loss plates -/

@[simp] theorem State.ainFreq_pending (s : State) (n) : (s.ainFreq n).1.pending = s.pending := by
  unfold State.ainFreq
  dsimp only
  split
  · split <;> simp
  · simp

@[simp] theorem State.ainFault_pending (s : State) (n k onset) : (s.ainFault n k onset).pending = s.pending := by simp [State.ainFault]

@[simp] theorem State.ainJudge_pending (s : State) (n x raw) : (s.ainJudge n x raw).pending = s.pending := by simp [State.ainJudge]

@[simp] theorem State.ainConvert_pending (s : State) (n x) : (s.ainConvert n x).pending = s.pending := by
  unfold State.ainConvert
  dsimp only
  split
  · simp
  · split <;> simp

@[simp] theorem State.ainWrite_pending (s : State) (n slot o) : (s.ainWrite n slot o).pending = s.pending := by
  unfold State.ainWrite
  dsimp only
  split
  · split <;> simp
  · split
    · split <;> simp
    · split <;> simp

@[simp] theorem State.ainConfigured_pending (s t : State) (n) : (s.ainConfigured t n).pending = t.pending := by
  simp -implicitDefEqProofs [State.ainConfigured]

@[simp] theorem State.ainCfgWrite_pending (s t : State) (n) : (s.ainCfgWrite t n).pending = t.pending := by simp [State.ainCfgWrite]

@[simp] theorem State.ainSyncLost_pending (s : State) (n) : (s.ainSyncLost n).pending = s.pending := by simp [State.ainSyncLost]

@[simp] theorem State.lsFault_pending (s : State) (n k) : (s.lsFault n k).pending = s.pending := by simp [State.lsFault]

@[simp] theorem State.lsFaultEnd_pending (s : State) (n k) : (s.lsFaultEnd n k).pending = s.pending := rfl

@[simp] theorem State.lsOpenBin_pending (s : State) (n now) : (s.lsOpenBin n now).pending = s.pending := rfl

@[simp] theorem State.lsClassify_pending (s : State) (n cls) : (s.lsClassify n cls).pending = s.pending := by
  unfold State.lsClassify
  split <;> simp

@[simp] theorem State.lsDeliver_pending (s : State) (n b) : (s.lsDeliver n b).pending = s.pending := by simp [State.lsDeliver]

@[simp] theorem State.lsRestart_pending (s : State) (n) : (s.lsRestart n).pending = s.pending := by simp [State.lsRestart]

@[simp] theorem State.lsOpenJudge_pending (s : State) (n resp) : (s.lsOpenJudge n resp).pending = s.pending := by simp [State.lsOpenJudge]

@[simp] theorem State.lsTest_pending (s : State) (n resp) : (s.lsTest n resp).pending = s.pending := by simp [State.lsTest]

@[simp] theorem State.lsTestDue_pending (s : State) (n) : (s.lsTestDue n).pending = s.pending := by
  unfold State.lsTestDue
  split <;> simp

@[simp] theorem State.lsImpact_pending (s : State) (n env) : (s.lsImpact n env).pending = s.pending := by
  unfold State.lsImpact
  dsimp only
  split <;> simp

@[simp] theorem State.lsEnabled_pending (s t : State) (n) : (s.lsEnabled t n).pending = t.pending := by simp [State.lsEnabled]

@[simp] theorem State.lsPop_pending (s : State) (n) : (s.lsPop n).pending = s.pending := by
  unfold State.lsPop
  split <;> simp

/-! ### The Racking Line -/

@[simp] theorem State.rlFlag_pending (s : State) (b) : (s.rlFlag b).pending = s.pending := by simp [State.rlFlag]

@[simp] theorem State.stripDone_pending (s : State) (p ovf) : (s.stripDone p ovf).pending = s.pending := rfl

@[simp] theorem State.cutStrip_pending (s : State) : s.cutStrip.pending = s.pending := by
  unfold State.cutStrip
  dsimp only
  split
  · split
    · split
      · split
        · split <;> simp
        · simp
      · split
        · split <;> simp
        · simp
    · simp
  · simp

@[simp] theorem State.cutAll_pending (s : State) (n trav) : (s.cutAll n trav).pending = s.pending := by
  induction n generalizing s trav with
  | zero => rfl
  | succ n ih => simp [State.cutAll, ih]

@[simp] theorem State.rlTravel_pending (s : State) (v) : (s.rlTravel v).pending = s.pending := by simp [State.rlTravel]

@[simp] theorem State.rlStages_pending (s : State) (rd) : (s.rlStages rd).1.pending = s.pending := by
  unfold State.rlStages
  rw [foldl_fst_pending]
  intro p i
  dsimp only
  split <;> simp

@[simp] theorem State.rlCounts_pending (s : State) : s.rlCounts.pending = s.pending := rfl

@[simp] theorem State.atFault_pending (s : State) (a J) : (s.atFault a J).pending = s.pending := rfl

@[simp] theorem State.atFilter_pending (s : State) (a x) : (s.atFilter a x).pending = s.pending := rfl

@[simp] theorem State.attributeAll_pending (s : State) (a ms) : (s.attributeAll a ms).1.pending = s.pending := by
  unfold State.attributeAll
  split
  · rfl
  · refine foldl_fst_pending (fun t m => ?_) _ _
    -- one measurement: the boundary it falls after, where one is kept
    change (match t.1.racking.past.zipIdx.find? fun p => decide (p.1.mtc ≤ m.mtc) with
      | none => _
      | some (b, back) => _ : State × Int).1.pending = _
    split
    · split <;> simp
    · dsimp only
      split
      · simp
      · split <;> simp

@[simp] theorem State.atMissing_pending (s : State) (a) : (s.atMissing a).pending = s.pending := by
  unfold State.atMissing
  split <;> simp

@[simp] theorem State.atStep_pending (s : State) (a) : (s.atStep a).pending = s.pending := by
  unfold State.atStep
  dsimp only
  split
  · simp
  · split
    · simp
    · split <;> simp

@[simp] theorem State.rlConfigure_pending (s : State) : s.rlConfigure.pending = s.pending := by
  unfold State.rlConfigure
  dsimp only
  split <;> simp

@[simp] theorem State.objConfigure_pending (s : State) : s.objConfigure.pending = s.pending := by simp [State.objConfigure]

@[simp] theorem State.rlBoundary_pending (s : State) (rd) : (s.rlBoundary rd).pending = s.pending := by
  unfold State.rlBoundary
  dsimp only
  split <;> simp

@[simp] theorem State.writeStrip_pending (s : State) (w) : (s.writeStrip w).pending = s.pending := by simp [State.writeStrip]

@[simp] theorem State.miValWrite_pending (s : State) (k word) : (s.miValWrite k word).pending = s.pending := by simp [State.miValWrite]

/-! ### Trellis -/

@[simp] theorem State.tlFlag_pending (s : State) (b) : (s.tlFlag b).pending = s.pending := by simp [State.tlFlag]

@[simp] theorem State.tlSet_pending (s : State) (layer i j w) : (s.tlSet layer i j w).pending = s.pending := by simp [State.tlSet]

@[simp] theorem State.tlStamp_pending (s : State) (i j mtc hu code subst) : (s.tlStamp i j mtc hu code subst).pending = s.pending := by
  simp [State.tlStamp]

@[simp] theorem State.tlHgSync_pending (s : State) : s.tlHgSync.pending = s.pending := by simp [State.tlHgSync]

@[simp] theorem State.tlAdd_pending (s : State) (layer c n code subst) : (s.tlAdd layer c n code subst).pending = s.pending := by
  simp [State.tlAdd]

@[simp] theorem State.tlFault_pending (s : State) (layer c) : (s.tlFault layer c).pending = s.pending := by simp [State.tlFault]

@[simp] theorem State.tlPass_pending (s : State) (c mtc code subst applied) : (s.tlPass c mtc code subst applied).pending = s.pending := by
  simp [State.tlPass]

@[simp] theorem State.stripCell_pending (s : State) (r hu c k m l0 l1 crop) : (s.stripCell r hu c k m l0 l1 crop).pending = s.pending := by
  unfold State.stripCell
  dsimp only
  split
  · split
    · split
      · split <;> simp
      · split <;> simp
    · split
      · split <;> simp
      · split <;> simp
  · split
    · split
      · split <;> simp
      · split <;> simp
    · split
      · split <;> simp
      · split <;> simp

@[simp] theorem State.stripUnplaced_pending (s : State) : s.stripUnplaced.pending = s.pending := by simp [State.stripUnplaced]

@[simp] theorem State.placeStrip_pending (s : State) (r) : (s.placeStrip r).pending = s.pending := by
  unfold State.placeStrip
  dsimp only
  split <;> simp

@[simp] theorem State.placeAll_pending (s : State) : s.placeAll.pending = s.pending := State.foldl_pending (by simp) _ _

@[simp] theorem State.tlUsed_pending (s : State) : s.tlUsed.pending = s.pending := rfl

@[simp] theorem State.tlStartFlush_pending (s : State) : s.tlStartFlush.pending = s.pending := by simp [State.tlStartFlush]

@[simp] theorem State.tlEndFlush_pending (s : State) : s.tlEndFlush.pending = s.pending := by
  unfold State.tlEndFlush
  split
  · rfl
  · simp -implicitDefEqProofs

@[simp] theorem State.tlFlushNow_pending (s : State) : s.tlFlushNow.pending = s.pending := by simp [State.tlFlushNow]

@[simp] theorem State.tlEndDrain_pending (s : State) : s.tlEndDrain.pending = s.pending := by simp [State.tlEndDrain]

@[simp] theorem State.readStrip_pending (s : State) : s.readStrip.pending = s.pending := by
  unfold State.readStrip
  extract_lets n rd w r t u v
  have closed : u.pending = t.pending := by
    simp only [u]
    split <;> simp
  have placed : v.pending = u.pending := by
    simp only [v]
    split <;> simp
  exact placed.trans (closed.trans (State.put_pending ..))

@[simp] theorem State.readStrips_pending (s : State) (n) : (s.readStrips n).pending = s.pending := by
  induction n generalizing s with
  | zero => rfl
  | succ n ih => simp [State.readStrips, ih]

@[simp] theorem State.trimStrips_pending (s : State) : s.trimStrips.pending = s.pending := rfl

@[simp] theorem State.reviseCell_pending (s : State) (c parts late) : (s.reviseCell c parts late).pending = s.pending := by
  unfold State.reviseCell
  split
  · simp
  · refine (State.tlSet_pending ..).trans (State.foldl_pending (fun g t => ?_) _ _)
    dsimp only
    split
    · rfl
    · split
      · rfl
      · exact State.tlSet_pending ..

@[simp] theorem State.tlOpenField_pending (s : State) (f) : (s.tlOpenField f).pending = s.pending := rfl

/-! ### The fleet service -/

@[simp] theorem State.jfxSend_pending (s : State) (type dest ackreq payload) :
    (s.jfxSend type dest ackreq payload).pending = s.pending := rfl

@[simp] theorem State.jfxNotify_pending (s : State) (words) : (s.jfxNotify words).pending = s.pending := by simp [State.jfxNotify]

@[simp] theorem State.jfxShow_pending (s : State) : s.jfxShow.pending = s.pending := rfl

@[simp] theorem State.peerNotify_pending (s : State) (code p) : (s.peerNotify code p).pending = s.pending := by simp [State.peerNotify]

@[simp] theorem State.dialogEnd_pending (s : State) (d reason) : (s.dialogEnd d reason).pending = s.pending := by simp [State.dialogEnd]

@[simp] theorem State.peerDown_pending (s : State) (id) : (s.peerDown id).pending = s.pending := by
  unfold State.peerDown
  split <;> simp

@[simp] theorem State.peerLeave_pending (s : State) (id) : (s.peerLeave id).pending = s.pending := by
  unfold State.peerLeave
  split <;> simp

@[simp] theorem State.jfxAuthFail_pending (s : State) (sender) : (s.jfxAuthFail sender).pending = s.pending := by
  unfold State.jfxAuthFail
  dsimp only
  split <;> simp

@[simp] theorem State.jfxOpen_pending (s : State) (h) : (s.jfxOpen h).1.pending = s.pending := by
  unfold State.jfxOpen
  split
  · simp
  · split <;> simp

@[simp] theorem State.jfxSeq_pending (s : State) (h) : (s.jfxSeq h).1.pending = s.pending := by
  unfold State.jfxSeq
  split
  · split
    · simp
    · split <;> simp
  · simp

@[simp] theorem State.jfxEnter_pending (s : State) (h) : (s.jfxEnter h).1.pending = s.pending := by
  unfold State.jfxEnter
  dsimp only
  split <;> simp

@[simp] theorem State.jfxTake_pending (s : State) (h) : (s.jfxTake h).1.pending = s.pending := by
  unfold State.jfxTake
  dsimp only
  split
  · simp
  · split
    · simp
    · split <;> simp

@[simp] theorem State.jfxOn_pending (s : State) (h) {f : State → State} (keeps : KeepsQueue f) : (s.jfxOn h f).pending = s.pending := by
  rw [keepsQueue_iff] at keeps
  simp [State.jfxOn, keeps]

@[simp] theorem execJfxHello.challenge_pending (h cls field) (s : State) : (execJfxHello.challenge h cls field s).pending = s.pending := by
  simp [execJfxHello.challenge]

@[simp] theorem State.jfxWatch_pending (s : State) (p) : (s.jfxWatch p).pending = s.pending := by
  unfold State.jfxWatch
  dsimp only
  split
  · split <;> simp
  · simp

@[simp] theorem State.jfxAdmit_pending (s : State) (p) : (s.jfxAdmit p).pending = s.pending := by simp [State.jfxAdmit]

@[simp] theorem State.unloadEvt_pending (s : State) (no type sender fields) : (s.unloadEvt no type sender fields).pending = s.pending := by
  simp [State.unloadEvt]

@[simp] theorem State.setDialog_pending (s : State) (d) : (s.setDialog d).pending = s.pending := rfl

@[simp] theorem State.tileDone_pending (s : State) (p) : (s.tileDone p).pending = s.pending := by
  unfold State.tileDone
  split <;> simp

@[simp] theorem State.offerTile_pending (s : State) (t) : (s.offerTile t).pending = s.pending := by
  unfold State.offerTile
  split <;> simp

@[simp] theorem State.rtcmNew_pending (s : State) (src bs) : (s.rtcmNew src bs).2.pending = s.pending := rfl

@[simp] theorem State.snapSend_pending (s : State) (x) : (s.snapSend x).pending = s.pending := by
  unfold State.snapSend
  split <;> simp

@[simp] theorem State.snapEnd_pending (s : State) (x code) : (s.snapEnd x code).pending = s.pending := by simp [State.snapEnd]

@[simp] theorem State.snapStart_pending (s : State) : s.snapStart.pending = s.pending := by
  unfold State.snapStart
  split <;> simp

@[simp] theorem State.jfxHalt_pending (s : State) : s.jfxHalt.pending = s.pending := rfl

@[simp] theorem State.unloadOut_pending (s : State) (q op no) {f : State → State} (keeps : KeepsQueue f) :
    (s.unloadOut q op no f).pending = s.pending := by
  rw [keepsQueue_iff] at keeps
  simp [State.unloadOut, keeps]

@[simp] theorem State.toDialog_pending (s : State) (no type fields) : (s.toDialog no type fields).pending = s.pending := by
  unfold State.toDialog
  split <;> simp

/-! ### Valve channels and their banks -/

@[simp] theorem State.bankSync_pending (s : State) (b) : (s.bankSync b).pending = s.pending := rfl

@[simp] theorem State.railTrack_pending (s : State) (b) : (s.railTrack b).pending = s.pending := by
  unfold State.railTrack
  split <;> simp

@[simp] theorem State.railTrackAll_pending (s : State) : s.railTrackAll.pending = s.pending := by simp [State.railTrackAll]

@[simp] theorem State.railSet_pending (s : State) (b v) : (s.railSet b v).pending = s.pending := by simp [State.railSet]

@[simp] theorem State.vdFlag_pending (s : State) (c k) : (s.vdFlag c k).pending = s.pending := by simp [State.vdFlag]

@[simp] theorem State.vbFlag_pending (s : State) (b k) : (s.vbFlag b k).pending = s.pending := by simp [State.vbFlag]

@[simp] theorem State.limitSum_pending (s : State) (c lvl) : (s.limitSum c lvl).1.pending = s.pending := by
  unfold State.limitSum
  dsimp only
  split <;> simp

@[simp] theorem State.setLevel_pending (s : State) (c lvl) : (s.setLevel c lvl).pending = s.pending := by simp [State.setLevel]

@[simp] theorem State.takeTarget_pending (s : State) (c) : (s.takeTarget c).pending = s.pending := rfl

@[simp] theorem State.endSlow_pending (s : State) (c) : (s.endSlow c).pending = s.pending := by simp [State.endSlow]

@[simp] theorem State.leaveWait_pending (s : State) (c) : (s.leaveWait c).pending = s.pending := rfl

@[simp] theorem State.beginDecay_pending (s : State) (c mode) : (s.beginDecay c mode).pending = s.pending := by simp [State.beginDecay]

@[simp] theorem State.switchOff_pending (s : State) (c mode) : (s.switchOff c mode).pending = s.pending := by simp [State.switchOff]

@[simp] theorem State.switchFast_pending (s : State) (c) : (s.switchFast c).pending = s.pending := by simp [State.switchFast]

@[simp] theorem State.clampAdd_pending (s : State) (c e) : (s.clampAdd c e).pending = s.pending := by simp [State.clampAdd]

@[simp] theorem State.endValveHold_pending (s : State) (c why) : (s.endValveHold c why).pending = s.pending := by simp [State.endValveHold]

@[simp] theorem State.enterHold_pending (s : State) (c) : (s.enterHold c).pending = s.pending := by simp [State.enterHold]

@[simp] theorem State.enterPeak_pending (s : State) (c) : (s.enterPeak c).pending = s.pending := by simp [State.enterPeak]

@[simp] theorem State.runProfile_pending (s : State) (c lvl noBoost noPeak) : (s.runProfile c lvl noBoost noPeak).pending = s.pending := by
  simp [State.runProfile]

@[simp] theorem State.skipBoost_pending (s : State) (c lvl) : (s.skipBoost c lvl).pending = s.pending := by simp [State.skipBoost]

@[simp] theorem State.boostRequest_pending (s : State) (b) : (s.boostRequest b).pending = s.pending := rfl

@[simp] theorem State.start_pending (s : State) (c lvl) : (s.start c lvl).pending = s.pending := by
  unfold State.start
  dsimp only
  split <;> simp

@[simp] theorem State.trim_pending (s : State) (c lvl wasHeld) : (s.trim c lvl wasHeld).pending = s.pending := by
  unfold State.trim
  dsimp only
  split <;> simp

@[simp] theorem State.vdCmd_pending (s : State) (c op hold) : (s.vdCmd c op hold).pending = s.pending := by
  unfold State.vdCmd
  dsimp only
  split
  · simp
  · split <;> simp

@[simp] theorem State.protect_pending (s : State) (c cond curr) : (s.protect c cond curr).pending = s.pending := by simp [State.protect]

@[simp] theorem State.protectBank_pending (s : State) (b cond curr rec) : (s.protectBank b cond curr rec).pending = s.pending := by
  simp [State.protectBank]

@[simp] theorem State.valveOnset_pending (s : State) (c) : (s.valveOnset c).pending = s.pending := by simp [State.valveOnset]

@[simp] theorem State.valveDead_pending (s : State) : s.valveDead.pending = s.pending := rfl

@[simp] theorem State.bankFeed_pending (s : State) (b cond curr) : (s.bankFeed b cond curr).pending = s.pending := by simp [State.bankFeed]

@[simp] theorem State.vbClear_pending (s : State) (b temp) : (s.vbClear b temp).pending = s.pending := rfl

@[simp] theorem State.vbReset_pending (s : State) (b) : (s.vbReset b).pending = s.pending := by simp [State.vbReset]

@[simp] theorem State.vdRearm_pending (s : State) (c word temp) : (s.vdRearm c word temp).pending = s.pending := rfl

@[simp] theorem State.vdDisable_pending (s : State) (c) : (s.vdDisable c).pending = s.pending := by simp [State.vdDisable]

/-! ### Load channels -/

@[simp] theorem State.lcFlag_pending (s : State) (n k) : (s.lcFlag n k).pending = s.pending := by simp [State.lcFlag]

@[simp] theorem State.lgFlag_pending (s : State) (g k) : (s.lgFlag g k).pending = s.pending := by simp [State.lgFlag]

@[simp] theorem State.setLoad_pending (s : State) (n f) : (s.setLoad n f).pending = s.pending := by simp [State.setLoad]

@[simp] theorem State.clampIn_pending (s : State) (n e) : (s.clampIn n e).pending = s.pending := by simp [State.clampIn]

@[simp] theorem State.openSwitch_pending (s : State) (n st e) : (s.openSwitch n st e).pending = s.pending := by simp [State.openSwitch]

@[simp] theorem State.closeSwitch_pending (s : State) (n cmd window) : (s.closeSwitch n cmd window).pending = s.pending := by
  unfold State.closeSwitch
  split <;> simp

@[simp] theorem State.endLoadHold_pending (s : State) (n why) : (s.endLoadHold n why).pending = s.pending := by simp [State.endLoadHold]

@[simp] theorem State.lcCmd_pending (s : State) (n op duty e) : (s.lcCmd n op duty e).pending = s.pending := by
  unfold State.lcCmd
  dsimp only
  split
  · simp
  · split <;> simp

@[simp] theorem State.loadTrip_pending (s : State) (n st e) : (s.loadTrip n st e).pending = s.pending := by simp [State.loadTrip]

@[simp] theorem State.loadProt_pending (s : State) (nd cause curr inrush) : (s.loadProt nd cause curr inrush).pending = s.pending := by
  simp [State.loadProt]

@[simp] theorem State.loadReturn_pending (s : State) (n window) : (s.loadReturn n window).pending = s.pending := by
  unfold State.loadReturn
  split <;> simp

@[simp] theorem State.loadOnset_pending (s : State) (n) : (s.loadOnset n).pending = s.pending := by simp [State.loadOnset]

@[simp] theorem State.loadsDead_pending (s : State) : s.loadsDead.pending = s.pending := by simp [State.loadsDead]

@[simp] theorem State.carry_pending (s : State) (n curr) : (s.carry n curr).pending = s.pending := rfl

@[simp] theorem State.senses_pending (s : State) (n m) : (s.senses n m).pending = s.pending := rfl

@[simp] theorem State.lgClear_pending (s : State) (g die) : (s.lgClear g die).pending = s.pending := by simp [State.lgClear]

@[simp] theorem State.lgReset_pending (s : State) (g) : (s.lgReset g).pending = s.pending := by simp [State.lgReset]

@[simp] theorem State.lcRearm_pending (s : State) (n word) : (s.lcRearm n word).pending = s.pending := by simp [State.lcRearm]

@[simp] theorem State.lcDisable_pending (s : State) (n) : (s.lcDisable n).pending = s.pending := by simp [State.lcDisable]

/-! ### Holds and resets -/

@[simp] theorem State.onset_pending (s : State) (cause) : (s.onset cause).pending = s.pending := by simp [State.onset]

@[simp] theorem State.outputsDead_pending (s : State) : s.outputsDead.pending = s.pending := by simp [State.outputsDead]

@[simp] theorem State.actuationZero_pending (s : State) : s.actuationZero.pending = s.pending := rfl

@[simp] theorem State.resetBut_pending (s : State) (keep) : (s.resetBut keep).pending = s.pending := by simp [State.resetBut]

@[simp] theorem State.keepInputs_pending (s old : State) : (s.keepInputs old).pending = s.pending := rfl

@[simp] theorem State.unitsZero_pending (s : State) : s.unitsZero.pending = s.pending := by simp [State.unitsZero]

@[simp] theorem State.warmZero_pending (s : State) : s.warmZero.pending = s.pending := rfl

@[simp] theorem State.coldZero_pending (s : State) : s.coldZero.pending = s.pending := rfl

@[simp] theorem State.systemZero_pending (s : State) : s.systemZero.pending = s.pending := rfl

@[simp] theorem State.powerZero_pending (s : State) : s.powerZero.pending = s.pending := rfl

/-! ### The error controller and the book -/

@[simp] theorem State.errSrcWrite_pending (s : State) (src v) : (s.errSrcWrite src v).pending = s.pending := by simp [State.errSrcWrite]

@[simp] theorem State.errRecord_pending (s : State) (src sev level detail nd items) :
    (s.errRecord src sev level detail nd items).1.pending = s.pending := by
  simp [State.errRecord]

@[simp] theorem State.fatalStart_pending (s : State) (cause detail seq) : (s.fatalStart cause detail seq).pending = s.pending := by
  unfold State.fatalStart
  split <;> simp

@[simp] theorem State.errFatal_pending (s : State) (src detail nd items) : (s.errFatal src detail nd items).pending = s.pending := by
  simp [State.errFatal]

@[simp] theorem State.errShow_pending (s : State) : s.errShow.pending = s.pending := by
  unfold State.errShow
  split <;> simp

@[simp] theorem State.errDeliver_pending (s : State) : s.errDeliver.pending = s.pending := by simp [State.errDeliver]

@[simp] theorem State.errPush_pending (s : State) (e) : (s.errPush e).pending = s.pending := by simp [State.errPush]

@[simp] theorem State.errStop_pending (s : State) : s.errStop.pending = s.pending := rfl

@[simp] theorem State.errRun_pending (s : State) : s.errRun.pending = s.pending := rfl

@[simp] theorem State.errOverflow_pending (s : State) (cause src sev detail nd items) :
    (s.errOverflow cause src sev detail nd items).pending = s.pending := by
  simp [State.errOverflow]

@[simp] theorem State.errPlace_pending (s : State) (src sev detail nd items) :
    (s.errPlace src sev detail nd items).pending = s.pending := by
  unfold State.errPlace
  split <;> simp

@[simp] theorem State.errTake_pending (s : State) (src sev detail nd items) : (s.errTake src sev detail nd items).pending = s.pending := by
  simp [State.errTake]

@[simp] theorem State.watchAdd_pending (s : State) (e) : (s.watchAdd e).pending = s.pending := rfl

@[simp] theorem State.watchAbandon_pending (s : State) : s.watchAbandon.pending = s.pending := by simp [State.watchAbandon]

@[simp] theorem State.errReport_pending (s : State) (src detail nd items) : (s.errReport src detail nd items).pending = s.pending := by
  unfold State.errReport
  split <;> simp

@[simp] theorem State.errSource_pending (s : State) (src detail) : (s.errSource src detail).pending = s.pending := by simp [State.errSource]

@[simp] theorem State.errDone_pending (s : State) (seq) : (s.errDone seq).pending = s.pending := by
  unfold State.errDone
  dsimp only
  split
  · simp
  · split
    · simp
    · split <;> simp

@[simp] theorem State.errRaise_pending (s : State) (sev detail) : (s.errRaise sev detail).pending = s.pending := by
  unfold State.errRaise
  split <;> simp

@[simp] theorem State.errArm_pending (s : State) (word) : (s.errArm word).pending = s.pending := by simp [State.errArm]

@[simp] theorem State.startEnter_pending (s : State) (step cause last) : (s.startEnter step cause last).pending = s.pending := by
  unfold State.startEnter
  dsimp only
  split
  · simp
  · split <;> simp

@[simp] theorem State.warmStart_pending (s : State) (cause held unsealed) : (s.warmStart cause held unsealed).pending = s.pending := by
  simp -implicitDefEqProofs [State.warmStart]

@[simp] theorem State.warmNow_pending (s : State) (cause) : (s.warmNow cause).pending = s.pending := by simp [State.warmNow]

@[simp] theorem State.bookFlush_pending (s : State) : s.bookFlush.pending = s.pending := by simp -implicitDefEqProofs [State.bookFlush]

/-! ### Banks, swaps and migrations of the cores -/

@[simp] theorem State.validateBank_pending (s : State) (c bank) : (s.validateBank c bank).pending = s.pending := by
  simp [State.validateBank]

@[simp] theorem State.validate_pending (s : State) (c) : (s.validate c).pending = s.pending := by simp [State.validate]

@[simp] theorem State.invalidate_pending (s : State) (c) : (s.invalidate c).pending = s.pending := by simp [State.invalidate]

@[simp] theorem State.tableWrite_pending (s : State) (c bank) {f : State → State} (keeps : KeepsQueue f) :
    (s.tableWrite c bank f).pending = s.pending := by
  rw [keepsQueue_iff] at keeps
  simp [State.tableWrite, keeps]

@[simp] theorem tableWord_pending (s : State) (c bank k v) : (tableWord s c bank k v).pending = s.pending := by
  unfold tableWord
  dsimp only
  split
  · simp
  · split
    · split <;> simp
    · simp

@[simp] theorem State.loadBank_pending (s : State) (c bank img) : (s.loadBank c bank img).pending = s.pending := by simp [State.loadBank]

@[simp] theorem State.overrun_pending (s : State) (c n) : (s.overrun c n).pending = s.pending := by
  unfold State.overrun
  split <;> simp

@[simp] theorem State.oweSlot_pending (s : State) (c e start) : (s.oweSlot c e start).pending = s.pending := by simp [State.oweSlot]

@[simp] theorem State.slotCore_pending (s : State) (c n) : (s.slotCore c n).pending = s.pending := by
  unfold State.slotCore
  dsimp only
  split
  · simp
  · split <;> simp

@[simp] theorem State.overrunKill_pending (s : State) (c) : (s.overrunKill c).pending = s.pending := by
  unfold State.overrunKill
  dsimp only
  split <;> simp

@[simp] theorem State.acceptSwap_pending (s : State) (c) : (s.acceptSwap c).pending = s.pending := rfl

@[simp] theorem State.swapSet_pending (s : State) (mask) : (s.swapSet mask).pending = s.pending := by
  unfold State.swapSet
  dsimp only
  split
  · simp
  · split
    · simp
    · split <;> simp

@[simp] theorem State.quit_pending (s : State) (c) : (s.quit c).pending = s.pending := by
  unfold State.quit
  split <;> simp

@[simp] theorem State.coreReset_pending (s : State) (c) : (s.coreReset c).pending = s.pending := by simp [State.coreReset]

@[simp] theorem State.lstepWrite_pending (s : State) (v) : (s.lstepWrite v).pending = s.pending := by simp [State.lstepWrite]

@[simp] theorem State.coreRecord_pending (s : State) (c event result cause) : (s.coreRecord c event result cause).pending = s.pending := by
  simp [State.coreRecord]

@[simp] theorem State.migFail_pending (s : State) (c result) : (s.migFail c result).pending = s.pending := by simp [State.migFail]

@[simp] theorem State.migBusy_pending (s : State) : s.migBusy.pending = s.pending := rfl

@[simp] theorem State.migrate_pending (s : State) (c) : (s.migrate c).pending = s.pending := by simp [State.migrate]

@[simp] theorem State.orphanAll_pending (s : State) (c) : (s.orphanAll c).pending = s.pending := rfl

@[simp] theorem State.loopsStop_pending (s : State) (c) : (s.loopsStop c).pending = s.pending := rfl

@[simp] theorem State.coreFail_pending (s : State) (c src) : (s.coreFail c src).pending = s.pending := by simp [State.coreFail]

@[simp] theorem State.doubleFault_pending (s : State) (c x) : (s.doubleFault c x).pending = s.pending := by simp [State.doubleFault]

@[simp] theorem State.except_pending (s : State) (c x) : (s.except c x).pending = s.pending := by simp [State.except]

@[simp] theorem State.migGo_pending (s : State) (core) : (s.migGo core).pending = s.pending := by simp [State.migGo]

@[simp] theorem State.orphanFree_pending (s : State) (n cause) : (s.orphanFree n cause).pending = s.pending := by simp [State.orphanFree]

@[simp] theorem State.orphansBack_pending (s : State) (c) : (s.orphansBack c).pending = s.pending := by simp [State.orphansBack]

@[simp] theorem State.pasteBlock_pending (s : State) (c m) : (s.pasteBlock c m).pending = s.pending := rfl

@[simp] theorem State.blockCopy_pending (s : State) (p c lo hi) : (s.blockCopy p c lo hi).pending = s.pending := by simp [State.blockCopy]

@[simp] theorem State.takeOver_pending (s : State) (c p x) : (s.takeOver c p x).pending = s.pending := rfl

@[simp] theorem State.takeOvers_pending (s : State) : s.takeOvers.pending = s.pending := by simp [State.takeOvers]

@[simp] theorem State.swapCore_pending (s : State) (c) : (s.swapCore c).pending = s.pending := by simp [State.swapCore]

@[simp] theorem State.runCore_pending (s : State) (c) : (s.runCore c).pending = s.pending := by
  unfold State.runCore
  dsimp only
  split
  · simp
  · split <;> simp

@[simp] theorem State.recvEmpty_pending (s : State) (c) : (s.recvEmpty c).pending = s.pending := by
  refine State.foldl_pending (fun a t => ?_) _ _
  dsimp only
  split <;> simp

@[simp] theorem State.coresBoundary_pending (s : State) : s.coresBoundary.pending = s.pending := by simp [State.coresBoundary]

@[simp] theorem State.retryReplies_pending (s : State) : s.retryReplies.pending = s.pending := by simp [State.retryReplies]

@[simp] theorem State.badOp_pending (s : State) (m) : (s.badOp m).pending = s.pending := by
  unfold State.badOp
  split <;> simp

@[simp] theorem State.badOps_pending (s : State) : s.badOps.pending = s.pending := by simp [State.badOps]

@[simp] theorem State.lkFree_pending (s : State) (n) : (s.lkFree n).pending = s.pending := by simp [State.lkFree]

@[simp] theorem State.recvBad_pending (s : State) (m) : (s.recvBad m).pending = s.pending := by
  refine State.foldl_pending (fun c t => State.foldl_pending (fun a u => ?_) _ _) _ _
  dsimp only
  split <;> simp

@[simp] theorem State.mbCfg_pending (s : State) (m w) : (s.mbCfg m w).pending = s.pending := by simp [State.mbCfg]

/-! ### Channels and movers of the Decanter -/

@[simp] theorem State.refill_pending (s : State) : s.refill.pending = s.pending := by simp [State.refill]

@[simp] theorem State.reqWrite_pending (s : State) (r word) : (s.reqWrite r word).pending = s.pending := by simp [State.reqWrite]

@[simp] theorem State.revoke_pending (s : State) (p owner r beats) : (s.revoke p owner r beats).pending = s.pending := by
  simp [State.revoke]

@[simp] theorem State.beat_pending (s : State) (a r) : (s.beat a r).pending = s.pending := by
  unfold State.beat
  split <;> simp

@[simp] theorem State.dcFlag_pending (s : State) (n b) : (s.dcFlag n b).pending = s.pending := by simp [State.dcFlag]

@[simp] theorem State.moverTake_pending (s : State) (m) : (s.moverTake m).pending = s.pending := by
  unfold State.moverTake
  dsimp only
  split
  · simp
  · split
    · simp
    · split <;> simp

@[simp] theorem State.moversTake_pending (s : State) : s.moversTake.pending = s.pending := by simp [State.moversTake]

@[simp] theorem State.moverFree_pending (s : State) (n) : (s.moverFree n).pending = s.pending := by simp [State.moverFree]

@[simp] theorem State.dcHalt_pending (s : State) (n cause) : (s.dcHalt n cause).pending = s.pending := by simp [State.dcHalt]

@[simp] theorem State.dcGoto_pending (s : State) (n a) : (s.dcGoto n a).pending = s.pending := rfl

@[simp] theorem State.dcFollow_pending (s : State) (n next) : (s.dcFollow n next).pending = s.pending := by simp [State.dcFollow]

@[simp] theorem State.dcReread_pending (s : State) (n) : (s.dcReread n).pending = s.pending := by simp [State.dcReread]

@[simp] theorem State.dcHead_pending (s : State) (n) : (s.dcHead n).pending = s.pending := State.dcGoto_pending ..

@[simp] theorem State.dcStart_pending (s : State) (n) : (s.dcStart n).pending = s.pending := by simp [State.dcStart]

@[simp] theorem State.dcStop_pending (s : State) (n) : (s.dcStop n).pending = s.pending := by simp [State.dcStop]

@[simp] theorem State.dcClear_pending (s : State) (n) : (s.dcClear n).pending = s.pending := by simp [State.dcClear]

@[simp] theorem State.dcCtl_pending (s : State) (n w) : (s.dcCtl n w).pending = s.pending := by simp [State.dcCtl]

@[simp] theorem State.dcRing_pending (s : State) (n id) : (s.dcRing n id).pending = s.pending := by simp [State.dcRing]

@[simp] theorem State.dcCfg_pending (s : State) (n w) : (s.dcCfg n w).pending = s.pending := by simp [State.dcCfg]

@[simp] theorem State.dcEnd_pending (s : State) (n status result) : (s.dcEnd n status result).pending = s.pending := by simp [State.dcEnd]

@[simp] theorem State.dcBad_pending (s : State) (n status result) : (s.dcBad n status result).pending = s.pending := by simp [State.dcBad]

/-! ### ISOBUS networks -/

@[simp] theorem State.netNotify_pending (s : State) (k words) : (s.netNotify k words).pending = s.pending := by
  unfold State.netNotify
  split <;> simp

@[simp] theorem State.netPump_pending (s : State) (k) : (s.netPump k).pending = s.pending := by
  refine State.foldl_pending (fun b t => ?_) _ _
  dsimp only
  split
  · split <;> simp
  · rfl

@[simp] theorem State.netSend_pending (s : State) (k prio pgn da sa d req) : (s.netSend k prio pgn da sa d req).pending = s.pending := by
  simp [State.netSend]

@[simp] theorem State.netReply_pending (s : State) (w op status results) : (s.netReply w op status results).pending = s.pending := by
  simp [State.netReply]

@[simp] theorem State.tpAnswer_pending (s : State) (req ok reason) : (s.tpAnswer req ok reason).pending = s.pending := by
  unfold State.tpAnswer
  split <;> simp

@[simp] theorem State.netHold_pending (s : State) (n fast) : (s.netHold n fast).pending = s.pending := by simp [State.netHold]

@[simp] theorem State.netSync_pending (s : State) (n) : (s.netSync n).pending = s.pending := by
  unfold State.netSync
  dsimp only
  split
  · simp
  · split <;> simp

@[simp] theorem State.netClose_pending (s : State) (k) : (s.netClose k).pending = s.pending := by
  unfold State.netClose
  split <;> simp

@[simp] theorem State.netClaim_pending (s : State) (k addr name) : (s.netClaim k addr name).pending = s.pending := by simp [State.netClaim]

@[simp] theorem State.claimLost_pending (s : State) (k i c) : (s.claimLost k i c).pending = s.pending := by
  unfold State.claimLost
  dsimp only
  split
  · simp
  · split
    · simp
    · split <;> simp

@[simp] theorem State.cfNotify_pending (s : State) (k code c ready) : (s.cfNotify k code c ready).pending = s.pending := by
  simp [State.cfNotify]

@[simp] theorem State.cfAbsent_pending (s : State) (k name) : (s.cfAbsent k name).pending = s.pending := by
  unfold State.cfAbsent
  split <;> simp

@[simp] theorem State.cfClaims_pending (s : State) (k name addr) : (s.cfClaims k name addr).pending = s.pending := by
  unfold State.cfClaims
  dsimp only
  split
  · simp
  · split <;> simp

@[simp] theorem State.netClaimed_pending (s : State) (k name addr) : (s.netClaimed k name addr).pending = s.pending := by
  unfold State.netClaimed
  split
  · simp
  · split <;> simp

@[simp] theorem State.tpStart_pending (s : State) (k sa da pgn prio d req) : (s.tpStart k sa da pgn prio d req).pending = s.pending := by
  unfold State.tpStart
  split <;> simp

@[simp] theorem State.tpCts_pending (s : State) (k t count first) : (s.tpCts k t count first).pending = s.pending := by simp [State.tpCts]

@[simp] theorem State.tpAsk_pending (s : State) (k t) : (s.tpAsk k t).pending = s.pending := by simp [State.tpAsk]

@[simp] theorem State.netDeliver_pending (s : State) (k pgn da sa prio start d) :
    (s.netDeliver k pgn da sa prio start d).pending = s.pending := by
  unfold State.netDeliver
  split <;> simp

@[simp] theorem State.vtAnswer_pending (s : State) (k da sa d) : (s.vtAnswer k da sa d).pending = s.pending := by
  unfold State.vtAnswer
  dsimp only
  split
  · simp
  · split
    · simp
    · split <;> simp

@[simp] theorem State.tcProcess_pending (s : State) (k sa d) : (s.tcProcess k sa d).pending = s.pending := by
  unfold State.tcProcess
  split <;> simp

@[simp] theorem State.netMessage_pending (s : State) (k pgn da sa prio start d) :
    (s.netMessage k pgn da sa prio start d).pending = s.pending := by
  simp [State.netMessage]

@[simp] theorem State.tpDone_pending (s : State) (k t ok reason) : (s.tpDone k t ok reason).pending = s.pending := by
  unfold State.tpDone
  dsimp only
  split <;> simp

@[simp] theorem State.tpCm_pending (s : State) (k etp da sa d start) : (s.tpCm k etp da sa d start).pending = s.pending := by
  unfold State.tpCm
  dsimp only
  split
  · simp
  · split
    · simp
    · simp
    · simp
    · split <;> simp
    · split <;> simp
    · split <;> simp
    · split <;> simp
    · split <;> simp
    · split <;> simp
    · simp

@[simp] theorem State.tpDt_pending (s : State) (k etp da sa d) : (s.tpDt k etp da sa d).pending = s.pending := by
  unfold State.tpDt
  split <;> simp

@[simp] theorem State.netFrame_pending (s : State) (k f) : (s.netFrame k f).pending = s.pending := by
  unfold State.netFrame
  dsimp only
  split
  · simp
  · split
    · simp
    · split
      · split <;> simp
      · simp

@[simp] theorem State.netDrain_pending (s : State) (n) : (s.netDrain n).pending = s.pending := by simp [State.netDrain]

@[simp] theorem State.canRstNet_pending (s : State) (n) : (s.canRstNet n).pending = s.pending := by simp [State.canRstNet]

@[simp] theorem State.tcSend_pending (s : State) (k all) : (s.tcSend k all).pending = s.pending := by
  unfold State.tcSend
  split
  · rfl
  · refine State.foldl_pending (fun m t => ?_) _ _
    dsimp only
    split <;> simp

@[simp] theorem State.tcBoundary_pending (s : State) : s.tcBoundary.pending = s.pending := by simp [State.tcBoundary]

/-! ### Loop units -/

@[simp] theorem State.raiseAt_pending (s : State) (c ev) : (s.raiseAt c ev).pending = s.pending := by simp [State.raiseAt]

@[simp] theorem State.trTrigger_pending (s : State) (c) : (s.trTrigger c).pending = s.pending := by simp [State.trTrigger]

@[simp] theorem State.trDoneNow_pending (s : State) (c) : (s.trDoneNow c).pending = s.pending := by simp [State.trDoneNow]

@[simp] theorem State.trStore_pending (s : State) (c ws) : (s.trStore c ws).pending = s.pending := by simp [State.trStore]

@[simp] theorem State.trWrite_pending (s : State) (c mk) : (s.trWrite c mk).pending = s.pending := by simp [State.trWrite]

@[simp] theorem State.trMark_pending (s : State) (c imm g) : (s.trMark c imm g).pending = s.pending := by simp [State.trMark]

@[simp] theorem State.trArm_pending (s : State) (c) : (s.trArm c).pending = s.pending := by simp [State.trArm]

@[simp] theorem State.trSoft_pending (s : State) (c) : (s.trSoft c).pending = s.pending := by simp [State.trSoft]

@[simp] theorem State.trStop_pending (s : State) (c) : (s.trStop c).pending = s.pending := rfl

@[simp] theorem State.trCtl_pending (s : State) (c w) : (s.trCtl c w).pending = s.pending := by simp [State.trCtl]

@[simp] theorem State.trCtlClear_pending (s : State) (c) : (s.trCtlClear c).pending = s.pending := rfl

@[simp] theorem State.trCfg_pending (s : State) (c w) : (s.trCfg c w).pending = s.pending := by simp [State.trCfg]

@[simp] theorem State.lpFlags_pending (s : State) (c l m) : (s.lpFlags c l m).pending = s.pending := by simp [State.lpFlags]

@[simp] theorem State.lpFlag_pending (s : State) (c l b) : (s.lpFlag c l b).pending = s.pending := by simp [State.lpFlag]

@[simp] theorem State.lpEnable_pending (s : State) (c l en) : (s.lpEnable c l en).pending = s.pending := by simp [State.lpEnable]

@[simp] theorem State.lpCfg_pending (s : State) (c l w) : (s.lpCfg c l w).pending = s.pending := by simp [State.lpCfg]

@[simp] theorem State.rtExchange_pending (s : State) (c t) : (s.rtExchange c t).pending = s.pending := by simp [State.rtExchange]

/-! ### Machine functions -/

@[simp] theorem State.mfFlagIf_pending (s : State) (m c b) : (s.mfFlagIf m c b).pending = s.pending := by simp [State.mfFlagIf]

@[simp] theorem State.mfCompute_pending (s : State) (m) : (s.mfCompute m).pending = s.pending := by simp [State.mfCompute]

@[simp] theorem State.mfBoundary_pending (s : State) : s.mfBoundary.pending = s.pending := by simp [State.mfBoundary]

@[simp] theorem State.mfSpWrite_pending (s : State) (m v rq) : (s.mfSpWrite m v rq).pending = s.pending := by simp [State.mfSpWrite]

/-! ### Supplies and the hold -/

@[simp] theorem State.shutdown_pending (s : State) (cause) : (s.shutdown cause).pending = s.pending := by simp [State.shutdown]

@[simp] theorem State.rstReq_pending (s : State) (cmd pass) : (s.rstReq cmd pass).pending = s.pending := by simp [State.rstReq]

@[simp] theorem State.seal_pending (s : State) : s.seal.pending = s.pending := by simp [State.seal]

@[simp] theorem State.osvWrite_pending (s : State) (f m w) : (s.osvWrite f m w).pending = s.pending := by simp [State.osvWrite]

@[simp] theorem State.estopValve_pending (s : State) (c) : (s.estopValve c).pending = s.pending := by simp [State.estopValve]

@[simp] theorem State.estopLoad_pending (s : State) (n) : (s.estopLoad n).pending = s.pending := by simp [State.estopLoad]

@[simp] theorem State.estopCut_pending (s : State) (fault) : (s.estopCut fault).pending = s.pending := by simp [State.estopCut]

@[simp] theorem State.supFlag_pending (s : State) (b) : (s.supFlag b).pending = s.pending := by simp [State.supFlag]

/-! ### The register window -/

@[simp] theorem State.readFld_pending (s : State) (h) : (s.readFld h).pending = s.pending := by
  unfold State.readFld
  dsimp only
  split
  · simp
  · split
    · simp
    · split
      · simp
      · split
        · simp
        · split
          · simp
          · split <;> simp

@[simp] theorem State.busRead_pending (s : State) (a) : (s.busRead a).2.pending = s.pending := by simp [State.busRead]

@[simp] theorem State.writeFld_pending (s : State) (h w) : (s.writeFld h w).pending = s.pending := by
  unfold State.writeFld
  split <;> simp

@[simp] theorem State.writePlain_pending (s : State) (hs w sup) : (s.writePlain hs w sup).pending = s.pending := by simp [State.writePlain]

theorem onReg_queue {s : State} {f a g} (h : ∀ i j k, (g i j k).pending = s.pending) : s.QueueOf (onReg f a g) := by
  unfold onReg
  cases locate f a with
  | none => exact State.queueOf_none
  | some p => exact State.queueOf_some.mpr (h ..)

theorem State.actSys_queue {s : State} {a w} : s.QueueOf (s.actSys a w) := by
  unfold State.actSys
  repeat' apply State.QueueOf.orElse
  all_goals exact onReg_queue (by simp)

theorem State.actPlat_queue {s : State} {a w} : s.QueueOf (s.actPlat a w) := by
  unfold State.actPlat
  repeat' apply State.QueueOf.orElse
  all_goals exact onReg_queue (by simp)

theorem State.actDc_queue {s : State} {a w id} : s.QueueOf (s.actDc a w id) := by
  unfold State.actDc
  repeat' apply State.QueueOf.orElse
  all_goals exact onReg_queue (by simp)

@[simp] theorem State.coreCtl_pending (s : State) (c w) : (s.coreCtl c w).pending = s.pending := by simp [State.coreCtl]

@[simp] theorem State.bankWrite_pending (s : State) (c w) : (s.bankWrite c w).pending = s.pending := by simp [State.bankWrite]

theorem State.actCore_queue {s : State} {hs a w sup} : s.QueueOf (s.actCore hs a w sup) := by
  unfold State.actCore
  cases fcOf a with
  | none => exact State.queueOf_none
  | some c =>
    refine State.QueueOf.ite (State.queueOf_some.mpr rfl) ?_
    repeat' apply State.QueueOf.orElse
    all_goals exact onReg_queue (by simp)

theorem State.actSense_queue {s : State} {hs a w sup} : s.QueueOf (s.actSense hs a w sup) := by
  unfold State.actSense
  repeat' apply State.QueueOf.orElse
  all_goals exact onReg_queue (by simp)

theorem State.actPipe_queue {s : State} {a w} : s.QueueOf (s.actPipe a w) := by
  unfold State.actPipe
  refine State.QueueOf.ite ?_ State.queueOf_none
  refine State.QueueOf.orElse (onReg_queue (by simp)) (State.QueueOf.ite ?_ State.queueOf_none)
  simp

theorem State.actFuse_queue {s : State} {a w} : s.QueueOf (s.actFuse a w) := by
  unfold State.actFuse
  repeat' apply State.QueueOf.orElse
  all_goals exact onReg_queue (by simp)

theorem State.actFlow_queue {s : State} {hs a w rq} : s.QueueOf (s.actFlow hs a w rq) := by
  unfold State.actFlow
  refine .orElse (onReg_queue (by simp)) (.orElse (onReg_queue (by simp)) (.ite ?_ State.queueOf_none))
  simp

theorem State.actDrive_queue {s : State} {hs a w sup} : s.QueueOf (s.actDrive hs a w sup) := by
  unfold State.actDrive
  repeat' apply State.QueueOf.orElse
  all_goals exact onReg_queue (by simp)

theorem State.actPos_queue {s : State} {hs a w rq} : s.QueueOf (s.actPos hs a w rq) := by
  unfold State.actPos
  repeat' apply State.QueueOf.orElse
  all_goals exact onReg_queue (by simp)

@[simp] theorem State.canConfig_pending (s : State) (hs n w) : (s.canConfig hs n w).pending = s.pending := by simp [State.canConfig]

@[simp] theorem State.canCtl_pending (s : State) (n w) : (s.canCtl n w).pending = s.pending := by simp [State.canCtl]

theorem State.actCan_queue {s : State} {hs a w id} : s.QueueOf (s.actCan hs a w id) := by
  unfold State.actCan
  repeat' apply State.QueueOf.orElse
  all_goals exact onReg_queue (by simp)

theorem State.actNet_queue {s : State} {hs a w id sup} : s.QueueOf (s.actNet hs a w id sup) := by
  unfold State.actNet
  repeat' apply State.QueueOf.orElse
  all_goals exact onReg_queue (by simp)

theorem State.act?_queue {s : State} {hs a w rq} : s.QueueOf (s.act? hs a w rq) := by
  unfold State.act?
  exact .ite State.actSys_queue <| .ite State.actPlat_queue <| .ite State.actDc_queue <| .ite State.actCore_queue <| .ite State.actDc_queue <|
    .ite State.actSense_queue <| .ite State.actPipe_queue <| .ite State.actFuse_queue <| .ite State.actFlow_queue <|
    .ite State.actDrive_queue <| .ite State.actPos_queue <| .ite State.queueOf_none <| .ite State.actCan_queue State.actNet_queue

theorem State.busWrite_queue {s : State} {a w r} : s.QueueOf (s.busWrite a w r) := by
  unfold State.busWrite
  exact .ite State.queueOf_none (State.queueOf_some.mpr (State.act?_queue.getD (State.writePlain_pending ..)))

/-! ### Instructions -/

@[simp] theorem State.fetchPast_pending (s : State) (c) : (s.fetchPast c).pending = s.pending := by simp [State.fetchPast]

@[simp] theorem State.takeCause_pending (s : State) (c) : (s.takeCause c).pending = s.pending := by
  unfold State.takeCause
  split <;> simp

@[simp] theorem State.bound_pending (s : State) (c) : (s.bound c).pending = s.pending := by simp [State.bound]

@[simp] theorem State.retire_pending (s : State) (c n f) : (s.retire c n f).pending = s.pending := by simp [State.retire]

@[simp] theorem State.transfer_pending (s : State) (c n target f) : (s.transfer c n target f).pending = s.pending := by
  simp [State.transfer]

@[simp] theorem State.illegal_pending (s : State) (c w) : (s.illegal c w).pending = s.pending := by simp [State.illegal]

@[simp] theorem State.privilege_pending (s : State) (c w) : (s.privilege c w).pending = s.pending := by simp [State.privilege]

@[simp] theorem State.access_pending (s : State) (c detail v) : (s.access c detail v).pending = s.pending := by simp [State.access]

/-! ### Float and fixed-point instructions -/

@[simp] theorem State.floated_pending (s : State) (c n r dest) : (s.floated c n r dest).pending = s.pending := by simp [State.floated]

/-! ### Loads and stores -/

@[simp] theorem State.perform_pending (s : State) (c p) : (s.perform c p).pending = s.pending := by
  unfold State.perform
  dsimp only
  split
  · exact (State.busWrite_queue.getD rfl).trans (State.beat_pending ..)
  · simp
  · simp

@[simp] theorem State.drain_pending (s : State) (c p) : (s.drain c p).pending = s.pending := by simp [State.drain]

@[simp] theorem State.postedDone_pending (s : State) (c cls) : (s.postedDone c cls).pending = s.pending := by
  unfold State.postedDone
  split <;> simp

@[simp] theorem State.reportDram_pending (s : State) (c addr) : (s.reportDram c addr).pending = s.pending := by simp [State.reportDram]

@[simp] theorem State.fixedDram_pending (s : State) (c fixed) : (s.fixedDram c fixed).pending = s.pending := by simp [State.fixedDram]

@[simp] theorem State.fixedTcm_pending (s : State) (c fixed) : (s.fixedTcm c fixed).pending = s.pending := by simp [State.fixedTcm]

@[simp] theorem State.reportTcm_pending (s : State) (c) : (s.reportTcm c).pending = s.pending := by simp [State.reportTcm]

@[simp] theorem State.postedError_pending (s : State) (c cls) : (s.postedError c cls).pending = s.pending := by
  unfold State.postedError
  split <;> simp

theorem State.loadFrom_queue (s : State) (c ea width env) : s.QueueOfLoad (s.loadFrom c ea width env) := by
  unfold State.loadFrom
  split
  · trivial
  · split <;> simp [State.QueueOfLoad]
  · split <;> simp [State.QueueOfLoad]
  · dsimp only
    split <;> simp [State.QueueOfLoad]
  · dsimp only
    split <;> simp [State.QueueOfLoad]
  · dsimp only
    split <;> simp [State.QueueOfLoad]

@[simp] theorem State.loadAt_pending (s : State) (c b imm width env dest) : (s.loadAt c b imm width env dest).pending = s.pending := by
  have load := s.loadFrom_queue c ((s.ctx c).ea b imm).toNat width env
  unfold State.loadAt
  dsimp only
  split
  next => exact State.access_pending ..
  next reached =>
    rw [reached] at load
    rw [State.ite_pending, State.except_pending, ite_self]
    exact load
  next reached =>
    rw [reached] at load
    rw [State.ite_pending, State.retire_pending, ite_self]
    exact load

@[simp] theorem State.post_pending (s : State) (c p wait) : (s.post c p wait).pending = s.pending := by
  unfold State.post
  split <;> simp

@[simp] theorem State.storeTo_pending (s : State) (c pl ea width v wait) : (s.storeTo c pl ea width v wait).pending = s.pending := by
  unfold State.storeTo
  split <;> simp

@[simp] theorem State.storeAt_pending (s : State) (c b imm width v wait) : (s.storeAt c b imm width v wait).pending = s.pending := by
  unfold State.storeAt
  dsimp only
  split <;> simp

@[simp] theorem State.barrier_pending (s : State) (c p wait) : (s.barrier c p wait).pending = s.pending := by simp [State.barrier]

/-! ### System instructions -/

@[simp] theorem State.yield_pending (s : State) (c) : (s.yield c).pending = s.pending := by
  unfold State.yield
  dsimp only
  split <;> simp

@[simp] theorem State.suspend_pending (s : State) (c e w) : (s.suspend c e w).pending = s.pending := by simp [State.suspend]

@[simp] theorem State.waitSlot_pending (s : State) (c a target) : (s.waitSlot c a target).pending = s.pending := by
  unfold State.waitSlot
  split
  · simp
  · split <;> simp

@[simp] theorem State.eret_pending (s : State) (c) : (s.eret c).pending = s.pending := by simp [State.eret]

@[simp] theorem State.crLatch_pending (s : State) (c n) : (s.crLatch c n).pending = s.pending := by simp [State.crLatch]

@[simp] theorem State.takeLock_pending (s : State) (c n) : (s.takeLock c n).pending = s.pending := rfl

@[simp] theorem State.lockDone_pending (s : State) (c n a status holder) : (s.lockDone c n a status holder).pending = s.pending := by
  simp [State.lockDone]

@[simp] theorem State.lockTake_pending (s : State) (c a n) : (s.lockTake c a n).pending = s.pending := by simp [State.lockTake]

@[simp] theorem State.lockTry_pending (s : State) (c a n) : (s.lockTry c a n).pending = s.pending := by simp [State.lockTry]

@[simp] theorem State.lockGive_pending (s : State) (c a n) : (s.lockGive c a n).pending = s.pending := by simp [State.lockGive]

@[simp] theorem State.lockTimeout_pending (s : State) (c) : (s.lockTimeout c).pending = s.pending := by
  unfold State.lockTimeout
  split <;> simp

@[simp] theorem State.send_pending (s : State) (c a m n addr) : (s.send c a m n addr).pending = s.pending := by simp [State.send]

@[simp] theorem State.receive_pending (s : State) (c a m n addr) : (s.receive c a m n addr).pending = s.pending := by
  unfold State.receive
  split <;> simp

@[simp] theorem State.recv_pending (s : State) (c a m n addr) : (s.recv c a m n addr).pending = s.pending := by simp [State.recv]

@[simp] theorem State.recvWait_pending (s : State) (c a m n addr) : (s.recvWait c a m n addr).pending = s.pending := by
  unfold State.recvWait
  split
  · split <;> simp
  · simp

theorem State.withTable_pending {s : State} {c w} {f : Fin 8 → RepTable → State} (h : ∀ t r, (f t r).pending = s.pending) :
    (s.withTable c w f).pending = s.pending := by
  simp [State.withTable, h]

/-! ### Data of the Decanter -/

theorem State.dcGet_pending {s t : State} {a v} (h : s.dcGet a = some (v, t)) : t.pending = s.pending := by
  unfold State.dcGet at h
  split at h
  · cases h
    simp
  · split at h <;> cases h
    rfl

theorem State.dcPut_queue {s : State} {n a v} : s.QueueOf (s.dcPut n a v) := by
  unfold State.dcPut
  exact .ite State.busWrite_queue (.ite (State.queueOf_some.mpr (State.fabPut_pending ..)) State.queueOf_none)

theorem State.dcSide_pending {s t : State} {a v k} (h : s.dcSide a k = some (v, t)) : t.pending = s.pending := by
  induction k generalizing s a v with
  | zero =>
    cases h
    rfl
  | succ k ih =>
    unfold State.dcSide at h
    split at h
    · exact State.dcGet_pending h
    · split at h
      · cases h
      next w u get =>
        split at h
        · cases h
        next rest =>
          cases h
          exact (ih rest).trans (State.dcGet_pending get)

theorem State.dcStore_queue {s : State} {n a v k} : s.QueueOf (s.dcStore n a v k) := by
  induction k generalizing s a v with
  | zero => exact State.queueOf_some.mpr rfl
  | succ k ih =>
    unfold State.dcStore
    refine .ite State.dcPut_queue ?_
    cases put : s.dcPut n a (v % 256) with
    | none => exact State.queueOf_none
    | some t => exact ih.of_eq (State.dcPut_queue t put)

@[simp] theorem State.dcUnit_pending (s : State) (n d o) : (s.dcUnit n d o).1.pending = s.pending := by
  unfold State.dcUnit
  dsimp only
  split
  · split
    next store => exact State.dcStore_queue _ store
    · rfl
  · split
    · rfl
    next v t side =>
      rw [← State.dcSide_pending side]
      split
      · split
        next store => exact State.dcStore_queue _ store
        · rfl
      · split
        · rfl
        next side =>
          rw [← State.dcSide_pending side]
          split <;> rfl

@[simp] theorem State.dcMoveTo_pending (s : State) (n d e k o) : (s.dcMoveTo n d e k o).1.pending = s.pending := by
  induction k generalizing s o with
  | zero => rfl
  | succ k ih =>
    unfold State.dcMoveTo
    split
    · rfl
    · have moved := s.dcUnit_pending n d o
      split
      next t unit =>
        rw [unit] at moved
        exact (ih ..).trans moved
      · exact moved

@[simp] theorem State.dcCarry_pending (s : State) (n d e) : (s.dcCarry n d e).1.pending = s.pending := by simp [State.dcCarry]

@[simp] theorem State.dcFail_pending (s : State) (n status ofs addr) : (s.dcFail n status ofs addr).pending = s.pending := by
  simp [State.dcFail]

@[simp] theorem State.dcAfter_pending (r : State × DcStop) (n) {go : State → State} (keeps : KeepsQueue go) :
    (State.dcAfter r n go).pending = r.1.pending := by
  unfold State.dcAfter
  split
  · exact keeps _
  · simp
  · simp

@[simp] theorem State.dcReach_pending (s : State) (n d e) : (s.dcReach n d e).pending = s.pending := by simp [State.dcReach]

@[simp] theorem State.dcData_pending (s : State) (n d) : (s.dcData n d).pending = s.pending := by simp [State.dcData]

@[simp] theorem State.dcBeatFail_pending (s : State) (n status ofs wr) : (s.dcBeatFail n status ofs wr).pending = s.pending := by
  unfold State.dcBeatFail
  split <;> simp

/-! ### The update manager -/

@[simp] theorem State.portFrame_pending (s : State) (q) : (s.portFrame q).pending = s.pending := by simp [State.portFrame]

@[simp] theorem State.endVerify_pending (s : State) : s.endVerify.pending = s.pending := by
  unfold State.endVerify
  split <;> simp

@[simp] theorem State.eraseStaging_pending (s : State) : s.eraseStaging.pending = s.pending := by simp [State.eraseStaging]

@[simp] theorem State.storeBlock_pending (s : State) (index bs) : (s.storeBlock index bs).pending = s.pending := by simp [State.storeBlock]

@[simp] theorem State.verified_pending (s : State) (sigOk fwOk) : (s.verified sigOk fwOk).pending = s.pending := by
  unfold State.verified
  dsimp only
  split <;> simp

@[simp] theorem State.writeRegs_pending (s : State) (lo hi ws) : (s.writeRegs lo hi ws).pending = s.pending := by simp [State.writeRegs]

@[simp] theorem State.loadPipe_pending (s : State) (p ws) : (s.loadPipe p ws).pending = s.pending := by simp [State.loadPipe]

@[simp] theorem State.placeAt_pending (s : State) (addr p) : (s.placeAt addr p).pending = s.pending := by simp [State.placeAt]

@[simp] theorem State.loadPart_pending (s : State) (k p) : (s.loadPart k p).1.pending = s.pending := by
  unfold State.loadPart
  dsimp only
  split
  · split <;> simp
  · split
    · simp
    · split
      · simp
      · split <;> simp

@[simp] theorem State.loadParts_pending (s : State) (k ps) : (s.loadParts k ps).1.pending = s.pending := by
  induction ps generalizing s k with
  | nil => rfl
  | cons p ps ih => simp [State.loadParts, ih]

@[simp] theorem State.activateErr_pending (s : State) (q err) : (s.activateErr q err).pending = s.pending := by simp [State.activateErr]

@[simp] theorem State.activateOk_pending (s : State) (q a) : (s.activateOk q a).pending = s.pending := by simp [State.activateOk]

@[simp] theorem State.activateSet_pending (s : State) (q force x) : (s.activateSet q force x).pending = s.pending := by
  simp [State.activateSet]

@[simp] theorem State.switchPart_pending (s : State) (p) : (s.switchPart p).1.pending = s.pending := by
  unfold State.switchPart
  dsimp only
  split
  · simp
  · split
    · split <;> simp
    · split
      · split <;> simp
      · simp

@[simp] theorem State.switchAll_pending (s : State) (x) : (s.switchAll x).1.pending = s.pending := by
  refine (foldl_fst_pending (by simp) _ _).trans ?_
  simp

@[simp] theorem State.activation_pending (s : State) : s.activation.pending = s.pending := by
  unfold State.activation
  split <;> simp

@[simp] theorem State.bootCopied_pending (s : State) (x) : (s.bootCopied x).pending = s.pending := by simp [State.bootCopied]

/-! ### Starts, wakes and ends of hold -/

@[simp] theorem State.feedRise_pending (s : State) (strap key wake closed low) :
    (s.feedRise strap key wake closed low).pending = s.pending := by
  simp [State.feedRise]

@[simp] theorem State.toStep_pending (s : State) (p) : (s.toStep p).pending = s.pending := rfl

@[simp] theorem State.toRecovery_pending (s : State) : s.toRecovery.pending = s.pending := by simp [State.toRecovery]

@[simp] theorem State.pllLocked_pending (s : State) (imgA imgB) : (s.pllLocked imgA imgB).pending = s.pending := by simp [State.pllLocked]

@[simp] theorem State.bootRecord_pending (s : State) : s.bootRecord.pending = s.pending := by simp [State.bootRecord]

@[simp] theorem State.loadBanks_pending (s : State) (ps) : (s.loadBanks ps).pending = s.pending := by simp [State.loadBanks]

@[simp] theorem State.placeParts_pending (s : State) (ps) : (s.placeParts ps).pending = s.pending := by simp [State.placeParts]

@[simp] theorem State.recheck_pending (s : State) (sigOk fwOk) : (s.recheck sigOk fwOk).pending = s.pending := by simp [State.recheck]

@[simp] theorem State.firmware_pending (s : State) (selftestFail tagBad sigOk fwOk) :
    (s.firmware selftestFail tagBad sigOk fwOk).pending = s.pending := by
  simp [State.firmware]

@[simp] theorem State.toWatch_pending (s : State) : s.toWatch.pending = s.pending := by simp -implicitDefEqProofs [State.toWatch]

@[simp] theorem State.wake_pending (s : State) (src) : (s.wake src).pending = s.pending := by simp -implicitDefEqProofs [State.wake]

@[simp] theorem State.wakeToo_pending (s : State) (src en) : (s.wakeToo src en).pending = s.pending := by
  unfold State.wakeToo
  split <;> simp

@[simp] theorem State.valveTimeOut_pending (s : State) (c why mode) : (s.valveTimeOut c why mode).pending = s.pending := by
  simp [State.valveTimeOut]

@[simp] theorem State.loadTimeOut_pending (s : State) (n why mode) : (s.loadTimeOut n why mode).pending = s.pending := by
  simp [State.loadTimeOut]

@[simp] theorem State.holdTimeOut_pending (s : State) (load n why mode) : (s.holdTimeOut load n why mode).pending = s.pending := by
  unfold State.holdTimeOut
  split
  · split <;> simp
  · split <;> simp

@[simp] theorem State.estopShow_pending (s : State) : s.estopShow.pending = s.pending := rfl

@[simp] theorem State.estopFault_pending (s : State) : s.estopFault.pending = s.pending := by simp [State.estopFault]

@[simp] theorem State.estopPassed_pending (s : State) : s.estopPassed.pending = s.pending := by simp [State.estopPassed]

@[simp] theorem State.foldback_pending (s : State) (k) : (s.foldback k).pending = s.pending := by simp [State.foldback]

@[simp] theorem State.thermal_pending (s : State) (plate die) : (s.thermal plate die).pending = s.pending := by simp [State.thermal]

/-! ### Dumps and the book -/

@[simp] theorem State.dumpEnd_pending (s : State) (f complete sections) : (s.dumpEnd f complete sections).pending = s.pending := by
  simp [State.dumpEnd]

@[simp] theorem State.answer_pending (s : State) (q op addr res bytes) : (s.answer q op addr res bytes).pending = s.pending := by
  simp [State.answer]

/-! ### Samples of the loops -/

@[simp] theorem State.lpTrigger_pending (s : State) (c l) : (s.lpTrigger c l).pending = s.pending := by simp [State.lpTrigger]

@[simp] theorem State.loopsSlot_pending (s : State) (c n) : (s.loopsSlot c n).pending = s.pending := by simp [State.loopsSlot]

@[simp] theorem State.rtTurn_pending (s : State) (c t theta prev t0) : (s.rtTurn c t theta prev t0).pending = s.pending := by
  simp [State.rtTurn]

@[simp] theorem State.rtLearn_pending (s : State) (c t band theta e t0) : (s.rtLearn c t band theta e t0).1.pending = s.pending := by
  unfold State.rtLearn
  dsimp only
  split <;> simp

@[simp] theorem State.lpFault_pending (s : State) (c l cause) : (s.lpFault c l cause).pending = s.pending := by simp [State.lpFault]

@[simp] theorem State.lpTrace_pending (s : State) (c l t0 nodes) : (s.lpTrace c l t0 nodes).pending = s.pending := by simp [State.lpTrace]

@[simp] theorem State.lpRead_pending (s : State) (c a err) : (s.lpRead c a err).2.pending = s.pending := by
  unfold State.lpRead
  split <;> simp

@[simp] theorem State.lpCopySet_pending (s : State) (c l) : (s.lpCopySet c l).pending = s.pending := by simp [State.lpCopySet]

@[simp] theorem State.lpBandUse_pending (s : State) (c l t band) : (s.lpBandUse c l t band).pending = s.pending := by simp [State.lpBandUse]

@[simp] theorem State.lpCompute_pending (s : State) (c l q w early) : (s.lpCompute c l q w early).pending = s.pending := by
  unfold State.lpCompute
  extract_lets band tab uses x look off a s₁ old st i₀ u₀ e s₂ s₃ k dfRaw df up t start n v u mine moved learn s₄ m flags word s₅ s₆ s₇ s₈
  have used : s₁.pending = s.pending := by
    clear_value uses
    simp only [s₁]
    split <;> simp
  have set : s₃.pending = s₁.pending := by simp [s₃, s₂]
  have learned : learn.1.pending = s₃.pending := by
    clear_value mine
    simp only [learn]
    split
    · split <;> simp
    · rfl
  have shown : s₈.pending = learn.1.pending := (State.lpFlags_pending ..).trans rfl
  rw [State.fresh_pending, State.lpTrace_pending, shown, learned, set, used]

@[simp] theorem State.lpSample_pending (s : State) (c l q b) : (s.lpSample c l q b).pending = s.pending := by simp [State.lpSample]

@[simp] theorem State.lpDrain_pending (s : State) (c) : (s.lpDrain c).pending = s.pending := by
  unfold State.lpDrain
  refine State.foldl_pending (fun l t => ?_) _ _
  dsimp only
  split
  · split <;> simp
  · rfl

@[simp] theorem State.lpReturn_pending (s : State) (c l inErr stErr anErr) : (s.lpReturn c l inErr stErr anErr).pending = s.pending := by
  unfold State.lpReturn
  dsimp only
  split
  · simp
  · split
    · simp
    · split
      · split <;> simp
      · split <;> simp

theorem State.lpWrite_queue {s : State} {c l w err} : s.QueueOf (s.lpWrite c l w err) := by
  unfold State.lpWrite
  exact .ite State.queueOf_none (State.busWrite_queue.of_eq (State.beat_pending ..))

@[simp] theorem State.bandGo_pending (s : State) (c band tau) : (s.bandGo c band tau).pending = s.pending := by simp [State.bandGo]

@[simp] theorem State.bandStep_pending (s : State) (c word) : (s.bandStep c word).pending = s.pending := by simp [State.bandStep]

@[simp] theorem State.bandBoundary_pending (s : State) (c err) : (s.bandBoundary c err).pending = s.pending := by simp [State.bandBoundary]

/-! ### The section engine -/

@[simp] theorem State.uncoveredFraction_pending (s : State) (rs k t) : (s.uncoveredFraction rs k t).2.pending = s.pending := by
  unfold State.uncoveredFraction
  dsimp only
  split <;> simp

@[simp] theorem State.tlLoad_pending (s : State) : s.tlLoad.pending = s.pending := rfl

@[simp] theorem State.scSet_pending (s : State) (k on) : (s.scSet k on).pending = s.pending := by simp [State.scSet]

@[simp] theorem State.scFractions_pending (s : State) (rs i) : (s.scFractions rs i).1.pending = s.pending := by
  unfold State.scFractions
  split <;> simp

@[simp] theorem State.scDecide_pending (s : State) (rs k) : (s.scDecide rs k).pending = s.pending := by simp [State.scDecide]

@[simp] theorem State.scCover_pending (s : State) (rs k) : (s.scCover rs k).pending = s.pending := by simp [State.scCover]

@[simp] theorem State.scBoundary_pending (s : State) : s.scBoundary.pending = s.pending := by simp [State.scBoundary]

/-! ### Ticks, slots and major frames -/

@[simp] theorem State.passTime_pending (s : State) (d) : (s.passTime d).pending = s.pending := rfl

@[simp] theorem State.passTo_pending (s : State) (t) : (s.passTo t).pending = s.pending := rfl

@[simp] theorem State.idleTick_pending (s : State) : s.idleTick.pending = s.pending := by
  unfold State.idleTick
  split <;> simp

@[simp] theorem State.unitReads_pending (s : State) (rq err as) : (s.unitReads rq err as).pending = s.pending := by simp [State.unitReads]

@[simp] theorem State.motionRead_pending (s : State) (f err) : (s.motionRead f err).2.pending = s.pending := by
  unfold State.motionRead
  dsimp only
  split
  · simp
  · split <;> simp

@[simp] theorem State.cvBoundary_pending (s : State) (err) : (s.cvBoundary err).pending = s.pending := by simp [State.cvBoundary]

@[simp] theorem State.rackBoundary_pending (s : State) (err) : (s.rackBoundary err).pending = s.pending := by simp [State.rackBoundary]

@[simp] theorem State.frameUnits_pending (s : State) (err) : (s.frameUnits err).pending = s.pending := by simp [State.frameUnits]

@[simp] theorem State.frameBegin_pending (s : State) (err) : (s.frameBegin err).pending = s.pending := by
  simp -implicitDefEqProofs [State.frameBegin]

@[simp] theorem State.slotBegin_pending (s : State) (n) : (s.slotBegin n).pending = s.pending := by simp [State.slotBegin]

@[simp] theorem State.sectionWrite_pending (s : State) (k) : (s.sectionWrite k).pending = s.pending := by
  unfold State.sectionWrite
  extract_lets
  split
  · rfl
  · split
    · rfl
    · exact (State.busWrite_queue.getD rfl).trans (State.beat_pending ..)

/-! ### The service port and the tag area -/

@[simp] theorem State.auth_pending (s : State) (q sig) : (s.auth q sig).pending = s.pending := by
  unfold State.auth
  dsimp only
  split
  · simp
  · split <;> simp

@[simp] theorem State.writeEn_pending (s : State) (en) : (s.writeEn en).pending = s.pending := by simp [State.writeEn]

@[simp] theorem State.portRead_pending (s : State) (a n) : (s.portRead a n).2.pending = s.pending := by
  induction n generalizing s a with
  | zero => rfl
  | succ n ih => simp [State.portRead, ih]

@[simp] theorem State.portWrite_pending (s : State) (a ws) : (s.portWrite a ws).pending = s.pending := by
  induction ws generalizing s a with
  | nil => rfl
  | cons w ws ih => exact (ih ..).trans ((State.busWrite_queue.of_eq (State.beat_pending ..)).getD rfl)

@[simp] theorem State.tagWait_pending (s : State) (q op rs type index) : (s.tagWait q op rs type index).pending = s.pending := rfl

end Sys2Proof.Machine

/-! PROOFS.  Every command completes: it answers a next state, with the queue as it was; a command that cannot occur in the present state
leaves that state as it is (log entry 4). -/

namespace Sys2Proof.Machine

open Sys2Proof.Reg

/-! ### The forms of a command's outcome -/

/-- A command that completes: it answers a next state, with the queue as it was. -/
def Completes (s : State) (o : Host.Outcome State Fault Refusal) : Prop := ∃ t, o = .next t ∧ t.pending = s.pending

namespace Completes

variable {s t : State} {c : Fin 16}

theorem next (h : t.pending = s.pending) : Completes s (.next t) := ⟨t, rfl, h⟩

theorem act (h : t.pending = s.pending) : Completes s (s.act t) := next (by simp [h])

theorem supplied (h : t.pending = s.pending) : Completes s (s.supplied t) := next (by simp [h])

theorem serve {q m op params write recovery} {f : State → State} (keeps : KeepsQueue f) :
    Completes s (s.serve q m op params write recovery f) := by
  rw [keepsQueue_iff] at keeps
  exact next (by simp [keeps])

theorem servePort {q op write recovery} {f : State → State} (keeps : KeepsQueue f) :
    Completes s (s.servePort q op write recovery f) := by
  rw [keepsQueue_iff] at keeps
  exact next (by simp [keeps])

theorem issue (h : t.pending = s.pending) : Completes s (s.issue c t) := next (by simp [h])

theorem checked {ok w} (h : t.pending = s.pending) : Completes s (s.checked c ok w t) := issue (by simp [h])

theorem crAccess {n w} (h : t.pending = s.pending) : Completes s (s.crAccess c n w t) := checked (by simp [h])

theorem plain {n f} : Completes s (s.plain c n f) := issue (State.retire_pending ..)

theorem alu3 {n a b d f} : Completes s (s.alu3 c n a b d f) := plain

theorem alu2 {a b f} : Completes s (s.alu2 c a b f) := plain

theorem alu3f {n a b d f} : Completes s (s.alu3f c n a b d f) := plain

theorem alu2f {a b f} : Completes s (s.alu2f c a b f) := plain

theorem overflowing {a b d f} : Completes s (s.overflowing c a b d f) := issue (by simp)

theorem branch {a b imm p} : Completes s (s.branch c a b imm p) := issue (by simp)

theorem float3 {n fn a b d f} : Completes s (s.float3 c n fn a b d f) := checked (State.floated_pending ..)

theorem float2 {n fn a b f} : Completes s (s.float2 c n fn a b f) := checked (State.floated_pending ..)

theorem float4 {fn a b d e f} : Completes s (s.float4 c fn a b d e f) := checked (State.floated_pending ..)

theorem floatCmp {fn a b d f} : Completes s (s.floatCmp c fn a b d f) := checked (State.floated_pending ..)

theorem floatToG {n fn a b f} : Completes s (s.floatToG c n fn a b f) := checked (State.floated_pending ..)

theorem floatFromG {n fn a b f} : Completes s (s.floatFromG c n fn a b f) := checked (State.floated_pending ..)

theorem acc {n fn a b d f} : Completes s (s.acc c n fn a b d f) := checked (State.retire_pending ..)

end Completes

/-! ### Cameras and pipes -/

theorem execCamFs_completes {s : State} {n p} : Completes s (execCamFs n p s) := by
  refine .act ?_
  dsimp only
  split
  · split <;> simp
  · simp

theorem execCamLine_completes {s : State} {n p} : Completes s (execCamLine n p s) := by
  refine .act ?_
  extract_lets receiving t u frame
  have header : t.pending = s.pending := by simp [t]
  have counted : u.pending = s.pending := by simp [u, header]
  split
  · exact header
  · split
    · simp [header]
    · split
      · exact header
      · simp [header, frame, counted]

theorem execCamFe_completes {s : State} {n p} : Completes s (execCamFe n p s) := by
  refine .act ?_
  dsimp only
  split
  · simp
  · split <;> simp

theorem execCamMissingPeriod_completes {s : State} {n} : Completes s (execCamMissingPeriod n s) := .act (by simp)

theorem execCamDescriptorWrite_completes {s : State} {n} : Completes s (execCamDescriptorWrite n s) := by
  refine .act ?_
  split <;> simp

theorem execCamStatsWrite_completes {s : State} {n} : Completes s (execCamStatsWrite n s) := by
  refine .act ?_
  split <;> simp

theorem execCamLinkUp_completes {s : State} {n} : Completes s (execCamLinkUp n s) := .act (by simp)

theorem execCamLinkLoss_completes {s : State} {n} : Completes s (execCamLinkLoss n s) := by
  refine .act ?_
  dsimp only
  split <;> simp

theorem execCamDisableTimeout_completes {s : State} {n} : Completes s (execCamDisableTimeout n s) := .act (by simp)

theorem execCamCfgWrite_completes {s : State} {n reg value rq} : Completes s (execCamCfgWrite n reg value rq s) := .act (by simp)

theorem execSetGo_completes {s : State} {n nw} : Completes s (execSetGo n nw s) := .act (by simp)

theorem execSetWriteDone_completes {s : State} {n ack} : Completes s (execSetWriteDone n ack s) := by
  refine .act ?_
  split <;> simp

theorem execTblSwitch_completes {s : State} {p rq} : Completes s (execTblSwitch p rq s) := .act (by simp)

/-! ### CAN controllers -/

theorem execTxwWrite_completes {s : State} {n word v rq} : Completes s (execTxwWrite n word v rq s) := .act (by simp)

theorem execCanTxReq_completes {s : State} {n mask rq} : Completes s (execCanTxReq n mask rq s) := .act (by simp)

theorem execCanTxCancel_completes {s : State} {n mask rq} : Completes s (execCanTxCancel n mask rq s) := .act (by simp)

theorem execCanTxStartOfFrame_completes {s : State} {n won tdcv} : Completes s (execCanTxStartOfFrame n won tdcv s) := by
  refine .act ?_
  split
  · simp
  · split <;> simp

theorem execRxwWord0Read_completes {s : State} {n w} : Completes s (execRxwWord0Read n w s) := .act (by simp)

theorem execRxwLastwRead_completes {s : State} {n w} : Completes s (execRxwLastwRead n w s) := .act (by simp)

theorem execRxwSelWrite_completes {s : State} {n w v rq} : Completes s (execRxwSelWrite n w v rq s) := .act (by simp)

theorem execRxwRel_completes {s : State} {n w rq} : Completes s (execRxwRel n w rq s) := .act (by simp)

theorem execRxwConsume_completes {s : State} {n w rq} : Completes s (execRxwConsume n w rq s) := .act (by simp)

theorem execCanTxevPop_completes {s : State} {n} : Completes s (execCanTxevPop n s) := .act (by simp)

theorem execCanBusOffRecovered_completes {s : State} {n} : Completes s (execCanBusOffRecovered n s) := .act (by simp)

theorem execRecover_completes {s : State} {n rq} : Completes s (execRecover n rq s) := .act (by simp)

theorem execCanInitWrite_completes {s : State} {n init rq} : Completes s (execCanInitWrite n init rq s) := .act (by simp)

theorem execCanIntegrationDone_completes {s : State} {n} : Completes s (execCanIntegrationDone n s) := .act (by simp)

/-! ### The time unit -/

theorem execQualifyingTimeSolution_completes {s : State} {time u0 y leap} : Completes s (execQualifyingTimeSolution time u0 y leap s) :=
  .act (by simp)

theorem execLossTExpiry_completes {s : State} : Completes s (execLossTExpiry s) := by
  refine .act ?_
  split <;> simp

theorem execHoldoverLimitExpiry_completes {s : State} : Completes s (execHoldoverLimitExpiry s) := by
  refine .act ?_
  split <;> simp

theorem execTimeStep_completes {s : State} : Completes s (execTimeStep s) := by
  refine .act ?_
  split <;> simp

theorem execSlewEnd_completes {s : State} : Completes s (execSlewEnd s) := .act (by simp)

theorem execTuNowLatch_completes {s : State} : Completes s (execTuNowLatch s) := .act (by simp)

theorem execConvLatch_completes {s : State} : Completes s (execConvLatch s) := .act (by simp)

theorem execTimePulseEdge_completes {s : State} {p frac} : Completes s (execTimePulseEdge p frac s) := by
  refine .act ?_
  dsimp only
  split <;> simp

theorem execTimePulseTrailingEdge_completes {s : State} {p} : Completes s (execTimePulseTrailingEdge p s) := .act (by simp)

theorem execTpConfigWrite_completes {s : State} {p dly word id sup} : Completes s (execTpConfigWrite p dly word id sup s) := .act (by simp)

/-! ### The Ethernet switch and its streams -/

theorem execBlkTmoExpiry_completes {s : State} {k} : Completes s (execBlkTmoExpiry k s) := .act (by simp)

theorem execLidarBlockWrite_completes {s : State} {k} : Completes s (execLidarBlockWrite k s) := by
  refine .act ?_
  split
  · rfl
  · extract_lets _ t _ _ _ _ _ _ flags u v w
    have shown : w.pending = s.pending := by simp [w, v, u, t]
    split
    · exact (State.sticky_pending ..).trans shown
    · rw [State.put_pending, State.fabWrite_pending, State.fabWrite_pending, shown]

theorem execEthFrameReceived_completes {s : State} {p d fcsBad stamp} : Completes s (execEthFrameReceived p d fcsBad stamp s) :=
  .act (by simp)

theorem execMacEntryAgeOut_completes {s : State} {vid mac} : Completes s (execMacEntryAgeOut vid mac s) := .act (by simp)

theorem execEthLinkLoss_completes {s : State} {p} : Completes s (execEthLinkLoss p s) := .act (by simp)

theorem execEthLinkUp_completes {s : State} {p sqi} : Completes s (execEthLinkUp p sqi s) := .act (by simp)

theorem execPtpSyncTimer_completes {s : State} : Completes s (execPtpSyncTimer s) := by
  refine .act ?_
  split
  · simp
  · split <;> simp

theorem execPtpPdelayTimer_completes {s : State} {p ns} : Completes s (execPtpPdelayTimer p ns s) := .act (by simp)

theorem execHqTxWr_completes {s : State} {q v rq} : Completes s (execHqTxWr q v rq s) := .act (by simp)

theorem execHqTxSent_completes {s : State} {q} : Completes s (execHqTxSent q s) := .act (by simp -implicitDefEqProofs)

/-! ### GNSS channels and the positioning service -/

theorem execAntOpen_completes {s : State} {a} : Completes s (execAntOpen a s) := .act (by simp)

theorem execAntShort_completes {s : State} {a} : Completes s (execAntShort a s) := .act (by simp)

theorem execJam_completes {s : State} {stream gain} : Completes s (execJam stream gain s) := .act (by simp)

theorem execGcConfigWrite_completes {s : State} {n reg word rq} : Completes s (execGcConfigWrite n reg word rq s) := .act (by simp)

theorem execGcCodeAdj_completes {s : State} {n word rq} : Completes s (execGcCodeAdj n word rq s) := .act (by simp)

theorem execGcCarrAdj_completes {s : State} {n word rq} : Completes s (execGcCarrAdj n word rq s) := .act (by simp)

theorem execGnssPromptEpoch_completes {s : State} {n samples} : Completes s (execGnssPromptEpoch n samples s) := .act (by simp)

theorem execGnssDump_completes {s : State} {n sums} : Completes s (execGnssDump n sums s) := by
  refine .act ?_
  split
  · rfl
  · simp -implicitDefEqProofs

theorem execClaim_completes {s : State} {q first count owner} : Completes s (execClaim q first count owner s) := .act (by simp)

theorem execRelease_completes {s : State} {q first count} : Completes s (execRelease q first count s) := .act (by simp)

theorem execSolCfg_completes {s : State} {q rate log2n ring at_} : Completes s (execSolCfg q rate log2n ring at_ s) := .act (by simp)

theorem execAntCfg_completes {s : State} {q a b hdgEn} : Completes s (execAntCfg q a b hdgEn s) := .act (by simp)

theorem execRtkCfg_completes {s : State} {q prio srcTmo corrMax drMax} : Completes s (execRtkCfg q prio srcTmo corrMax drMax s) :=
  .act (by simp)

theorem execRtkSourceTimeout_completes {s : State} : Completes s (execRtkSourceTimeout s) := .act (by simp)

theorem execSolutionRecord_completes {s : State} {mtc v} : Completes s (execSolutionRecord mtc v s) := by
  refine .act ?_
  split <;> simp

theorem execDrMaxExpiry_completes {s : State} : Completes s (execDrMaxExpiry s) := .act (by simp)

theorem execSnap_completes {s : State} {q len dest addr} : Completes s (execSnap q len dest addr s) := .act (by simp)

theorem execWatchLog_completes {s : State} {q addr} : Completes s (execWatchLog q addr s) := .act (by simp)

/-! ### Extraction and the tables of Cuvee -/

theorem execCameraObjectArrival_completes {s : State} {n fseq lost} : Completes s (execCameraObjectArrival n fseq lost s) := .act (by simp)

theorem execLidarBlockArrival_completes {s : State} {n slot} : Completes s (execLidarBlockArrival n slot s) := .act (by simp)

theorem execEpochReleaseTimeout_completes {s : State} : Completes s (execEpochReleaseTimeout s) := .act (by simp)

theorem execFeatureExtractDone_completes {s : State} {n out} : Completes s (execFeatureExtractDone n out s) := by
  refine .act ?_
  split
  · simp
  · split <;> simp

theorem execTtCommit_completes {s : State} {n rq} : Completes s (execTtCommit n rq s) := .act (by simp)

theorem execHgCommit_completes {s : State} {rq} : Completes s (execHgCommit rq s) := .act (by simp)

theorem execModelSwap_completes {s : State} {m rq} : Completes s (execModelSwap m rq s) := .act (by simp)

theorem execModelOldRelease_completes {s : State} {m} : Completes s (execModelOldRelease m s) := .act (by simp)

theorem execCvEnable_completes {s : State} {word rq} : Completes s (execCvEnable word rq s) := .act (by simp)

theorem execSensMaskWrite_completes {s : State} {n word rq} : Completes s (execSensMaskWrite n word rq s) := .act (by simp)

/-! ### Residuals, pairs and the grid -/

theorem execGridPublish_completes {s : State} {gm} : Completes s (execGridPublish gm s) := by
  refine .act ?_
  split
  · split <;> simp
  · rfl

/-! ### Analog inputs and loss plates -/

theorem execAinConversion_completes {s : State} {xs} : Completes s (execAinConversion xs s) := .act (by simp)

theorem execAinValueWrite_completes {s : State} {slot} : Completes s (execAinValueWrite slot s) := by
  refine .act (State.foldl_pending (fun n t => ?_) _ _)
  dsimp only
  split <;> simp

theorem execAinEdge_completes {s : State} {n lineA reverse} : Completes s (execAinEdge n lineA reverse s) := .act (by simp)

theorem execAinIndexEdge_completes {s : State} {idx} : Completes s (execAinIndexEdge idx s) := .act (by simp)

theorem execAinShuntReconnect_completes {s : State} {n} : Completes s (execAinShuntReconnect n s) := .act (by simp)

theorem execLsSample_completes {s : State} {n x dcOut} : Completes s (execLsSample n x dcOut s) := .act (by simp)

theorem execLsBinClose_completes {s : State} {n} : Completes s (execLsBinClose n s) := .act (by simp)

theorem execLsBinDeliver_completes {s : State} {n} : Completes s (execLsBinDeliver n s) := by
  refine .act ?_
  split <;> simp

theorem execLsBinRead_completes {s : State} {n} : Completes s (execLsBinRead n s) := .act (by simp)

theorem execLsOpenTest_completes {s : State} {n resp} : Completes s (execLsOpenTest n resp s) := .act (by simp)

theorem execLsSilentTimeout_completes {s : State} {n} : Completes s (execLsSilentTimeout n s) := .act (by simp)

theorem execLsRestart_completes {s : State} {n rq} : Completes s (execLsRestart n rq s) := .act (by simp)

theorem execImuOutput_completes {s : State} {raw temp} : Completes s (execImuOutput raw temp s) := .act (by simp)

/-! ### The Racking Line -/

theorem execGroundProfileComplete_completes {s : State} : Completes s (execGroundProfileComplete s) := by
  refine .act ?_
  split
  · split <;> simp
  · simp

theorem execMiValWrite_completes {s : State} {k word} : Completes s (execMiValWrite k word s) := .act (by simp)

/-! ### Trellis -/

theorem execTileFlushTimer_completes {s : State} : Completes s (execTileFlushTimer s) := by
  refine .act ?_
  split <;> simp

theorem execTileFlushComplete_completes {s : State} : Completes s (execTileFlushComplete s) := .act (by simp)

theorem execFieldDrainTimeout_completes {s : State} : Completes s (execFieldDrainTimeout s) := by
  refine .act ?_
  split <;> simp

theorem execStripPlace_completes {s : State} : Completes s (execStripPlace s) := by
  refine .act ?_
  dsimp only
  split
  · simp
  · split <;> simp

theorem execStripPlaceTimeout_completes {s : State} : Completes s (execStripPlaceTimeout s) := .act (by simp)

theorem execGridPlace_completes {s : State} : Completes s (execGridPlace s) := by
  refine .act ?_
  split
  · rfl
  · split
    · rfl
    · split
      · rfl
      · refine State.foldl_pending (fun c t => State.foldl_pending (fun g t => ?_) _ _) _ _
        dsimp only
        split
        · rfl
        · exact State.tlSet_pending ..

theorem execRevisionApply_completes {s : State} : Completes s (execRevisionApply s) := by
  refine .act ?_
  dsimp only
  split
  · rfl
  · split
    · exact State.modCv_pending ..
    · split
      · exact State.modCv_pending ..
      · split
        · refine (State.count_pending ..).trans ((State.foldl_pending (fun c t => ?_) _ _).trans (State.modCv_pending ..))
          exact State.reviseCell_pending ..
        · refine (State.foldl_pending (fun c t => ?_) _ _).trans (State.modCv_pending ..)
          exact State.reviseCell_pending ..

theorem execFleetTileMerge_completes {s : State} : Completes s (execFleetTileMerge s) := by
  refine .act ?_
  dsimp only
  split
  · simp
  · split
    · simp
    · split <;> simp

theorem execOpenField_completes {s : State} {q id create edge layers lat lon height} :
    Completes s (execOpenField q id create edge layers lat lon height s) := by
  refine .act ?_
  dsimp only
  split
  · simp
  · split
    · simp
    · split <;> simp

theorem execCloseField_completes {s : State} {q} : Completes s (execCloseField q s) := by
  refine .act ?_
  dsimp only
  split
  · simp
  · split <;> simp

theorem execListFields_completes {s : State} {q addr} : Completes s (execListFields q addr s) := .act (by simp)

theorem execDeleteField_completes {s : State} {q id} : Completes s (execDeleteField q id s) := .act (by simp)

theorem execReadCells_completes {s : State} {q layer i0 j0 i1 j1 addr} : Completes s (execReadCells q layer i0 j0 i1 j1 addr s) :=
  .act (by simp)

theorem execWriteCells_completes {s : State} {q layer i0 j0 i1 j1 addr} : Completes s (execWriteCells q layer i0 j0 i1 j1 addr s) :=
  .act (by simp)

theorem execExportField_completes {s : State} {q id dry addr limit} : Completes s (execExportField q id dry addr limit s) := by
  refine .act ?_
  dsimp only
  split
  · simp
  · split <;> simp

theorem execFlush_completes {s : State} {q} : Completes s (execFlush q s) := .act (by simp)

/-! ### The fleet service -/

theorem execJfxHello_completes {s : State} {h fleet cls field} : Completes s (execJfxHello h fleet cls field s) := by
  refine .act ?_
  dsimp only
  split
  · simp
  · split <;> simp

theorem execJfxChallenge_completes {s : State} {h na} : Completes s (execJfxChallenge h na s) := .act (by simp)

theorem execJfxResponse_completes {s : State} {h na} : Completes s (execJfxResponse h na s) := by
  refine .act ?_
  dsimp only
  split
  · simp
  · split
    · simp
    · split
      · simp
      · split <;> simp

theorem execJfxAdmissionTimeout_completes {s : State} {id} : Completes s (execJfxAdmissionTimeout id s) := .act (by simp)

theorem execJfxBlockExpiry_completes {s : State} {id} : Completes s (execJfxBlockExpiry id s) := .act (by simp)

theorem execJfxBye_completes {s : State} {h} : Completes s (execJfxBye h s) := .act (by simp)

theorem execJfxPeerAgeOut_completes {s : State} {id} : Completes s (execJfxPeerAgeOut id s) := .act (by simp)

theorem execJfxState_completes {s : State} {h fields} : Completes s (execJfxState h fields s) := .act (by simp)

theorem execJfxUser_completes {s : State} {h bytes} : Completes s (execJfxUser h bytes s) := .act (by simp)

theorem execJfxUnloadReq_completes {s : State} {h no fields} : Completes s (execJfxUnloadReq h no fields s) := .act (by simp)

theorem execJfxUnloadOffer_completes {s : State} {h no fields} : Completes s (execJfxUnloadOffer h no fields s) := .act (by simp)

theorem execJfxUnloadAccept_completes {s : State} {h no fields} : Completes s (execJfxUnloadAccept h no fields s) := .act (by simp)

theorem execJfxUnloadState_completes {s : State} {h no fields} : Completes s (execJfxUnloadState h no fields s) := by
  refine .act (State.jfxOn_pending _ _ fun t => ?_)
  split <;> simp

theorem execJfxUnloadEnd_completes {s : State} {h no} : Completes s (execJfxUnloadEnd h no s) := by
  refine .act (State.jfxOn_pending _ _ fun t => ?_)
  split <;> simp

theorem execJfxUnloadLost_completes {s : State} {no} : Completes s (execJfxUnloadLost no s) := by
  refine .act ?_
  split <;> simp

theorem execJfxTile_completes {s : State} {h f} : Completes s (execJfxTile h f s) := .act (by simp)

theorem execJfxTileReassemblyTimeout_completes {s : State} {sender tileSeq} : Completes s (execJfxTileReassemblyTimeout sender tileSeq s) :=
  .act (by simp)

theorem execCoverTileOffer_completes {s : State} : Completes s (execCoverTileOffer s) := .act (by simp)

theorem execJfxRtcm_completes {s : State} {h src hop bytes} : Completes s (execJfxRtcm h src hop bytes s) := .act (by simp)

theorem execRtcmIn_completes {s : State} {q src addr len} : Completes s (execRtcmIn q src addr len s) := .act (by simp)

theorem execSnapCaptureDone_completes {s : State} {samples} : Completes s (execSnapCaptureDone samples s) := .act (by simp)

theorem execJfxAck_completes {s : State} {h seq} : Completes s (execJfxAck h seq s) := by
  refine .act (State.jfxOn_pending _ _ fun t => ?_)
  dsimp only
  split <;> simp

theorem execJfxSnapWindowTimeout_completes {s : State} : Completes s (execJfxSnapWindowTimeout s) := by
  refine .act ?_
  split <;> simp

theorem execJfxSnap_completes {s : State} {h} : Completes s (execJfxSnap h s) := .act (by simp)

theorem execJfxWatchPos_completes {s : State} {h} : Completes s (execJfxWatchPos h s) := .act (by simp)

theorem execJfxHelloTimer_completes {s : State} : Completes s (execJfxHelloTimer s) := .act (by simp)

theorem execJfxStateTimer_completes {s : State} : Completes s (execJfxStateTimer s) := .act (by simp)

theorem execJfxStart_completes {s : State} {q cls notify helloT ageT} : Completes s (execJfxStart q cls notify helloT ageT s) :=
  .act (by simp)

theorem execJfxStop_completes {s : State} {q} : Completes s (execJfxStop q s) := .act (by simp)

theorem execPeerList_completes {s : State} {q addr} : Completes s (execPeerList q addr s) := .act (by simp)

theorem execPeerBlock_completes {s : State} {q id block} : Completes s (execPeerBlock q id block s) := .act (by simp)

theorem execSendUser_completes {s : State} {q dest len addr ackreq} : Completes s (execSendUser q dest len addr ackreq s) := .act (by simp)

theorem execUnloadReq_completes {s : State} {q no fields} : Completes s (execUnloadReq q no fields s) := .act (by simp)

theorem execUnloadOffer_completes {s : State} {q no fields} : Completes s (execUnloadOffer q no fields s) := .act (by simp)

theorem execUnloadAccept_completes {s : State} {q no member fields} : Completes s (execUnloadAccept q no member fields s) := .act (by simp)

theorem execUnloadState_completes {s : State} {q no fields} : Completes s (execUnloadState q no fields s) := .act (by simp)

theorem execUnloadEnd_completes {s : State} {q no} : Completes s (execUnloadEnd q no s) := by
  refine .act (State.unloadOut_pending _ _ _ _ fun t => ?_)
  dsimp only
  split <;> simp

theorem execRtcmRelay_completes {s : State} {q en hopMax} : Completes s (execRtcmRelay q en hopMax s) := .act (by simp)

theorem execServerSet_completes {s : State} {q id} : Completes s (execServerSet q id s) := .act (by simp)

/-! ### Valve channels and their banks -/

theorem execVdOff_completes {s : State} {c hold} : Completes s (execVdOff c hold s) := .act (by simp)

theorem execVdStart_completes {s : State} {c hold} : Completes s (execVdStart c hold s) := .act (by simp)

theorem execVdTrim_completes {s : State} {c hold} : Completes s (execVdTrim c hold s) := .act (by simp)

theorem execValveBoostEnd_completes {s : State} {c} : Completes s (execValveBoostEnd c s) := .act (by simp)

theorem execValveBoostTimeout_completes {s : State} {c curr} : Completes s (execValveBoostTimeout c curr s) := .act (by simp)

theorem execValvePeakEnd_completes {s : State} {c} : Completes s (execValvePeakEnd c s) := .act (by simp)

theorem execValveHoldEnd_completes {s : State} {c} : Completes s (execValveHoldEnd c s) := .act (by simp)

theorem execValveSwitchOffEnd_completes {s : State} {c e} : Completes s (execValveSwitchOffEnd c e s) := .act (by simp)

theorem execBoostFree_completes {s : State} {b rail} : Completes s (execBoostFree b rail s) := by
  refine .act ?_
  dsimp only
  split
  · split
    · simp
    · split <;> simp
  · simp

theorem execBoostWaitExpiry_completes {s : State} {c} : Completes s (execBoostWaitExpiry c s) := by
  refine .act ?_
  split
  · simp
  · split
    · simp
    · split <;> simp

theorem execRailFail_completes {s : State} {b rail} : Completes s (execRailFail b rail s) := by
  refine .act ?_
  dsimp only
  split
  · simp
  · refine (State.foldl_pending (fun d t => ?_) _ _).trans (by simp)
    dsimp only
    split <;> simp

theorem execRailFailClear_completes {s : State} {b rail} : Completes s (execRailFailClear b rail s) := .act (by simp)

theorem execDutyUpdate_completes {s : State} {c m} : Completes s (execDutyUpdate c m s) := .act (by simp)

theorem execValveShort_completes {s : State} {c curr} : Completes s (execValveShort c curr s) := .act (by simp)

theorem execValveOpenDetect_completes {s : State} {c curr} : Completes s (execValveOpenDetect c curr s) := .act (by simp)

theorem execValveOvertemp_completes {s : State} {c curr} : Completes s (execValveOvertemp c curr s) := .act (by simp)

theorem execRegFail_completes {s : State} {c} : Completes s (execRegFail c s) := .act (by simp)

theorem execLeak_completes {s : State} {c} : Completes s (execLeak c s) := .act (by simp)

theorem execBankShort_completes {s : State} {b curr} : Completes s (execBankShort b curr s) := .act (by simp)

theorem execBankHot_completes {s : State} {b curr temp} : Completes s (execBankHot b curr temp s) := .act (by simp)

theorem execBankFeedLow_completes {s : State} {b curr low} : Completes s (execBankFeedLow b curr low s) := .act (by simp)

theorem execPgndOpen_completes {s : State} {b curr} : Completes s (execPgndOpen b curr s) := .act (by simp)

theorem execVbClear_completes {s : State} {b temp rq} : Completes s (execVbClear b temp rq s) := .act (by simp)

theorem execVbRst_completes {s : State} {b rq} : Completes s (execVbRst b rq s) := .act (by simp)

theorem execVdFlagsRearm_completes {s : State} {c word temp rq} : Completes s (execVdFlagsRearm c word temp rq s) := .act (by simp)

theorem execValveChopPeriod_completes {s : State} {c mean res} : Completes s (execValveChopPeriod c mean res s) := .act (by simp)

/-! ### Load channels -/

theorem execLcOff_completes {s : State} {n e} : Completes s (execLcOff n e s) := .act (by simp)

theorem execLcOn_completes {s : State} {n} : Completes s (execLcOn n s) := .act (by simp)

theorem execLcPwm_completes {s : State} {n duty e} : Completes s (execLcPwm n duty e s) := .act (by simp)

theorem execInrushWindowEnd_completes {s : State} {n} : Completes s (execInrushWindowEnd n s) := .act (by simp)

theorem execLoadOverload_completes {s : State} {n e} : Completes s (execLoadOverload n e s) := .act (by simp)

theorem execLoadShort_completes {s : State} {n hard curr e} : Completes s (execLoadShort n hard curr e s) := .act (by simp)

theorem execLoadThermalUpdate_completes {s : State} {n m p die e} : Completes s (execLoadThermalUpdate n m p die e s) := .act (by simp)

theorem execOpenOn_completes {s : State} {x} : Completes s (execOpenOn x s) := .act (by simp)

theorem execOpenOff_completes {s : State} {x} : Completes s (execOpenOff x s) := .act (by simp)

theorem execLoadUv_completes {s : State} {g feed} : Completes s (execLoadUv g feed s) := .act (by simp)

theorem execLoadUvReturn_completes {s : State} {n feed} : Completes s (execLoadUvReturn n feed s) := .act (by simp)

theorem execClampBudgetDecay_completes {s : State} : Completes s (execClampBudgetDecay s) := .act (by simp)

theorem execGrpHot_completes {s : State} {g die curr} : Completes s (execGrpHot g die curr s) := .act (by simp)

theorem execLgClear_completes {s : State} {g die rq} : Completes s (execLgClear g die rq s) := .act (by simp)

theorem execLgRst_completes {s : State} {g rq} : Completes s (execLgRst g rq s) := .act (by simp)

theorem execLcFlagsRearm_completes {s : State} {n word rq} : Completes s (execLcFlagsRearm n word rq s) := .act (by simp)

theorem execLoadPwmPeriod_completes {s : State} {n} : Completes s (execLoadPwmPeriod n s) := by
  refine .act ?_
  split <;> simp

/-! ### The error controller and the book -/

theorem execErrorReport_completes {s : State} {src detail nd items} : Completes s (execErrorReport src detail nd items s) := .next (by simp)

theorem execErrDone_completes {s : State} {seq rq} : Completes s (execErrDone seq rq s) := .next (by simp)

theorem execErrRaise_completes {s : State} {sev detail rq} : Completes s (execErrRaise sev detail rq s) := .next (by simp)

theorem execErrArmWrite_completes {s : State} {word rq} : Completes s (execErrArmWrite word rq s) := .next (by simp)

theorem execHandleTmo_completes {s : State} {level} : Completes s (execHandleTmo level s) := by
  refine .next ?_
  split <;> simp

theorem execCbFlushTick_completes {s : State} : Completes s (execCbFlushTick s) := .next (by simp)

theorem execCbFetch_completes {s : State} {q first count addr limit} : Completes s (execCbFetch q first count addr limit s) :=
  .next (by simp)

/-! ### Banks, swaps and migrations of the cores -/

theorem execValidate_completes {s : State} {c rq} : Completes s (execValidate c rq s) := .act (by simp)

theorem execBankValidationDone_completes {s : State} {c} : Completes s (execBankValidationDone c s) := by
  refine .act ?_
  split <;> simp

theorem execInvalidate_completes {s : State} {c rq} : Completes s (execInvalidate c rq s) := .act (by simp)

theorem execBankLoad_completes {s : State} {q core addr len} : Completes s (execBankLoad q core addr len s) := by
  refine .act ?_
  split
  · simp
  · split <;> simp

theorem execPartList_completes {s : State} {q addr} : Completes s (execPartList q addr s) := .act (by simp)

theorem execOverrunKill_completes {s : State} {c} : Completes s (execOverrunKill c s) := .act (by simp)

theorem execCoreRunWrite_completes {s : State} {c run rq} : Completes s (execCoreRunWrite c run rq s) := .act (by simp)

theorem execSwapSet_completes {s : State} {mask rq} : Completes s (execSwapSet mask rq s) := .act (by simp)

theorem execCoreReset_completes {s : State} {c rq} : Completes s (execCoreReset c rq s) := .act (by simp)

theorem execCoreResetDone_completes {s : State} {c} : Completes s (execCoreResetDone c s) := .act (by simp)

theorem execLstepCfgWrite_completes {s : State} {pair rq} : Completes s (execLstepCfgWrite pair rq s) := .act (by simp)

theorem execLockstepMismatch_completes {s : State} {pair} : Completes s (execLockstepMismatch pair s) := .act (by simp)

theorem execMigGo_completes {s : State} {core go rq} : Completes s (execMigGo core go rq s) := .act (by simp)

theorem execMigrationCopyDone_completes {s : State} {core itcmBad dtcmBad} :
    Completes s (execMigrationCopyDone core itcmBad dtcmBad s) := by
  refine .act ?_
  split <;> simp

theorem execServiceReplyDrop_completes {s : State} {index} : Completes s (execServiceReplyDrop index s) := by
  refine .act ?_
  split <;> simp

theorem execLkFree_completes {s : State} {n rq} : Completes s (execLkFree n rq s) := .act (by simp)

theorem execMbCfgWrite_completes {s : State} {m w rq} : Completes s (execMbCfgWrite m w rq s) := .act (by simp)

/-! ### Channels and movers of the Decanter -/

theorem execCreditWindow_completes {s : State} : Completes s (execCreditWindow s) := .act (by simp)

theorem execReqPrioWrite_completes {s : State} {r prio rq} : Completes s (execReqPrioWrite r prio rq s) := .act (by simp)

theorem execFabricRevoke_completes {s : State} {p owner waiting beats} : Completes s (execFabricRevoke p owner waiting beats s) := by
  refine .act ?_
  split <;> simp

theorem execDcHiPreempt_completes {s : State} {n} : Completes s (execDcHiPreempt n s) := by
  refine .act ?_
  split <;> simp

theorem execDcStart_completes {s : State} {n rq} : Completes s (execDcStart n rq s) := .act (by simp)

theorem execDcStop_completes {s : State} {n rq} : Completes s (execDcStop n rq s) := .act (by simp)

theorem execDcClear_completes {s : State} {n rq} : Completes s (execDcClear n rq s) := .act (by simp)

theorem execDcDoorbell_completes {s : State} {n rq} : Completes s (execDcDoorbell n rq s) := .act (by simp)

theorem execDcEnableWrite_completes {s : State} {n w rq} : Completes s (execDcEnableWrite n w rq s) := .act (by simp)

theorem execDcDescriptorFetched_completes {s : State} {n ok} : Completes s (execDcDescriptorFetched n ok s) :=
  .act (by simp -implicitDefEqProofs)

theorem execDcWritebackDone_completes {s : State} {n ok} : Completes s (execDcWritebackDone n ok s) := by
  refine .act ?_
  split
  · rfl
  · simp -implicitDefEqProofs

theorem execDcRatePauseEnd_completes {s : State} {n} : Completes s (execDcRatePauseEnd n s) := .act (by simp)

/-! ### ISOBUS networks -/

theorem execNetOpen_completes {s : State} {q can kind rate notify leave} : Completes s (execNetOpen q can kind rate notify leave s) := by
  refine .act ?_
  dsimp only
  split
  · simp
  · split <;> simp

theorem execNetClose_completes {s : State} {q net} : Completes s (execNetClose q net s) := by
  refine .act ?_
  split
  · simp
  · split <;> simp

theorem execCfAdd_completes {s : State} {q net record addr} : Completes s (execCfAdd q net record addr s) := by
  refine .act ?_
  dsimp only
  split
  · simp
  · split <;> simp

theorem execAddressClaimDone_completes {s : State} {k cf} : Completes s (execAddressClaimDone k cf s) := by
  refine .act ?_
  split
  · simp
  · split
    · simp
    · split <;> simp

theorem execCfLeaveTimeout_completes {s : State} {k name} : Completes s (execCfLeaveTimeout k name s) := .act (by simp)

theorem execCanFrameReceived_completes {s : State} {n f} : Completes s (execCanFrameReceived n f s) := by
  refine .act ?_
  dsimp only
  split <;> simp

theorem execCanTxComplete_completes {s : State} {n ok} : Completes s (execCanTxComplete n ok s) := .act (by simp)

theorem execCanRst_completes {s : State} {n rq} : Completes s (execCanRst n rq s) := .act (by simp)

theorem execCanBusError_completes {s : State} {n kind tx inc} : Completes s (execCanBusError n kind tx inc s) := .act (by simp)

theorem execPgnSub_completes {s : State} {q net pgn source addr size} : Completes s (execPgnSub q net pgn source addr size s) := by
  refine .act ?_
  split
  · simp
  · split <;> simp

theorem execPgnSend_completes {s : State} {q net cf out} : Completes s (execPgnSend q net cf out s) := by
  refine .act ?_
  dsimp only
  split
  · simp
  · split <;> simp

theorem execVtPool_completes {s : State} {q net cf addr len label} : Completes s (execVtPool q net cf addr len label s) := by
  refine .act ?_
  dsimp only
  split
  · simp
  · split <;> simp

theorem execTcMap_completes {s : State} {q net name pairs} : Completes s (execTcMap q net name pairs s) := by
  refine .act ?_
  dsimp only
  split
  · simp
  · split <;> simp

theorem execNetList_completes {s : State} {q net addr} : Completes s (execNetList q net addr s) := by
  refine .act ?_
  dsimp only
  split
  · simp
  · split <;> simp

theorem execTcSetpointRefresh_completes {s : State} {k} : Completes s (execTcSetpointRefresh k s) := .act (by simp)

/-! ### Loop units -/

theorem execTraceArm_completes {s : State} {c rq} : Completes s (execTraceArm c rq s) := .act (by simp)

theorem execTraceSoft_completes {s : State} {c rq} : Completes s (execTraceSoft c rq s) := .act (by simp)

theorem execTraceStop_completes {s : State} {c rq} : Completes s (execTraceStop c rq s) := .act (by simp)

theorem execLoopEnable_completes {s : State} {c l en rq} : Completes s (execLoopEnable c l en rq s) := .act (by simp)

theorem execCoefSwap_completes {s : State} {c l rq} : Completes s (execCoefSwap c l rq s) := .act (by simp)

theorem execIntLoad_completes {s : State} {c l rq} : Completes s (execIntLoad c l rq s) := .act (by simp)

theorem execRtSwitch_completes {s : State} {c t rq} : Completes s (execRtSwitch c t rq s) := .act (by simp)

/-! ### Machine functions -/

theorem execMfOutputSwitch_completes {s : State} {late} : Completes s (execMfOutputSwitch late s) := .act (by simp)

theorem execMfSpWrite_completes {s : State} {m v rq} : Completes s (execMfSpWrite m v rq s) := .act (by simp)

theorem execTrimClr_completes {s : State} {m rq} : Completes s (execTrimClr m rq s) := .act (by simp)

/-! ### The register window -/

theorem execRegisterWrite_completes {s : State} {addr value rq} : Completes s (execRegisterWrite addr value rq s) := by
  refine .act ?_
  split
  · exact State.busWrite_queue.getD rfl
  · rfl

/-! ### Instructions -/

theorem execEventLine_completes {s : State} {c line} : Completes s (execEventLine c line s) := .next (by simp)

/-! ### Integer instructions -/

theorem execAdd_completes {s : State} {c a b d} : Completes s (execAdd c a b d s) := .alu3

theorem execSub_completes {s : State} {c a b d} : Completes s (execSub c a b d s) := .alu3

theorem execAnd_completes {s : State} {c a b d} : Completes s (execAnd c a b d s) := .alu3

theorem execOr_completes {s : State} {c a b d} : Completes s (execOr c a b d s) := .alu3

theorem execXor_completes {s : State} {c a b d} : Completes s (execXor c a b d s) := .alu3

theorem execNor_completes {s : State} {c a b d} : Completes s (execNor c a b d s) := .alu3

theorem execSlt_completes {s : State} {c a b d} : Completes s (execSlt c a b d s) := .alu3

theorem execSltu_completes {s : State} {c a b d} : Completes s (execSltu c a b d s) := .alu3

theorem execSll_completes {s : State} {c a b d} : Completes s (execSll c a b d s) := .alu3

theorem execSrl_completes {s : State} {c a b d} : Completes s (execSrl c a b d s) := .alu3

theorem execSra_completes {s : State} {c a b d} : Completes s (execSra c a b d s) := .alu3

theorem execSlli_completes {s : State} {c a b sh} : Completes s (execSlli c a b sh s) := .alu2

theorem execSrli_completes {s : State} {c a b sh} : Completes s (execSrli c a b sh s) := .alu2

theorem execSrai_completes {s : State} {c a b sh} : Completes s (execSrai c a b sh s) := .alu2

theorem execMin_completes {s : State} {c a b d} : Completes s (execMin c a b d s) := .alu3

theorem execMax_completes {s : State} {c a b d} : Completes s (execMax c a b d s) := .alu3

theorem execMinu_completes {s : State} {c a b d} : Completes s (execMinu c a b d s) := .alu3

theorem execMaxu_completes {s : State} {c a b d} : Completes s (execMaxu c a b d s) := .alu3

theorem execClz_completes {s : State} {c a b} : Completes s (execClz c a b s) := .alu2

theorem execSextb_completes {s : State} {c a b} : Completes s (execSextb c a b s) := .alu2

theorem execSexth_completes {s : State} {c a b} : Completes s (execSexth c a b s) := .alu2

theorem execAdds_completes {s : State} {c a b d} : Completes s (execAdds c a b d s) := .alu3f

theorem execSubs_completes {s : State} {c a b d} : Completes s (execSubs c a b d s) := .alu3f

theorem execAddv_completes {s : State} {c a b d} : Completes s (execAddv c a b d s) := .overflowing

theorem execSubv_completes {s : State} {c a b d} : Completes s (execSubv c a b d s) := .overflowing

theorem execAddi_completes {s : State} {c a b imm} : Completes s (execAddi c a b imm s) := .alu2

theorem execAndi_completes {s : State} {c a b imm} : Completes s (execAndi c a b imm s) := .alu2

theorem execOri_completes {s : State} {c a b imm} : Completes s (execOri c a b imm s) := .alu2

theorem execXori_completes {s : State} {c a b imm} : Completes s (execXori c a b imm s) := .alu2

theorem execSlti_completes {s : State} {c a b imm} : Completes s (execSlti c a b imm s) := .alu2

theorem execSltiu_completes {s : State} {c a b imm} : Completes s (execSltiu c a b imm s) := .alu2

theorem execLui_completes {s : State} {c a imm} : Completes s (execLui c a imm s) := .alu2

theorem execMul_completes {s : State} {c a b d} : Completes s (execMul c a b d s) := .alu3

theorem execMulh_completes {s : State} {c a b d} : Completes s (execMulh c a b d s) := .alu3

theorem execMulhu_completes {s : State} {c a b d} : Completes s (execMulhu c a b d s) := .alu3

theorem execDiv_completes {s : State} {c a b d} : Completes s (execDiv c a b d s) := .alu3f

theorem execDivu_completes {s : State} {c a b d} : Completes s (execDivu c a b d s) := .alu3f

theorem execRem_completes {s : State} {c a b d} : Completes s (execRem c a b d s) := .alu3f

theorem execRemu_completes {s : State} {c a b d} : Completes s (execRemu c a b d s) := .alu3f

theorem execBeq_completes {s : State} {c a b imm} : Completes s (execBeq c a b imm s) := .branch

theorem execBne_completes {s : State} {c a b imm} : Completes s (execBne c a b imm s) := .branch

theorem execBlt_completes {s : State} {c a b imm} : Completes s (execBlt c a b imm s) := .branch

theorem execBge_completes {s : State} {c a b imm} : Completes s (execBge c a b imm s) := .branch

theorem execBltu_completes {s : State} {c a b imm} : Completes s (execBltu c a b imm s) := .branch

theorem execBgeu_completes {s : State} {c a b imm} : Completes s (execBgeu c a b imm s) := .branch

theorem execJ_completes {s : State} {c off} : Completes s (execJ c off s) := .issue (by simp)

theorem execJal_completes {s : State} {c off} : Completes s (execJal c off s) := .issue (by simp)

theorem execJalr_completes {s : State} {c a b imm} : Completes s (execJalr c a b imm s) := .issue (by simp)

/-! ### Float and fixed-point instructions -/

theorem execFadd_completes {s : State} {c a b d} : Completes s (execFadd c a b d s) := .float3

theorem execFsub_completes {s : State} {c a b d} : Completes s (execFsub c a b d s) := .float3

theorem execFmul_completes {s : State} {c a b d} : Completes s (execFmul c a b d s) := .float3

theorem execFdiv_completes {s : State} {c a b d} : Completes s (execFdiv c a b d s) := .float3

theorem execFsqrt_completes {s : State} {c a b} : Completes s (execFsqrt c a b s) := .float2

theorem execFmin_completes {s : State} {c a b d} : Completes s (execFmin c a b d s) := .float3

theorem execFmax_completes {s : State} {c a b d} : Completes s (execFmax c a b d s) := .float3

theorem execFabs_completes {s : State} {c a b} : Completes s (execFabs c a b s) := .float2

theorem execFneg_completes {s : State} {c a b} : Completes s (execFneg c a b s) := .float2

theorem execFmov_completes {s : State} {c a b} : Completes s (execFmov c a b s) := .float2

theorem execFeq_completes {s : State} {c a b d} : Completes s (execFeq c a b d s) := .floatCmp

theorem execFlt_completes {s : State} {c a b d} : Completes s (execFlt c a b d s) := .floatCmp

theorem execFle_completes {s : State} {c a b d} : Completes s (execFle c a b d s) := .floatCmp

theorem execFcvtSW_completes {s : State} {c a b} : Completes s (execFcvtSW c a b s) := .floatFromG

theorem execFcvtWS_completes {s : State} {c a b} : Completes s (execFcvtWS c a b s) := .floatToG

theorem execFtrcWS_completes {s : State} {c a b} : Completes s (execFtrcWS c a b s) := .floatToG

theorem execFmvFG_completes {s : State} {c a b} : Completes s (execFmvFG c a b s) := .floatFromG

theorem execFmvGF_completes {s : State} {c a b} : Completes s (execFmvGF c a b s) := .floatToG

theorem execFcvtSQ_completes {s : State} {c a b} : Completes s (execFcvtSQ c a b s) := .floatFromG

theorem execFcvtQS_completes {s : State} {c a b} : Completes s (execFcvtQS c a b s) := .floatToG

theorem execFmadd_completes {s : State} {c a b d e} : Completes s (execFmadd c a b d e s) := .float4

theorem execFmsub_completes {s : State} {c a b d e} : Completes s (execFmsub c a b d e s) := .float4

theorem execFnmadd_completes {s : State} {c a b d e} : Completes s (execFnmadd c a b d e s) := .float4

theorem execQadd15_completes {s : State} {c a b d} : Completes s (execQadd15 c a b d s) := .alu3f

theorem execQsub15_completes {s : State} {c a b d} : Completes s (execQsub15 c a b d s) := .alu3f

theorem execQmul15_completes {s : State} {c a b d} : Completes s (execQmul15 c a b d s) := .alu3f

theorem execQneg15_completes {s : State} {c a b} : Completes s (execQneg15 c a b s) := .alu2f

theorem execQabs15_completes {s : State} {c a b} : Completes s (execQabs15 c a b s) := .alu2f

theorem execQsat15_completes {s : State} {c a b} : Completes s (execQsat15 c a b s) := .alu2f

theorem execQadd31_completes {s : State} {c a b d} : Completes s (execQadd31 c a b d s) := .alu3f

theorem execQsub31_completes {s : State} {c a b d} : Completes s (execQsub31 c a b d s) := .alu3f

theorem execQmul31_completes {s : State} {c a b d} : Completes s (execQmul31 c a b d s) := .alu3f

theorem execQneg31_completes {s : State} {c a b} : Completes s (execQneg31 c a b s) := .alu2f

theorem execQabs31_completes {s : State} {c a b} : Completes s (execQabs31 c a b s) := .alu2f

theorem execQshl31_completes {s : State} {c a b d} : Completes s (execQshl31 c a b d s) := .alu3f

theorem execMac15_completes {s : State} {c a b d} : Completes s (execMac15 c a b d s) := .acc

theorem execMsu15_completes {s : State} {c a b d} : Completes s (execMsu15 c a b d s) := .acc

theorem execMula15_completes {s : State} {c a b d} : Completes s (execMula15 c a b d s) := .acc

theorem execMac31_completes {s : State} {c a b d} : Completes s (execMac31 c a b d s) := .acc

theorem execMsu31_completes {s : State} {c a b d} : Completes s (execMsu31 c a b d s) := .acc

theorem execMula31_completes {s : State} {c a b d} : Completes s (execMula31 c a b d s) := .acc

theorem execAclr_completes {s : State} {c a} : Completes s (execAclr c a s) := .checked (by simp)

theorem execAld_completes {s : State} {c a b d} : Completes s (execAld c a b d s) := .checked (by simp)

theorem execArdl_completes {s : State} {c a b} : Completes s (execArdl c a b s) := .checked (by simp)

theorem execArdh_completes {s : State} {c a b} : Completes s (execArdh c a b s) := .checked (by simp)

theorem execAext_completes {s : State} {c a b sh} : Completes s (execAext c a b sh s) := .checked (by simp)

theorem execAext15_completes {s : State} {c a b sh} : Completes s (execAext15 c a b sh s) := .checked (by simp)

/-! ### Loads and stores -/

theorem execPostedStoreComplete_completes {s : State} {c cls} : Completes s (execPostedStoreComplete c cls s) := .act (by simp)

theorem execPostedStoreBusError_completes {s : State} {c cls} : Completes s (execPostedStoreBusError c cls s) := .act (by simp)

theorem execLw_completes {s : State} {c a b imm env} : Completes s (execLw c a b imm env s) := .issue (by simp)

theorem execLh_completes {s : State} {c a b imm env} : Completes s (execLh c a b imm env s) := .issue (by simp)

theorem execLhu_completes {s : State} {c a b imm env} : Completes s (execLhu c a b imm env s) := .issue (by simp)

theorem execLb_completes {s : State} {c a b imm env} : Completes s (execLb c a b imm env s) := .issue (by simp)

theorem execLbu_completes {s : State} {c a b imm env} : Completes s (execLbu c a b imm env s) := .issue (by simp)

theorem execFlw_completes {s : State} {c a b imm env} : Completes s (execFlw c a b imm env s) := .checked (by simp)

theorem execSw_completes {s : State} {c a b imm wait} : Completes s (execSw c a b imm wait s) := .issue (by simp)

theorem execSh_completes {s : State} {c a b imm wait} : Completes s (execSh c a b imm wait s) := .issue (by simp)

theorem execSb_completes {s : State} {c a b imm wait} : Completes s (execSb c a b imm wait s) := .issue (by simp)

theorem execFsw_completes {s : State} {c a b imm wait} : Completes s (execFsw c a b imm wait s) := .checked (by simp)

theorem execBarIo_completes {s : State} {c wait} : Completes s (execBarIo c wait s) := .issue (by simp)

theorem execBarMem_completes {s : State} {c wait} : Completes s (execBarMem c wait s) := .issue (by simp)

theorem execBarAll_completes {s : State} {c wait} : Completes s (execBarAll c wait s) := .issue (by simp)

/-! ### System instructions -/

theorem execNop_completes {s : State} {c} : Completes s (execNop c s) := .plain

theorem execTrap_completes {s : State} {c imm} : Completes s (execTrap c imm s) := .issue (by simp)

theorem execYield_completes {s : State} {c} : Completes s (execYield c s) := .issue (by simp)

theorem execWaitslot_completes {s : State} {c a b} : Completes s (execWaitslot c a b s) := .issue (by simp)

theorem execSwap_completes {s : State} {c a} : Completes s (execSwap c a s) := .issue (by simp)

theorem execEret_completes {s : State} {c} : Completes s (execEret c s) := .issue (by simp)

theorem execCrd_completes {s : State} {c a n} : Completes s (execCrd c a n s) := .crAccess (by simp)

theorem execCwr_completes {s : State} {c b n} : Completes s (execCwr c b n s) := .crAccess (by simp)

theorem execLock_completes {s : State} {c a b imm} : Completes s (execLock c a b imm s) := .checked (by simp)

theorem execTrylock_completes {s : State} {c a b imm} : Completes s (execTrylock c a b imm s) := .checked (by simp)

theorem execUnlk_completes {s : State} {c a b imm} : Completes s (execUnlk c a b imm s) := .checked (by simp)

theorem execLockWaitTimeout_completes {s : State} {c} : Completes s (execLockWaitTimeout c s) := .act (by simp)

theorem execMsend_completes {s : State} {c a b d} : Completes s (execMsend c a b d s) := .issue (by simp)

theorem execMrecv_completes {s : State} {c a b d} : Completes s (execMrecv c a b d s) := .issue (by simp)

theorem execMrecvw_completes {s : State} {c a b d} : Completes s (execMrecvw c a b d s) := .issue (by simp)

theorem execTmark_completes {s : State} {c b imm} : Completes s (execTmark c b imm s) := .issue (by simp)

theorem execRtrd_completes {s : State} {c a b d} : Completes s (execRtrd c a b d s) := .issue (State.withTable_pending fun _ _ => by simp)

theorem execRtwr_completes {s : State} {c a b d} : Completes s (execRtwr c a b d s) := .issue (State.withTable_pending fun _ _ => by simp)

theorem execRttag_completes {s : State} {c a b} : Completes s (execRttag c a b s) := .issue (State.withTable_pending fun _ _ => by simp)

/-! ### Data of the Decanter -/

theorem execDcDataComplete_completes {s : State} {n} : Completes s (execDcDataComplete n s) := by
  refine .act ?_
  split <;> simp

theorem execDcBeatFail_completes {s : State} {n ofs wr} : Completes s (execDcBeatFail n ofs wr s) := .act (by simp)

theorem execDcBeatTimeout_completes {s : State} {n ofs wr} : Completes s (execDcBeatTimeout n ofs wr s) := .act (by simp)

/-! ### The update manager -/

theorem execUpdBegin_completes {s : State} {q size} : Completes s (execUpdBegin q size s) := .serve (by simp)

theorem execUpdBlock_completes {s : State} {q index addr len crc data} : Completes s (execUpdBlock q index addr len crc data s) := by
  refine .serve fun t => ?_
  split
  · simp
  · split
    · simp
    · split <;> simp

theorem execUpdEnd_completes {s : State} {q} : Completes s (execUpdEnd q s) := .serve (by simp)

theorem execUpdVerifyDone_completes {s : State} {sigOk fwOk} : Completes s (execUpdVerifyDone sigOk fwOk s) := by
  refine .next ?_
  split
  · split <;> simp
  · simp

theorem execAbort_completes {s : State} {q} : Completes s (execAbort q s) := .serve (by simp)

theorem execActivate_completes {s : State} {q force} : Completes s (execActivate q force s) := by
  refine .serve fun t => ?_
  split
  · simp
  · split <;> simp

theorem execInPlaceSwitch_completes {s : State} : Completes s (execInPlaceSwitch s) := by
  refine .act ?_
  split <;> simp

theorem execBootCopyDone_completes {s : State} : Completes s (execBootCopyDone s) := by
  refine .next ?_
  split <;> simp

theorem execConfirm_completes {s : State} {q} : Completes s (execConfirm q s) := .serve (by simp)

theorem execRollback_completes {s : State} {q} : Completes s (execRollback q s) := .serve (by simp)

theorem execKeySet_completes {s : State} {q addr data} : Completes s (execKeySet q addr data s) := by
  refine .serve fun t => ?_
  split
  · simp
  · split <;> simp

theorem execKeyLock_completes {s : State} {q} : Completes s (execKeyLock q s) := .serve (by simp)

/-! ### Starts, wakes and ends of hold -/

theorem execLogicFeedRise_completes {s : State} {strap key wake closed low} : Completes s (execLogicFeedRise strap key wake closed low s) :=
  .next (by simp)

theorem execTcxoStable_completes {s : State} : Completes s (execTcxoStable s) := .next (by simp)

theorem execPllLocked_completes {s : State} {imgA imgB} : Completes s (execPllLocked imgA imgB s) := .next (by simp)

theorem execBootImageSelected_completes {s : State} : Completes s (execBootImageSelected s) := .next (by simp)

theorem execServiceFwRunning_completes {s : State} {selftestFail tagBad sigOk fwOk} :
    Completes s (execServiceFwRunning selftestFail tagBad sigOk fwOk s) :=
  .next (by simp)

theorem execSupervisorFirstInstr_completes {s : State} : Completes s (execSupervisorFirstInstr s) := .next (by simp)

theorem execKeyOff_completes {s : State} : Completes s (execKeyOff s) := .next (by simp)

theorem execKeyOn_completes {s : State} : Completes s (execKeyOn s) := .next (by simp)

theorem execKeyoffLimitExpiry_completes {s : State} : Completes s (execKeyoffLimitExpiry s) := .next (by simp)

theorem execRstReqWarm_completes {s : State} {pass rq} : Completes s (execRstReqWarm pass rq s) := .next (by simp)

theorem execRstReqWatch_completes {s : State} {pass rq} : Completes s (execRstReqWatch pass rq s) := .next (by simp)

theorem execShutdownFlushComplete_completes {s : State} : Completes s (execShutdownFlushComplete s) := .next (by simp)

theorem execWakeKey_completes {s : State} : Completes s (execWakeKey s) := .next (by simp)

theorem execWakeLine_completes {s : State} : Completes s (execWakeLine s) := .next (by simp)

theorem execWakeCanFrame_completes {s : State} {n} : Completes s (execWakeCanFrame n s) := .next (by simp)

theorem execWakeServicePort_completes {s : State} : Completes s (execWakeServicePort s) := .next (by simp)

theorem execServicePortAttach_completes {s : State} {device} : Completes s (execServicePortAttach device s) := .next (by simp)

theorem execServicePortDetach_completes {s : State} : Completes s (execServicePortDetach s) := .next (by simp)

theorem execWatchSnapshotTimer_completes {s : State} : Completes s (execWatchSnapshotTimer s) := .next (by simp)

theorem execWatchSnapshotDone_completes {s : State} {solved lat lon hu time unc} :
    Completes s (execWatchSnapshotDone solved lat lon hu time unc s) :=
  .next (by simp)

theorem execPllLockLoss_completes {s : State} : Completes s (execPllLockLoss s) := .next (by simp)

theorem execTcxoStop_completes {s : State} : Completes s (execTcxoStop s) := .next (by simp)

theorem execOsvHoldTimeExpiry_completes {s : State} {load n} : Completes s (execOsvHoldTimeExpiry load n s) := .next (by simp)

theorem execOsvAbortTimeExpiry_completes {s : State} {load n} : Completes s (execOsvAbortTimeExpiry load n s) := .next (by simp)

theorem execOsvSealWrite_completes {s : State} {rq} : Completes s (execOsvSealWrite rq s) := .next (by simp)

theorem execEstopOpen_completes {s : State} : Completes s (execEstopOpen s) := .next (by simp)

theorem execEstopClose_completes {s : State} : Completes s (execEstopClose s) := .next (by simp)

theorem execEstopTestPulse_completes {s : State} : Completes s (execEstopTestPulse s) := .next (by simp)

theorem execEstopTestPulseEnd_completes {s : State} {fed} : Completes s (execEstopTestPulseEnd fed s) := .next (by simp)

theorem execLogicFeedLoss_completes {s : State} : Completes s (execLogicFeedLoss s) := .next (by simp)

theorem execLogicFeedDip_completes {s : State} : Completes s (execLogicFeedDip s) := .next (by simp)

theorem execLogicFeedLow_completes {s : State} {v} : Completes s (execLogicFeedLow v s) := .next (by simp)

theorem execStudReverse_completes {s : State} {k rev} : Completes s (execStudReverse k rev s) := .supplied (by simp)

theorem execStudLow_completes {s : State} {k v} : Completes s (execStudLow k v s) := .supplied (by simp)

theorem execStudOver_completes {s : State} {k i} : Completes s (execStudOver k i s) := .supplied (by simp)

theorem execSensorSupplyFoldback_completes {s : State} {k} : Completes s (execSensorSupplyFoldback k s) := .next (by simp)

theorem execSensorSupplyRetry_completes {s : State} {k ok} : Completes s (execSensorSupplyRetry k ok s) := .next (by simp)

theorem execThermalMeasurement_completes {s : State} {plate die} : Completes s (execThermalMeasurement plate die s) := .supplied (by simp)

/-! ### Dumps and the book -/

theorem execDumpComplete_completes {s : State} : Completes s (execDumpComplete s) := by
  refine .next ?_
  split <;> simp

theorem execDumpTimeout_completes {s : State} {sections} : Completes s (execDumpTimeout sections s) := by
  refine .next ?_
  split <;> simp

theorem execDumpList_completes {s : State} {q addr} : Completes s (execDumpList q addr s) := .serve (by simp)

theorem execDumpRead_completes {s : State} {q slot ofs len addr} : Completes s (execDumpRead q slot ofs len addr s) := by
  refine .serve fun t => ?_
  split
  · split <;> simp
  · simp

theorem execDumpErase_completes {s : State} {q slot} : Completes s (execDumpErase q slot s) := by
  refine .serve fun t => ?_
  split
  · simp
  · split <;> simp

/-! ### Samples of the loops -/

theorem execLoopInputReturn_completes {s : State} {c l inErr stErr anErr} : Completes s (execLoopInputReturn c l inErr stErr anErr s) :=
  .next (by simp)

theorem execLoopOutputIssue_completes {s : State} {c l err} : Completes s (execLoopOutputIssue c l err s) := by
  refine .next ?_
  split
  · rfl
  next q cur =>
    split
    · rfl
    · split
      · rfl
      · extract_lets t u
        have late : u.pending = s.pending := by simp [u, t]
        split
        next written => exact (State.lpWrite_queue _ written).trans late
        · exact late

theorem execLoopOutputBusError_completes {s : State} {c l} : Completes s (execLoopOutputBusError c l s) := by
  refine .next ?_
  split
  · extract_lets t u
    have recorded : t.pending = s.pending := by simp [t]
    have faulted : u.pending = s.pending := by simp [u, recorded]
    split
    · exact (State.lpWrite_queue.getD rfl).trans faulted
    · exact recorded
  · rfl

/-! ### Ticks, slots and major frames -/

theorem execMajorFrameBoundary_completes {s : State} {errs} : Completes s (execMajorFrameBoundary errs s) := .act (by simp)

theorem execSlotStart_completes {s : State} {n} : Completes s (execSlotStart n s) := .act (by simp)

theorem execSectionCommandWrite_completes {s : State} {k} : Completes s (execSectionCommandWrite k s) := .act (by simp)

/-! ### The service port and the tag area -/

theorem execOpen_completes {s : State} {q eth} : Completes s (execOpen q eth s) := .next (by simp)

theorem execAuth_completes {s : State} {q sig} : Completes s (execAuth q sig s) := .servePort (by simp)

theorem execServiceSessionTimeout_completes {s : State} : Completes s (execServiceSessionTimeout s) := .next (by simp)

theorem execWriteEnWrite_completes {s : State} {en rq} : Completes s (execWriteEnWrite en rq s) := .act (by simp)

theorem execStatus_completes {s : State} {q} : Completes s (execStatus q s) := .servePort (by simp)

theorem execFactoryRead_completes {s : State} {q} : Completes s (execFactoryRead q s) := .servePort (by simp)

theorem execRegRead_completes {s : State} {q addr count} : Completes s (execRegRead q addr count s) := by
  refine .servePort fun t => ?_
  split
  · simp
  · split <;> simp

theorem execRegWrite_completes {s : State} {q addr words} : Completes s (execRegWrite q addr words s) := by
  refine .servePort fun t => ?_
  split
  · simp
  · split <;> simp

theorem execCbRead_completes {s : State} {q first count} : Completes s (execCbRead q first count s) := .servePort (by simp)

theorem execTagWrite_completes {s : State} {q type len addr data} : Completes s (execTagWrite q type len addr data s) := by
  refine .serve fun t => ?_
  split
  · simp
  · split <;> simp

theorem execTagDelete_completes {s : State} {q type index} : Completes s (execTagDelete q type index s) := .serve (by simp)

theorem execTagCommit_completes {s : State} : Completes s (execTagCommit s) := by
  refine .act ?_
  split <;> simp

/-! ### Every command -/

theorem exec_completes (s : State) : ∀ c : Instr, Completes s (exec c s)
  | .logicFeedRise .. => execLogicFeedRise_completes
  | .logicFeedLoss => execLogicFeedLoss_completes
  | .logicFeedDip => execLogicFeedDip_completes
  | .tcxoStable => execTcxoStable_completes
  | .pllLocked .. => execPllLocked_completes
  | .bootImageSelected => execBootImageSelected_completes
  | .serviceFwRunning .. => execServiceFwRunning_completes
  | .supervisorFirstInstr => execSupervisorFirstInstr_completes
  | .keyOff => execKeyOff_completes
  | .keyOn => execKeyOn_completes
  | .keyoffLimitExpiry => execKeyoffLimitExpiry_completes
  | .rstReqWarm .. => execRstReqWarm_completes
  | .rstReqWatch .. => execRstReqWatch_completes
  | .shutdownFlushComplete => execShutdownFlushComplete_completes
  | .wakeKey => execWakeKey_completes
  | .wakeLine => execWakeLine_completes
  | .wakeCanFrame .. => execWakeCanFrame_completes
  | .wakeServicePort => execWakeServicePort_completes
  | .watchSnapshotTimer => execWatchSnapshotTimer_completes
  | .watchSnapshotDone .. => execWatchSnapshotDone_completes
  | .pllLockLoss => execPllLockLoss_completes
  | .tcxoStop => execTcxoStop_completes
  | .osvHoldTimeExpiry .. => execOsvHoldTimeExpiry_completes
  | .osvAbortTimeExpiry .. => execOsvAbortTimeExpiry_completes
  | .osvSealWrite .. => execOsvSealWrite_completes
  | .estopOpen => execEstopOpen_completes
  | .estopClose => execEstopClose_completes
  | .estopTestPulse => execEstopTestPulse_completes
  | .estopTestPulseEnd .. => execEstopTestPulseEnd_completes
  | .add .. => execAdd_completes
  | .sub .. => execSub_completes
  | .and .. => execAnd_completes
  | .or .. => execOr_completes
  | .xor .. => execXor_completes
  | .nor .. => execNor_completes
  | .slt .. => execSlt_completes
  | .sltu .. => execSltu_completes
  | .sll .. => execSll_completes
  | .srl .. => execSrl_completes
  | .sra .. => execSra_completes
  | .slli .. => execSlli_completes
  | .srli .. => execSrli_completes
  | .srai .. => execSrai_completes
  | .addv .. => execAddv_completes
  | .subv .. => execSubv_completes
  | .adds .. => execAdds_completes
  | .subs .. => execSubs_completes
  | .min .. => execMin_completes
  | .max .. => execMax_completes
  | .minu .. => execMinu_completes
  | .maxu .. => execMaxu_completes
  | .clz .. => execClz_completes
  | .sextb .. => execSextb_completes
  | .sexth .. => execSexth_completes
  | .addi .. => execAddi_completes
  | .andi .. => execAndi_completes
  | .ori .. => execOri_completes
  | .xori .. => execXori_completes
  | .slti .. => execSlti_completes
  | .sltiu .. => execSltiu_completes
  | .lui .. => execLui_completes
  | .mul .. => execMul_completes
  | .mulh .. => execMulh_completes
  | .mulhu .. => execMulhu_completes
  | .div .. => execDiv_completes
  | .divu .. => execDivu_completes
  | .rem .. => execRem_completes
  | .remu .. => execRemu_completes
  | .lw .. => execLw_completes
  | .lh .. => execLh_completes
  | .lhu .. => execLhu_completes
  | .lb .. => execLb_completes
  | .lbu .. => execLbu_completes
  | .sw .. => execSw_completes
  | .sh .. => execSh_completes
  | .sb .. => execSb_completes
  | .flw .. => execFlw_completes
  | .fsw .. => execFsw_completes
  | .postedStoreComplete .. => execPostedStoreComplete_completes
  | .postedStoreBusError .. => execPostedStoreBusError_completes
  | .beq .. => execBeq_completes
  | .bne .. => execBne_completes
  | .blt .. => execBlt_completes
  | .bge .. => execBge_completes
  | .bltu .. => execBltu_completes
  | .bgeu .. => execBgeu_completes
  | .j .. => execJ_completes
  | .jal .. => execJal_completes
  | .jalr .. => execJalr_completes
  | .fadd .. => execFadd_completes
  | .fsub .. => execFsub_completes
  | .fmul .. => execFmul_completes
  | .fdiv .. => execFdiv_completes
  | .fsqrt .. => execFsqrt_completes
  | .fmin .. => execFmin_completes
  | .fmax .. => execFmax_completes
  | .fabs .. => execFabs_completes
  | .fneg .. => execFneg_completes
  | .fmov .. => execFmov_completes
  | .feq .. => execFeq_completes
  | .flt .. => execFlt_completes
  | .fle .. => execFle_completes
  | .fcvtSW .. => execFcvtSW_completes
  | .fcvtWS .. => execFcvtWS_completes
  | .ftrcWS .. => execFtrcWS_completes
  | .fmvFG .. => execFmvFG_completes
  | .fmvGF .. => execFmvGF_completes
  | .fcvtSQ .. => execFcvtSQ_completes
  | .fcvtQS .. => execFcvtQS_completes
  | .fmadd .. => execFmadd_completes
  | .fmsub .. => execFmsub_completes
  | .fnmadd .. => execFnmadd_completes
  | .qadd15 .. => execQadd15_completes
  | .qsub15 .. => execQsub15_completes
  | .qmul15 .. => execQmul15_completes
  | .qneg15 .. => execQneg15_completes
  | .qabs15 .. => execQabs15_completes
  | .qsat15 .. => execQsat15_completes
  | .qadd31 .. => execQadd31_completes
  | .qsub31 .. => execQsub31_completes
  | .qmul31 .. => execQmul31_completes
  | .qneg31 .. => execQneg31_completes
  | .qabs31 .. => execQabs31_completes
  | .qshl31 .. => execQshl31_completes
  | .mac15 .. => execMac15_completes
  | .msu15 .. => execMsu15_completes
  | .mula15 .. => execMula15_completes
  | .mac31 .. => execMac31_completes
  | .msu31 .. => execMsu31_completes
  | .mula31 .. => execMula31_completes
  | .aclr .. => execAclr_completes
  | .ald .. => execAld_completes
  | .ardl .. => execArdl_completes
  | .ardh .. => execArdh_completes
  | .aext .. => execAext_completes
  | .aext15 .. => execAext15_completes
  | .yield .. => execYield_completes
  | .waitslot .. => execWaitslot_completes
  | .swap .. => execSwap_completes
  | .eret .. => execEret_completes
  | .nop .. => execNop_completes
  | .barIo .. => execBarIo_completes
  | .barMem .. => execBarMem_completes
  | .barAll .. => execBarAll_completes
  | .crd .. => execCrd_completes
  | .cwr .. => execCwr_completes
  | .trap .. => execTrap_completes
  | .lock .. => execLock_completes
  | .trylock .. => execTrylock_completes
  | .unlk .. => execUnlk_completes
  | .lockWaitTimeout .. => execLockWaitTimeout_completes
  | .msend .. => execMsend_completes
  | .mrecv .. => execMrecv_completes
  | .mrecvw .. => execMrecvw_completes
  | .tmark .. => execTmark_completes
  | .rtrd .. => execRtrd_completes
  | .rtwr .. => execRtwr_completes
  | .rttag .. => execRttag_completes
  | .eventLine .. => execEventLine_completes
  | .lockstepMismatch .. => execLockstepMismatch_completes
  | .majorFrameBoundary .. => execMajorFrameBoundary_completes
  | .slotStart .. => execSlotStart_completes
  | .overrunKill .. => execOverrunKill_completes
  | .validate .. => execValidate_completes
  | .bankValidationDone .. => execBankValidationDone_completes
  | .invalidate .. => execInvalidate_completes
  | .coreRunWrite .. => execCoreRunWrite_completes
  | .coreReset .. => execCoreReset_completes
  | .coreResetDone .. => execCoreResetDone_completes
  | .swapSet .. => execSwapSet_completes
  | .lstepCfgWrite .. => execLstepCfgWrite_completes
  | .migGo .. => execMigGo_completes
  | .migrationCopyDone .. => execMigrationCopyDone_completes
  | .lkFree .. => execLkFree_completes
  | .mbCfgWrite .. => execMbCfgWrite_completes
  | .serviceReplyDrop .. => execServiceReplyDrop_completes
  | .bankLoad .. => execBankLoad_completes
  | .partList .. => execPartList_completes
  | .loopInputReturn .. => execLoopInputReturn_completes
  | .loopOutputIssue .. => execLoopOutputIssue_completes
  | .loopOutputBusError .. => execLoopOutputBusError_completes
  | .loopEnable .. => execLoopEnable_completes
  | .coefSwap .. => execCoefSwap_completes
  | .intLoad .. => execIntLoad_completes
  | .rtSwitch .. => execRtSwitch_completes
  | .traceArm .. => execTraceArm_completes
  | .traceSoft .. => execTraceSoft_completes
  | .traceStop .. => execTraceStop_completes
  | .ainConversion .. => execAinConversion_completes
  | .ainValueWrite .. => execAinValueWrite_completes
  | .ainEdge .. => execAinEdge_completes
  | .ainIndexEdge .. => execAinIndexEdge_completes
  | .ainShuntReconnect .. => execAinShuntReconnect_completes
  | .lsSample .. => execLsSample_completes
  | .lsBinClose .. => execLsBinClose_completes
  | .lsBinDeliver .. => execLsBinDeliver_completes
  | .lsBinRead .. => execLsBinRead_completes
  | .lsOpenTest .. => execLsOpenTest_completes
  | .lsSilentTimeout .. => execLsSilentTimeout_completes
  | .lsRestart .. => execLsRestart_completes
  | .imuOutput .. => execImuOutput_completes
  | .camCfgWrite .. => execCamCfgWrite_completes
  | .camFs .. => execCamFs_completes
  | .camLine .. => execCamLine_completes
  | .camFe .. => execCamFe_completes
  | .camMissingPeriod .. => execCamMissingPeriod_completes
  | .camDescriptorWrite .. => execCamDescriptorWrite_completes
  | .camStatsWrite .. => execCamStatsWrite_completes
  | .camLinkUp .. => execCamLinkUp_completes
  | .camLinkLoss .. => execCamLinkLoss_completes
  | .camDisableTimeout .. => execCamDisableTimeout_completes
  | .setGo .. => execSetGo_completes
  | .setWriteDone .. => execSetWriteDone_completes
  | .tblSwitch .. => execTblSwitch_completes
  | .cameraObjectArrival .. => execCameraObjectArrival_completes
  | .lidarBlockArrival .. => execLidarBlockArrival_completes
  | .epochReleaseTimeout => execEpochReleaseTimeout_completes
  | .featureExtractDone .. => execFeatureExtractDone_completes
  | .gridPublish .. => execGridPublish_completes
  | .modelSwap .. => execModelSwap_completes
  | .modelOldRelease .. => execModelOldRelease_completes
  | .ttCommit .. => execTtCommit_completes
  | .hgCommit .. => execHgCommit_completes
  | .cvEnable .. => execCvEnable_completes
  | .sensMaskWrite .. => execSensMaskWrite_completes
  | .mfOutputSwitch .. => execMfOutputSwitch_completes
  | .groundProfileComplete => execGroundProfileComplete_completes
  | .mfSpWrite .. => execMfSpWrite_completes
  | .miValWrite .. => execMiValWrite_completes
  | .trimClr .. => execTrimClr_completes
  | .vdOff .. => execVdOff_completes
  | .vdStart .. => execVdStart_completes
  | .vdTrim .. => execVdTrim_completes
  | .valveBoostEnd .. => execValveBoostEnd_completes
  | .valveBoostTimeout .. => execValveBoostTimeout_completes
  | .valvePeakEnd .. => execValvePeakEnd_completes
  | .valveHoldEnd .. => execValveHoldEnd_completes
  | .valveSwitchOffEnd .. => execValveSwitchOffEnd_completes
  | .boostFree .. => execBoostFree_completes
  | .boostWaitExpiry .. => execBoostWaitExpiry_completes
  | .railFail .. => execRailFail_completes
  | .railFailClear .. => execRailFailClear_completes
  | .dutyUpdate .. => execDutyUpdate_completes
  | .valveShort .. => execValveShort_completes
  | .valveOpenDetect .. => execValveOpenDetect_completes
  | .valveOvertemp .. => execValveOvertemp_completes
  | .regFail .. => execRegFail_completes
  | .leak .. => execLeak_completes
  | .bankShort .. => execBankShort_completes
  | .bankHot .. => execBankHot_completes
  | .bankFeedLow .. => execBankFeedLow_completes
  | .pgndOpen .. => execPgndOpen_completes
  | .vbClear .. => execVbClear_completes
  | .vbRst .. => execVbRst_completes
  | .vdFlagsRearm .. => execVdFlagsRearm_completes
  | .lcOff .. => execLcOff_completes
  | .lcOn .. => execLcOn_completes
  | .lcPwm .. => execLcPwm_completes
  | .inrushWindowEnd .. => execInrushWindowEnd_completes
  | .loadOverload .. => execLoadOverload_completes
  | .loadShort .. => execLoadShort_completes
  | .loadThermalUpdate .. => execLoadThermalUpdate_completes
  | .openOn .. => execOpenOn_completes
  | .openOff .. => execOpenOff_completes
  | .loadUv .. => execLoadUv_completes
  | .loadUvReturn .. => execLoadUvReturn_completes
  | .clampBudgetDecay => execClampBudgetDecay_completes
  | .grpHot .. => execGrpHot_completes
  | .lgClear .. => execLgClear_completes
  | .lgRst .. => execLgRst_completes
  | .lcFlagsRearm .. => execLcFlagsRearm_completes
  | .gnssDump .. => execGnssDump_completes
  | .gcConfigWrite .. => execGcConfigWrite_completes
  | .gcCodeAdj .. => execGcCodeAdj_completes
  | .gcCarrAdj .. => execGcCarrAdj_completes
  | .claim .. => execClaim_completes
  | .release .. => execRelease_completes
  | .solCfg .. => execSolCfg_completes
  | .antCfg .. => execAntCfg_completes
  | .rtcmIn .. => execRtcmIn_completes
  | .rtkCfg .. => execRtkCfg_completes
  | .snap .. => execSnap_completes
  | .watchLog .. => execWatchLog_completes
  | .solutionRecord .. => execSolutionRecord_completes
  | .drMaxExpiry => execDrMaxExpiry_completes
  | .rtkSourceTimeout => execRtkSourceTimeout_completes
  | .antOpen .. => execAntOpen_completes
  | .antShort .. => execAntShort_completes
  | .jam .. => execJam_completes
  | .qualifyingTimeSolution .. => execQualifyingTimeSolution_completes
  | .lossTExpiry => execLossTExpiry_completes
  | .holdoverLimitExpiry => execHoldoverLimitExpiry_completes
  | .timeStep => execTimeStep_completes
  | .slewEnd => execSlewEnd_completes
  | .tuNowLatch => execTuNowLatch_completes
  | .convLatch => execConvLatch_completes
  | .timePulseEdge .. => execTimePulseEdge_completes
  | .tpConfigWrite .. => execTpConfigWrite_completes
  | .stripPlace => execStripPlace_completes
  | .stripPlaceTimeout => execStripPlaceTimeout_completes
  | .gridPlace => execGridPlace_completes
  | .revisionApply => execRevisionApply_completes
  | .sectionCommandWrite .. => execSectionCommandWrite_completes
  | .tileFlushTimer => execTileFlushTimer_completes
  | .tileFlushComplete => execTileFlushComplete_completes
  | .fieldDrainTimeout => execFieldDrainTimeout_completes
  | .fleetTileMerge => execFleetTileMerge_completes
  | .coverTileOffer => execCoverTileOffer_completes
  | .openField .. => execOpenField_completes
  | .closeField .. => execCloseField_completes
  | .listFields .. => execListFields_completes
  | .deleteField .. => execDeleteField_completes
  | .readCells .. => execReadCells_completes
  | .writeCells .. => execWriteCells_completes
  | .exportField .. => execExportField_completes
  | .flush .. => execFlush_completes
  | .canFrameReceived .. => execCanFrameReceived_completes
  | .rxwWord0Read .. => execRxwWord0Read_completes
  | .rxwLastwRead .. => execRxwLastwRead_completes
  | .rxwSelWrite .. => execRxwSelWrite_completes
  | .rxwRel .. => execRxwRel_completes
  | .rxwConsume .. => execRxwConsume_completes
  | .txwWrite .. => execTxwWrite_completes
  | .canTxReq .. => execCanTxReq_completes
  | .canTxCancel .. => execCanTxCancel_completes
  | .canTxStartOfFrame .. => execCanTxStartOfFrame_completes
  | .canTxComplete .. => execCanTxComplete_completes
  | .canTxevPop .. => execCanTxevPop_completes
  | .canBusError .. => execCanBusError_completes
  | .canBusOffRecovered .. => execCanBusOffRecovered_completes
  | .recover .. => execRecover_completes
  | .canInitWrite .. => execCanInitWrite_completes
  | .canIntegrationDone .. => execCanIntegrationDone_completes
  | .canRst .. => execCanRst_completes
  | .netOpen .. => execNetOpen_completes
  | .netClose .. => execNetClose_completes
  | .cfAdd .. => execCfAdd_completes
  | .addressClaimDone .. => execAddressClaimDone_completes
  | .pgnSub .. => execPgnSub_completes
  | .pgnSend .. => execPgnSend_completes
  | .vtPool .. => execVtPool_completes
  | .tcMap .. => execTcMap_completes
  | .netList .. => execNetList_completes
  | .cfLeaveTimeout .. => execCfLeaveTimeout_completes
  | .tcSetpointRefresh .. => execTcSetpointRefresh_completes
  | .ethFrameReceived .. => execEthFrameReceived_completes
  | .ethLinkLoss .. => execEthLinkLoss_completes
  | .ptpSyncTimer => execPtpSyncTimer_completes
  | .ptpPdelayTimer .. => execPtpPdelayTimer_completes
  | .blkTmoExpiry .. => execBlkTmoExpiry_completes
  | .lidarBlockWrite k => execLidarBlockWrite_completes (k := k)
  | .hqTxWr .. => execHqTxWr_completes
  | .hqTxSent .. => execHqTxSent_completes
  | .jfxHello .. => execJfxHello_completes
  | .jfxChallenge .. => execJfxChallenge_completes
  | .jfxResponse .. => execJfxResponse_completes
  | .jfxBye .. => execJfxBye_completes
  | .jfxState .. => execJfxState_completes
  | .jfxTile .. => execJfxTile_completes
  | .jfxUnloadReq .. => execJfxUnloadReq_completes
  | .jfxUnloadOffer .. => execJfxUnloadOffer_completes
  | .jfxUnloadAccept .. => execJfxUnloadAccept_completes
  | .jfxUnloadState .. => execJfxUnloadState_completes
  | .jfxUnloadEnd .. => execJfxUnloadEnd_completes
  | .jfxRtcm .. => execJfxRtcm_completes
  | .jfxSnap .. => execJfxSnap_completes
  | .jfxWatchPos .. => execJfxWatchPos_completes
  | .jfxUser .. => execJfxUser_completes
  | .jfxAck .. => execJfxAck_completes
  | .jfxHelloTimer => execJfxHelloTimer_completes
  | .jfxStateTimer => execJfxStateTimer_completes
  | .jfxAdmissionTimeout .. => execJfxAdmissionTimeout_completes
  | .jfxBlockExpiry .. => execJfxBlockExpiry_completes
  | .jfxPeerAgeOut .. => execJfxPeerAgeOut_completes
  | .jfxUnloadLost .. => execJfxUnloadLost_completes
  | .jfxTileReassemblyTimeout .. => execJfxTileReassemblyTimeout_completes
  | .jfxSnapWindowTimeout => execJfxSnapWindowTimeout_completes
  | .jfxStart .. => execJfxStart_completes
  | .jfxStop .. => execJfxStop_completes
  | .peerList .. => execPeerList_completes
  | .peerBlock .. => execPeerBlock_completes
  | .sendUser .. => execSendUser_completes
  | .unloadReq .. => execUnloadReq_completes
  | .unloadOffer .. => execUnloadOffer_completes
  | .unloadAccept .. => execUnloadAccept_completes
  | .unloadState .. => execUnloadState_completes
  | .unloadEnd .. => execUnloadEnd_completes
  | .rtcmRelay .. => execRtcmRelay_completes
  | .serverSet .. => execServerSet_completes
  | .creditWindow => execCreditWindow_completes
  | .reqPrioWrite .. => execReqPrioWrite_completes
  | .fabricRevoke .. => execFabricRevoke_completes
  | .dcStart .. => execDcStart_completes
  | .dcStop .. => execDcStop_completes
  | .dcClear .. => execDcClear_completes
  | .dcDoorbell .. => execDcDoorbell_completes
  | .dcDescriptorFetched .. => execDcDescriptorFetched_completes
  | .dcDataComplete .. => execDcDataComplete_completes
  | .dcWritebackDone .. => execDcWritebackDone_completes
  | .dcBeatFail .. => execDcBeatFail_completes
  | .dcBeatTimeout .. => execDcBeatTimeout_completes
  | .dcRatePauseEnd .. => execDcRatePauseEnd_completes
  | .dcHiPreempt .. => execDcHiPreempt_completes
  | .dcEnableWrite .. => execDcEnableWrite_completes
  | .errorReport .. => execErrorReport_completes
  | .errDone .. => execErrDone_completes
  | .errRaise .. => execErrRaise_completes
  | .errArmWrite .. => execErrArmWrite_completes
  | .handleTmo .. => execHandleTmo_completes
  | .dumpComplete => execDumpComplete_completes
  | .dumpTimeout .. => execDumpTimeout_completes
  | .cbFlushTick => execCbFlushTick_completes
  | .dumpList .. => execDumpList_completes
  | .dumpRead .. => execDumpRead_completes
  | .dumpErase .. => execDumpErase_completes
  | .cbFetch .. => execCbFetch_completes
  | .tagWrite .. => execTagWrite_completes
  | .tagDelete .. => execTagDelete_completes
  | .tagCommit => execTagCommit_completes
  | .updBegin .. => execUpdBegin_completes
  | .updBlock .. => execUpdBlock_completes
  | .updEnd .. => execUpdEnd_completes
  | .updVerifyDone .. => execUpdVerifyDone_completes
  | .activate .. => execActivate_completes
  | .inPlaceSwitch => execInPlaceSwitch_completes
  | .bootCopyDone => execBootCopyDone_completes
  | .confirm .. => execConfirm_completes
  | .rollback .. => execRollback_completes
  | .abort .. => execAbort_completes
  | .keySet .. => execKeySet_completes
  | .keyLock .. => execKeyLock_completes
  | .svcOpen .. => execOpen_completes
  | .auth .. => execAuth_completes
  | .status .. => execStatus_completes
  | .factoryRead .. => execFactoryRead_completes
  | .regRead .. => execRegRead_completes
  | .regWrite .. => execRegWrite_completes
  | .cbRead .. => execCbRead_completes
  | .serviceSessionTimeout => execServiceSessionTimeout_completes
  | .writeEnWrite .. => execWriteEnWrite_completes
  | .servicePortAttach .. => execServicePortAttach_completes
  | .studReverse .. => execStudReverse_completes
  | .studLow .. => execStudLow_completes
  | .studOver .. => execStudOver_completes
  | .sensorSupplyFoldback .. => execSensorSupplyFoldback_completes
  | .sensorSupplyRetry .. => execSensorSupplyRetry_completes
  | .thermalMeasurement .. => execThermalMeasurement_completes
  | .registerWrite .. => execRegisterWrite_completes
  | .logicFeedLow .. => execLogicFeedLow_completes
  | .snapCaptureDone .. => execSnapCaptureDone_completes
  | .valveChopPeriod .. => execValveChopPeriod_completes
  | .loadPwmPeriod .. => execLoadPwmPeriod_completes
  | .gnssPromptEpoch .. => execGnssPromptEpoch_completes
  | .ethLinkUp .. => execEthLinkUp_completes
  | .macEntryAgeOut .. => execMacEntryAgeOut_completes
  | .servicePortDetach => execServicePortDetach_completes
  | .timePulseTrailingEdge .. => execTimePulseTrailingEdge_completes

end Sys2Proof.Machine

/-! PROOFS.  A step takes the front of the queue; on an empty queue a tick passes (log entry 3). -/

namespace Sys2Proof.Machine

section Step

variable {s : State}

theorem step_of_empty (empty : s.pending = []) : step s = .next s.idleTick := by
  simp only [step, empty]

theorem step_of_front {c : Instr} {rest : List Instr} (queue : s.pending = c :: rest) :
    step s = exec c { s with pending := rest } := by
  simp only [step, queue]

end Step

/-- Settles O1: the queue without its front is the queue as it was. -/
theorem stepTakesTheFrontCommand : Obligations.StepTakesTheFrontCommand := by
  unfold Obligations.StepTakesTheFrontCommand
  intro c s
  exact step_of_front rfl

/-- Settles O55: the command at the front completes on the state with the rest of the queue, and leaves that rest.  The tick of an empty
queue is log entry 3; that no command is refused, whatever the state, is log entry 4. -/
theorem everyCommandCompletesInOrder : Obligations.EveryCommandCompletesInOrder := by
  unfold Obligations.EveryCommandCompletesInOrder
  intro s
  cases queue : s.pending with
  | nil => exact ⟨s.idleTick, step_of_empty queue, s.idleTick_pending.trans queue⟩
  | cons c rest =>
    obtain ⟨t, done, kept⟩ := exec_completes { s with pending := rest } c
    exact ⟨t, (step_of_front queue).trans done, kept⟩

end Sys2Proof.Machine
